-- ==== Sys2Proof/Word.lean ====
section
/-!
DEFINITION. Word: the word types of the A256 and the small fixed name sets that commands and State share.
Bit vectors stand for what the manual treats as bits (register words, memory bytes, instruction words);
numbers that are only counted or compared are Nat or Fin.
-/
namespace Sys2Proof

/-- One byte of memory (R6). -/
abbrev Byte := BitVec 8
/-- A 32-bit instruction word of a Silt engine or a Knaxa core. -/
abbrev IWord := BitVec 32
/-- A 64-bit register word. -/
abbrev Word := BitVec 64
/-- A wide register of a Silt engine, or a Knaxa vector register: 256 bits. -/
abbrev Wide := BitVec 256

/-- H0 or H1. -/
abbrev Half := Fin 2
/-- An engine ID, {cluster[9:6], engine[5:0]} (R6 example). -/
abbrev EngineId := Fin 1024
/-- A physical core number (R14, R16). -/
abbrev CoreId := Fin 272
/-- A tenant-interface number (R24). -/
abbrev TiId := Fin 4096
/-- A cluster number, device-wide (R14). -/
abbrev ClusterId := Fin 16
/-- A DDR5 channel number, device-wide (R14). -/
abbrev ChannelId := Fin 16

/-- The actors of the Writers column (R10); `io` is an I/O requester, named by EVH_RAISE alone. -/
inductive Actor where
  | t | v | h | m | io
deriving DecidableEq, Repr

/-- The actor's bit in a Writers mask. -/
def Actor.bit : Actor → Nat
  | .t => 1 | .v => 2 | .h => 4 | .m => 8 | .io => 16

/-- The actor's number in PRT_CLAIM.owner_actor (R37). -/
def Actor.code : Actor → Nat
  | .t => 0 | .v => 1 | .h => 2 | .m => 3 | .io => 0

/-- The two worlds. -/
inductive World where
  | topsoil | hardpan
deriving DecidableEq, Repr

/-- The kinds of requester in the numbering of POT_FAULT.kind (R135). -/
inductive ReqKind where
  | topsoilCore | hardpanWorld | tilth | topsoilTask | hardpanTask | dispatch | io | kaolin
deriving DecidableEq, Repr

def ReqKind.code : ReqKind → Nat
  | .topsoilCore => 0 | .hardpanWorld => 1 | .tilth => 2 | .topsoilTask => 3
  | .hardpanTask => 4 | .dispatch => 5 | .io => 6 | .kaolin => 7

/-- Who makes an access: its kind and actor, the world of the TI or task it serves, its tenant,
its half and its mesh stop (R10, R25, R132). -/
structure Requester where
  kind : ReqKind
  actor : Actor
  world : World
  tenant : BitVec 12
  half : Half
  stop : BitVec 9
deriving DecidableEq, Repr

/-- A principal of the object dictionary (R419) and the half whose Tilth its request reaches; `session` tells a management
port session from the other transports. Roles: 0 Observer, 1 Operator, 2 Custodian. -/
structure Principal where
  world : World
  role : Fin 3
  half : Half
  session : Bool
deriving DecidableEq, Repr

/-- Where an object-dictionary request comes from: a principal with the request's type code, index, subindex and value
(R423), or the oldest descriptor of the Tilth TI in a half (R427). -/
inductive OdSource where
  | direct (p : Principal) (type : Byte) (index : BitVec 16) (sub : Byte) (value : List Byte)
  | inBand (h : Half)
deriving DecidableEq, Repr

/-- The unit that holds a failing checker or fails its array test in PROVE (R385, R462), beside the tile, which its stop names:
an engine, a cluster's SRAM or image store, a channel, or anything else of the half. -/
inductive ProveUnit where
  | tile | engine (e : EngineId) | cluster (c : ClusterId) | channel (c : ChannelId) | other
deriving DecidableEq, Repr

/-- A failure found in PROVE: its stop, its unit, and whether a checker failed or an array test. -/
structure ProveFail where
  stop : BitVec 9
  unit : ProveUnit
  checker : Bool
deriving DecidableEq, Repr

/-- A DIMM as its SPD describes it (R345): the fastest speed in MT/s, the device width, the devices per subchannel and rank, the device
density in Gb, whether the devices are stacked, the package ranks, the bank groups and banks of each per subchannel, and whether it
is a registered DDR5 DIMM; and its serial number (R359). -/
structure Dimm where
  serial : Nat
  speed : Nat
  width : Nat
  devices : Nat
  density : Nat
  stacked : Bool
  ranks : Nat
  groups : Nat
  banks : Nat
  rdimm : Bool
deriving DecidableEq, Repr

/-- The line that an engine waits for arrives, with the symbol errors that come upon it: granule, position and value (R54, R372). -/
structure LineFill where
  engine : EngineId
  flips : List (Fin 2 × Fin 35 × Byte)
deriving DecidableEq, Repr

/-- A snoop reaches the owner of a line; `waited` tells that the bounded time for which the core may hold its answer has passed
(R286). -/
structure SnoopTurn where
  line : BitVec 46
  waited : Bool
deriving DecidableEq, Repr

/-- What Tilth reads on a board line (R450, R451): a remote-sense pair, the die-local monitor, both in mV, and whether the pair
reads full scale; a fan's PWM readback that differs, missing tach pulses, an output in current limit, and its speed in rpm; an
analog input in mV; a tamper loop that is open, shorted or conducts in reverse, and its resistance in ohms. -/
inductive LineReading where
  | sense (pair : Int) (monitor : Nat) (fullScale : Bool)
  | fan (differs noTach limit : Bool) (rpm : Nat)
  | analog (mv : Nat)
  | tamper (isOpen isShort isReversed : Bool) (ohms : Nat)
deriving DecidableEq, Repr

/-- A register that the debug access port reads or writes (R71, R146): of a Knaxa core, or an s or w register of an engine. -/
inductive DapReg where
  | g (c : CoreId) (n : Fin 32)
  | v (c : CoreId) (n : Fin 32)
  | p (c : CoreId) (n : Fin 8)
  | pc (c : CoreId)
  | s (e : EngineId) (n : Fin 15)
  | w (e : EngineId) (n : Fin 8)
deriving DecidableEq, Repr

/-- What the debug access port does (R146). -/
inductive DapOp where
  | read (a : Word) (n : Fin 65)
  | write (a : Word) (bytes : List Byte)
  | readReg (r : DapReg)
  | writeReg (r : DapReg) (val : Wide)
  | halt (c : CoreId)
  | resume (c : CoreId)
  | step (c : CoreId)
  | breakpoints (c : CoreId) (pcs : List Word)
  | watchpoints (c : CoreId) (vas : List Word)
deriving DecidableEq, Repr

/-- How a device behind a PCIe port completes a read (R434): with data, Unsupported Request or Completer Abort. -/
inductive Completion where
  | data (v : Word) | unsupported | abort
deriving DecidableEq, Repr

/-- The mode codes of R5. -/
inductive Mode where
  | off | watch | root | prove | tune | field | fallow | clay | mend | husk | hold | seal
deriving DecidableEq, Repr

/-- The value OD 0x0200.01 reports for a mode (R5). -/
def Mode.code : Mode → Nat
  | .off => 0 | .watch => 1 | .root => 2 | .prove => 3 | .tune => 4 | .field => 5
  | .fallow => 6 | .clay => 7 | .mend => 8 | .husk => 9 | .hold => 10 | .seal => 11

/-- Service descriptors are accepted and executed in the mode (R5). -/
def Mode.serves : Mode → Bool
  | .field => true | .fallow => true | .clay => true | .mend => true | .husk => true
  | _ => false

/-- Truncate to `w` bits. -/
def trunc (w n : Nat) : Nat := n % 2 ^ w

/-- Bits `hi` to `lo` of `n`. -/
def bitsOf (n hi lo : Nat) : Nat := (n / 2 ^ lo) % 2 ^ (hi + 1 - lo)

/-- Bit `i` of `n`. -/
def bitOf (n i : Nat) : Bool := n.testBit i

/-- The bytes of `n`, least significant first (R6). -/
def leBytes : Nat → Nat → List Byte
  | 0, _ => []
  | k + 1, n => BitVec.ofNat 8 n :: leBytes k (n / 256)

/-- The number little-endian bytes spell (R6). -/
def ofLe : List Byte → Nat
  | [] => 0
  | b :: bs => b.toNat + 256 * ofLe bs

/-- The number big-endian bytes spell. -/
def ofBe (bs : List Byte) : Nat := bs.foldl (fun a b => a * 256 + b.toNat) 0

/-- The bytes of `n`, most significant first. -/
def beBytes (k n : Nat) : List Byte := (leBytes k n).reverse

def b2n (b : Bool) : Nat := if b then 1 else 0

/-! The status codes of R38. -/
namespace Status
def ok : Nat := 0x00
def verifyFail : Nat := 0x01
def poisoned : Nat := 0x02
def engineLost : Nat := 0x03
def badService : Nat := 0x04
def badDesc : Nat := 0x05
def keyDenied : Nat := 0x06
def keyVersion : Nat := 0x07
def length : Nat := 0x08
def format : Nat := 0x09
def engineFault : Nat := 0x0A
def squashed : Nat := 0x0B
def unsupported : Nat := 0x0C
def badAddress : Nat := 0x0D
def staleGen : Nat := 0x40
def quota : Nat := 0x41
def ownership : Nat := 0x42
def stalled : Nat := 0x43
def queueFull : Nat := 0x44
def tiReset : Nat := 0x45
def hpAbsent : Nat := 0x80
def conflict : Nat := 0x81
def pendingHeld : Nat := 0x82
def timeout : Nat := 0x83
def noBlock : Nat := 0x84
def denied : Nat := 0x85
def notPrimary : Nat := 0x86
def sealed : Nat := 0x87
def refused : Nat := 0x88
def delayed : Nat := 0x89
def railFault : Nat := 0x8A
def railWindow : Nat := 0x8B
def crc : Nat := 0x8C
def noSpare : Nat := 0x8D
def busy : Nat := 0x8E
def storeFull : Nat := 0x8F

/-- The code is one that R38 lists; the others are never reported. -/
def listed (n : Nat) : Bool := n ≤ 0x0D || (0x40 ≤ n && n ≤ 0x45) || (0x80 ≤ n && n ≤ 0x8F)

/-- The `n`-th listed code, of 36, which a free value picks where no rule names the status. -/
def pick (n : Nat) : Nat :=
  let k := n % 36
  if k < 14 then k else if k < 20 then 0x40 + (k - 14) else 0x80 + (k - 20)
end Status

/-! The block classes of R24. -/
namespace Cls
def knx : Nat := 0x01
def slt : Nat := 0x02
def dsp : Nat := 0x03
def clt : Nat := 0x04
def svc : Nat := 0x05
def hpn : Nat := 0x06
def pot : Nat := 0x07
def str : Nat := 0x08
def vrv : Nat := 0x09
def tif : Nat := 0x0A
def evh : Nat := 0x0B
def kao : Nat := 0x0C
def dmc : Nat := 0x0D
def ras : Nat := 0x0E
def pwr : Nat := 0x0F
def wth : Nat := 0x10
def tlt : Nat := 0x11
def prt : Nat := 0x12
end Cls

end Sys2Proof
end

