-- ==== Sys2Proof/Syntax.lean ====
section
/-!
DEFINITION. Syntax: the commands the A256 takes, one constructor per row of spec/opcode_table.json. Each docstring
gives the row's mnemonic and the rule of spec/ that governs it.
-/
namespace Sys2Proof



/-- The commands, one constructor per row of the opcode table. -/
inductive Instr where
  /-- REGISTER_WRITE (R10). -/
  | registerWrite (q : Requester) (a : BitVec 52) (size : Fin 33) (v : Word)
  /-- ENABLE_WRITE (R31). -/
  | enableWrite (q : Requester) (cls : Fin 19) (inst : Fin 4096) (en : Bool)
  /-- START_DONE (R31). -/
  | startDone (cls : Fin 19) (inst : Fin 4096)
  /-- STOP_DONE (R31). -/
  | stopDone (cls : Fin 19) (inst : Fin 4096)
  /-- BLOCK_FAULT (R32). -/
  | blockFault (cls : Fin 19) (inst : Fin 4096) (status : Byte)
  /-- BLOCK_TIMEOUT (R32). -/
  | blockTimeout (cls : Fin 19) (inst : Fin 4096)
  /-- PRT_BLOCK_EVT_READ (R32). -/
  | prtBlockEvtRead (q : Requester) (h : Half)
  /-- RESOURCE_CLAIM (R34). -/
  | resourceClaim (n : Fin 130) (claims : List (Requester × Fin 64))
  /-- RESOURCE_RELEASE (R33). -/
  | resourceRelease (n : Fin 130) (q : Requester)
  /-- PRT_CLAIM_READ (R37). -/
  | prtClaimRead (q : Requester) (h : Half) (n : Fin 130)
  /-- REROUTE_SWITCH (R19). -/
  | rerouteSwitch (h : Half) (src dst : BitVec 8) (cls : Fin 5) (last : Bool)
  /-- SILT_ADD (R47). -/
  | siltAdd (e : EngineId) (w : IWord)
  /-- SILT_SUB (R47). -/
  | siltSub (e : EngineId) (w : IWord)
  /-- SILT_AND (R47). -/
  | siltAnd (e : EngineId) (w : IWord)
  /-- SILT_OR (R47). -/
  | siltOr (e : EngineId) (w : IWord)
  /-- SILT_XOR (R47). -/
  | siltXor (e : EngineId) (w : IWord)
  /-- SILT_ANDN (R47). -/
  | siltAndn (e : EngineId) (w : IWord)
  /-- SILT_SLL (R47). -/
  | siltSll (e : EngineId) (w : IWord)
  /-- SILT_SRL (R47). -/
  | siltSrl (e : EngineId) (w : IWord)
  /-- SILT_SRA (R47). -/
  | siltSra (e : EngineId) (w : IWord)
  /-- SILT_ROR (R47). -/
  | siltRor (e : EngineId) (w : IWord)
  /-- SILT_SLT (R47). -/
  | siltSlt (e : EngineId) (w : IWord)
  /-- SILT_SLTU (R47). -/
  | siltSltu (e : EngineId) (w : IWord)
  /-- SILT_MUL (R47). -/
  | siltMul (e : EngineId) (w : IWord)
  /-- SILT_MULHU (R47). -/
  | siltMulhu (e : EngineId) (w : IWord)
  /-- SILT_CLZ (R47). -/
  | siltClz (e : EngineId) (w : IWord)
  /-- SILT_POPC (R47). -/
  | siltPopc (e : EngineId) (w : IWord)
  /-- SILT_BSWAP (R47). -/
  | siltBswap (e : EngineId) (w : IWord)
  /-- SILT_ADDI (R47). -/
  | siltAddi (e : EngineId) (w : IWord)
  /-- SILT_ANDI (R47). -/
  | siltAndi (e : EngineId) (w : IWord)
  /-- SILT_ORI (R47). -/
  | siltOri (e : EngineId) (w : IWord)
  /-- SILT_XORI (R47). -/
  | siltXori (e : EngineId) (w : IWord)
  /-- SILT_SHI (R47). -/
  | siltShi (e : EngineId) (w : IWord)
  /-- SILT_MOVZ (R47). -/
  | siltMovz (e : EngineId) (w : IWord)
  /-- SILT_MOVK (R47). -/
  | siltMovk (e : EngineId) (w : IWord)
  /-- SILT_LD (R43). -/
  | siltLd (e : EngineId) (w : IWord)
  /-- SILT_LW (R43). -/
  | siltLw (e : EngineId) (w : IWord)
  /-- SILT_LH (R43). -/
  | siltLh (e : EngineId) (w : IWord)
  /-- SILT_LB (R43). -/
  | siltLb (e : EngineId) (w : IWord)
  /-- SILT_SD (R54). -/
  | siltSd (e : EngineId) (w : IWord)
  /-- SILT_SW (R54). -/
  | siltSw (e : EngineId) (w : IWord)
  /-- SILT_SH (R54). -/
  | siltSh (e : EngineId) (w : IWord)
  /-- SILT_SB (R54). -/
  | siltSb (e : EngineId) (w : IWord)
  /-- WLD (R47). -/
  | siltWld (e : EngineId) (w : IWord)
  /-- WST (R47). -/
  | siltWst (e : EngineId) (w : IWord)
  /-- CPRE (R57). -/
  | siltCpre (e : EngineId) (w : IWord)
  /-- CLOCK (R56). -/
  | siltClock (e : EngineId) (w : IWord)
  /-- CUNLOCK (R56). -/
  | siltCunlock (e : EngineId) (w : IWord)
  /-- CINV (R56). -/
  | siltCinv (e : EngineId) (w : IWord)
  /-- CINVL (R56). -/
  | siltCinvl (e : EngineId) (w : IWord)
  /-- SILT_AMOADD (R62). -/
  | siltAmoadd (e : EngineId) (w : IWord)
  /-- SILT_AMOSWAP (R62). -/
  | siltAmoswap (e : EngineId) (w : IWord)
  /-- AMOCAS (R47). -/
  | siltAmocas (e : EngineId) (w : IWord)
  /-- SILT_BCC (R50). -/
  | siltBcc (e : EngineId) (w : IWord)
  /-- SILT_BZCC (R50). -/
  | siltBzcc (e : EngineId) (w : IWord)
  /-- SILT_J (R50). -/
  | siltJ (e : EngineId) (w : IWord)
  /-- SILT_JR (R50). -/
  | siltJr (e : EngineId) (w : IWord)
  /-- DONE (R65). -/
  | siltDone (e : EngineId) (w : IWord)
  /-- NOP (R47). -/
  | siltNop (e : EngineId) (w : IWord)
  /-- SILT_FENCE (R47). -/
  | siltFence (e : EngineId) (w : IWord)
  /-- RDTL (R47). -/
  | siltRdtl (e : EngineId) (w : IWord)
  /-- RDTH (R47). -/
  | siltRdth (e : EngineId) (w : IWord)
  /-- SILT_BRK (R47). -/
  | siltBrk (e : EngineId) (w : IWord)
  /-- GETCF (R47). -/
  | siltGetcf (e : EngineId) (w : IWord)
  /-- SETCF (R47). -/
  | siltSetcf (e : EngineId) (w : IWord)
  /-- WADD (R47). -/
  | siltWadd (e : EngineId) (w : IWord)
  /-- WADDC (R47). -/
  | siltWaddc (e : EngineId) (w : IWord)
  /-- WSUB (R47). -/
  | siltWsub (e : EngineId) (w : IWord)
  /-- WSUBB (R47). -/
  | siltWsubb (e : EngineId) (w : IWord)
  /-- WAND (R47). -/
  | siltWand (e : EngineId) (w : IWord)
  /-- WOR (R47). -/
  | siltWor (e : EngineId) (w : IWord)
  /-- WXOR (R47). -/
  | siltWxor (e : EngineId) (w : IWord)
  /-- WMOV (R47). -/
  | siltWmov (e : EngineId) (w : IWord)
  /-- WSHL1 (R47). -/
  | siltWshl1 (e : EngineId) (w : IWord)
  /-- WSHR1 (R47). -/
  | siltWshr1 (e : EngineId) (w : IWord)
  /-- WZERO (R47). -/
  | siltWzero (e : EngineId) (w : IWord)
  /-- MULLO (R47). -/
  | siltMullo (e : EngineId) (w : IWord)
  /-- MULHI (R47). -/
  | siltMulhi (e : EngineId) (w : IWord)
  /-- MMUL (R47). -/
  | siltMmul (e : EngineId) (w : IWord)
  /-- MADD (R47). -/
  | siltMadd (e : EngineId) (w : IWord)
  /-- MSUB (R47). -/
  | siltMsub (e : EngineId) (w : IWord)
  /-- MSETM (R49). -/
  | siltMsetm (e : EngineId) (w : IWord)
  /-- AESE (R489). -/
  | siltAese (e : EngineId) (w : IWord)
  /-- AESD (R489). -/
  | siltAesd (e : EngineId) (w : IWord)
  /-- TDESE (R47). -/
  | siltTdese (e : EngineId) (w : IWord)
  /-- TDESD (R47). -/
  | siltTdesd (e : EngineId) (w : IWord)
  /-- GMUL (R489). -/
  | siltGmul (e : EngineId) (w : IWord)
  /-- SHA256C (R489). -/
  | siltSha256c (e : EngineId) (w : IWord)
  /-- SHA512C (R489). -/
  | siltSha512c (e : EngineId) (w : IWord)
  /-- SHA256K (R47). -/
  | siltSha256k (e : EngineId) (w : IWord)
  /-- SHA512K (R47). -/
  | siltSha512k (e : EngineId) (w : IWord)
  /-- KECCAK (R489). -/
  | siltKeccak (e : EngineId) (w : IWord)
  /-- WINS (R47). -/
  | siltWins (e : EngineId) (w : IWord)
  /-- WEXT (R47). -/
  | siltWext (e : EngineId) (w : IWord)
  /-- WCEQ (R48). -/
  | siltWceq (e : EngineId) (w : IWord)
  /-- WCSEL (R48). -/
  | siltWcsel (e : EngineId) (w : IWord)
  /-- WBIT (R47). -/
  | siltWbit (e : EngineId) (w : IWord)
  /-- KLD (R40). -/
  | siltKld (e : EngineId) (w : IWord)
  /-- KEY_LOAD_REPLY (R40). -/
  | keyLoadReply (e : EngineId)
  /-- KZERO (R47). -/
  | siltKzero (e : EngineId) (w : IWord)
  /-- KZALL (R41). -/
  | siltKzall (e : EngineId) (w : IWord)
  /-- STORE_ACKNOWLEDGE (R64). -/
  | storeAcknowledge (e : EngineId) (i : Fin 8)
  /-- ENGINE_LINE_FILL (R54). -/
  | engineLineFill (f : LineFill)
  /-- WATCHDOG (R64). -/
  | watchdog (e : EngineId)
  /-- HW_LOST (R66). -/
  | hwLost (e : EngineId) (source : BitVec 8)
  /-- SLT_DEBUG_HALT (R71). -/
  | sltDebugHalt (q : Requester) (e : EngineId)
  /-- SLT_DEBUG_STEP (R71). -/
  | sltDebugStep (q : Requester) (e : EngineId)
  /-- SLT_DEBUG_RESUME (R71). -/
  | sltDebugResume (q : Requester) (e : EngineId)
  /-- SLT_CACHE_INVALIDATE (R72). -/
  | sltCacheInvalidate (q : Requester) (e : EngineId)
  /-- SLT_CACHE_UNLOCK_ALL (R72). -/
  | sltCacheUnlockAll (q : Requester) (e : EngineId)
  /-- SLT_FAULT_READ (R53). -/
  | sltFaultRead (q : Requester) (e : EngineId)
  /-- SLT_COUNT_READ (R72). -/
  | sltCountRead (q : Requester) (e : EngineId)
  /-- SRAM_WINDOW_ASSIGN (R61). -/
  | sramWindowAssign (q : Requester) (c : ClusterId) (w : Fin 32) (v : Word)
  /-- SRAM_ZEROING_DONE (R61). -/
  | sramZeroingDone (c : ClusterId) (w : Fin 32)
  /-- HPN_POOL_WRITE (R67). -/
  | hpnPoolWrite (q : Requester) (h : Half) (p : Fin 32) (v : Word)
  /-- SLT_POOL_WRITE (R69). -/
  | sltPoolWrite (q : Requester) (e : EngineId) (v : Word)
  /-- POOL_LEAVE_CAPTURE (R69). -/
  | poolLeaveCapture (e : EngineId)
  /-- POOL_IMAGE_COPY_DONE (R69). -/
  | poolImageCopyDone (e : EngineId)
  /-- DOORBELL (R74). -/
  | doorbell (q : Requester) (ti : TiId) (n : Fin 16) (v : Word)
  /-- DESCRIPTOR_FETCH (R75). -/
  | descriptorFetch (h : Half)
  /-- DESCRIPTOR_VALIDATE (R78). -/
  | descriptorValidate (h : Half)
  /-- HELD_DESCRIPTOR_ROUTE (R80). -/
  | heldDescriptorRoute (h : Half) (p : Fin 32)
  /-- CROSS_ROUTE_ARRIVAL (R80). -/
  | crossRouteArrival (h : Half)
  /-- INJECTION_TO_DEQUE (R81). -/
  | injectionToDeque (c : ClusterId) (p : Fin 32)
  /-- TIMED_ENTRY_DUE (R82). -/
  | timedEntryDue (e : EngineId)
  /-- TASK_POP (R82). -/
  | taskPop (e : EngineId)
  /-- STEAL_ATTEMPT (R83). -/
  | stealAttempt (e : EngineId)
  /-- STEAL_REQUEST (R83). -/
  | stealRequest (e : EngineId)
  /-- STEAL_REPLY (R83). -/
  | stealReply (e : EngineId)
  /-- STEAL_BACKOFF_END (R83). -/
  | stealBackoffEnd (e : EngineId)
  /-- LAUNCH (R87). -/
  | launch (e : EngineId)
  /-- DSP_POOL_LINK_WRITE (R86). -/
  | dspPoolLinkWrite (q : Requester) (h : Half) (p : Fin 32) (v : Word)
  /-- DSP_COUNT_READ (R99). -/
  | dspCountRead (q : Requester) (h : Half)
  /-- DSP_STEAL_COUNT_READ (R83). -/
  | dspStealCountRead (q : Requester) (h : Half)
  /-- RECORD_RELEASE (R88). -/
  | recordRelease (e : EngineId)
  /-- RECORD_ACCEPT (R91). -/
  | recordAccept (h : Half)
  /-- TAIL_PUBLISH (R93). -/
  | tailPublish (ti : TiId) (tail : BitVec 32)
  /-- RING_STALL (R95). -/
  | ringStall (ti : TiId)
  /-- CLT_LANE_READ (R90). -/
  | cltLaneRead (q : Requester) (h : Half) (k : Fin 8)
  /-- CLT_COUNT_READ (R91). -/
  | cltCountRead (q : Requester) (h : Half)
  /-- ECDSA_P256_VERIFY (R114). -/
  | ecdsaP256Verify (e : EngineId)
  /-- ECDSA_P256_SIGN (R114). -/
  | ecdsaP256Sign (e : EngineId)
  /-- ECDSA_P384_VERIFY (R114). -/
  | ecdsaP384Verify (e : EngineId)
  /-- ECDSA_P384_SIGN (R114). -/
  | ecdsaP384Sign (e : EngineId)
  /-- ED25519_VERIFY (R114). -/
  | ed25519Verify (e : EngineId)
  /-- ED25519_SIGN (R114). -/
  | ed25519Sign (e : EngineId)
  /-- RSA_VERIFY (R114). -/
  | rsaVerify (e : EngineId)
  /-- RSA_SIGN (R114). -/
  | rsaSign (e : EngineId)
  /-- HMAC_SHA256 (R115). -/
  | hmacSha256 (e : EngineId)
  /-- HMAC_SHA384 (R115). -/
  | hmacSha384 (e : EngineId)
  /-- AES_CMAC (R115). -/
  | aesCmac (e : EngineId)
  /-- AES_GCM (R116). -/
  | aesGcm (e : EngineId)
  /-- AES_CBC (R116). -/
  | aesCbc (e : EngineId)
  /-- TDES_CBC (R116). -/
  | tdesCbc (e : EngineId)
  /-- HASH (R117). -/
  | hash (e : EngineId)
  /-- PIN_TRANSLATE (R118). -/
  | pinTranslate (e : EngineId)
  /-- KEYBLOCK_IMPORT (R120). -/
  | keyblockImport (e : EngineId)
  /-- KEYBLOCK_EXPORT (R121). -/
  | keyblockExport (e : EngineId)
  /-- EMV_ARQC (R122). -/
  | emvArqc (e : EngineId)
  /-- ISO8583_REMAP (R123). -/
  | iso8583Remap (e : EngineId)
  /-- OD_CMD (R427). -/
  | odCmd (h : Half)
  /-- SVC_LOAD_GO (R127). -/
  | svcLoadGo (q : Requester) (c : ClusterId) (v : Word)
  /-- SVC_LOAD_STAGED (R127). -/
  | svcLoadStaged (c : ClusterId)
  /-- IRAM_RELOAD (R127). -/
  | iramReload (e : EngineId)
  /-- SVC_POOL_IMG_WRITE (R126). -/
  | svcPoolImgWrite (q : Requester) (c : ClusterId) (p : Fin 32) (v : Word)
  /-- POT_ARM (R136). -/
  | potArm (q : Requester) (h : Half) (v : Word)
  /-- POT_WALK (R131). -/
  | potWalk (q : Requester) (a : Word)
  /-- POT_INVAL_GO (R137). -/
  | potInvalGo (q : Requester) (h : Half) (v : Word)
  /-- POT_INVAL_DONE (R137). -/
  | potInvalDone (h : Half)
  /-- POT_FAULT_READ (R135). -/
  | potFaultRead (q : Requester) (h : Half)
  /-- HPCALL (R202). -/
  | hpcall (c : CoreId) (w : IWord)
  /-- FORCED_UNWIND_TIMEOUT (R144). -/
  | forcedUnwindTimeout (c : CoreId)
  /-- FORCED_UNWIND_ABSENT (R144). -/
  | forcedUnwindAbsent (c : CoreId)
  /-- PWR_HOLD_WRITE (R148). -/
  | pwrHoldWrite (q : Requester) (h : Half) (d : Fin 159) (v : Word)
  /-- LATCHED_REQUEST_APPLY (R149). -/
  | latchedRequestApply (h : Half) (d : Fin 159)
  /-- DOMAIN_POWER_LOSS (R150). -/
  | domainPowerLoss (h : Half) (d : Fin 159) (rail : Fin 15)
  /-- HEARTBEAT (R152). -/
  | heartbeat (q : Requester) (h : Half) (v : Word)
  /-- HARDPAN_ABSENT (R152). -/
  | hardpanAbsent
  /-- HARDPAN_AUTO_RESTART (R153). -/
  | hardpanAutoRestart
  /-- HPN_RESTART_GO (R153). -/
  | hpnRestartGo (q : Requester) (h : Half) (v : Word)
  /-- HARDPAN_IMAGE_VERIFIED (R153). -/
  | hardpanImageVerified
  /-- HARDPAN_FIRST_HEARTBEAT (R153). -/
  | hardpanFirstHeartbeat (q : Requester) (h : Half) (v : Word)
  /-- RESTART_TIMEOUT (R491). -/
  | restartTimeout
  /-- CREATE (R156). -/
  | create (q : Requester) (h : Half)
  /-- RESERVE (R156). -/
  | reserve (q : Requester) (h : Half)
  /-- INSTALL (R156). -/
  | install (q : Requester) (h : Half)
  /-- STAGE (R156). -/
  | stage (q : Requester) (h : Half)
  /-- PROMOTE (R156). -/
  | promote (q : Requester) (h : Half)
  /-- PROMOTE_AT (R176). -/
  | promoteAt (q : Requester) (h : Half)
  /-- DESTROY (R156). -/
  | destroy (q : Requester) (h : Half)
  /-- NARROW (R156). -/
  | narrow (q : Requester) (h : Half)
  /-- WRAP (R156). -/
  | wrap (q : Requester) (h : Half)
  /-- UNWRAP (R156). -/
  | unwrap (q : Requester) (h : Half)
  /-- MEK_GEN (R140). -/
  | mekGen (q : Requester) (h : Half)
  /-- MEK_CLEAR (R140). -/
  | mekClear (q : Requester) (h : Half)
  /-- RANDOM_GENERATION_DONE (R493). -/
  | randomGenerationDone
  /-- TAMPER_TRIP (R157). -/
  | tamperTrip (l : Fin 5)
  /-- SEAL_NOW (R157). -/
  | sealNow (q : Requester) (h : Half) (v : Word)
  /-- HPN_DEBUG_WRITE (R146). -/
  | hpnDebugWrite (q : Requester) (h : Half) (v : Word)
  /-- STR_CTL_WRITE (R165). -/
  | strCtlWrite (q : Requester) (h : Half) (v : Word)
  /-- PPS_EDGE (R166). -/
  | ppsEdge
  /-- SOURCE_LOST (R165). -/
  | sourceLost
  /-- STR_RATE_WRITE (R167). -/
  | strRateWrite (q : Requester) (h : Half) (v : Word)
  /-- STR_STEP_GO (R168). -/
  | strStepGo (q : Requester) (h : Half) (v : Word)
  /-- STR_SET_GO (R160). -/
  | strSetGo (q : Requester) (h : Half) (v : Word)
  /-- SCHEDULED_CHANGE (R163). -/
  | scheduledChange
  /-- STRATA_BROADCAST (R164). -/
  | strataBroadcast (h : Half) (drift : Word)
  /-- HOLDOVER_SECOND (R169). -/
  | holdoverSecond
  /-- REF10M_CHANGE (R169). -/
  | ref10mChange (present : Bool)
  /-- STR_STATUS_READ (R164). -/
  | strStatusRead (q : Requester) (h : Half)
  /-- CMP_ARM (R174). -/
  | cmpArm (q : Requester) (n : Fin 64) (v : Word)
  /-- CMP_DISARM (R174). -/
  | cmpDisarm (q : Requester) (n : Fin 64) (v : Word)
  /-- CMP_FIRE (R174). -/
  | cmpFire (n : Fin 64)
  /-- FANOUT_VALIDATE (R175). -/
  | fanoutValidate (n : Fin 64)
  /-- FANOUT_PLACE (R175). -/
  | fanoutPlace (n : Fin 64)
  /-- FANOUT_DEFERRED_PLACE (R175). -/
  | fanoutDeferredPlace (n : Fin 64)
  /-- PROMOTE_BROADCAST (R176). -/
  | promoteBroadcast (n : Fin 64)
  /-- PROMOTE_APPLY (R176). -/
  | promoteApply (u : Fin 17)
  /-- LEDGER_COPY (R177). -/
  | ledgerCopy (h : Half)
  /-- BATCH_TIME_CLOSE (R178). -/
  | batchTimeClose (h : Half)
  /-- WATERMARK (R181). -/
  | watermark
  /-- BATCH_RECEIVE (R181). -/
  | batchReceive
  /-- BATCH_MERGE (R181). -/
  | batchMerge
  /-- CHECKPOINT (R184). -/
  | checkpoint
  /-- CHECKPOINT_SIGN_DONE (R184). -/
  | checkpointSignDone
  /-- VRV_CONS_WRITE (R183). -/
  | vrvConsWrite (q : Requester) (h : Half) (leaf : Bool) (v : Word)
  /-- VRV_STATUS_READ (R184). -/
  | vrvStatusRead (q : Requester) (h : Half)
  /-- ADD (R196). -/
  | kxAdd (c : CoreId) (w : IWord)
  /-- SUB (R196). -/
  | kxSub (c : CoreId) (w : IWord)
  /-- AND (R196). -/
  | kxAnd (c : CoreId) (w : IWord)
  /-- OR (R196). -/
  | kxOr (c : CoreId) (w : IWord)
  /-- XOR (R196). -/
  | kxXor (c : CoreId) (w : IWord)
  /-- ANDN (R196). -/
  | kxAndn (c : CoreId) (w : IWord)
  /-- SLL (R196). -/
  | kxSll (c : CoreId) (w : IWord)
  /-- SRL (R196). -/
  | kxSrl (c : CoreId) (w : IWord)
  /-- SRA (R196). -/
  | kxSra (c : CoreId) (w : IWord)
  /-- ROR (R196). -/
  | kxRor (c : CoreId) (w : IWord)
  /-- SLT (R196). -/
  | kxSlt (c : CoreId) (w : IWord)
  /-- SLTU (R196). -/
  | kxSltu (c : CoreId) (w : IWord)
  /-- MIN (R196). -/
  | kxMin (c : CoreId) (w : IWord)
  /-- MAX (R196). -/
  | kxMax (c : CoreId) (w : IWord)
  /-- MINU (R196). -/
  | kxMinu (c : CoreId) (w : IWord)
  /-- MAXU (R196). -/
  | kxMaxu (c : CoreId) (w : IWord)
  /-- CLZ (R196). -/
  | kxClz (c : CoreId) (w : IWord)
  /-- CTZ (R196). -/
  | kxCtz (c : CoreId) (w : IWord)
  /-- POPC (R196). -/
  | kxPopc (c : CoreId) (w : IWord)
  /-- BSWAP (R196). -/
  | kxBswap (c : CoreId) (w : IWord)
  /-- MUL (R196). -/
  | kxMul (c : CoreId) (w : IWord)
  /-- MULH (R196). -/
  | kxMulh (c : CoreId) (w : IWord)
  /-- MULHU (R196). -/
  | kxMulhu (c : CoreId) (w : IWord)
  /-- DIV (R197). -/
  | kxDiv (c : CoreId) (w : IWord)
  /-- DIVU (R197). -/
  | kxDivu (c : CoreId) (w : IWord)
  /-- REM (R197). -/
  | kxRem (c : CoreId) (w : IWord)
  /-- REMU (R197). -/
  | kxRemu (c : CoreId) (w : IWord)
  /-- ADDI (R196). -/
  | kxAddi (c : CoreId) (w : IWord)
  /-- ANDI (R196). -/
  | kxAndi (c : CoreId) (w : IWord)
  /-- ORI (R196). -/
  | kxOri (c : CoreId) (w : IWord)
  /-- XORI (R196). -/
  | kxXori (c : CoreId) (w : IWord)
  /-- SHI (R196). -/
  | kxShi (c : CoreId) (w : IWord)
  /-- MOVZ (R196). -/
  | kxMovz (c : CoreId) (w : IWord)
  /-- MOVK (R196). -/
  | kxMovk (c : CoreId) (w : IWord)
  /-- LD (R196). -/
  | kxLd (c : CoreId) (w : IWord)
  /-- LW (R196). -/
  | kxLw (c : CoreId) (w : IWord)
  /-- LWS (R196). -/
  | kxLws (c : CoreId) (w : IWord)
  /-- LH (R196). -/
  | kxLh (c : CoreId) (w : IWord)
  /-- LHS (R196). -/
  | kxLhs (c : CoreId) (w : IWord)
  /-- LB (R196). -/
  | kxLb (c : CoreId) (w : IWord)
  /-- LBS (R196). -/
  | kxLbs (c : CoreId) (w : IWord)
  /-- SD (R196). -/
  | kxSd (c : CoreId) (w : IWord)
  /-- SW (R196). -/
  | kxSw (c : CoreId) (w : IWord)
  /-- SH (R196). -/
  | kxSh (c : CoreId) (w : IWord)
  /-- SB (R196). -/
  | kxSb (c : CoreId) (w : IWord)
  /-- PREF (R196). -/
  | kxPref (c : CoreId) (w : IWord)
  /-- BCC (R196). -/
  | kxBcc (c : CoreId) (w : IWord)
  /-- BZCC (R196). -/
  | kxBzcc (c : CoreId) (w : IWord)
  /-- J (R196). -/
  | kxJ (c : CoreId) (w : IWord)
  /-- JL (R196). -/
  | kxJl (c : CoreId) (w : IWord)
  /-- JR (R196). -/
  | kxJr (c : CoreId) (w : IWord)
  /-- JLR (R196). -/
  | kxJlr (c : CoreId) (w : IWord)
  /-- AMOADD (R205). -/
  | kxAmoadd (c : CoreId) (w : IWord)
  /-- AMOSWAP (R205). -/
  | kxAmoswap (c : CoreId) (w : IWord)
  /-- AMOAND (R205). -/
  | kxAmoand (c : CoreId) (w : IWord)
  /-- AMOOR (R205). -/
  | kxAmoor (c : CoreId) (w : IWord)
  /-- AMOXOR (R205). -/
  | kxAmoxor (c : CoreId) (w : IWord)
  /-- AMOSMIN (R205). -/
  | kxAmosmin (c : CoreId) (w : IWord)
  /-- AMOSMAX (R205). -/
  | kxAmosmax (c : CoreId) (w : IWord)
  /-- AMOUMIN (R205). -/
  | kxAmoumin (c : CoreId) (w : IWord)
  /-- AMOUMAX (R205). -/
  | kxAmoumax (c : CoreId) (w : IWord)
  /-- CAS (R205). -/
  | kxCas (c : CoreId) (w : IWord)
  /-- CRR (R189). -/
  | kxCrr (c : CoreId) (w : IWord)
  /-- CWR (R189). -/
  | kxCwr (c : CoreId) (w : IWord)
  /-- PREDCTL_FLUSH (R232). -/
  | kxPredctlFlush (c : CoreId) (w : IWord)
  /-- CLAYCTL_WRITE (R241). -/
  | kxClayctlWrite (c : CoreId) (w : IWord)
  /-- CLAY_ENTRY_DONE (R241). -/
  | clayEntryDone (c : CoreId)
  /-- DVFSCTL_WRITE (R244). -/
  | kxDvfsctlWrite (c : CoreId) (w : IWord)
  /-- DVFS_CHANGE_DONE (R245). -/
  | dvfsChangeDone (c : CoreId)
  /-- DVFSSTAT_READ (R248). -/
  | kxDvfsstatRead (c : CoreId) (w : IWord)
  /-- SVC (R198). -/
  | kxSvc (c : CoreId) (w : IWord)
  /-- HVC (R198). -/
  | kxHvc (c : CoreId) (w : IWord)
  /-- BRK (R198). -/
  | kxBrk (c : CoreId) (w : IWord)
  /-- ERET (R203). -/
  | kxEret (c : CoreId) (w : IWord)
  /-- FENCE (R200). -/
  | kxFence (c : CoreId) (w : IWord)
  /-- FENCE_ACK (R200). -/
  | kxFenceAck (c : CoreId) (w : IWord)
  /-- ISYNC (R201). -/
  | kxIsync (c : CoreId) (w : IWord)
  /-- RDSTRATA (R204). -/
  | kxRdstrata (c : CoreId) (w : IWord)
  /-- TLBI (R221). -/
  | kxTlbi (c : CoreId) (w : IWord)
  /-- WFI_DOZE (R246). -/
  | kxWfiDoze (c : CoreId) (w : IWord)
  /-- WFI_SLUMBER (R247). -/
  | kxWfiSlumber (c : CoreId) (w : IWord)
  /-- CORE_WAKE (R326). -/
  | coreWake (c : CoreId)
  /-- INTERRUPT (R237). -/
  | interrupt (c : CoreId)
  /-- SECURE_INT (R210). -/
  | secureInt (c : CoreId)
  /-- STORE_BUFFER_DRAIN (R275). -/
  | storeBufferDrain (c : CoreId)
  /-- VADD (R253). -/
  | kxVadd (c : CoreId) (w : IWord)
  /-- VSUB (R253). -/
  | kxVsub (c : CoreId) (w : IWord)
  /-- VMUL (R253). -/
  | kxVmul (c : CoreId) (w : IWord)
  /-- VMULH (R253). -/
  | kxVmulh (c : CoreId) (w : IWord)
  /-- VMULHU (R253). -/
  | kxVmulhu (c : CoreId) (w : IWord)
  /-- VMIN (R253). -/
  | kxVmin (c : CoreId) (w : IWord)
  /-- VMAX (R253). -/
  | kxVmax (c : CoreId) (w : IWord)
  /-- VMINU (R253). -/
  | kxVminu (c : CoreId) (w : IWord)
  /-- VMAXU (R253). -/
  | kxVmaxu (c : CoreId) (w : IWord)
  /-- VABS (R253). -/
  | kxVabs (c : CoreId) (w : IWord)
  /-- VNEG (R253). -/
  | kxVneg (c : CoreId) (w : IWord)
  /-- VAND (R253). -/
  | kxVand (c : CoreId) (w : IWord)
  /-- VOR (R253). -/
  | kxVor (c : CoreId) (w : IWord)
  /-- VXOR (R253). -/
  | kxVxor (c : CoreId) (w : IWord)
  /-- VANDN (R253). -/
  | kxVandn (c : CoreId) (w : IWord)
  /-- VSLL (R253). -/
  | kxVsll (c : CoreId) (w : IWord)
  /-- VSRL (R253). -/
  | kxVsrl (c : CoreId) (w : IWord)
  /-- VSRA (R253). -/
  | kxVsra (c : CoreId) (w : IWord)
  /-- VROR (R253). -/
  | kxVror (c : CoreId) (w : IWord)
  /-- VCMPEQ (R253). -/
  | kxVcmpeq (c : CoreId) (w : IWord)
  /-- VCMPNE (R253). -/
  | kxVcmpne (c : CoreId) (w : IWord)
  /-- VCMPLT (R253). -/
  | kxVcmplt (c : CoreId) (w : IWord)
  /-- VCMPLTU (R253). -/
  | kxVcmpltu (c : CoreId) (w : IWord)
  /-- VCMPLE (R253). -/
  | kxVcmple (c : CoreId) (w : IWord)
  /-- VCMPLEU (R253). -/
  | kxVcmpleu (c : CoreId) (w : IWord)
  /-- VSEL (R253). -/
  | kxVsel (c : CoreId) (w : IWord)
  /-- VPERM (R253). -/
  | kxVperm (c : CoreId) (w : IWord)
  /-- VBCAST (R253). -/
  | kxVbcast (c : CoreId) (w : IWord)
  /-- VINS (R253). -/
  | kxVins (c : CoreId) (w : IWord)
  /-- VEXT (R253). -/
  | kxVext (c : CoreId) (w : IWord)
  /-- VRADD (R254). -/
  | kxVradd (c : CoreId) (w : IWord)
  /-- VRMIN (R254). -/
  | kxVrmin (c : CoreId) (w : IWord)
  /-- VRMAX (R254). -/
  | kxVrmax (c : CoreId) (w : IWord)
  /-- VRAND (R254). -/
  | kxVrand (c : CoreId) (w : IWord)
  /-- VROR_REDUCTION (R254). -/
  | kxVrorReduction (c : CoreId) (w : IWord)
  /-- VRXOR (R254). -/
  | kxVrxor (c : CoreId) (w : IWord)
  /-- PAND (R253). -/
  | kxPand (c : CoreId) (w : IWord)
  /-- POR (R253). -/
  | kxPor (c : CoreId) (w : IWord)
  /-- PXOR (R253). -/
  | kxPxor (c : CoreId) (w : IWord)
  /-- PNOT (R253). -/
  | kxPnot (c : CoreId) (w : IWord)
  /-- PRANGE (R253). -/
  | kxPrange (c : CoreId) (w : IWord)
  /-- PCOUNT (R253). -/
  | kxPcount (c : CoreId) (w : IWord)
  /-- PFIND (R253). -/
  | kxPfind (c : CoreId) (w : IWord)
  /-- FFTOP (R253). -/
  | kxFftop (c : CoreId) (w : IWord)
  /-- PTOFF (R253). -/
  | kxPtoff (c : CoreId) (w : IWord)
  /-- VLD (R256). -/
  | kxVld (c : CoreId) (w : IWord)
  /-- VLDS (R256). -/
  | kxVlds (c : CoreId) (w : IWord)
  /-- PLD (R256). -/
  | kxPld (c : CoreId) (w : IWord)
  /-- VST (R262). -/
  | kxVst (c : CoreId) (w : IWord)
  /-- VSTS (R262). -/
  | kxVsts (c : CoreId) (w : IWord)
  /-- PST (R262). -/
  | kxPst (c : CoreId) (w : IWord)
  /-- VGATHER (R256). -/
  | kxVgather (c : CoreId) (w : IWord)
  /-- VSCATTER (R262). -/
  | kxVscatter (c : CoreId) (w : IWord)
  /-- VLDFF (R263). -/
  | kxVldff (c : CoreId) (w : IWord)
  /-- VGATHERFF (R263). -/
  | kxVgatherff (c : CoreId) (w : IWord)
  /-- VADC (R264). -/
  | kxVadc (c : CoreId) (w : IWord)
  /-- VSBB (R264). -/
  | kxVsbb (c : CoreId) (w : IWord)
  /-- VCSHL (R264). -/
  | kxVcshl (c : CoreId) (w : IWord)
  /-- VMULW (R264). -/
  | kxVmulw (c : CoreId) (w : IWord)
  /-- VMONT (R265). -/
  | kxVmont (c : CoreId) (w : IWord)
  /-- VREDM (R264). -/
  | kxVredm (c : CoreId) (w : IWord)
  /-- READ_SHARED (R283). -/
  | readShared (line : BitVec 46)
  /-- READ_OWN (R283). -/
  | readOwn (line : BitVec 46)
  /-- UPGRADE (R283). -/
  | upgrade (line : BitVec 46)
  /-- NEAR_ATOMIC (R287). -/
  | nearAtomic (line : BitVec 46)
  /-- DEV_READ (R270). -/
  | devRead (c : CoreId) (r : Completion)
  /-- DEV_WRITE (R270). -/
  | devWrite (c : CoreId)
  /-- WRITE_BACK (R285). -/
  | writeBack (c : CoreId) (line : BitVec 46)
  /-- CLEAN_EVICT (R285). -/
  | cleanEvict (c : CoreId) (line : BitVec 46)
  /-- SNP_READ (R283). -/
  | snpRead (x : SnoopTurn)
  /-- SNP_OWN (R283). -/
  | snpOwn (x : SnoopTurn)
  /-- SNP_INV (R283). -/
  | snpInv (line : BitVec 46) (c : CoreId)
  /-- SNOOP_ANSWER (R285). -/
  | snoopAnswer (line : BitVec 46) (c : CoreId)
  /-- DATA (R282). -/
  | data (line : BitVec 46) (flips : List (Fin 2 × Fin 35 × Byte))
  /-- GRANT (R286). -/
  | grant (line : BitVec 46)
  /-- ACK (R284). -/
  | ack (line : BitVec 46)
  /-- HOME_TIMEOUT (R289). -/
  | homeTimeout (line : BitVec 46) (holder : Option CoreId)
  /-- RAS_HOME_STATUS_READ (R289). -/
  | rasHomeStatusRead (q : Requester) (h : Half)
  /-- TI_CREATE (R296). -/
  | tiCreate (q : Requester) (ti : TiId)
  /-- TI_REMOVE (R298). -/
  | tiRemove (q : Requester) (ti : TiId)
  /-- TI_REMOVE_DONE (R298). -/
  | tiRemoveDone (ti : TiId)
  /-- TIF_CONFIG_WRITE (R295). -/
  | tifConfigWrite (q : Requester) (ti : TiId) (r : Fin 3) (v : Word)
  /-- TIF_SQ_WRITE (R302). -/
  | tifSqWrite (q : Requester) (ti : TiId) (n : Fin 16) (v : Word)
  /-- QUEUE_RESTART (R303). -/
  | queueRestart (q : Requester) (ti : TiId) (n : Fin 16)
  /-- TIF_RING_HEAD_WRITE (R300). -/
  | tifRingHeadWrite (q : Requester) (ti : TiId) (v : Word)
  /-- TI_RESET_GO (R305). -/
  | tiResetGo (q : Requester) (ti : TiId) (v : Word)
  /-- PRIVILEGED_RESET_DONE (R306). -/
  | privilegedResetDone (ti : TiId)
  /-- DRAIN_TIMEOUT (R306). -/
  | drainTimeout (ti : TiId)
  /-- TIF_COUNT_READ (R305). -/
  | tifCountRead (q : Requester) (ti : TiId)
  /-- EVH_SRC_WRITE (R313). -/
  | evhSrcWrite (q : Requester) (h : Half) (id : Fin 4096) (v : Word)
  /-- RAISE_CROSSING (R327). -/
  | raiseCrossing (h : Half)
  /-- EVH_RAISE_WRITE (R312). -/
  | evhRaiseWrite (q : Requester) (h : Half) (v : Word)
  /-- EVH_WITHDRAW (R320). -/
  | evhWithdraw (q : Requester) (h : Half) (id : Fin 4096)
  /-- EVH_SGI_WRITE (R311). -/
  | evhSgiWrite (q : Requester) (h : Half) (v : Word)
  /-- EVH_CLAIM_K (R317). -/
  | evhClaimK (q : Requester) (l : Fin 256)
  /-- EVH_CLAIM_V (R317). -/
  | evhClaimV (q : Requester) (l : Fin 256)
  /-- EVH_SEC_CLAIM (R317). -/
  | evhSecClaim (q : Requester) (l : Fin 256)
  /-- EVH_EOI_K (R318). -/
  | evhEoiK (q : Requester) (l : Fin 256) (v : Word)
  /-- EVH_EOI_V (R318). -/
  | evhEoiV (q : Requester) (l : Fin 256) (v : Word)
  /-- EVH_SEC_EOI (R318). -/
  | evhSecEoi (q : Requester) (l : Fin 256) (v : Word)
  /-- EVH_HOLD_WRITE (R319). -/
  | evhHoldWrite (q : Requester) (h : Half) (v : Word)
  /-- EVH_TIQ_CFG_WRITE (R324). -/
  | evhTiqCfgWrite (q : Requester) (h : Half) (ti : TiId) (v : Word)
  /-- EVH_TIQ_HEAD_WRITE (R323). -/
  | evhTiqHeadWrite (q : Requester) (h : Half) (ti : TiId) (v : Word)
  /-- EVH_EQ_HEAD_WRITE (R323). -/
  | evhEqHeadWrite (q : Requester) (l : Fin 256) (v : Word)
  /-- EVH_STAT_READ (R312). -/
  | evhStatRead (q : Requester) (h : Half)
  /-- EVH_EQ_OVF_READ (R322). -/
  | evhEqOvfRead (q : Requester) (l : Fin 256)
  /-- CHANNEL_BIND (R328). -/
  | channelBind (q : Requester) (h : Half) (c : Fin 64) (v : Word)
  /-- CHANNEL_UNBIND (R328). -/
  | channelUnbind (q : Requester) (h : Half) (c : Fin 64)
  /-- KAOLIN_DOORBELL (R330). -/
  | kaolinDoorbell (q : Requester) (h : Half) (c : Fin 64) (v : Word)
  /-- KAOLIN_FETCH (R330). -/
  | kaolinFetch (h : Half) (c : Fin 64)
  /-- COMPRESS (R337). -/
  | compress (h : Half)
  /-- DECOMPRESS (R338). -/
  | decompress (h : Half)
  /-- JOB_RESULT (R333). -/
  | jobResult (h : Half) (c : Fin 64)
  /-- JOB_DONE_WRITE (R333). -/
  | jobDoneWrite (h : Half) (c : Fin 64)
  /-- CHANNEL_RESTART (R330). -/
  | channelRestart (q : Requester) (h : Half) (c : Fin 64)
  /-- SLOT_RELEASE (R336). -/
  | slotRelease (q : Requester) (h : Half) (slot : Fin 32)
  /-- KAOLIN_TI_CHANGE (R344). -/
  | kaolinTiChange (h : Half) (c : Fin 64)
  /-- KAO_STAT_READ (R342). -/
  | kaoStatRead (q : Requester) (h : Half)
  /-- DRAM_READ (R351). -/
  | dramRead (c : ChannelId) (ca : BitVec 38) (slot : Option (Fin 1028)) (act : Bool) (flips : List (Fin 2 × Fin 20 × BitVec 16))
  /-- DRAM_WRITE (R351). -/
  | dramWrite (c : ChannelId) (ca : BitVec 38) (slot : Option (Fin 1028)) (act : Bool)
  /-- ZERO_FILL_DONE (R354). -/
  | zeroFillDone (c : ChannelId) (cb : BitVec 26)
  /-- REFRESH_OWED (R356). -/
  | refreshOwed (c : ChannelId) (r : Fin 4)
  /-- REFAB (R356). -/
  | refab (c : ChannelId) (r : Fin 4) (queued : Bool)
  /-- RETRAIN (R361). -/
  | retrain (c : ChannelId) (r : Fin 4) (moves : List (Fin 20 × Fin 3 × Fin 3))
  /-- DIMM_TEMP_POLL (R356). -/
  | dimmTempPoll (c : ChannelId) (t0 t1 : Int)
  /-- CHANNEL_TRAINING (R359). -/
  | channelTraining (c : ChannelId) (slot0 slot1 : Option Dimm) (rfm : Bool) (raa : Nat × Nat) (drfm good : Bool) (delays : List (Fin 20 × Fin 1024 × Fin 1024 × Fin 256))
  /-- WRITE_PATTERN (R360). -/
  | writePattern (q : Requester) (c : ChannelId) (v : Word)
  /-- READ_AND_COMPARE (R360). -/
  | readAndCompare (q : Requester) (c : ChannelId) (v : Word)
  /-- SWEEP_RD (R360). -/
  | sweepRd (q : Requester) (c : ChannelId) (v : Word)
  /-- SWEEP_WR (R360). -/
  | sweepWr (q : Requester) (c : ChannelId) (v : Word)
  /-- SWEEP_VREF (R360). -/
  | sweepVref (q : Requester) (c : ChannelId) (v : Word)
  /-- TRAIN_OP_DONE (R360). -/
  | trainOpDone (c : ChannelId) (errs : List (Fin 20 × Fin 256 × Nat))
  /-- CA_PARITY_ALERT (R362). -/
  | caParityAlert (c : ChannelId) (r : Fin 4) (again long : Bool)
  /-- MIGRATE_GO (R362). -/
  | migrateGo (q : Requester) (c : ChannelId) (v : Word)
  /-- MIGRATION_BLOCK_COPY (R363). -/
  | migrationBlockCopy (c : ChannelId)
  /-- DMC_COUNT_READ (R358). -/
  | dmcCountRead (q : Requester) (c : ChannelId)
  /-- DMC_COUNT2_READ (R354). -/
  | dmcCount2Read (q : Requester) (c : ChannelId)
  /-- DMC_TRAIN_WIN_READ (R360). -/
  | dmcTrainWinRead (q : Requester) (c : ChannelId) (n : Fin 20)
  /-- DMC_MIGRATE_READ (R364). -/
  | dmcMigrateRead (q : Requester) (c : ChannelId)
  /-- ERROR_RECORD_WRITE (R378). -/
  | errorRecordWrite (h : Half)
  /-- RAS_LOG_WRITE (R379). -/
  | rasLogWrite (q : Requester) (h : Half) (slog : Bool) (v : Word)
  /-- RAS_LOG_HEAD_WRITE (R379). -/
  | rasLogHeadWrite (q : Requester) (h : Half) (slog : Bool) (v : Word)
  /-- RAS_COUNT_READ (R378). -/
  | rasCountRead (q : Requester) (h : Half)
  /-- RAS_COUNT2_READ (R378). -/
  | rasCount2Read (q : Requester) (h : Half)
  /-- PATROL_READ (R381). -/
  | patrolRead (c : ChannelId) (flips : List (Fin 2 × Fin 20 × BitVec 16))
  /-- ON_DIE_PATROL (R381). -/
  | onDiePatrol (what : Fin 8) (inst : Fin 1024) (a : Word) (flips : List (Fin 35 × Byte))
  /-- PASS_GO (R382). -/
  | passGo (q : Requester) (h : Half) (v : Word)
  /-- PASS_CANCEL (R382). -/
  | passCancel (q : Requester) (h : Half) (v : Word) (n : Nat) (flips : List (Nat × Fin 2 × Fin 20 × BitVec 16))
  /-- PASS_DONE (R382). -/
  | passDone (h : Half) (flips : List (Nat × Fin 2 × Fin 20 × BitVec 16))
  /-- INJECT_GO (R386). -/
  | injectGo (q : Requester) (h : Half) (v : Word)
  /-- INJECT_DISARM (R386). -/
  | injectDisarm (q : Requester) (h : Half) (v : Word)
  /-- INJECT_APPLY (R386). -/
  | injectApply (h : Half)
  /-- RAIL_SET (R388). -/
  | railSet (r : Fin 8) (mv : BitVec 12)
  /-- RAIL_ATTEMPT_FAIL (R388). -/
  | railAttemptFail (r : Fin 8)
  /-- RAIL_RETRY (R389). -/
  | railRetry (r : Fin 8)
  /-- PWR_RAIL_READ (R389). -/
  | pwrRailRead (q : Requester) (h : Half) (r : Fin 14)
  /-- POWER_SAMPLE (R390). -/
  | powerSample (rails : List (Fin 14 × BitVec 12 × BitVec 16)) (fixed : BitVec 16)
  /-- THERMAL_SAMPLE (R391). -/
  | thermalSample (h : Half) (tj : BitVec 8)
  /-- THERMAL_SHUTDOWN (R391). -/
  | thermalShutdown (h : Half)
  /-- DOMAIN_REQUEST (R392). -/
  | domainRequest (q : Requester) (h : Half) (d : Fin 159) (v : Word)
  /-- DORMANCY_ANSWER (R393). -/
  | dormancyAnswer
  /-- DORMANCY_DELAY_END (R393). -/
  | dormancyDelayEnd
  /-- FALLOW_ENTER (R395). -/
  | fallowEnter (p : Principal)
  /-- FALLOW_AUTO_ENTER (R395). -/
  | fallowAutoEnter
  /-- FALLOW_EXIT (R397). -/
  | fallowExit (p : Option Principal)
  /-- PWR_FALLOW_READ (R397). -/
  | pwrFallowRead (q : Requester) (h : Half)
  /-- WATCH_ENTER (R399). -/
  | watchEnter (p : Principal)
  /-- HP_READY (R399). -/
  | hpReady (q : Requester) (h : Half) (v : Word)
  /-- WATCH_HP_TIMEOUT (R399). -/
  | watchHpTimeout
  /-- I3C_WAKE_MATCH (R400). -/
  | i3cWakeMatch (addr : Fin 128)
  /-- WEATHERING_MEASURE (R401). -/
  | weatheringMeasure (h : Half) (hours : BitVec 32) (readings : List (Fin 256 × BitVec 16 × BitVec 8))
  /-- REPLAN (R402). -/
  | replan (h : Half)
  /-- PLAN_STORE_RETRY (R402). -/
  | planStoreRetry (h : Half)
  /-- UPDATE_WINDOW_OPEN (R404). -/
  | updateWindowOpen (p : Principal)
  /-- UPDATE_WINDOW_CLOSE (R404). -/
  | updateWindowClose (p : Principal)
  /-- BACKFILL_GO (R405). -/
  | backfillGo (q : Requester) (h : Half) (v : Word)
  /-- BACKFILL_SPARE_TEST_DONE (R405). -/
  | backfillSpareTestDone (h : Half) (pass : Bool)
  /-- BACKFILL_RELEASE (R405). -/
  | backfillRelease (q : Requester) (h : Half) (v : Word)
  /-- MESH_LINK_FAIL (R407). -/
  | meshLinkFail (h : Half) (l : Fin 161)
  /-- ENGINE_TEST (R408). -/
  | engineTest (q : Requester) (h : Half) (v : Word)
  /-- ENGINE_TEST_DONE (R408). -/
  | engineTestDone (h : Half) (pass : Bool)
  /-- LEASE_SEND (R410). -/
  | leaseSend
  /-- LEASE (R410). -/
  | lease
  /-- LEASE_ACK (R410). -/
  | leaseAck
  /-- LEASE_LAPSE (R412). -/
  | leaseLapse (h : Half)
  /-- GRIT_HEARTBEAT (R409). -/
  | gritHeartbeat (h : Half)
  /-- GRIT_SILENCE (R412). -/
  | gritSilence (h : Half)
  /-- BRIDGE_FAILURE (R412). -/
  | bridgeFailure
  /-- HALF_LOST (R413). -/
  | halfLost (lost : Half)
  /-- HANDOVER (R412). -/
  | handover (p : Principal) (dest : Half)
  /-- TAKE_PRIMACY (R412). -/
  | takePrimacy (p : Principal)
  /-- OD_READ (R423). -/
  | odRead (src : OdSource)
  /-- OD_WRITE (R423). -/
  | odWrite (src : OdSource)
  /-- HELLO (R425). -/
  | hello (h : Half) (peer : BitVec 128) (f : List Byte)
  /-- FINISH (R425). -/
  | finish (h : Half) (f : List Byte)
  /-- REQUEST (R424). -/
  | request (h : Half) (f : List Byte)
  /-- SESSION_IDLE_TIMEOUT (R426). -/
  | sessionIdleTimeout (sid : BitVec 32)
  /-- MCTP_CONTROL (R445). -/
  | mctpControl (h : Half) (inst cmd : Byte) (data : List Byte)
  /-- MCTP_VENDOR_REQUEST (R423). -/
  | mctpVendorRequest (h : Half) (msg : List Byte)
  /-- ENTDAA (R445). -/
  | entdaa (h : Half) (addr : Fin 128)
  /-- STORE_START (R428). -/
  | storeStart (p : Principal)
  /-- STORE_DONE (R428). -/
  | storeDone
  /-- CAL_CHUNK_READ (R431). -/
  | calChunkRead (p : Principal)
  /-- CAL_CHUNK_WRITE (R431). -/
  | calChunkWrite (p : Principal) (bytes : List Byte)
  /-- CAL_COMMIT (R430). -/
  | calCommit (p : Principal)
  /-- CAL_DISCARD (R431). -/
  | calDiscard (p : Principal)
  /-- TLT_HPOD_GO (R427). -/
  | tltHpodGo (q : Requester) (h : Half) (v : Word)
  /-- PCIE_LINK_CHANGE (R434). -/
  | pcieLinkChange (port : Fin 8) (rp : Fin 4) (link : Option Bool)
  /-- INBOUND_READ (R436). -/
  | inboundRead (p : Fin 8) (rid : BitVec 16) (bus : Word) (n : Fin 4097)
  /-- INBOUND_WRITE (R436). -/
  | inboundWrite (p : Fin 8) (rid : BitVec 16) (bus : Word) (bs : List Byte) (ep : Bool)
  /-- PRT_IO_FAULT_READ (R436). -/
  | prtIoFaultRead (q : Requester) (h : Half)
  /-- CXL_WINDOW_WRITE (R438). -/
  | cxlWindowWrite (q : Requester) (h : Half) (j : Fin 2) (v : Word)
  /-- CXL_LINK_DOWN (R438). -/
  | cxlLinkDown (h : Half) (j : Fin 2)
  /-- FRAME_RECEIVE (R440). -/
  | frameReceive (h : Half) (x : Fin 4) (f : List Byte)
  /-- ETH_TX_DOORBELL (R441). -/
  | ethTxDoorbell (q : Requester) (h : Half) (n : Fin 128) (v : Word)
  /-- ETH_RX_DOORBELL (R441). -/
  | ethRxDoorbell (q : Requester) (h : Half) (n : Fin 128) (v : Word)
  /-- FRAME_TRANSMIT (R442). -/
  | frameTransmit (h : Half) (n : Fin 128)
  /-- ETH_QUEUE_DISABLE (R442). -/
  | ethQueueDisable (q : Requester) (h : Half) (n : Fin 128)
  /-- PRT_ETH_COUNT_READ (R442). -/
  | prtEthCountRead (q : Requester) (h : Half)
  /-- ETH_REFCLK_LOSS (R448). -/
  | ethRefclkLoss
  /-- PCIE_REFCLK_LOSS (R448). -/
  | pcieRefclkLoss (h : Half)
  /-- LINE_TEST (R451). -/
  | lineTest (i : Fin 37) (r : LineReading)
  /-- PRT_LINE_READ (R451). -/
  | prtLineRead (q : Requester) (h : Half) (i : Fin 37)
  /-- BYPASS (R447). -/
  | bypass (h : Half) (tdi : List Bool)
  /-- IDCODE (R447). -/
  | idcode (h : Half)
  /-- SAMPLE_PRELOAD (R447). -/
  | samplePreload (h : Half) (tdi : List Bool)
  /-- EXTEST (R447). -/
  | extest (h : Half) (tdi : List Bool)
  /-- DAP (R447). -/
  | dap (h : Half) (w : World) (op : DapOp)
  /-- ROOT_START (R459). -/
  | rootStart (straps : Fin 16) (cold grit recordBad odBad calBad : Bool)
  /-- ROOT_RAIL_TIMEOUT (R457). -/
  | rootRailTimeout
  /-- COLD_HOLD_END (R480). -/
  | coldHoldEnd
  /-- TILTH_FIRMWARE_VERIFIED (R460). -/
  | tilthFirmwareVerified (h : Half) (ok : Bool)
  /-- BRIDGE_TRAINED (R459). -/
  | bridgeTrained
  /-- BRIDGE_TRAIN_TIMEOUT (R461). -/
  | bridgeTrainTimeout
  /-- PROVE (R462). -/
  | prove (fails : List ProveFail) (tested : BitVec 16)
  /-- TUNE (R464). -/
  | tune
  /-- HARDPAN_BOOT_TIMEOUT (R465). -/
  | hardpanBootTimeout
  /-- KNX_START_RELEASE (R466). -/
  | knxStartRelease (q : Requester) (c : CoreId) (v : Word)
  /-- PWR_GOOD_FALL (R457). -/
  | pwrGoodFall
  /-- POWER_DOWN (R458). -/
  | powerDown (p : Principal)
  /-- HOLD_ENTER (R469). -/
  | holdEnter (p : Principal)
  /-- HOLD_DRAINED (R469). -/
  | holdDrained
  /-- HOLD_TIMEOUT (R469). -/
  | holdTimeout
  /-- HOLD_EXIT (R469). -/
  | holdExit (p : Principal)
  /-- FIRMWARE_REGION_SELECT (R469). -/
  | firmwareRegionSelect (p : Principal) (region : Byte)
  /-- FIRMWARE_CHUNK (R469). -/
  | firmwareChunk (p : Principal) (bytes : List Byte)
  /-- FIRMWARE_STORE (R469). -/
  | firmwareStore (p : Principal)
  /-- UNSEAL (R470). -/
  | unseal (p : Principal)
  /-- RESET_N_ASSERT (R471). -/
  | resetNAssert
  /-- PACKAGE_RESET_COMMAND (R471). -/
  | packageResetCommand (p : Principal)
  /-- VAON_LOSS (R468). -/
  | vaonLoss
  /-- COMPLETION_TIMEOUT (R434). -/
  | completionTimeout (c : CoreId)
  /-- ETHERNET_LINK_CHANGE (R442). -/
  | ethernetLinkChange (h : Half) (x : Fin 4) (up : Bool)
  /-- RAIL_ACKNOWLEDGED (R388). -/
  | railAcknowledged (r : Fin 8) (sensed : BitVec 12)
  /-- PPS_OUT_PULSE (R170). -/
  | ppsOutPulse (rise : Bool)
  /-- NEIGHBOUR_DISCOVERY (R444). -/
  | neighbourDiscovery (h : Half) (f : List Byte)
  /-- ICMPV6_ECHO (R444). -/
  | icmpv6Echo (h : Half) (f : List Byte)
deriving DecidableEq, Repr

end Sys2Proof
end

