-- ==== Sys2Proof/Decode.lean ====
section
/-!
DEFINITION. Decode: commands from words. No row of the command table gives its command any bits: a command reaches the device as
an event, a bus access or an instruction word that is one of its operands. So no word spells a command. The words of the Silt
and Knaxa instructions are read in Machine/SltCore.lean and Machine/KnxDecode.lean.
-/
namespace Sys2Proof

/-- The command that `nbits` bits of a word spell by the command table: none, since its rows give no bits. -/
def decodeTableWord (_nbits _w : Nat) : Option Instr := none

end Sys2Proof
end

