-- ==== Sys2Proof/Machine/CryptoSym.lean ====
section
/-!
DEFINITION. CryptoSym: the ciphers and hashes that the Silt units and the catalogue services compute (R47, R489, R112):
AES (FIPS 197), TDES (SP 800-67), GHASH multiplication (SP 800-38D), SHA-2 (FIPS 180-4) and SHA-3 (FIPS 202). Blocks and
keys are lists of byte values in the order of their standards.
-/
namespace Sys2Proof.Machine.Crypto

/-- Byte `i` of a list, 0 beyond it. -/
def at0 (l : List Nat) (i : Nat) : Nat := l.getD i 0

def xorList (a b : List Nat) : List Nat := List.zipWith (· ^^^ ·) a b

/-- The big-endian number of a byte list. -/
def natBe (l : List Nat) : Nat := l.foldl (fun n b => n * 256 + b) 0
/-- The little-endian number of a byte list. -/
def natLe (l : List Nat) : Nat := l.foldr (fun b n => b + 256 * n) 0
/-- `k` bytes of a number, most significant first. -/
def bytesBe : Nat → Nat → List Nat
  | 0, _ => []
  | k + 1, n => bytesBe k (n / 256) ++ [n % 256]
/-- `k` bytes of a number, least significant first. -/
def bytesLe : Nat → Nat → List Nat
  | 0, _ => []
  | k + 1, n => n % 256 :: bytesLe k (n / 256)

/-- Split a list into blocks of `k`; `fuel` bounds their number. -/
def chunk (k : Nat) : Nat → List Nat → List (List Nat)
  | 0, _ => []
  | _, [] => []
  | fuel + 1, l => l.take k :: chunk k fuel (l.drop k)

def blocks (k : Nat) (l : List Nat) : List (List Nat) := chunk k (l.length / k + 1) l

/-! ## AES -/

/-- Multiply in GF(2^8) with x^8 + x^4 + x^3 + x + 1. -/
def gmul8 (a b : Nat) : Nat :=
  ((List.range 8).foldl (fun (r : Nat × Nat) i =>
    (if b.testBit i then r.1 ^^^ r.2 else r.1, if r.2 < 128 then 2 * r.2 else (2 * r.2 - 256) ^^^ 0x1B)) (0, a)).1

/-- The inverse in GF(2^8), 0 for 0: the power 254. -/
def ginv8 (a : Nat) : Nat :=
  let a2 := gmul8 a a
  let a4 := gmul8 a2 a2
  let a8 := gmul8 a4 a4
  let a16 := gmul8 a8 a8
  let a32 := gmul8 a16 a16
  let a64 := gmul8 a32 a32
  let a128 := gmul8 a64 a64
  gmul8 (gmul8 (gmul8 a2 a4) (gmul8 a8 a16)) (gmul8 (gmul8 a32 a64) a128)

def rotl8 (a n : Nat) : Nat := a * 2 ^ n % 256 + a / 2 ^ (8 - n)

def sboxOf (a : Nat) : Nat :=
  let b := ginv8 a
  b ^^^ rotl8 b 1 ^^^ rotl8 b 2 ^^^ rotl8 b 3 ^^^ rotl8 b 4 ^^^ 0x63

def invSboxOf (a : Nat) : Nat := ginv8 (rotl8 a 1 ^^^ rotl8 a 3 ^^^ rotl8 a 6 ^^^ 0x05)

def sboxTable : List Nat := (List.range 256).map sboxOf
def invSboxTable : List Nat := (List.range 256).map invSboxOf
def sbox (a : Nat) : Nat := at0 sboxTable a
def invSbox (a : Nat) : Nat := at0 invSboxTable a

/-- Powers of x for the key schedule. -/
def rcon : Nat → Nat
  | 0 => 1
  | n + 1 => gmul8 2 (rcon n)

/-- The words of the key schedule, newest first, after `n` more words. -/
def expandKey (nk : Nat) : Nat → List (List Nat) → List (List Nat)
  | 0, ws => ws
  | n + 1, ws =>
    let i := ws.length
    let t := ws.headD []
    let t :=
      if i % nk = 0 then xorList ((t.drop 1 ++ t.take 1).map sbox) [rcon (i / nk - 1), 0, 0, 0]
      else if 6 < nk && i % nk = 4 then t.map sbox else t
    expandKey nk n (xorList (ws.getD (nk - 1) []) t :: ws)

/-- The round keys of an AES key of 16, 24 or 32 bytes. -/
def aesRoundKeys (key : List Nat) : List (List Nat) :=
  let nk := key.length / 4
  let ws := (expandKey nk (4 * (nk + 7) - nk) (blocks 4 key).reverse).reverse
  (List.range (nk + 7)).map fun r => ((ws.drop (4 * r)).take 4).flatten

def shiftRows (s : List Nat) : List Nat := (List.range 16).map fun i => at0 s ((i + 4 * (i % 4)) % 16)
def invShiftRows (s : List Nat) : List Nat := (List.range 16).map fun i => at0 s ((i + 12 * (i % 4)) % 16)

/-- Multiply each column by a circulant matrix. -/
def mixWith (m : List Nat) (s : List Nat) : List Nat :=
  (List.range 16).map fun i =>
    let c := i / 4 * 4
    (List.range 4).foldl (fun a j => a ^^^ gmul8 (at0 m ((j + 4 - i % 4) % 4)) (at0 s (c + j))) 0

def mixColumns (s : List Nat) : List Nat := mixWith [2, 3, 1, 1] s
def invMixColumns (s : List Nat) : List Nat := mixWith [14, 11, 13, 9] s

/-- AES encryption of one block. -/
def aesEnc (key blk : List Nat) : List Nat :=
  let ks := aesRoundKeys key
  let nr := ks.length - 1
  let s := (List.range (nr - 1)).foldl (fun s r => xorList (mixColumns (shiftRows (s.map sbox))) (ks.getD (r + 1) []))
    (xorList blk (ks.getD 0 []))
  xorList (shiftRows (s.map sbox)) (ks.getD nr [])

/-- AES decryption of one block. -/
def aesDec (key blk : List Nat) : List Nat :=
  let ks := aesRoundKeys key
  let nr := ks.length - 1
  let s := (List.range (nr - 1)).foldl
    (fun s r => invMixColumns (xorList ((invShiftRows s).map invSbox) (ks.getD (nr - 1 - r) [])))
    (xorList blk (ks.getD nr []))
  xorList ((invShiftRows s).map invSbox) (ks.getD 0 [])

/-! ## DES and TDES -/

def desIP : List Nat :=
  [58, 50, 42, 34, 26, 18, 10, 2, 60, 52, 44, 36, 28, 20, 12, 4] ++
  [62, 54, 46, 38, 30, 22, 14, 6, 64, 56, 48, 40, 32, 24, 16, 8] ++
  [57, 49, 41, 33, 25, 17, 9, 1, 59, 51, 43, 35, 27, 19, 11, 3] ++
  [61, 53, 45, 37, 29, 21, 13, 5, 63, 55, 47, 39, 31, 23, 15, 7]
def desFP : List Nat :=
  [40, 8, 48, 16, 56, 24, 64, 32, 39, 7, 47, 15, 55, 23, 63, 31] ++
  [38, 6, 46, 14, 54, 22, 62, 30, 37, 5, 45, 13, 53, 21, 61, 29] ++
  [36, 4, 44, 12, 52, 20, 60, 28, 35, 3, 43, 11, 51, 19, 59, 27] ++
  [34, 2, 42, 10, 50, 18, 58, 26, 33, 1, 41, 9, 49, 17, 57, 25]
def desE : List Nat :=
  [32, 1, 2, 3, 4, 5, 4, 5, 6, 7, 8, 9, 8, 9, 10, 11] ++
  [12, 13, 12, 13, 14, 15, 16, 17, 16, 17, 18, 19, 20, 21, 20, 21] ++
  [22, 23, 24, 25, 24, 25, 26, 27, 28, 29, 28, 29, 30, 31, 32, 1]
def desP : List Nat :=
  [16, 7, 20, 21, 29, 12, 28, 17, 1, 15, 23, 26, 5, 18, 31, 10] ++
  [2, 8, 24, 14, 32, 27, 3, 9, 19, 13, 30, 6, 22, 11, 4, 25]
def desPC1 : List Nat :=
  [57, 49, 41, 33, 25, 17, 9, 1, 58, 50, 42, 34, 26, 18, 10, 2] ++
  [59, 51, 43, 35, 27, 19, 11, 3, 60, 52, 44, 36, 63, 55, 47, 39] ++
  [31, 23, 15, 7, 62, 54, 46, 38, 30, 22, 14, 6, 61, 53, 45, 37] ++
  [29, 21, 13, 5, 28, 20, 12, 4]
def desPC2 : List Nat :=
  [14, 17, 11, 24, 1, 5, 3, 28, 15, 6, 21, 10, 23, 19, 12, 4] ++
  [26, 8, 16, 7, 27, 20, 13, 2, 41, 52, 31, 37, 47, 55, 30, 40] ++
  [51, 45, 33, 48, 44, 49, 39, 56, 34, 53, 46, 42, 50, 36, 29, 32]

/-- The eight S-boxes, entry `i` in nibble `i`. -/
def desS : List Nat :=
  [0xD60AE3B5719428CF05A379CFB26D8E148359BC6A1D2E47F07095C6A38BF21D4E,
   0x9E50C76B24F31A8DF2396C851D4AB7E05B96A10CE82F74D3A50CD27943B6E81F,
   0xC25B3EF478960DA17EA5C21B03F8946D1FBCE582A643907D824B7CD15F36E90A,
   0xE27CB5498D1A60F34825E31FD7BC096A9EA1C27430F65B8DF4CB5821A9603ED7,
   0x354A90F6D2E17C8BE0365C9F87DAB1246893AF051D74C2BE9E0DF3586BA714C2,
   0xD80671EBAF59C2346BD1A4073C825FE983B0ED1659C724FAB57E43D08629FA1C,
   0xC32EF0597A418DB6295086FAE73CDB4168F2C53EA1947B0D16A579C3D80FE2B4,
   0xB65309CFD8A47E12853FDA602EC914B729E0B65C473A8DF17C05E39A1BF6482D]

/-- Permute: bit 1 is the most significant of `w`. -/
def permute (tbl : List Nat) (w n : Nat) : Nat :=
  tbl.foldl (fun r p => 2 * r + (if n.testBit (w - p) then 1 else 0)) 0

/-- The round function. -/
def desF (r k : Nat) : Nat :=
  let x := permute desE 32 r ^^^ k
  let y := (List.range 8).foldl (fun a i =>
    let six := x / 2 ^ (42 - 6 * i) % 64
    let row := six / 32 * 2 + six % 2
    let col := six / 2 % 16
    16 * a + at0 desS i / 2 ^ (4 * (16 * row + col)) % 16) 0
  permute desP 32 y

def rotl28 (n k : Nat) : Nat := n * 2 ^ k % 2 ^ 28 + n / 2 ^ (28 - k)

/-- The 16 round keys of a 64-bit key. -/
def desKeys (key : Nat) : List Nat :=
  let cd := permute desPC1 64 key
  ((List.range 16).foldl (fun (st : Nat × Nat × List Nat) i =>
    let n := if i = 0 || i = 1 || i = 8 || i = 15 then 1 else 2
    let c := rotl28 st.1 n
    let d := rotl28 st.2.1 n
    (c, d, st.2.2 ++ [permute desPC2 56 (c * 2 ^ 28 + d)])) (cd / 2 ^ 28, cd % 2 ^ 28, [])).2.2

def desRun (ks : List Nat) (blk : Nat) : Nat :=
  let x := permute desIP 64 blk
  let (l, r) := ks.foldl (fun (st : Nat × Nat) k => (st.2, st.1 ^^^ desF st.2 k)) (x / 2 ^ 32, x % 2 ^ 32)
  permute desFP 64 (r * 2 ^ 32 + l)

def desEnc (key blk : List Nat) : List Nat := bytesBe 8 (desRun (desKeys (natBe key)) (natBe blk))
def desDec (key blk : List Nat) : List Nat := bytesBe 8 (desRun (desKeys (natBe key)).reverse (natBe blk))

/-- The three keys of a TDES key of 16 or 24 bytes. -/
def tdesKeys (key : List Nat) : List Nat × List Nat × List Nat :=
  (key.take 8, (key.drop 8).take 8, if 24 ≤ key.length then (key.drop 16).take 8 else key.take 8)

def tdesEnc (key blk : List Nat) : List Nat :=
  let (a, b, c) := tdesKeys key
  desEnc c (desDec b (desEnc a blk))
def tdesDec (key blk : List Nat) : List Nat :=
  let (a, b, c) := tdesKeys key
  desDec a (desEnc b (desDec c blk))

/-! ## GF(2^128) of SP 800-38D: bit 0 of the field is the most significant bit of the block -/

def gf128 (x y : Nat) : Nat :=
  ((List.range 128).foldl (fun (st : Nat × Nat) i =>
    let z := if x.testBit (127 - i) then st.1 ^^^ st.2 else st.1
    let v := if st.2 % 2 = 1 then st.2 / 2 ^^^ (0xE1 * 2 ^ 120) else st.2 / 2
    (z, v)) (0, y)).1

/-! ## SHA-2 -/

def primes80 : List Nat :=
  [2, 3, 5, 7, 11, 13, 17, 19, 23, 29, 31, 37, 41, 43, 47, 53] ++
  [59, 61, 67, 71, 73, 79, 83, 89, 97, 101, 103, 107, 109, 113, 127, 131] ++
  [137, 139, 149, 151, 157, 163, 167, 173, 179, 181, 191, 193, 197, 199, 211, 223] ++
  [227, 229, 233, 239, 241, 251, 257, 263, 269, 271, 277, 281, 283, 293, 307, 311] ++
  [313, 317, 331, 337, 347, 349, 353, 359, 367, 373, 379, 383, 389, 397, 401, 409]

/-- The largest `r` below `2^bits` with `r^k ≤ n`. -/
def rootOf (k n : Nat) : Nat → Nat → Nat
  | 0, r => r
  | b + 1, r => rootOf k n b (if (r + 2 ^ b) ^ k ≤ n then r + 2 ^ b else r)

/-- The first 64 bits of the fractional part of the k-th root of `p`. -/
def fracRoot (k p : Nat) : Nat := rootOf k (p * 2 ^ (64 * k)) 72 0 % 2 ^ 64

def k512 : List Nat := primes80.map (fracRoot 3)
def k256 : List Nat := (k512.take 64).map (· / 2 ^ 32)
def iv512 : List Nat := (primes80.take 8).map (fracRoot 2)
def iv384 : List Nat := ((primes80.drop 8).take 8).map (fracRoot 2)
def iv256 : List Nat := iv512.map (· / 2 ^ 32)
def iv224 : List Nat := iv384.map (· % 2 ^ 32)

/-- Rotate a `w`-bit word right. -/
def rotr (w x n : Nat) : Nat := x / 2 ^ n + x % 2 ^ n * 2 ^ (w - n)

/-- The parameters of a SHA-2 family: word width, round constants, and the rotation amounts of Σ0, Σ1, σ0, σ1. -/
structure Sha2 where
  w : Nat
  k : List Nat
  s0 : Nat × Nat × Nat
  s1 : Nat × Nat × Nat
  e0 : Nat × Nat × Nat
  e1 : Nat × Nat × Nat

def sha256P : Sha2 := ⟨32, k256, (2, 13, 22), (6, 11, 25), (7, 18, 3), (17, 19, 10)⟩
def sha512P : Sha2 := ⟨64, k512, (28, 34, 39), (14, 18, 41), (1, 8, 7), (19, 61, 6)⟩

def Sha2.big (p : Sha2) (t : Nat × Nat × Nat) (x : Nat) : Nat := rotr p.w x t.1 ^^^ rotr p.w x t.2.1 ^^^ rotr p.w x t.2.2
def Sha2.small (p : Sha2) (t : Nat × Nat × Nat) (x : Nat) : Nat := rotr p.w x t.1 ^^^ rotr p.w x t.2.1 ^^^ x / 2 ^ t.2.2

/-- The message schedule, newest word first. -/
def Sha2.schedule (p : Sha2) : Nat → List Nat → List Nat
  | 0, ws => ws
  | n + 1, ws =>
    p.schedule n ((p.small p.e1 (at0 ws 1) + at0 ws 6 + p.small p.e0 (at0 ws 14) + at0 ws 15) % 2 ^ p.w :: ws)

/-- One round on the working variables a to h. -/
def Sha2.round (p : Sha2) (v : List Nat) (kw : Nat × Nat) : List Nat :=
  match v with
  | [a, b, c, d, e, f, g, h] =>
    let ch := (e &&& f) ^^^ ((2 ^ p.w - 1 - e) &&& g)
    let maj := (a &&& b) ^^^ (a &&& c) ^^^ (b &&& c)
    let t1 := h + p.big p.s1 e + ch + kw.1 + kw.2
    let t2 := p.big p.s0 a + maj
    [(t1 + t2) % 2 ^ p.w, a, b, c, (d + t1) % 2 ^ p.w, e, f, g]
  | v => v

/-- The compression of a state with a block of 16 words. -/
def Sha2.compress (p : Sha2) (st : List Nat) (m : List Nat) : List Nat :=
  let ws := (p.schedule (p.k.length - 16) m.reverse).reverse
  List.zipWith (fun a b => (a + b) % 2 ^ p.w) st ((p.k.zip ws).foldl p.round st)

/-- The big-endian words of a block. -/
def Sha2.words (p : Sha2) (blk : List Nat) : List Nat := (blocks (p.w / 8) blk).map natBe

/-- The padding of a message of `len` bytes. -/
def Sha2.pad (p : Sha2) (len : Nat) : List Nat :=
  let bs := 2 * p.w
  let z := (bs - (len + 1 + p.w / 4) % bs) % bs
  [0x80] ++ List.replicate z 0 ++ bytesBe (p.w / 4) (8 * len)

/-- The digest of a message, truncated to `n` bytes. -/
def Sha2.hash (p : Sha2) (iv : List Nat) (n : Nat) (msg : List Nat) : List Nat :=
  let st := (blocks (2 * p.w) (msg ++ p.pad msg.length)).foldl (fun st b => p.compress st (p.words b)) iv
  (st.flatMap (bytesBe (p.w / 8))).take n

def sha224 : List Nat → List Nat := sha256P.hash iv224 28
def sha256 : List Nat → List Nat := sha256P.hash iv256 32
def sha384 : List Nat → List Nat := sha512P.hash iv384 48
def sha512 : List Nat → List Nat := sha512P.hash iv512 64

/-! ## Keccak-f[1600] and SHA-3 -/

def keccakRC : List Nat :=
  [0x0000000000000001, 0x0000000000008082, 0x800000000000808A, 0x8000000080008000] ++
  [0x000000000000808B, 0x0000000080000001, 0x8000000080008081, 0x8000000000008009] ++
  [0x000000000000008A, 0x0000000000000088, 0x0000000080008009, 0x000000008000000A] ++
  [0x000000008000808B, 0x800000000000008B, 0x8000000000008089, 0x8000000000008003] ++
  [0x8000000000008002, 0x8000000000000080, 0x000000000000800A, 0x800000008000000A] ++
  [0x8000000080008081, 0x8000000000008080, 0x0000000080000001, 0x8000000080008008]

def rotl64 (x n : Nat) : Nat := x * 2 ^ (n % 64) % 2 ^ 64 + x / 2 ^ (64 - n % 64)

/-- The rotation offset of lane x + 5y. -/
def keccakRot : List Nat := [0, 1, 62, 28, 27, 36, 44, 6, 55, 20, 3, 10, 43, 25, 39, 41, 45, 15, 21, 8, 18, 2, 61, 56, 14]

def keccakRound (a : List Nat) (rc : Nat) : List Nat :=
  let c := (List.range 5).map fun x => at0 a x ^^^ at0 a (x + 5) ^^^ at0 a (x + 10) ^^^ at0 a (x + 15) ^^^ at0 a (x + 20)
  let d := (List.range 5).map fun x => at0 c ((x + 4) % 5) ^^^ rotl64 (at0 c ((x + 1) % 5)) 1
  let t := (List.range 25).map fun i => rotl64 (at0 a i ^^^ at0 d (i % 5)) (at0 keccakRot i)
  -- π: B[y, 2x + 3y] = t[x, y]; lane (X, Y) of B comes from x = (X + 3Y) mod 5, y = X.
  let b := (List.range 25).map fun i => at0 t ((i % 5 + 3 * (i / 5)) % 5 + 5 * (i % 5))
  (List.range 25).map fun i =>
    let x := i % 5
    let y := 5 * (i / 5)
    let v := at0 b i ^^^ ((2 ^ 64 - 1 - at0 b ((x + 1) % 5 + y)) &&& at0 b ((x + 2) % 5 + y))
    if i = 0 then v ^^^ rc else v

/-- The permutation on 25 lanes. -/
def keccakF (a : List Nat) : List Nat := keccakRC.foldl keccakRound a

/-- SHA-3 with a rate of `rate` bytes and a digest of `n` bytes. -/
def sha3 (rate n : Nat) (msg : List Nat) : List Nat :=
  let padLen := rate - msg.length % rate
  let padded := msg ++ (if padLen = 1 then [0x86] else [0x06] ++ List.replicate (padLen - 2) 0 ++ [0x80])
  let st := (blocks rate padded).foldl (fun a b =>
    keccakF ((List.range 25).map fun i => at0 a i ^^^ natLe ((b.drop (8 * i)).take 8))) (List.replicate 25 0)
  (st.flatMap (bytesLe 8)).take n

def sha3_256 : List Nat → List Nat := sha3 136 32
def sha3_384 : List Nat → List Nat := sha3 104 48
def sha3_512 : List Nat → List Nat := sha3 72 64

end Sys2Proof.Machine.Crypto
end

