-- ==== Sys2Proof/Config.lean ====
section
/-!
DEFINITION. Config: what an implementation of the A256 fixes and the spec leaves open. An `opaque` constant has no
body: no proof can see its value, so a statement about it holds whatever it is.
-/
namespace Sys2Proof.Config

/-- A fresh free value: the `k`-th value the spec leaves open in a run. Marked DESIGN CHOICE in log entry 2. -/
opaque freeNat : Nat → Nat

/-- What a read of a line returns where a key slot that it needs is cleared or lost: unpredictable data (R141). Arguments: byte
address, the tag it was written under, the tag it is read under, the byte written. -/
opaque otherKeyByte : Nat → Nat → Nat → Byte → Byte

/-- The 64 bytes of a memory key, data key first, which come from the random source and which no register or access reads
(R139, R140). Arguments: the key's tag, slot and generation, and the byte's place. -/
opaque memoryKey : Nat → Nat → Nat

/-- The hashes that index a direction table, and that tag an entry of it (R228 gives none). Arguments: the table, 0 for the base,
the pc, and the table's own length of history. -/
opaque predIndex : Nat → Nat → List Nat → Nat
opaque predTag : Nat → Nat → List Nat → Nat

/-- The two address bits of a taken branch that enter the global history. Argument: the pc. -/
opaque historyBits : Nat → Nat

/-- The indices of the branch target buffer, by pc, and of the indirect target table, by pc and the last 16 indirect targets. -/
opaque btbIndex : Nat → Nat
opaque indirectIndex : Nat → List Nat → Nat

/-- Which way a full set of a cache gives up (R277 gives no replacement rule). Argument: the count of fills so far. -/
opaque victimWay : Nat → Nat

/-- What CXL memory holds before the device's first write to it: the CXL device's own contents (R21, R438). -/
opaque cxlByte : Nat → Byte

/-- The trimmed offset of a stop's Strata replica from the master, in units of 2^-16 ns; its absolute value is
bounded by R162 where it is used. Argument: stop ID. -/
opaque replicaOffset : Nat → Int

/-- The random source of key custody (R140, R156): the `k`-th byte drawn. -/
opaque randomByte : Nat → Byte

/-- The bytes of an engine's IRAM that no image has filled: a loaded image fills its body alone (R125). Argument: the
local offset. -/
opaque iramByte : Nat → Byte

/-- A byte of an engine's descriptor image past its 128 bytes, which the salt of an RSA-PSS signature may name (R114).
Argument: the offset in the descriptor. -/
opaque pastDescriptor : Nat → Nat

/-- What fills a fixed field of bytes behind a shorter value (R124 states none). Arguments: the destination field and the
byte's place in it. -/
opaque remapFill : Nat → Nat → Nat

/-- The attribute bits topsoil_loadable (bit 0) and legacy (bit 1) of an imported key, which an X9.143 header does not give
(R120). Argument: the header's first 16 bytes as a number. -/
opaque importFlags : Nat → Nat

/-- How an X9.143 key block's data spells an RSA or ECC key (R120, R121). Arguments: the header's algorithm and the data. The key is
an algorithm of R155, its rsa_bytes and its image (R492). -/
opaque kbMaterial : Nat → List Nat → Option (Nat × Nat × List Nat)

/-- The data that spells such a key in a block. Arguments: the attribute word and the image. -/
opaque kbData : Nat → List Nat → List Nat

/-- A byte of the device serial, fused (OD 0x0100.04). -/
opaque serialByte : Nat → Byte

/-- The two numbers that the random source tries as the primes of an RSA key (R493). Arguments: the modulus length in bits and the
draw. -/
opaque rsaPrimes : Nat → Nat → Nat × Nat

/-- How many bytes WRAP writes for an object whose image has this length (R156 gives no size), less one. -/
opaque wrapLength : Nat → Nat

/-- A byte of a wrapped object. Arguments: the draw that stands for its sealing and the byte's place. -/
opaque wrapByte : Nat → Nat → Byte

/-- A byte of an object's slot in the key custody store (R154 gives no format). Arguments: the draw that stands for its sealing and
the byte's place. -/
opaque slotByte : Nat → Nat → Byte

/-- What bytes that no WRAP of this run wrote unwrap to: an object of an earlier boot, as attribute word, version and image,
or nothing. Argument: what memory holds from the address on. -/
opaque unwrapEarlier : List Byte → Option (Nat × Nat × List Byte)

/-- What a mailbox slot that is marked empty holds (R153): its format is firmware's. Argument: the byte's place. -/
opaque emptyMailbox : Nat → Byte

/-- The earlier positions that Kaolin compares at an input position, as distances in the order compared (R340 gives their number
alone). Arguments: the history, newest byte first, the input from the position on, the level. -/
opaque lzCandidates : List Byte → List Byte → Nat → List Nat

/-- The dynamic code lengths that Kaolin gives the literal and length symbols and the distance symbols of a unit (R337 does
not give their construction). Arguments: the unit's items. -/
opaque dynLengths : List (Nat × Nat) → List Nat × List Nat

/-- How those lengths are run-length coded: code-length symbols with their extra bits, and the lengths of the code-length
code. -/
opaque dynHeader : List Nat → List (Nat × Nat) × List Nat

/-- The lowest voltage, in mV, at which every replica of a unit keeps the guard slack at a point of the Weathering plan (R402): how
slack moves with voltage and clock is not given. Arguments: the set's committed body (none: the factory's), the powered hours of
the plan (0: the set's own), the readings by stop ID that it was made from, half * 256 + the unit's domain number (R147), and the
point in MHz. -/
opaque planVolt : Option (List Byte) → Nat → List (Nat × List (Nat × Int)) → Nat → Nat → Nat

/-- The voltage in mV that re-plans had added to a point before a calibration set was committed. Arguments: the set's body,
half * 256 + domain number, and the point in MHz. -/
opaque planAdded : List Byte → Nat → Nat → Nat

/-- The top of a plan point's guard band in mV, which the safe table takes (R430). Arguments: half * 256 + domain number, and the
point in MHz. -/
opaque guardTop : Nat → Nat → Nat

/-- The factory slack of a replica in 0.25 ps (R403). Arguments: the calibration set's committed body and the stop. -/
opaque factorySlack : Option (List Byte) → Nat → Int

/-- The calibration-set body with what the device has added to it (R430): its layout is not given. Arguments: the body last
committed (none: the factory's) and how often the device has added to it. -/
opaque calBody : Option (List Byte) → Nat → List Byte

/-- The device identity secret of a Tilth, derived from fuses. Argument: the half. -/
opaque identitySecret : Nat → Nat

/-- The cause byte of a mode-log entry that records something else than a change of mode (R409, R420, R429, R457). Argument:
what it records. -/
opaque noteCause : Nat → Nat

/-- The calibrated offset in mV of a rail's die-local monitor, which R388's test allows for while the monitor replaces the rail's
sense pair (R452). Argument: the rail. -/
opaque monitorOffset : Nat → Nat

/-- The way in which a cache holds a line: R377 gives error records a way, and no rule says which one a line takes. Arguments: the
source code of R377 and the line. -/
opaque wayOf : Nat → Nat → Nat

/-- The bytes of the TRACE and DEBUG data that a JTAG shift reads where the spec names no register. -/
opaque jtagBits : Nat → Nat

end Sys2Proof.Config
end

