-- ==== Sys2Proof/Machine/SMap.lean ====
section
/-!
DEFINITION. SMap: sparse maps from a number to a value as plain data, a list of pairs with rising keys in which no
pair holds the default. The default is passed at every read and write, so equal maps are equal lists.
-/
namespace Sys2Proof.Machine

/-- A sparse map. -/
abbrev SMap (α : Type) := List (Nat × α)

namespace SMap

/-- The value at key `i`, or the default `d`. -/
def get {α : Type} (d : α) : SMap α → Nat → α
  | [], _ => d
  | (k, v) :: m, i => if k = i then v else get d m i

/-- The map without key `i`. -/
def erase {α : Type} : SMap α → Nat → SMap α
  | [], _ => []
  | (k, v) :: m, i => if k = i then erase m i else (k, v) :: erase m i

/-- Insert before the first larger key. -/
def insert {α : Type} (i : Nat) (v : α) : SMap α → SMap α
  | [] => [(i, v)]
  | (k, w) :: m => if i < k then (i, v) :: (k, w) :: m else (k, w) :: insert i v m

/-- Write `v` at key `i`; writing the default removes the entry. -/
def set {α : Type} [DecidableEq α] (d : α) (m : SMap α) (i : Nat) (v : α) : SMap α :=
  if v = d then erase m i else insert i v (erase m i)

/-- Apply `f` at key `i`. -/
def upd {α : Type} [DecidableEq α] (d : α) (m : SMap α) (i : Nat) (f : α → α) : SMap α :=
  set d m i (f (get d m i))

/-- Keys rise strictly and lie above `lo`. -/
def sortedFrom {α : Type} : Option Nat → SMap α → Bool
  | _, [] => true
  | none, (k, _) :: m => sortedFrom (some k) m
  | some l, (k, _) :: m => decide (l < k) && sortedFrom (some k) m

/-- The canonical form: strictly rising keys, no entry equal to the default. -/
def wf {α : Type} [DecidableEq α] (d : α) (m : SMap α) : Bool :=
  sortedFrom none m && m.all (fun p => decide (p.2 ≠ d))

/-- The listed keys. -/
def keys {α : Type} (m : SMap α) : List Nat := m.map Prod.fst

end SMap

end Sys2Proof.Machine
end

