-- ==== Sys2Proof/Machine/PartsKao.lean ====
section
/-!
DEFINITION. PartsKao: the parts of State that hold the Kaolin units (R328 to R344).
-/
namespace Sys2Proof.Machine

/-- An open stream (R334): op, format, level, the last 32 KiB of its uncompressed data with the newest byte first, its
CRC-32 and length, the jobs or frame blocks so far, whether it has ended; for compression the bits of an unfinished byte
(R335), for decompression the input so far and how many bytes of the output have been delivered. -/
structure KaoStream where
  op : Nat
  format : Nat
  level : Nat
  hist : List Byte
  crc : Nat
  total : Nat
  blocks : Nat
  ended : Bool
  bits : List Bool
  input : List Byte
  given : Nat
deriving DecidableEq, Repr

/-- What a job took from its channel when it started: the TI and its generation, the ring's base and the notify ID. A job that
goes on after its channel is unbound keeps them (R329, R333). -/
structure KaoBinding where
  ti : Nat
  gen : Nat
  base : Nat
  intrId : Nat
deriving DecidableEq, Repr

/-- A started job: its binding, its ring entry, its descriptor, and, as the outputs are written, its status, detail and result
fields. `written` says that bytes 0x28 to 0x3F have been written (R333). -/
structure KaoJob where
  bind : KaoBinding
  index : Nat
  desc : List Byte
  status : Nat
  detail : Nat
  consumed : Nat
  produced : Nat
  crc : Nat
  chainUsed : Nat
  written : Bool
deriving DecidableEq, Repr

/-- A channel beside its registers: the descriptors fetched and not started with the oldest first, whether a descriptor read
has stopped it (R330), the open stream and the started job. -/
structure KaoChan where
  fetched : List (Nat × List Byte)
  stopped : Bool
  stream : Option KaoStream
  job : Option KaoJob
deriving DecidableEq, Repr

def KaoChan.empty : KaoChan := ⟨[], false, none, none⟩

/-- A Kaolin unit: its channels, what its save slots hold, the channel served last, and the slots whose release waits for
the running job (R336). -/
structure Kao where
  chans : SMap KaoChan
  slots : SMap (Option KaoStream)
  rotor : Nat
  releaseDue : SMap Bool
deriving DecidableEq, Repr

def Kao.empty : Kao := ⟨[], [], 63, []⟩

end Sys2Proof.Machine
end

