-- ==== Sys2Proof/Machine/PartsKnx.lean ====
section
/-!
DEFINITION. PartsKnx: the state of a Knaxa core (chapters "Knaxa programmer's model" and "Knaxa pipeline").
-/
namespace Sys2Proof.Machine

/-- A saved frame (R212): the pc, the status word with cause and syndrome, g1 to g15, and whether it was pushed in Hardpan
world (R202). -/
structure Frame where
  pc : Word
  status : Word
  gs : List Word
  hard : Bool
deriving DecidableEq, Repr

/-- A retired store in the store buffer (R275): its physical address and bytes. -/
structure SbEntry where
  pa : Nat
  bytes : List Byte
deriving DecidableEq, Repr

/-- A cached translation (R220): the virtual page, its tags, the leaf's size in bytes, the leaf bits of both stages, the
output page and whether the memory is device memory. -/
structure TlbEntry where
  vpn : Nat
  leafSize : Nat
  asid : Option Nat
  vmid : Option Nat
  leaf1 : Nat
  leaf2 : Nat
  page : Nat
  device : Bool
deriving DecidableEq, Repr

/-- An entry of a tagged direction table: its tag, realm and 2-bit counter (R228, R229). -/
structure PredEntry where
  tag : Nat
  realm : Nat
  ctr : Nat
deriving DecidableEq, Repr

/-- An entry of the branch target buffer or of the indirect target table: its pc, realm and target (R229). -/
structure TargetEntry where
  pc : Nat
  realm : Nat
  target : Nat
deriving DecidableEq, Repr

/-- The predictor (R228, R229): the base table by realm * 8,192 + index, T1 to T8 by (table - 1) * 2,048 + index, the branch
target buffer, the indirect target table, the return stack as realm and address with the top first, the global history as
one number per branch, newest first, and the last indirect targets. -/
structure Pred where
  base : SMap Nat
  tagged : SMap (Option PredEntry)
  btb : SMap (Option TargetEntry)
  indirect : SMap (Option TargetEntry)
  returns : List (Nat × Nat)
  hist : List Nat
  targets : List Nat
deriving DecidableEq, Repr

def Pred.empty : Pred := ⟨[], [], [], [], [], [], []⟩

/-- Whether a core runs: in core reset (waiting for a release or not), running, in doze or slumber, or off. -/
inductive CoreRun where
  | reset | running | doze | slumber | off
deriving DecidableEq, Repr

/-- What a core waits for before its next instruction: an instruction held until the store buffer lets it go, device
accesses in flight (physical address, value and device mark of each element still to send, oldest first, and the
values received, newest first), the elements of a vector store, as address and bytes, that the store buffer has no room for yet,
an atomic waiting for its line in D or for the home, a TLBI waiting for accesses translated under the entries it removed, as core and
physical address (R221), the drain before clay mode (R241 step 1), or the entry into it. -/
inductive CoreWait where
  | none
  | instr (w : IWord)
  | device (w : IWord) (left : List (Nat × Nat × Bool)) (got : List Nat)
  | vstore (w : IWord) (left : List (Nat × List Byte))
  | atomic (w : IWord) (pa : Nat)
  | near (w : IWord) (pa : Nat)
  | tlbi (w : IWord) (left : List (Nat × Nat))
  | clayDrain (w : IWord)
  | clayEntry
deriving DecidableEq, Repr

/-- A Knaxa core (R186): g, v, p, ffr, pc, the live STATUS fields, the frames with the top first, the other control
registers by number, the store buffer with the oldest first, the translation cache, the run state, the wait, the predictor, clay
mode's fetch buffer as virtual line, physical line and count of stores to it (R240), the bytes of DVFSSTAT, the entry into Hardpan world on a Topsoil core by HPCALL, and the debug agent's halt. -/
structure Core where
  g : SMap Word
  v : SMap Wide
  p : SMap (BitVec 32)
  ffr : BitVec 128
  pc : Word
  level : Nat
  hard : Bool
  ie : Bool
  guest : Bool
  sie : Bool
  frames : List Frame
  ctl : SMap Nat
  sb : List SbEntry
  tlb : List TlbEntry
  run : CoreRun
  wait : CoreWait
  inStub : Bool
  pred : Pred
  fetchBuf : Option (Nat × Nat × Nat)
  curMhz : Nat
  granted : Nat
  limits : Nat
  dvfsPending : Bool
  changes : Nat
  capPower : Nat
  capThermal : Nat
  debugHalt : Bool
  breakpoints : List Nat
  watchpoints : List Nat
  stepArmed : Bool
deriving DecidableEq, Repr

/-- A core after package reset: in core reset, every register 0; DVFSSTAT reads 2,600 MHz (R248). -/
def Core.empty : Core :=
  { g := [], v := [], p := [], ffr := 0, pc := 0, level := 2, hard := false, ie := false, guest := false, sie := false,
    frames := [], ctl := [], sb := [], tlb := [], run := .reset, wait := .none, inStub := false,
    pred := Pred.empty, fetchBuf := none, curMhz := 2600, granted := 2600, limits := 0, dvfsPending := false, changes := 0,
    capPower := 3600, capThermal := 3600, debugHalt := false, breakpoints := [],
    watchpoints := [], stepArmed := false }

end Sys2Proof.Machine
end

