-- ==== Sys2Proof/Machine/Riddle.lean ====
section
/-!
DEFINITION. Riddle: the Reed–Solomon codes of chapter 15 (R366, R367, R369 to R371), as they act on the errors a stored
codeword holds: the codes are linear, so what a decoder finds depends on the error pattern alone.
-/
namespace Sys2Proof.Machine

/-- The errors of one granule: symbol position and XOR value. -/
abbrev ErrPat := List (Nat × Nat)

/-! ## The fields -/

/-- Multiply in a binary field of `w` bits with reduction polynomial `poly`. -/
def gfMulGo (w poly a : Nat) : Nat → Nat → Nat
  | 0, _ => 0
  | n + 1, b =>
    let t := 2 * gfMulGo w poly a n (b / 2)
    (if t < 2 ^ w then t else t ^^^ poly) ^^^ (if b % 2 = 1 then a else 0)

/-- GF(2^8) of R366. -/
def mul8 (a b : Nat) : Nat := gfMulGo 8 0x11D a 8 b
/-- GF(2^16) of R369. -/
def mul16 (a b : Nat) : Nat := gfMulGo 16 0x1100B a 16 b

/-- `a` to the power `2 ^ n - 2`, the inverse in a field of `2 ^ n` elements. -/
def gfInvGo (mul : Nat → Nat → Nat) (a : Nat) : Nat → Nat
  | 0 => 1
  | 1 => 1
  | n + 2 => let r := mul (gfInvGo mul a (n + 1)) a; mul r r

def inv16 (a : Nat) : Nat := gfInvGo mul16 a 16

/-- α^k. -/
def gfAlpha (mul : Nat → Nat → Nat) : Nat → Nat
  | 0 => 1
  | k + 1 => mul (gfAlpha mul k) 2

def alpha8 (k : Nat) : Nat := gfAlpha mul8 k
def alpha16 (k : Nat) : Nat := gfAlpha mul16 k

/-- The syndrome S_k of an error pattern. -/
def syn8 (e : ErrPat) (k : Nat) : Nat := e.foldl (fun a x => a ^^^ mul8 x.2 (alpha8 (x.1 * k))) 0
def syn16 (e : ErrPat) (k : Nat) : Nat := e.foldl (fun a x => a ^^^ mul16 x.2 (alpha16 (x.1 * k))) 0

/-- XOR one symbol into a pattern. -/
def errAdd (e : ErrPat) (x : Nat × Nat) : ErrPat :=
  let old := (e.find? fun y => y.1 == x.1).elim 0 (·.2)
  let rest := e.filter fun y => y.1 != x.1
  if old ^^^ x.2 = 0 then rest else rest ++ [(x.1, old ^^^ x.2)]

/-- XOR one pattern into another. -/
def errXor (e f : ErrPat) : ErrPat := f.foldl errAdd e

/-! ## Riddle-35 (R367) -/

/-- What a Riddle-35 checker finds: clean, one symbol to correct, or uncorrectable. -/
def decode35 (e : ErrPat) : Option ErrPat :=
  let s0 := syn8 e 0
  let s1 := syn8 e 1
  let s2 := syn8 e 2
  if s0 = 0 && s1 = 0 && s2 = 0 then some []
  else if s0 != 0 && s1 != 0 && s2 != 0 && mul8 s1 s1 = mul8 s0 s2 then
    (((List.range 35).find? fun p => mul8 s0 (alpha8 p) == s1).map fun p => [(p, s0)])
  else none

/-! ## Riddle-320 (R370, R371) -/

/-- The poison pattern P (R370). -/
def poisonPattern : ErrPat := [(0, 0x7A1C), (1, 0x0E93), (2, 0xD146), (3, 0x2B85)]

/-- The four syndromes. -/
def syns16 (e : ErrPat) : List Nat := [syn16 e 0, syn16 e 1, syn16 e 2, syn16 e 3]

/-- Correction of one symbol whose syndromes are these. -/
def oneSym (s : List Nat) : Option ErrPat :=
  let v := s.getD 0 0
  if v = 0 then none
  else (((List.range 20).find? fun p => syns16 [(p, v)] == s).map fun p => [(p, v)])

/-- Correction of two symbols, at `p` and `q`. -/
def twoAt (s : List Nat) (p q : Nat) : Option ErrPat :=
  let s0 := s.getD 0 0
  let v2 := mul16 (s.getD 1 0 ^^^ mul16 s0 (alpha16 p)) (inv16 (alpha16 p ^^^ alpha16 q))
  let c := [(p, s0 ^^^ v2), (q, v2)]
  if syns16 c == s then some (c.filter fun x => x.2 != 0) else none

def allPairs : List (Nat × Nat) := (List.range 20).flatMap fun p => (List.range p).map fun q => (q, p)

/-- Correction of at most two symbols. -/
def upToTwo (s : List Nat) : Option ErrPat :=
  if s.all (· == 0) then some []
  else match oneSym s with
    | some c => some c
    | none => allPairs.findSome? fun x => twoAt s x.1 x.2

/-- The two positions of device `n` (R369). -/
def devicePos (n : Nat) : Nat × Nat :=
  if n < 8 then (2 * n + 4, 2 * n + 5) else if n = 8 then (0, 1) else (2, 3)

/-- The device that holds a position. -/
def posDevice (p : Nat) : Nat := if p < 2 then 8 else if p < 4 then 9 else (p - 4) / 2

/-- Correction of the erased device's symbols and at most `extra` other symbols (0 or 1). -/
def erasures (s : List Nat) (dev extra : Nat) : Option ErrPat :=
  let (p, q) := devicePos dev
  match twoAt s p q with
  | some c => some c
  | none =>
    if extra = 0 then none
    else
      let el := fun (x : Nat) (l : List Nat) (k : Nat) => l.getD (k + 1) 0 ^^^ mul16 (alpha16 x) (l.getD k 0)
      let a := [el p s 0, el p s 1, el p s 2]
      let b0 := el q a 0
      let b1 := el q a 1
      if b0 = 0 then none
      else (List.range 20).findSome? fun r =>
        if r = p || r = q || mul16 b0 (alpha16 r) != b1 then none
        else
          let v := mul16 b0 (inv16 (mul16 (alpha16 r ^^^ alpha16 p) (alpha16 r ^^^ alpha16 q)))
          (twoAt (List.zipWith (· ^^^ ·) s (syns16 [(r, v)])) p q).map fun c => c ++ [(r, v)]

/-- What a DMC's decoder finds: clean, poisoned without error, corrected with or without poison and whether the mark was
used, or uncorrectable. -/
inductive Found320 where
  | clean | poisoned | corrected (c : ErrPat) (mark : Bool) | poisonCorrected (c : ErrPat) (mark : Bool) | uncorrectable
deriving DecidableEq, Repr

/-- R371, for a granule stored with errors `e`, poisoned or not, under the mark in force. -/
def decode320 (e : ErrPat) (poison : Bool) (mark : Option Nat) : Found320 :=
  if e = [] then (if poison then .poisoned else .clean)
  else
    let sp := syns16 poisonPattern
    let s := if poison then List.zipWith (· ^^^ ·) (syns16 e) sp else syns16 e
    if s.all (· == 0) then .clean
    else if s == sp then .poisoned
    else match upToTwo s, mark.bind fun d => erasures s d 1 with
      | some c, _ => .corrected c false
      | none, some c => .corrected c true
      | none, none =>
        let t := List.zipWith (· ^^^ ·) s sp
        match oneSym t, mark.bind fun d => erasures t d 0 with
        | some c, _ => .poisonCorrected c false
        | none, some c => .poisonCorrected c true
        | none, none => .uncorrectable

end Sys2Proof.Machine
end

