-- ==== Sys2Proof/Machine/PartsMem.lean ====
section
/-!
DEFINITION. PartsMem: the parts of State that hold memory, its caches' tags, the Event Hub, RAS and the DDR5 channels.
-/
namespace Sys2Proof.Machine

/-- Memory as one coherent image (chapter 10), with poison per 32-byte granule (R288), and for each line the key tag it
was written under (R139): 0 never written, 1 plaintext, else (slot + 2) * 2^32 + the slot's generation. A line
without a tag of its own has its 4 KiB page's tag (R354: a block is filled whole). `onDie` holds the symbol errors of a
granule's on-die copy not yet met by a checker, and whether they were injected (R386). -/
structure Mem where
  bytes : SMap Byte
  poison : SMap Bool
  lineTag : SMap Nat
  pageTag : SMap Nat
  onDie : SMap (ErrPat × Bool)
deriving DecidableEq, Repr

/-- The canonical form of memory: each of its maps lists rising keys and nothing at its default. -/
def Memory.wf (m : Mem) : Bool :=
  SMap.wf 0 m.bytes && SMap.wf false m.poison && SMap.wf 0 m.lineTag && SMap.wf 0 m.pageTag && SMap.wf ([], false) m.onDie

/-- Line states of R281. -/
inductive LState where
  | i | s | l | x | d
deriving DecidableEq, Repr

/-- Requests that a home serves (R282). -/
inductive HomeKind where
  | readShared | readOwn | upgrade | nearAtomic
deriving DecidableEq, Repr

/-- A request waiting in, or served from, a home queue (R284); `inst` marks an instruction fetch's. -/
structure HomeReq where
  kind : HomeKind
  core : CoreId
  inst : Bool
deriving DecidableEq, Repr

/-- Snoops of R282. -/
inductive SnpKind where
  | read | own | inv
deriving DecidableEq, Repr

/-- The classes of the mesh (R17). -/
inductive MeshCls where
  | request | response | snoop | writeback | completion
deriving DecidableEq, Repr

/-- A coherence message (R282) of a line: a snoop of a core, its answer, the far half's gathered answer (R290), line data, a
Grant, or an Ack. -/
inductive NetWhat where
  | snoop (line : Nat) (core : CoreId)
  | answer (line : Nat) (core : CoreId)
  | farAnswer (line : Nat)
  | data (line : Nat)
  | grant (line : Nat)
  | ack (line : Nat)
deriving DecidableEq, Repr

def NetWhat.line : NetWhat → Nat
  | .snoop l _ => l | .answer l _ => l | .farAnswer l => l | .data l => l | .grant l => l | .ack l => l

/-- A message in flight: its class, source stop and destination stop (R18). -/
structure NetMsg where
  cls : MeshCls
  src : Nat
  dst : Nat
  what : NetWhat
deriving DecidableEq, Repr

/-- The transaction that a home runs on one line (R284): the request, the snoops not yet delivered, the holders whose answers it
waits for, the answers on their way to the home, and the messages on their way to the requester and back; `dataFrom` is the
holder that forwards the data, or none when the home supplies it, and `since` the tick at which the home took it. -/
structure HomeTxn where
  req : HomeReq
  since : Nat
  snoops : List (CoreId × SnpKind)
  waiting : List CoreId
  answers : List CoreId
  needData : Bool
  dataMsg : Option LState
  dataFrom : Option CoreId
  gotData : Bool
  grantMsg : Bool
  ackMsg : Bool
deriving DecidableEq, Repr

/-- A line as the home still holds it while an owner's copy differs (R281, R289): its bytes, key tag and poison bits. -/
structure StaleLine where
  bytes : List Byte
  tag : Nat
  poison0 : Bool
  poison1 : Bool
deriving DecidableEq, Repr

/-- A line at its home (R280, R284): the owner in D, X or L and its state as the directory records it, the holders of S, the
transaction in progress, the queue, the home's own copy while the owner's differs from it, when the directory entry
was allocated (0 for none), the evictions that wait for the end of the transaction (R285), and the core that holds its Grant's
access before it answers a snoop (R286). -/
structure LineHome where
  owner : Option CoreId
  recorded : LState
  sharers : List CoreId
  txn : Option HomeTxn
  queue : List HomeReq
  stale : Option StaleLine
  alloc : Nat
  evicted : List CoreId
  hold : Option CoreId
deriving DecidableEq, Repr

def LineHome.empty : LineHome := ⟨none, .i, [], none, [], none, 0, [], none⟩

/-- A device access of a core on its way to its home slice (R270). -/
structure DevAcc where
  core : CoreId
  write : Bool
  addr : Nat
  size : Nat
  value : Nat
deriving DecidableEq, Repr

/-- Coherence state: lines at their homes by line number, the line states in each core's L2, the lines in each core's L1I and L1D
and in each L3 set (by slice * 4096 + set), newest first (R277), how many lines have been filled, the requests that a full home
queue keeps in the mesh, by line and oldest first (R284), the coherence messages in flight in the order sent (R18), for each line that
a fetch buffer has held how often it was stored to since, from 1 (R240), and the device accesses in flight per core. -/
structure Coh where
  lines : SMap LineHome
  held : SMap (SMap LState)
  l1i : SMap (List Nat)
  l1d : SMap (List Nat)
  l3 : SMap (List Nat)
  fills : Nat
  mesh : List (Nat × HomeReq)
  net : List NetMsg
  fetchGen : SMap Nat
  allocNext : Nat
  dev : List DevAcc
deriving DecidableEq, Repr

def Coh.empty : Coh := ⟨[], [], [], [], [], 0, [], [], [], 0, []⟩

/-- An Event Hub source's raise state (R311, R321): pending, the qualifier and half of the first raise since the last
claim, whether another qualifier followed, and whether it was raised since that claim at all (a level source stays pending
without a raise). -/
structure EvPend where
  pending : Bool
  qual : Nat
  multi : Bool
  half : Nat
  raised : Bool
deriving DecidableEq, Repr

def EvPend.none : EvPend := ⟨false, 0, false, 0, false⟩

/-- A raise or withdrawal on its way across the bridge (R327): the half it was made in, the ID, its qualifier, the target core,
the nanosecond field at the raise (R322), and whether it withdraws. -/
structure Crossing where
  half : Nat
  id : Nat
  qual : Nat
  target : Nat
  ns : Nat
  withdraw : Bool
deriving DecidableEq, Repr

/-- An active ID of one core and level (R317): the priority is the one captured at the claim (R327). Level 0 is K, 1 V,
2 secure. -/
structure EvActive where
  key : Nat
  core : Nat
  level : Nat
  prio : Nat
deriving DecidableEq, Repr

/-- The Event Hub's state beside its registers: raise state by source key, the active IDs, "signalled since the last
claim that returned an ID" per core and level (R317), the ring-advance entry outstanding per TI queue (R324), and what
crosses the bridge, oldest first (R327). -/
structure Evh where
  pend : SMap EvPend
  active : List EvActive
  signalled : SMap Bool
  tiqEntry : SMap Bool
  crossing : List Crossing
deriving DecidableEq, Repr

/-- An error record of R377, before its number and log are chosen. -/
structure ErrRec where
  cls : Nat
  flags : Nat
  source : Nat
  status : Nat
  stop : Nat
  addr : Nat
  stamp : Nat
  inst : Nat
  requester : Nat
  syndrome : Nat
  positions : Nat
  count : Nat
  tenant : Nat
  location : Nat
  hardpan : Bool
deriving DecidableEq, Repr

/-- A directed pass in progress (R382). -/
structure Pass where
  next : Nat
  left : Nat
  actor : Actor
deriving DecidableEq, Repr

/-- An armed injection (R386): line, granule, poison, persist, symbols (position, value), target, and
whether the change has been applied. -/
structure Inject where
  line : Nat
  granule : Nat
  poison : Bool
  persist : Bool
  syms : ErrPat
  target : Nat
  applied : Bool
deriving DecidableEq, Repr

/-- RAS of one half beside its registers: records detected and not yet routed, the on-die buffer of 16 (R378), whether
records were lost since the last one written, the millisecond in which CE records were last written and how many, CEs
suppressed since the last CE record, whether EV 0x0A6 is spent until the next read, the patrol's channel address, lap start
in ns and EV 0x0A5 per channel, corrected symbols of this lap by mark entry * 16 + device (R380), the directed pass and the
armed injection. -/
structure RasHalf where
  detected : List ErrRec
  buffer : List ErrRec
  lost : Bool
  ceMs : Nat
  ceCount : Nat
  ceHeld : Nat
  a6Spent : Bool
  patrol : SMap Nat
  lapStart : SMap Nat
  lapLate : SMap Bool
  markCount : SMap Nat
  pass : Option Pass
  inject : Option Inject
deriving DecidableEq, Repr

def RasHalf.empty : RasHalf := ⟨[], [], false, 0, 0, 0, false, [], [], [], [], none, none⟩


/-- A migration in progress (R363): the logical rank, the destination's physical rank, the offset P in bytes, and whether the
source has had a command error (R364). -/
structure Migration where
  src : Nat
  dst : Nat
  ptr : Nat
  srcDead : Bool
deriving DecidableEq, Repr

/-- A request that waits at a channel for a block's zero fill (R354) or a rank's refresh (R356): a write or a read, its channel address and key slot. -/
structure ChanReq where
  write : Bool
  ca : Nat
  slot : Option Nat
deriving DecidableEq, Repr

/-- A DDR5 channel beside its registers. Errors are kept per granule as DRAM holds it, by physical rank * 2^40 + granule of
the rank, and whether they were injected. `written` holds the written-block bits, `lineUe` the bitmap lines set to ones by
R355, by cb / 512, `lineFixed` the lines written since such a loss or a training pattern, and `scrambled` the physical ranks
whose rows 0 to 7 hold training patterns (R360). Then the fills in progress and the requests that wait, refreshes owed per
physical rank and the ranks that must refresh first (R356), rolling activation counts per bank (R357), the migration, the fence of each logical rank as the offset
below which it is fenced (R365), each lane's rd and wr movement since training and whether its EV 0x0C5 was raised (R361), the
helper operation running (R360), what the SPD says of refresh management and directed refresh, the replays of the command
in trouble (R362), the share of request slots withheld for a DIMM's temperature: 1 half, 2 three quarters (R391), and whether the DMC failed PROVE
(R385). -/
structure Dmc where
  errs : SMap (ErrPat × Bool)
  written : SMap Bool
  lineUe : SMap Bool
  lineFixed : SMap Bool
  scrambled : SMap Bool
  filling : SMap Bool
  waiting : List ChanReq
  owed : SMap Nat
  refDue : SMap Bool
  acts : SMap Nat
  migration : Option Migration
  fence : SMap Nat
  movedRd : SMap Int
  movedWr : SMap Int
  driftEv : SMap Bool
  helper : Nat
  rfmReq : Bool
  raaimt : Nat
  raammt : Nat
  drfm : Bool
  replays : Nat
  throttle : Nat
  failed : Bool
deriving DecidableEq, Repr

def Dmc.empty : Dmc := ⟨[], [], [], [], [], [], [], [], [], [], none, [], [], [], [], 0, false, 0, 0, false, 0, 0, false⟩

end Sys2Proof.Machine
end

