-- ==== Sys2Proof/Machine/PartsPwr.lean ====
section
/-!
DEFINITION. PartsPwr: the parts of State that hold what runs in the PWR and WTH blocks (R388 to R408).
-/
namespace Sys2Proof.Machine

/-- A Dormancy entry (R393): its kind (0 domain, 1 FALLOW, 2 WATCH), for a domain request its half, domain and what is asked
(1 gate, 2 off), the requester's actor code, the blocks in scope, those not yet answered, those that asked for a delay with their delay, the
half-domains that answered PENDING_HELD as half * 256 + domain, and the microseconds waited. -/
structure Dorm where
  kind : Nat
  half : Nat
  dom : Nat
  want : Nat
  actor : Nat
  scope : List (Nat × Nat)
  ask : List (Nat × Nat)
  delayed : List ((Nat × Nat) × Nat)
  held : List Nat
  waited : Nat
deriving DecidableEq, Repr

/-- A request in flight on an AVS rail (R388): its target in mV, the attempts failed, and the highest voltage asked for
meanwhile. -/
structure RailReq where
  target : Nat
  fails : Nat
  next : Option Nat
deriving DecidableEq, Repr

/-- A backfill (R405): the logical ID, the spare being tested or waiting for release, and the writer's actor code. -/
structure Backfill where
  logical : Nat
  spare : Nat
  actor : Nat
deriving DecidableEq, Repr

/-- Where a WATCH entry or an orderly power-down stands (R399, R458): waiting for Hardpan, or in the handshake, with
the requester's actor code. -/
inductive WatchStage where
  | none
  | hardpan (powerDown : Bool) (actor : Nat)
  | handshake (actor : Nat)
deriving DecidableEq, Repr

/-- PWR and WTH beside their registers: the Dormancy entry, the WATCH entry, the requests on rails, the powered hours, the
halves whose margin alert is spent until the margin rises, those whose
plan waits to be stored, the backfills by half, the spares taken or retired by physical core, one more than the tick from
which package power has stayed low (R395), the last ten sums of R390 in mW with the newest first, the ticks of the last
return of grants and, by half, of the last thermal step, the halves whose mesh R390 holds at 1.5 GHz, the rails outside
their window, whether an update window is open (R404), the halves whose WTH_CTL has asked for a re-plan, the failed
links, by half and number, that traffic is still being routed around, and the triples of half, source, destination and class
whose new route has taken effect (R19, R407). -/
structure Pwr where
  dorm : Option Dorm
  watch : WatchStage
  rails : SMap (Option RailReq)
  hours : Nat
  alerted : SMap Bool
  unstored : SMap Bool
  backfills : SMap (Option Backfill)
  spareUsed : SMap Bool
  lowPower : Nat
  sums : List Nat
  lastReturn : Nat
  lastStep : SMap Nat
  meshPower : SMap Bool
  railOut : SMap Bool
  updating : Bool
  replan : SMap Bool
  reroutes : List (Nat × Nat)
  routed : List (Nat × Nat × Nat × Nat)
deriving DecidableEq, Repr

def Pwr.empty : Pwr := ⟨none, .none, [], 0, [], [], [], [], 0, [], 0, [], [], [], false, [], [], []⟩

end Sys2Proof.Machine
end

