-- ==== Sys2Proof/Machine/PartsSlt.lean ====
section
/-!
DEFINITION. PartsSlt: the parts of State that hold the Silt engines, their clusters, Dispatch, the Collector, the tenant
interfaces and the key objects (chapters "Silt engines" to "Hardpan and Topsoil").
-/
namespace Sys2Proof.Machine

/-- A descriptor on its way to an engine: its TI, submission queue and entry index, its 128 bytes,
and its reissue count (R98). -/
structure Entry where
  ti : Nat
  queue : Nat
  index : Nat
  desc : List Byte
  reissue : Bool
deriving DecidableEq, Repr

/-- A completion record before the Collector numbers it (R106); `poison` when its body arrived poisoned (R375). -/
structure Rec where
  ti : Nat
  gen : Nat
  status : Nat
  late : Bool
  reissued : Bool
  ledger : Bool
  dispatch : Bool
  remote : Bool
  result : Nat
  stamp : Nat
  engine : Nat
  slot : Nat
  poison : Bool
deriving DecidableEq, Repr

/-- The tag of a key register (R39, R40). -/
structure KeyTag where
  handle : Nat
  version : Nat
  tenant : Nat
  attr : Nat
deriving DecidableEq, Repr

/-- A key register. -/
structure KeyReg where
  val : Wide
  tag : Option KeyTag
deriving DecidableEq, Repr

def KeyReg.empty : KeyReg := ⟨0, none⟩

/-- A line of the engine cache (R54): its number and bytes, the poison of its two granules, and the symbol errors their Riddle-35
codewords hold (R59, R372). -/
structure CacheLine where
  line : Nat
  bytes : List Byte
  poison0 : Bool
  poison1 : Bool
  errs0 : ErrPat
  errs1 : ErrPat
deriving DecidableEq, Repr

/-- A posted store (R54, R64) with the rights of its task, and its place in the order of its cluster's stores (R28). -/
structure Posted where
  q : Requester
  seq : Nat
  pa : Nat
  bytes : List Byte
  epc : Nat
  enpc : Nat
  inSlot : Bool
deriving DecidableEq, Repr

/-- A service image (R125): version, world, service table and body. -/
structure Image where
  version : Nat
  world : Nat
  services : List (Nat × Nat)
  body : List Byte
deriving DecidableEq, Repr

/-- The task of an engine: its entry, its TI's tenant and home half at the start, and whether it started late (R87). -/
structure Task where
  entry : Entry
  tenant : Nat
  home : Nat
  late : Bool
deriving DecidableEq, Repr

/-- SLT_RUN.state. -/
inductive EngRun where
  | detached | idle | run | wait | halt | lost
deriving DecidableEq, Repr

def EngRun.code : EngRun → Nat
  | .idle => 0 | .run => 1 | .wait => 2 | .halt => 3 | .detached => 4 | .lost => 5

/-- A key object (R154 to R156): its attribute word, current version, material and staged version; a reserved object is
empty, with alg 0 and version 0. -/
structure KeyObj where
  attr : Nat
  version : Nat
  image : List Byte
  staged : Option (List Byte)
deriving DecidableEq, Repr

/-- What an engine's instruction in progress waits for: a line fill, a free place among the posted stores, the
acknowledgements of FENCE, a key transfer of the object as the custody unit held it when the request came (R176), the zeroing of an SRAM window, or, at the task's end, its posted stores and a
place in the output latch: `done` when DONE ends the task, whose watchdog still runs (R64, R65), `ending` when it ends otherwise. -/
inductive Stall where
  | none
  | fill (w : IWord)
  | store (w : IWord)
  | fence (w : IWord)
  | key (w : IWord) (o : KeyObj)
  | sram (w : IWord)
  | done (status result : Nat)
  | ending (status result : Nat)
deriving DecidableEq, Repr

/-- Where an idle engine's search for work stands (R83). -/
inductive StealStage where
  | local (tries : Nat)
  | cluster (tries : Nat)
  | half
  | backoff
deriving DecidableEq, Repr

/-- A store the Page Ownership Table refused or that reached an unmapped address, reported at its acknowledgement (R64). -/
structure StoreFault where
  cause : Nat
  status : Nat
  epc : Nat
  enpc : Nat
  inSlot : Bool
deriving DecidableEq, Repr

/-- A Silt engine (R39, R42, R54, R64, R69). The modulus latch carries a tenant (R49). `stale` says that a new image waits
for the engine's next task boundary (R127), `stepping` that the engine halts again after this instruction, `capture` is the
target a move has captured, as member and pool (R69), `lfsrNew`, `limitOld`, `invalidateDue`, `unlockDue` and
`invalidateAfter` (an invalidate written after an unlock_all) hold what R72 defers to the end of the task, and `cacheWas` the
SLT_CACHE.enable in force until the next instruction boundary when it was written during an instruction. -/
structure Engine where
  s : SMap Word
  w : SMap Wide
  k : SMap KeyReg
  cf : Bool
  modulus : Option (Wide × Nat)
  pc : Nat
  npc : Nat
  slot : Bool
  annul : Bool
  rdth : Nat
  cache : SMap (Option CacheLine)
  locks : Nat
  posted : List Posted
  storeFault : Option StoreFault
  iram : Option Image
  stale : Bool
  task : Option Task
  run : EngRun
  stall : Stall
  stepping : Bool
  deque : List Entry
  latch : List Rec
  steal : StealStage
  rotor : Nat
  capture : Option (Bool × Nat)
  lfsrNew : Option Nat
  limitOld : Option Nat
  invalidateDue : Bool
  unlockDue : Bool
  invalidateAfter : Bool
  cacheWas : Option Bool
deriving DecidableEq, Repr

def Engine.empty : Engine :=
  { s := [], w := [], k := [], cf := false, modulus := none, pc := 0, npc := 0, slot := false, annul := false, rdth := 0,
    cache := [], locks := 0, posted := [], storeFault := none, iram := none, stale := false, task := none,
    run := .detached, stall := .none, stepping := false, deque := [], latch := [], steal := .local 0, rotor := 0,
    capture := none, lfsrNew := none, limitOld := none, invalidateDue := false, unlockDue := false,
    invalidateAfter := false, cacheWas := none }

/-- A load of a service image in progress (R127): its slot, header address and the actor that wrote go. -/
structure ImageLoad where
  slot : Nat
  addr : Nat
  actor : Actor
deriving DecidableEq, Repr

/-- A cluster (R61, R81, R125): SRAM bytes and poisoned granules, one injection list per pool with the oldest first and the
member chosen last, the images of its SVC block, the load in progress, and who made the load or binding whose reloads
are pending. -/
structure Cluster where
  sram : SMap Byte
  sramPoison : SMap Bool
  inj : SMap (List Entry)
  lastPick : SMap Nat
  images : SMap (Option Image)
  load : Option ImageLoad
  reloadBy : Actor
deriving DecidableEq, Repr

def Cluster.empty : Cluster := ⟨[], [], [], [], [], none, .t⟩

/-- A descriptor read issued by Dispatch (R75): TI, queue, entry index and the TI's generation then. -/
structure Fetch where
  ti : Nat
  queue : Nat
  index : Nat
  life : Nat
deriving DecidableEq, Repr

/-- Dispatch of one half: reads issued with the oldest first, descriptors held for lack of room with their pool (R80), records
waiting for a lane credit (R88), descriptors arriving over the bridge with the pool they are routed to (R80), descriptors
passed to Tilth (R427), and the share of the TI served last (R75). -/
structure Dsp where
  reads : List Fetch
  held : List (Entry × Nat)
  recs : List Rec
  arriving : List (Entry × Nat)
  tilth : List Entry
  base : Nat
deriving DecidableEq, Repr

def Dsp.empty : Dsp := ⟨[], [], [], [], [], 0⟩

/-- The Collector of one half: its lanes (R88), pointer P, the lanes refused in the previous round, and the lanes considered
and records accepted in this one (R90). -/
structure Clt where
  lanes : SMap (List Rec)
  p : Nat
  refused : List Nat
  seen : List Nat
  taken : Nat
deriving DecidableEq, Repr

def Clt.empty : Clt := ⟨[], 0, [], [], 0⟩

/-- A tenant interface beside its registers: the fetch index of each queue, the queue served last, the next sequence
number (R91), its share of the weighted round robin so far (R75), whether it was ever
created, the actor that last wrote its enable, the mode of the privileged reset in progress (R306), and whether its present
life has been in FAULT (R303). -/
structure Ti where
  fetch : SMap Nat
  lastQueue : Nat
  nextSeq : Nat
  served : Nat
  made : Bool
  enabler : Actor
  draining : Bool
  failed : Bool
deriving DecidableEq, Repr

def Ti.empty : Ti := ⟨[], 0, 0, 0, false, .t, false, false⟩

/-- A steal message (R83): a request on its way to a cluster for a pool of it, or that cluster's reply on its way to the
thief. -/
inductive StealMsg where
  | request (thief cluster pool : Nat) (half : Bool)
  | reply (thief cluster pool : Nat) (entry : Option Entry) (half : Bool)
deriving DecidableEq, Repr

/-- An epoch action of a comparator (R175): the ring entries reserved, the validated template, whether the copies have been
placed, how many of them have not started, and the engines whose copy waits for room in their deque. -/
structure Fan where
  reserved : Nat
  entry : Option Entry
  placed : Bool
  toStart : Nat
  deferred : List Nat
deriving DecidableEq, Repr

def Fan.empty : Fan := ⟨0, none, false, 0, []⟩

/-- A random RSA generation in progress (R493): for CREATE the attribute word, for STAGE the object. -/
inductive Generation where
  | create (attr : Nat)
  | stage (obj : Nat)
deriving DecidableEq, Repr

/-- A promotion that has been broadcast (R176): the object, its old and new versions, the time, whether the custody unit still
has to apply it, and the clusters that have to. -/
structure PromoCut where
  obj : Nat
  old : Nat
  new : Nat
  time : Nat
  custody : Bool
  clusters : List Nat
deriving DecidableEq, Repr

/-- Key custody: the objects by number, the wrapped objects with the bytes that stand for them, the random generation in
progress, the promotions at a time waiting (R176), as object, time and comparator, and those broadcast. -/
structure Custody where
  objs : SMap (Option KeyObj)
  wraps : List (List Byte × KeyObj)
  generating : Option Generation
  promotes : List (Nat × Nat × Nat)
  cuts : List PromoCut
deriving DecidableEq, Repr

def Custody.empty : Custody := ⟨[], [], none, [], []⟩

end Sys2Proof.Machine
end

