-- ==== Sys2Proof/Machine/PartsSys.lean ====
section
/-!
DEFINITION. PartsSys: the parts of State that hold the device's mode, its time and what it sends out.
-/
namespace Sys2Proof.Machine

/-- A change the Strata master has scheduled (R163): its tick and what it does. -/
inductive StrataChange where
  | rate (tick : Nat) (r : Int)
  | step (tick : Nat) (d : Int)
  | set (tick : Nat) (v : Nat)
deriving DecidableEq, Repr

/-- The Strata time base (R161, R165, R166): the master's value in units of 2^-16 ns since the epoch, the hidden 24-bit
sub-fraction, the ticks counted, the rate correction in force in 2^-40 ns per ns, the base of R166, the changes
scheduled, a set waiting for the next edge, the counts and ticks that the lock and loss conditions look at, and for each comparator
armed the tick after the one it was armed on (R174). -/
structure Strata where
  time : Nat
  sub : Nat
  tick : Nat
  rate : Int
  base : Int
  changes : List StrataChange
  setAtEdge : Option Nat
  goodEdges : Nat
  lastEdge : Nat
  lastSoft : Nat
  holdStart : Nat
  armed : SMap Nat
deriving DecidableEq, Repr

def Strata.empty : Strata := ⟨0, 0, 0, 0, 0, [], none, 0, 0, 0, 0, []⟩

/-- A register write of `size` bytes at byte offset `off` of its block, held until the block reaches ON (R33). -/
structure HeldWrite where
  q : Requester
  off : Nat
  size : Nat
  value : Nat
deriving DecidableEq, Repr

/-- What the device last sent out: the value and status of the last register or memory read made for a command's
sender, the bytes of the last response, and the frames or packets sent, newest first. -/
structure Out where
  value : Nat
  status : Nat
  resp : List Byte
  frames : List (List Byte)
deriving DecidableEq, Repr

/-- An entry of the mode log (OD 0x1C80): time, mode code, cause code when R468 gives one, and what else it records. -/
structure ModeEntry where
  time : Nat
  mode : Nat
  cause : Option Nat
  note : Nat
deriving DecidableEq, Repr

/-- The device-wide state: its mode (R5), the mode a repair returns to, S0 and S1 in bytes (R22), the primary half, the half
lost in HUSK, whether the bridge works, the physical core of each logical ID (R16; absent: the identity), and
whether the calibration trims are loaded (R162), the
links up, the events spent until their registers are read, the mode log with the newest first, and the object
dictionary's stored values (number + 1, absent: the default) and byte strings by index * 256 + subindex, the halves whose mesh runs at 1.5 GHz, and
the number of the Tilth TI as the last ROOT found it (R427), and whether the boot record holds the VAON-held record
(R151), and the last 64 UEr and UEf records, newest first (OD 0x1C00). -/
structure Sys where
  mode : Mode
  prevMode : Mode
  s0 : Nat
  s1 : Nat
  primary : Half
  lostHalf : Option Half
  bridgeUp : Bool
  physOf : SMap Nat
  trimmed : Bool
  linkUp : SMap Bool
  ethUp : SMap Bool
  potSpent : SMap Bool
  ioSpent : SMap Bool
  modeLog : List ModeEntry
  od : SMap Nat
  odBlob : SMap (List Byte)
  meshSlow : SMap Bool
  tilthTi : Nat
  vaonRecord : Bool
  errLog : List (List Byte)
deriving DecidableEq, Repr

end Sys2Proof.Machine
end

