-- ==== Sys2Proof/Machine/PartsTlt.lean ====
section
/-!
DEFINITION. PartsTlt: the parts of State that hold the two Tilths, the persistent store, the calibration set, start-up and
the ports (chapters "Tilth and the object dictionary", "Ports, lands and survival", "Start-up, modes and reset").
-/
namespace Sys2Proof.Machine

/-- An open management session (R425, R426): the half that serves it, its credential's world, role and index, the peer, the
keys and salts of both directions, the number above the last accepted sequence number, the next one of the device, and the
tick of its last valid frame. -/
structure Session where
  half : Nat
  world : Nat
  role : Nat
  cred : Nat
  peer : Nat
  keyIn : List Nat
  keyOut : List Nat
  saltIn : List Nat
  saltOut : List Nat
  seqIn : Nat
  seqOut : Nat
  seen : Nat
deriving DecidableEq, Repr

/-- A session between HELLO and FINISH: its half, credential, peer, what the signatures cover (HELLO and all of
HELLO_REPLY), the client's ephemeral key, Tilth's ephemeral secret and both nonces. -/
structure Opening where
  half : Nat
  cred : Nat
  peer : Nat
  covered : List Nat
  clientKey : List Nat
  secret : Nat
  nonces : List Nat
deriving DecidableEq, Repr

/-- A LEASE on its way (R410): epoch, sequence number, and the position and chain value of the last signed checkpoint, if there
is one. -/
structure Lease where
  epoch : Nat
  seq : Nat
  signed : Option (Nat × List Byte)
deriving DecidableEq, Repr

/-- A re-plan (R402): its half, the powered hours, and the readings by stop ID that it was made from. -/
structure PlanMade where
  half : Nat
  hours : Nat
  readings : SMap (List (Nat × Int))
deriving DecidableEq, Repr

/-- The training seeds of a channel's DIMMs (R359): their serial numbers, and per lane its number and rd, wr and vref. -/
structure Seed where
  serials : List Nat
  delays : List (Nat × Nat × Nat × Nat)
deriving DecidableEq, Repr

/-- The calibration set (R430): the body last committed (none: the factory's), how often the device has added to it, the
readings of each replica in 0.25 ps with their powered hours, oldest first, by stop ID, the re-plans made since, oldest
first, and the training seeds. -/
structure CalSet where
  base : Option (List Byte)
  version : Nat
  readings : SMap (List (Nat × Int))
  plans : List PlanMade
  seeds : List Seed
deriving DecidableEq, Repr

def CalSet.factory : CalSet := ⟨none, 0, [], [], []⟩

/-- A region of the persistent store, by its offset >> 20: what a store writes there; of the boot record, whether its
VAON-held part or a copy of the boot count. -/
inductive StoreWork where
  | boot (record : Bool)
  | od (nums : SMap Nat) (blobs : SMap (List Byte))
  | cal (c : CalSet)
  | fw (region : Nat) (bytes : List Byte)
deriving DecidableEq, Repr

/-- Where ROOT stands (R459): not begun, waiting for rails at step 1, stopped there by ROOT_RAIL_TIMEOUT, waiting for warmth
(R480), waiting for firmware at step 4, waiting for the bridge at step 8, held after step 8 by TEST_MODE, or done; then PROVE
(R462) and TUNE's own steps (R464) are done. -/
inductive RootStage where
  | none | rails | railsDead | cold | firmware | bridge | test | done | proved | tuned | served
deriving DecidableEq, Repr

/-- What ROOT found on the boot record and the store's regions (R429): the VAON-held part fails its CRC, the OD region fails,
the calibration set fails. -/
structure RootFound where
  recordBad : Bool
  odBad : Bool
  calBad : Bool
deriving DecidableEq, Repr

/-- The Tilths. `dropped` counts R424's frames per half; `alarm` is one more than the tick of the last EV 0x0E4; `stored` and
`storedBlob` are the OD region of the store; `broken` marks regions that a power failure cut while they were written;
`cal` is the calibration set in force and `calStored` the one in the store; `staging` is the staging copy, present with its length; `fwSel` and `fwStage` the firmware region selected and its
chunks, `fw` the regions stored in this run. `gritSeen`, `leaseSeen` are ticks, by half; `holdFrom` is a HOLD entry in
progress (R469). `straps` holds PRIM_SEL of H0 and H1, BOOT_SRC and TEST_MODE in bits 0 to 3. `fwTries` counts, by half,
refusals of the firmware, and 3 stands for a verified slot. `vaonArm` is the arm mask kept with the seal latch (R470). `pins`
holds ERROR_N at 0, THERMTRIP_N at 1 (true is asserted), GPIO8 at 2 (PPS_OUT) and, at 8 and up, the fans that are driven at
100 % for another fan's fault (R451). -/
structure Tlt where
  sessions : SMap (Option Session)
  opening : SMap (Option Opening)
  nextSid : Nat
  dropped : SMap Nat
  alarm : Nat
  storing : Option StoreWork
  storeFrom : Nat
  storeAgain : List StoreWork
  stored : SMap Nat
  storedBlob : SMap (List Byte)
  lastMask : Nat
  lastStatus : Nat
  lastMs : Nat
  broken : SMap Bool
  cal : CalSet
  calStored : CalSet
  staging : SMap Byte
  stagingLen : Option Nat
  fwSel : Option Nat
  fwStage : List Byte
  fw : SMap (List Byte)
  gritSeen : SMap Nat
  leaseSeen : SMap Nat
  leaseSeq : Nat
  leases : List Lease
  acks : List Nat
  lastLease : Lease
  holdFrom : Option Nat
  root : RootStage
  found : RootFound
  straps : Nat
  strapEvent : Bool
  fwTries : SMap Nat
  uefKept : Option (ErrRec × Nat)
  vaonArm : Nat
  sealedAtRoot : Bool
  poweredDown : Bool
  bootTries : Nat
  pins : SMap Bool
  i3cAddr : SMap Nat
  eid : SMap Nat
  noBaseline : Bool
deriving DecidableEq, Repr

def Tlt.empty : Tlt :=
  { sessions := [], opening := [], nextSid := 0, dropped := [], alarm := 0, storing := none, storeFrom := 0, storeAgain := [],
    stored := [], storedBlob := [], lastMask := 0, lastStatus := 0, lastMs := 0, broken := [], cal := CalSet.factory,
    calStored := CalSet.factory, staging := [], stagingLen := none, fwSel := none, fwStage := [], fw := [], gritSeen := [],
    leaseSeen := [], leaseSeq := 0, leases := [], acks := [], lastLease := ⟨0, 0, none⟩, holdFrom := none, root := .none,
    found := ⟨false, false, false⟩, straps := 0, strapEvent := false, fwTries := [], uefKept := none, vaonArm := 0,
    sealedAtRoot := false, poweredDown := false, bootTries := 0, pins := [], i3cAddr := [], eid := [], noBaseline := false }

/-- The ports beside their registers: the bifurcation that TUNE read for each port (R433), the IOTU's cache of RID entries (R437)
by port, then requester ID, one more than the entry; the tails and the next entries of the Ethernet rings (R440 to R442) by
half * 128 + queue; by half, the JTAG instruction register, which holds IDCODE after a reset, and what is preloaded into
the boundary cells (R447); and the tick at which GPIO8 last got an owner (R454). -/
structure Prt where
  bifur : SMap Nat
  iotu : SMap (SMap Nat)
  txTail : SMap Nat
  txNext : SMap Nat
  rxTail : SMap Nat
  rxNext : SMap Nat
  jtag : SMap Nat
  boundary : SMap (List Bool)
  landFrom : Nat
deriving DecidableEq, Repr

def Prt.empty : Prt := ⟨[], [], [], [], [], [], [], [], 0⟩

end Sys2Proof.Machine
end

