-- ==== Sys2Proof/Machine/PartsVrv.lean ====
section
/-!
DEFINITION. PartsVrv: the parts of State that hold the Varve ledger (R177 to R184).
-/
namespace Sys2Proof.Machine

/-- A ledger copy on its way to Varve (R94): its TI, generation and the 32 record bytes as written to the ring. -/
structure LedgerCopy where
  ti : Nat
  gen : Nat
  bytes : List Byte
deriving DecidableEq, Repr

/-- An open batch (R178): the number of its first leaf, its open stamp in units of 2^-16 ns, the tick it opened on and its
leaf hashes in leaf order. -/
structure OpenBatch where
  first : Nat
  time : Nat
  tick : Nat
  leaves : List (List Byte)
deriving DecidableEq, Repr

/-- A closed batch (R180); the stamps are in units of 2^-16 ns. -/
structure Batch where
  half : Nat
  number : Nat
  flags : Nat
  count : Nat
  epoch : Nat
  first : Nat
  opened : Nat
  closed : Nat
  root : List Byte
deriving DecidableEq, Repr

/-- What the non-primary Varve sends in the LDG class (R181). -/
inductive LdgMsg where
  | batch (b : Batch)
  | mark (w : Nat)
deriving DecidableEq, Repr

/-- The Varve of one half: copies not yet hashed, the open batch, the next batch number, the messages on their way to the
primary, and, at the primary, the closed batches of this half and its last watermark. -/
structure Vrv where
  copies : List LedgerCopy
  opened : Option OpenBatch
  nextBatch : Nat
  outbox : List LdgMsg
  queue : List Batch
  mark : Option Nat
deriving DecidableEq, Repr

def Vrv.empty : Vrv := ⟨[], none, 0, [], [], none⟩

/-- A checkpoint's signing task (R184): its TI, generation and queue-15 slot, the address of the checkpoint, the position and
chain value it covers, and the status once the task has ended. -/
structure Sign where
  ti : Nat
  gen : Nat
  slot : Nat
  addr : Nat
  pos : Nat
  chain : List Byte
  status : Option Nat
deriving DecidableEq, Repr

/-- The ledger: both Varves, the last chain value, the number of the next checkpoint, the last millisecond boundary that had
one, the signing tasks not yet written back, and the position and chain value of the last signed checkpoint (R410). -/
structure Ledger where
  halves : SMap Vrv
  chain : List Byte
  ckptNo : Nat
  boundary : Option Nat
  signs : List Sign
  signed : Option (Nat × List Byte)
deriving DecidableEq, Repr

def Ledger.empty : Ledger := ⟨[], [], 0, none, [], none⟩

end Sys2Proof.Machine
end

