-- ==== Sys2Proof/Machine/RegMap.lean ====
section
/-!
DEFINITION. RegMap: the registers of the device register space as the chapters' register tables give them, one `Fld`
per field, with its place, type (R7), writers (R10) and reset value, and the table from offsets to registers (R24).
-/
namespace Sys2Proof.Machine

/-- The Type column (R7). RAZ/WI ranges are not listed: a word's other bits read 0 and ignore writes (R8). -/
inductive FTy where
  | ro | rw | w1c | w1s | rc | wo
deriving DecidableEq, Repr

/-- Reset values that depend on the instance. -/
inductive RstKind where
  | zero | inst | cluster | preempt | primary | secureId | rail | railValid | plan
deriving DecidableEq, Repr

/-- One field of a register: its number in this map, low bit, width, type, Writers mask and reset value. -/
structure Fld where
  id : Nat
  lo : Nat
  width : Nat
  ty : FTy
  writers : Nat
  rst : Nat
  kind : RstKind
deriving DecidableEq, Repr

/-- One register, or array of registers, of a block class. -/
structure RegDef where
  cls : Nat
  off : Nat
  stride : Nat
  count : Nat
  fields : List Fld
deriving DecidableEq, Repr

namespace Reg

/-! PFX_ID: 01_organization.md, R29. -/
def PFX_ID.block_class : Fld := ⟨0, 0, 8, .ro, 0, 0, .zero⟩
def PFX_ID.instance : Fld := ⟨1, 8, 12, .ro, 0, 0, .zero⟩
def PFX_ID.design_rev : Fld := ⟨2, 20, 4, .ro, 0, 1, .zero⟩
def PFX_ID.stop_id : Fld := ⟨3, 24, 9, .ro, 0, 0, .zero⟩
def PFX_ID.reg : RegDef := ⟨0x0, 0x0, 0x0, 1,
  [PFX_ID.block_class, PFX_ID.instance, PFX_ID.design_rev, PFX_ID.stop_id]⟩
/-! PFX_CTL: 01_organization.md, R29. -/
def PFX_CTL.enable : Fld := ⟨4, 0, 1, .rw, 0, 0, .zero⟩
def PFX_CTL.reg : RegDef := ⟨0x0, 0x8, 0x0, 1,
  [PFX_CTL.enable]⟩
/-! PFX_STATE: 01_organization.md, R29. -/
def PFX_STATE.state : Fld := ⟨5, 0, 3, .ro, 0, 0, .zero⟩
def PFX_STATE.restart_pending : Fld := ⟨6, 3, 1, .ro, 0, 0, .zero⟩
def PFX_STATE.held : Fld := ⟨7, 4, 1, .ro, 0, 0, .zero⟩
def PFX_STATE.last_status : Fld := ⟨8, 8, 8, .ro, 0, 0, .zero⟩
def PFX_STATE.generation : Fld := ⟨9, 16, 16, .ro, 0, 0, .zero⟩
def PFX_STATE.reg : RegDef := ⟨0x0, 0x10, 0x0, 1,
  [PFX_STATE.state, PFX_STATE.restart_pending, PFX_STATE.held, PFX_STATE.last_status, PFX_STATE.generation]⟩
/-! PRT_BLOCK_EVT: 01_organization.md, R32. -/
def PRT_BLOCK_EVT.block_class : Fld := ⟨10, 0, 8, .ro, 0, 0, .zero⟩
def PRT_BLOCK_EVT.instance : Fld := ⟨11, 8, 12, .ro, 0, 0, .zero⟩
def PRT_BLOCK_EVT.restart : Fld := ⟨12, 20, 1, .ro, 0, 0, .zero⟩
def PRT_BLOCK_EVT.last_status : Fld := ⟨13, 24, 8, .ro, 0, 0, .zero⟩
def PRT_BLOCK_EVT.count : Fld := ⟨14, 32, 16, .rc, 0, 0, .zero⟩
def PRT_BLOCK_EVT.reg : RegDef := ⟨0x12, 0x800, 0x0, 1,
  [PRT_BLOCK_EVT.block_class, PRT_BLOCK_EVT.instance, PRT_BLOCK_EVT.restart, PRT_BLOCK_EVT.last_status, PRT_BLOCK_EVT.count]⟩
/-! PRT_CLAIM: 01_organization.md, R37. -/
def PRT_CLAIM.held : Fld := ⟨15, 0, 1, .ro, 0, 0, .zero⟩
def PRT_CLAIM.preemptible : Fld := ⟨16, 1, 1, .ro, 0, 0, .preempt⟩
def PRT_CLAIM.owner_actor : Fld := ⟨17, 2, 2, .ro, 0, 0, .zero⟩
def PRT_CLAIM.owner_class : Fld := ⟨18, 4, 8, .ro, 0, 0, .zero⟩
def PRT_CLAIM.owner_instance : Fld := ⟨19, 12, 12, .ro, 0, 0, .zero⟩
def PRT_CLAIM.claims_lost : Fld := ⟨20, 32, 16, .rc, 0, 0, .zero⟩
def PRT_CLAIM.reg : RegDef := ⟨0x12, 0x1000, 0x8, 130,
  [PRT_CLAIM.held, PRT_CLAIM.preemptible, PRT_CLAIM.owner_actor, PRT_CLAIM.owner_class, PRT_CLAIM.owner_instance, PRT_CLAIM.claims_lost]⟩
/-! SVC_SRAM_WIN: 02_silt_engines.md, R62. -/
def SVC_SRAM_WIN.assigned : Fld := ⟨21, 0, 1, .rw, 5, 0, .zero⟩
def SVC_SRAM_WIN.pool : Fld := ⟨22, 1, 5, .rw, 5, 0, .zero⟩
def SVC_SRAM_WIN.zeroing : Fld := ⟨23, 8, 1, .ro, 0, 0, .zero⟩
def SVC_SRAM_WIN.denied : Fld := ⟨24, 9, 1, .ro, 0, 0, .zero⟩
def SVC_SRAM_WIN.reg : RegDef := ⟨0x5, 0x800, 0x8, 32,
  [SVC_SRAM_WIN.assigned, SVC_SRAM_WIN.pool, SVC_SRAM_WIN.zeroing, SVC_SRAM_WIN.denied]⟩
/-! HPN_POOL: 02_silt_engines.md, R66. -/
def HPN_POOL.valid : Fld := ⟨25, 0, 1, .rw, 4, 0, .zero⟩
def HPN_POOL.world : Fld := ⟨26, 1, 1, .rw, 4, 0, .zero⟩
def HPN_POOL.members : Fld := ⟨27, 16, 10, .ro, 0, 0, .zero⟩
def HPN_POOL.busy : Fld := ⟨28, 26, 1, .ro, 0, 0, .zero⟩
def HPN_POOL.reg : RegDef := ⟨0x6, 0x4000, 0x8, 32,
  [HPN_POOL.valid, HPN_POOL.world, HPN_POOL.members, HPN_POOL.busy]⟩
/-! SLT_POOL: 02_silt_engines.md, R67. -/
def SLT_POOL.cur_pool : Fld := ⟨29, 0, 5, .ro, 0, 0, .zero⟩
def SLT_POOL.member : Fld := ⟨30, 5, 1, .ro, 0, 0, .zero⟩
def SLT_POOL.target_pool : Fld := ⟨31, 8, 5, .rw, 5, 0, .zero⟩
def SLT_POOL.target_member : Fld := ⟨32, 13, 1, .rw, 5, 0, .zero⟩
def SLT_POOL.leaving : Fld := ⟨33, 16, 1, .ro, 0, 0, .zero⟩
def SLT_POOL.denied : Fld := ⟨34, 17, 1, .ro, 0, 0, .zero⟩
def SLT_POOL.reg : RegDef := ⟨0x2, 0x108, 0x0, 1,
  [SLT_POOL.cur_pool, SLT_POOL.member, SLT_POOL.target_pool, SLT_POOL.target_member, SLT_POOL.leaving, SLT_POOL.denied]⟩
/-! SLT_RUN: 02_silt_engines.md, R70. -/
def SLT_RUN.state : Fld := ⟨35, 0, 3, .ro, 0, 4, .zero⟩
def SLT_RUN.tenant : Fld := ⟨36, 8, 12, .ro, 0, 0, .zero⟩
def SLT_RUN.service : Fld := ⟨37, 20, 12, .ro, 0, 0, .zero⟩
def SLT_RUN.pc : Fld := ⟨38, 32, 13, .ro, 0, 0, .zero⟩
def SLT_RUN.reg : RegDef := ⟨0x2, 0x100, 0x0, 1,
  [SLT_RUN.state, SLT_RUN.tenant, SLT_RUN.service, SLT_RUN.pc]⟩
/-! SLT_FAULT: 02_silt_engines.md, R70. -/
def SLT_FAULT.cause : Fld := ⟨39, 0, 8, .ro, 0, 0, .zero⟩
def SLT_FAULT.status : Fld := ⟨40, 8, 8, .ro, 0, 0, .zero⟩
def SLT_FAULT.in_slot : Fld := ⟨41, 16, 1, .ro, 0, 0, .zero⟩
def SLT_FAULT.count : Fld := ⟨42, 24, 8, .rc, 0, 0, .zero⟩
def SLT_FAULT.epc : Fld := ⟨43, 32, 13, .ro, 0, 0, .zero⟩
def SLT_FAULT.enpc : Fld := ⟨44, 48, 13, .ro, 0, 0, .zero⟩
def SLT_FAULT.reg : RegDef := ⟨0x2, 0x110, 0x0, 1,
  [SLT_FAULT.cause, SLT_FAULT.status, SLT_FAULT.in_slot, SLT_FAULT.count, SLT_FAULT.epc, SLT_FAULT.enpc]⟩
/-! SLT_CACHE: 02_silt_engines.md, R70. -/
def SLT_CACHE.enable : Fld := ⟨45, 0, 1, .rw, 5, 1, .zero⟩
def SLT_CACHE.invalidate : Fld := ⟨46, 1, 1, .wo, 5, 0, .zero⟩
def SLT_CACHE.unlock_all : Fld := ⟨47, 2, 1, .wo, 5, 0, .zero⟩
def SLT_CACHE.lock_mask : Fld := ⟨48, 4, 4, .ro, 0, 0, .zero⟩
def SLT_CACHE.reg : RegDef := ⟨0x2, 0x120, 0x0, 1,
  [SLT_CACHE.enable, SLT_CACHE.invalidate, SLT_CACHE.unlock_all, SLT_CACHE.lock_mask]⟩
/-! SLT_LFSR: 02_silt_engines.md, R70. -/
def SLT_LFSR.value : Fld := ⟨49, 0, 16, .rw, 12, 1, .inst⟩
def SLT_LFSR.reg : RegDef := ⟨0x2, 0x128, 0x0, 1,
  [SLT_LFSR.value]⟩
/-! SLT_DEBUG: 02_silt_engines.md, R70. -/
def SLT_DEBUG.halt : Fld := ⟨50, 0, 1, .w1s, 5, 0, .zero⟩
def SLT_DEBUG.step : Fld := ⟨51, 1, 1, .wo, 5, 0, .zero⟩
def SLT_DEBUG.resume : Fld := ⟨52, 2, 1, .wo, 5, 0, .zero⟩
def SLT_DEBUG.halted : Fld := ⟨53, 8, 1, .ro, 0, 0, .zero⟩
def SLT_DEBUG.reg : RegDef := ⟨0x2, 0x130, 0x0, 1,
  [SLT_DEBUG.halt, SLT_DEBUG.step, SLT_DEBUG.resume, SLT_DEBUG.halted]⟩
/-! SLT_TASK_LIMIT: 02_silt_engines.md, R71. -/
def SLT_TASK_LIMIT.limit : Fld := ⟨54, 0, 20, .rw, 5, 1024, .zero⟩
def SLT_TASK_LIMIT.reg : RegDef := ⟨0x2, 0x138, 0x0, 1,
  [SLT_TASK_LIMIT.limit]⟩
/-! SLT_COUNT: 02_silt_engines.md, R71. -/
def SLT_COUNT.tasks : Fld := ⟨55, 0, 32, .rc, 0, 0, .zero⟩
def SLT_COUNT.misses : Fld := ⟨56, 32, 32, .rc, 0, 0, .zero⟩
def SLT_COUNT.reg : RegDef := ⟨0x2, 0x140, 0x0, 1,
  [SLT_COUNT.tasks, SLT_COUNT.misses]⟩
/-! DSP_STEAL_CTL: 03_dispatch_and_stealing.md, R85. -/
def DSP_STEAL_CTL.local_tries : Fld := ⟨57, 0, 4, .rw, 5, 4, .zero⟩
def DSP_STEAL_CTL.remote_tries : Fld := ⟨58, 4, 4, .rw, 5, 2, .zero⟩
def DSP_STEAL_CTL.cross_half : Fld := ⟨59, 8, 1, .rw, 5, 0, .zero⟩
def DSP_STEAL_CTL.victim_mode : Fld := ⟨60, 9, 2, .rw, 5, 0, .zero⟩
def DSP_STEAL_CTL.backoff : Fld := ⟨61, 16, 8, .rw, 5, 4, .zero⟩
def DSP_STEAL_CTL.min_victim : Fld := ⟨62, 24, 6, .rw, 5, 2, .zero⟩
def DSP_STEAL_CTL.reg : RegDef := ⟨0x3, 0x40, 0x0, 1,
  [DSP_STEAL_CTL.local_tries, DSP_STEAL_CTL.remote_tries, DSP_STEAL_CTL.cross_half, DSP_STEAL_CTL.victim_mode, DSP_STEAL_CTL.backoff, DSP_STEAL_CTL.min_victim]⟩
/-! DSP_STEAL_LFSR: 03_dispatch_and_stealing.md, R85. -/
def DSP_STEAL_LFSR.value : Fld := ⟨63, 0, 16, .rw, 12, 1, .cluster⟩
def DSP_STEAL_LFSR.reg : RegDef := ⟨0x3, 0x180, 0x8, 8,
  [DSP_STEAL_LFSR.value]⟩
/-! DSP_POOL_LINK: 03_dispatch_and_stealing.md, R85. -/
def DSP_POOL_LINK.link_valid : Fld := ⟨64, 0, 1, .rw, 5, 0, .zero⟩
def DSP_POOL_LINK.peer_pool : Fld := ⟨65, 1, 5, .rw, 5, 0, .zero⟩
def DSP_POOL_LINK.steal_out : Fld := ⟨66, 8, 1, .rw, 5, 0, .zero⟩
def DSP_POOL_LINK.cross_route : Fld := ⟨67, 9, 1, .rw, 5, 0, .zero⟩
def DSP_POOL_LINK.denied : Fld := ⟨68, 16, 1, .ro, 0, 0, .zero⟩
def DSP_POOL_LINK.reg : RegDef := ⟨0x3, 0x200, 0x8, 32,
  [DSP_POOL_LINK.link_valid, DSP_POOL_LINK.peer_pool, DSP_POOL_LINK.steal_out, DSP_POOL_LINK.cross_route, DSP_POOL_LINK.denied]⟩
/-! DSP_LAUNCH_CTL: 03_dispatch_and_stealing.md, R87. -/
def DSP_LAUNCH_CTL.lead : Fld := ⟨69, 0, 12, .rw, 5, 1000, .zero⟩
def DSP_LAUNCH_CTL.max_timed : Fld := ⟨70, 16, 5, .rw, 5, 8, .zero⟩
def DSP_LAUNCH_CTL.horizon : Fld := ⟨71, 32, 16, .rw, 5, 1000, .zero⟩
def DSP_LAUNCH_CTL.reg : RegDef := ⟨0x3, 0x110, 0x0, 1,
  [DSP_LAUNCH_CTL.lead, DSP_LAUNCH_CTL.max_timed, DSP_LAUNCH_CTL.horizon]⟩
/-! CLT_LANE: 03_dispatch_and_stealing.md, R96. -/
def CLT_LANE.occupancy : Fld := ⟨72, 0, 7, .ro, 0, 0, .zero⟩
def CLT_LANE.remote : Fld := ⟨73, 8, 3, .ro, 0, 0, .zero⟩
def CLT_LANE.max_delay : Fld := ⟨74, 16, 16, .rc, 0, 0, .zero⟩
def CLT_LANE.records : Fld := ⟨75, 32, 32, .rc, 0, 0, .zero⟩
def CLT_LANE.reg : RegDef := ⟨0x4, 0x200, 0x8, 8,
  [CLT_LANE.occupancy, CLT_LANE.remote, CLT_LANE.max_delay, CLT_LANE.records]⟩
/-! CLT_COUNT: 03_dispatch_and_stealing.md, R96. -/
def CLT_COUNT.accepted : Fld := ⟨76, 0, 32, .rc, 0, 0, .zero⟩
def CLT_COUNT.stale : Fld := ⟨77, 32, 32, .rc, 0, 0, .zero⟩
def CLT_COUNT.reg : RegDef := ⟨0x4, 0x100, 0x0, 1,
  [CLT_COUNT.accepted, CLT_COUNT.stale]⟩
/-! DSP_FETCH_CTL: 03_dispatch_and_stealing.md, R99. -/
def DSP_FETCH_CTL.burst : Fld := ⟨78, 0, 3, .rw, 5, 4, .zero⟩
def DSP_FETCH_CTL.pause : Fld := ⟨79, 8, 1, .rw, 13, 0, .zero⟩
def DSP_FETCH_CTL.reg : RegDef := ⟨0x3, 0x100, 0x0, 1,
  [DSP_FETCH_CTL.burst, DSP_FETCH_CTL.pause]⟩
/-! DSP_ROUTE_CTL: 03_dispatch_and_stealing.md, R99. -/
def DSP_ROUTE_CTL.spill_level : Fld := ⟨80, 0, 10, .rw, 5, 448, .zero⟩
def DSP_ROUTE_CTL.reg : RegDef := ⟨0x3, 0x108, 0x0, 1,
  [DSP_ROUTE_CTL.spill_level]⟩
/-! DSP_COUNT: 03_dispatch_and_stealing.md, R99. -/
def DSP_COUNT.stale : Fld := ⟨81, 0, 32, .rc, 0, 0, .zero⟩
def DSP_COUNT.bad_doorbell : Fld := ⟨82, 32, 16, .rc, 0, 0, .zero⟩
def DSP_COUNT.reissued : Fld := ⟨83, 48, 16, .rc, 0, 0, .zero⟩
def DSP_COUNT.reg : RegDef := ⟨0x3, 0x120, 0x0, 1,
  [DSP_COUNT.stale, DSP_COUNT.bad_doorbell, DSP_COUNT.reissued]⟩
/-! DSP_STEAL_COUNT: 03_dispatch_and_stealing.md, R99. -/
def DSP_STEAL_COUNT.local : Fld := ⟨84, 0, 32, .rc, 0, 0, .zero⟩
def DSP_STEAL_COUNT.cluster : Fld := ⟨85, 32, 16, .rc, 0, 0, .zero⟩
def DSP_STEAL_COUNT.half : Fld := ⟨86, 48, 16, .rc, 0, 0, .zero⟩
def DSP_STEAL_COUNT.reg : RegDef := ⟨0x3, 0x128, 0x0, 1,
  [DSP_STEAL_COUNT.local, DSP_STEAL_COUNT.cluster, DSP_STEAL_COUNT.half]⟩
/-! SVC_IMG: 04_transaction_services.md, R128. -/
def SVC_IMG.valid : Fld := ⟨87, 0, 1, .ro, 0, 0, .zero⟩
def SVC_IMG.world : Fld := ⟨88, 1, 2, .ro, 0, 0, .zero⟩
def SVC_IMG.services : Fld := ⟨89, 8, 8, .ro, 0, 0, .zero⟩
def SVC_IMG.body_len : Fld := ⟨90, 16, 16, .ro, 0, 0, .zero⟩
def SVC_IMG.version : Fld := ⟨91, 32, 32, .ro, 0, 0, .zero⟩
def SVC_IMG.reg : RegDef := ⟨0x5, 0x100, 0x8, 4,
  [SVC_IMG.valid, SVC_IMG.world, SVC_IMG.services, SVC_IMG.body_len, SVC_IMG.version]⟩
/-! SVC_LOAD: 04_transaction_services.md, R128. -/
def SVC_LOAD.slot : Fld := ⟨92, 0, 2, .rw, 5, 0, .zero⟩
def SVC_LOAD.go : Fld := ⟨93, 4, 1, .wo, 5, 0, .zero⟩
def SVC_LOAD.busy : Fld := ⟨94, 5, 1, .ro, 0, 0, .zero⟩
def SVC_LOAD.last_status : Fld := ⟨95, 8, 8, .ro, 0, 0, .zero⟩
def SVC_LOAD.pending : Fld := ⟨96, 16, 7, .ro, 0, 0, .zero⟩
def SVC_LOAD.reg : RegDef := ⟨0x5, 0x140, 0x0, 1,
  [SVC_LOAD.slot, SVC_LOAD.go, SVC_LOAD.busy, SVC_LOAD.last_status, SVC_LOAD.pending]⟩
/-! SVC_LOAD_ADDR: 04_transaction_services.md, R128. -/
def SVC_LOAD_ADDR.addr : Fld := ⟨97, 6, 46, .rw, 5, 0, .zero⟩
def SVC_LOAD_ADDR.reg : RegDef := ⟨0x5, 0x148, 0x0, 1,
  [SVC_LOAD_ADDR.addr]⟩
/-! SVC_POOL_IMG: 04_transaction_services.md, R128. -/
def SVC_POOL_IMG.slot : Fld := ⟨98, 0, 2, .rw, 5, 0, .zero⟩
def SVC_POOL_IMG.bound : Fld := ⟨99, 2, 1, .rw, 5, 0, .zero⟩
def SVC_POOL_IMG.denied : Fld := ⟨100, 8, 1, .ro, 0, 0, .zero⟩
def SVC_POOL_IMG.reg : RegDef := ⟨0x5, 0x200, 0x8, 32,
  [SVC_POOL_IMG.slot, SVC_POOL_IMG.bound, SVC_POOL_IMG.denied]⟩
/-! POT_CTL: 05_hardpan.md, R138. -/
def POT_CTL.armed : Fld := ⟨101, 0, 1, .w1s, 4, 0, .zero⟩
def POT_CTL.reg : RegDef := ⟨0x7, 0x100, 0x0, 1,
  [POT_CTL.armed]⟩
/-! POT_MEM_BASE: 05_hardpan.md, R138. -/
def POT_MEM_BASE.addr : Fld := ⟨102, 12, 40, .rw, 4, 0, .zero⟩
def POT_MEM_BASE.reg : RegDef := ⟨0x7, 0x108, 0x0, 1,
  [POT_MEM_BASE.addr]⟩
/-! POT_CXL_BASE: 05_hardpan.md, R138. -/
def POT_CXL_BASE.addr : Fld := ⟨103, 12, 40, .rw, 4, 0, .zero⟩
def POT_CXL_BASE.reg : RegDef := ⟨0x7, 0x110, 0x0, 1,
  [POT_CXL_BASE.addr]⟩
/-! POT_DRS_BASE: 05_hardpan.md, R138. -/
def POT_DRS_BASE.addr : Fld := ⟨104, 12, 40, .rw, 4, 0, .zero⟩
def POT_DRS_BASE.reg : RegDef := ⟨0x7, 0x120, 0x0, 1,
  [POT_DRS_BASE.addr]⟩
/-! POT_CXL_PAGES: 05_hardpan.md, R138. -/
def POT_CXL_PAGES.pages : Fld := ⟨105, 0, 32, .rw, 4, 0, .zero⟩
def POT_CXL_PAGES.reg : RegDef := ⟨0x7, 0x118, 0x0, 1,
  [POT_CXL_PAGES.pages]⟩
/-! POT_INVAL_ADDR: 05_hardpan.md, R138. -/
def POT_INVAL_ADDR.index : Fld := ⟨106, 0, 40, .rw, 4, 0, .zero⟩
def POT_INVAL_ADDR.reg : RegDef := ⟨0x7, 0x140, 0x0, 1,
  [POT_INVAL_ADDR.index]⟩
/-! POT_INVAL: 05_hardpan.md, R138. -/
def POT_INVAL.count : Fld := ⟨107, 0, 20, .rw, 4, 0, .zero⟩
def POT_INVAL.table : Fld := ⟨108, 20, 2, .rw, 4, 0, .zero⟩
def POT_INVAL.flush : Fld := ⟨109, 24, 1, .rw, 4, 0, .zero⟩
def POT_INVAL.all : Fld := ⟨110, 25, 1, .rw, 4, 0, .zero⟩
def POT_INVAL.go : Fld := ⟨111, 32, 1, .wo, 4, 0, .zero⟩
def POT_INVAL.busy : Fld := ⟨112, 33, 1, .ro, 0, 0, .zero⟩
def POT_INVAL.last_status : Fld := ⟨113, 40, 8, .ro, 0, 0, .zero⟩
def POT_INVAL.reg : RegDef := ⟨0x7, 0x148, 0x0, 1,
  [POT_INVAL.count, POT_INVAL.table, POT_INVAL.flush, POT_INVAL.all, POT_INVAL.go, POT_INVAL.busy, POT_INVAL.last_status]⟩
/-! POT_FAULT: 05_hardpan.md, R138. -/
def POT_FAULT.kind : Fld := ⟨114, 0, 3, .ro, 0, 0, .zero⟩
def POT_FAULT.access : Fld := ⟨115, 3, 2, .ro, 0, 0, .zero⟩
def POT_FAULT.owner : Fld := ⟨116, 5, 2, .ro, 0, 0, .zero⟩
def POT_FAULT.invalid : Fld := ⟨117, 7, 1, .ro, 0, 0, .zero⟩
def POT_FAULT.tenant : Fld := ⟨118, 8, 12, .ro, 0, 0, .zero⟩
def POT_FAULT.count : Fld := ⟨119, 32, 16, .rc, 0, 0, .zero⟩
def POT_FAULT.reg : RegDef := ⟨0x7, 0x168, 0x0, 1,
  [POT_FAULT.kind, POT_FAULT.access, POT_FAULT.owner, POT_FAULT.invalid, POT_FAULT.tenant, POT_FAULT.count]⟩
/-! HPN_DEBUG: 05_hardpan.md, R146. -/
def HPN_DEBUG.t_noninv : Fld := ⟨120, 0, 1, .rw, 5, 0, .zero⟩
def HPN_DEBUG.t_inv : Fld := ⟨121, 1, 1, .rw, 5, 0, .zero⟩
def HPN_DEBUG.h_noninv : Fld := ⟨122, 2, 1, .rw, 4, 0, .zero⟩
def HPN_DEBUG.h_inv : Fld := ⟨123, 3, 1, .rw, 4, 0, .zero⟩
def HPN_DEBUG.t_lock : Fld := ⟨124, 8, 1, .w1s, 4, 0, .zero⟩
def HPN_DEBUG.h_lock : Fld := ⟨125, 9, 1, .w1s, 4, 0, .zero⟩
def HPN_DEBUG.reg : RegDef := ⟨0x6, 0x140, 0x0, 1,
  [HPN_DEBUG.t_noninv, HPN_DEBUG.t_inv, HPN_DEBUG.h_noninv, HPN_DEBUG.h_inv, HPN_DEBUG.t_lock, HPN_DEBUG.h_lock]⟩
/-! PWR_HOLD: 05_hardpan.md, R147. -/
def PWR_HOLD.hold : Fld := ⟨126, 0, 1, .rw, 4, 0, .zero⟩
def PWR_HOLD.floor_mhz : Fld := ⟨127, 4, 12, .rw, 4, 0, .zero⟩
def PWR_HOLD.pend_gate : Fld := ⟨128, 16, 1, .ro, 0, 0, .zero⟩
def PWR_HOLD.pend_off : Fld := ⟨129, 17, 1, .ro, 0, 0, .zero⟩
def PWR_HOLD.pend_scale : Fld := ⟨130, 18, 1, .ro, 0, 0, .zero⟩
def PWR_HOLD.pend_mhz : Fld := ⟨131, 20, 12, .ro, 0, 0, .zero⟩
def PWR_HOLD.last_status : Fld := ⟨132, 32, 8, .ro, 0, 0, .zero⟩
def PWR_HOLD.lost : Fld := ⟨133, 40, 1, .w1c, 4, 0, .zero⟩
def PWR_HOLD.reg : RegDef := ⟨0xF, 0x2000, 0x8, 159,
  [PWR_HOLD.hold, PWR_HOLD.floor_mhz, PWR_HOLD.pend_gate, PWR_HOLD.pend_off, PWR_HOLD.pend_scale, PWR_HOLD.pend_mhz, PWR_HOLD.last_status, PWR_HOLD.lost]⟩
/-! HPN_STATUS: 05_hardpan.md, R491. -/
def HPN_STATUS.state : Fld := ⟨134, 0, 3, .ro, 0, 0, .zero⟩
def HPN_STATUS.restarts : Fld := ⟨135, 8, 8, .ro, 0, 0, .zero⟩
def HPN_STATUS.cores : Fld := ⟨136, 16, 4, .ro, 0, 2, .zero⟩
def HPN_STATUS.reg : RegDef := ⟨0x6, 0x100, 0x0, 1,
  [HPN_STATUS.state, HPN_STATUS.restarts, HPN_STATUS.cores]⟩
/-! HPN_HEARTBEAT: 05_hardpan.md, R491. -/
def HPN_HEARTBEAT.count : Fld := ⟨137, 0, 32, .rw, 4, 0, .zero⟩
def HPN_HEARTBEAT.reg : RegDef := ⟨0x6, 0x108, 0x0, 1,
  [HPN_HEARTBEAT.count]⟩
/-! HPN_RESTART: 05_hardpan.md, R491. -/
def HPN_RESTART.auto : Fld := ⟨138, 0, 1, .rw, 8, 1, .zero⟩
def HPN_RESTART.go : Fld := ⟨139, 1, 1, .wo, 8, 0, .zero⟩
def HPN_RESTART.fails : Fld := ⟨140, 4, 2, .ro, 0, 0, .zero⟩
def HPN_RESTART.reg : RegDef := ⟨0x6, 0x110, 0x0, 1,
  [HPN_RESTART.auto, HPN_RESTART.go, HPN_RESTART.fails]⟩
/-! HPN_CALL_CTL: 05_hardpan.md, R491. -/
def HPN_CALL_CTL.stub_limit : Fld := ⟨141, 0, 12, .rw, 4, 50, .zero⟩
def HPN_CALL_CTL.mbox_base : Fld := ⟨142, 12, 40, .rw, 4, 0, .zero⟩
def HPN_CALL_CTL.reg : RegDef := ⟨0x6, 0x120, 0x0, 1,
  [HPN_CALL_CTL.stub_limit, HPN_CALL_CTL.mbox_base]⟩
/-! HPN_KEY_CMD: 05_hardpan.md, R493. -/
def HPN_KEY_CMD.op : Fld := ⟨143, 0, 8, .rw, 4, 0, .zero⟩
def HPN_KEY_CMD.go : Fld := ⟨144, 8, 1, .wo, 4, 0, .zero⟩
def HPN_KEY_CMD.busy : Fld := ⟨145, 9, 1, .ro, 0, 0, .zero⟩
def HPN_KEY_CMD.last_status : Fld := ⟨146, 16, 8, .ro, 0, 0, .zero⟩
def HPN_KEY_CMD.reg : RegDef := ⟨0x6, 0x300, 0x0, 1,
  [HPN_KEY_CMD.op, HPN_KEY_CMD.go, HPN_KEY_CMD.busy, HPN_KEY_CMD.last_status]⟩
/-! HPN_TAMPER: 05_hardpan.md, R158. -/
def HPN_TAMPER.arm : Fld := ⟨147, 0, 5, .rw, 4, 0, .zero⟩
def HPN_TAMPER.tripped : Fld := ⟨148, 8, 5, .w1c, 4, 0, .zero⟩
def HPN_TAMPER.debounce : Fld := ⟨149, 16, 12, .rw, 4, 10, .zero⟩
def HPN_TAMPER.seal_now : Fld := ⟨150, 32, 1, .wo, 4, 0, .zero⟩
def HPN_TAMPER.latch : Fld := ⟨151, 33, 1, .ro, 0, 0, .zero⟩
def HPN_TAMPER.first_cause : Fld := ⟨152, 36, 4, .ro, 0, 0, .zero⟩
def HPN_TAMPER.reg : RegDef := ⟨0x6, 0x150, 0x0, 1,
  [HPN_TAMPER.arm, HPN_TAMPER.tripped, HPN_TAMPER.debounce, HPN_TAMPER.seal_now, HPN_TAMPER.latch, HPN_TAMPER.first_cause]⟩
/-! STR_CTL: 06_strata_and_varve.md, R176. -/
def STR_CTL.source : Fld := ⟨153, 0, 2, .rw, 12, 0, .zero⟩
def STR_CTL.t_discipline : Fld := ⟨154, 4, 1, .rw, 4, 0, .zero⟩
def STR_CTL.hold_timeout : Fld := ⟨155, 8, 8, .rw, 12, 4, .zero⟩
def STR_CTL.reg : RegDef := ⟨0x8, 0x100, 0x0, 1,
  [STR_CTL.source, STR_CTL.t_discipline, STR_CTL.hold_timeout]⟩
/-! STR_STATUS: 06_strata_and_varve.md, R176. -/
def STR_STATUS.state : Fld := ⟨156, 0, 2, .ro, 0, 0, .zero⟩
def STR_STATUS.master : Fld := ⟨157, 2, 1, .ro, 0, 0, .primary⟩
def STR_STATUS.ref10 : Fld := ⟨158, 3, 1, .ro, 0, 0, .zero⟩
def STR_STATUS.pps : Fld := ⟨159, 4, 1, .ro, 0, 0, .zero⟩
def STR_STATUS.untrimmed : Fld := ⟨160, 5, 1, .ro, 0, 0, .zero⟩
def STR_STATUS.denied : Fld := ⟨161, 6, 1, .ro, 0, 0, .zero⟩
def STR_STATUS.bad_write : Fld := ⟨162, 7, 1, .ro, 0, 0, .zero⟩
def STR_STATUS.epoch : Fld := ⟨163, 16, 16, .ro, 0, 0, .zero⟩
def STR_STATUS.sync_errors : Fld := ⟨164, 32, 16, .rc, 0, 0, .zero⟩
def STR_STATUS.holdover_s : Fld := ⟨165, 48, 16, .ro, 0, 0, .zero⟩
def STR_STATUS.reg : RegDef := ⟨0x8, 0x108, 0x0, 1,
  [STR_STATUS.state, STR_STATUS.master, STR_STATUS.ref10, STR_STATUS.pps, STR_STATUS.untrimmed, STR_STATUS.denied, STR_STATUS.bad_write, STR_STATUS.epoch, STR_STATUS.sync_errors, STR_STATUS.holdover_s]⟩
/-! STR_RATE: 06_strata_and_varve.md, R176. -/
def STR_RATE.rate : Fld := ⟨166, 0, 32, .rw, 13, 0, .zero⟩
def STR_RATE.reg : RegDef := ⟨0x8, 0x120, 0x0, 1,
  [STR_RATE.rate]⟩
/-! STR_STEP: 06_strata_and_varve.md, R176. -/
def STR_STEP.step : Fld := ⟨167, 0, 48, .rw, 13, 0, .zero⟩
def STR_STEP.go : Fld := ⟨168, 63, 1, .wo, 13, 0, .zero⟩
def STR_STEP.reg : RegDef := ⟨0x8, 0x128, 0x0, 1,
  [STR_STEP.step, STR_STEP.go]⟩
/-! STR_SET_LO: 06_strata_and_varve.md, R176. -/
def STR_SET_LO.value : Fld := ⟨169, 0, 64, .rw, 13, 0, .zero⟩
def STR_SET_LO.reg : RegDef := ⟨0x8, 0x130, 0x0, 1,
  [STR_SET_LO.value]⟩
/-! STR_SET_HI: 06_strata_and_varve.md, R176. -/
def STR_SET_HI.sec_hi : Fld := ⟨170, 0, 32, .rw, 13, 0, .zero⟩
def STR_SET_HI.go : Fld := ⟨171, 63, 1, .wo, 13, 0, .zero⟩
def STR_SET_HI.reg : RegDef := ⟨0x8, 0x138, 0x0, 1,
  [STR_SET_HI.sec_hi, STR_SET_HI.go]⟩
/-! STR_PPS: 06_strata_and_varve.md, R176. -/
def STR_PPS.offset_ns : Fld := ⟨172, 0, 16, .rw, 13, 0, .zero⟩
def STR_PPS.step_thr_ns : Fld := ⟨173, 16, 16, .rw, 13, 1000, .zero⟩
def STR_PPS.slew_ppb : Fld := ⟨174, 32, 16, .rw, 13, 50000, .zero⟩
def STR_PPS.reg : RegDef := ⟨0x8, 0x140, 0x0, 1,
  [STR_PPS.offset_ns, STR_PPS.step_thr_ns, STR_PPS.slew_ppb]⟩
/-! STR_CMP_CTL: 06_strata_and_varve.md, R176. -/
def STR_CMP_CTL.enable : Fld := ⟨175, 0, 1, .rw, 7, 0, .zero⟩
def STR_CMP_CTL.arm : Fld := ⟨176, 1, 1, .wo, 7, 0, .zero⟩
def STR_CMP_CTL.disarm : Fld := ⟨177, 2, 1, .wo, 7, 0, .zero⟩
def STR_CMP_CTL.armed : Fld := ⟨178, 3, 1, .ro, 0, 0, .zero⟩
def STR_CMP_CTL.action : Fld := ⟨179, 4, 3, .rw, 7, 0, .zero⟩
def STR_CMP_CTL.fired : Fld := ⟨180, 7, 1, .w1c, 7, 0, .zero⟩
def STR_CMP_CTL.late : Fld := ⟨181, 8, 1, .ro, 0, 0, .zero⟩
def STR_CMP_CTL.both_halves : Fld := ⟨182, 9, 1, .rw, 7, 0, .zero⟩
def STR_CMP_CTL.denied : Fld := ⟨183, 10, 1, .ro, 0, 0, .zero⟩
def STR_CMP_CTL.lead_us : Fld := ⟨184, 16, 8, .rw, 7, 20, .zero⟩
def STR_CMP_CTL.last_status : Fld := ⟨185, 24, 8, .ro, 0, 0, .zero⟩
def STR_CMP_CTL.copies : Fld := ⟨186, 32, 10, .ro, 0, 0, .zero⟩
def STR_CMP_CTL.late_copies : Fld := ⟨187, 48, 10, .ro, 0, 0, .zero⟩
def STR_CMP_CTL.reg : RegDef := ⟨0x8, 0x1010, 0x20, 64,
  [STR_CMP_CTL.enable, STR_CMP_CTL.arm, STR_CMP_CTL.disarm, STR_CMP_CTL.armed, STR_CMP_CTL.action, STR_CMP_CTL.fired, STR_CMP_CTL.late, STR_CMP_CTL.both_halves, STR_CMP_CTL.denied, STR_CMP_CTL.lead_us, STR_CMP_CTL.last_status, STR_CMP_CTL.copies, STR_CMP_CTL.late_copies]⟩
/-! VRV_CTL: 06_strata_and_varve.md, R185. -/
def VRV_CTL.ckpt_en : Fld := ⟨188, 0, 1, .rw, 4, 0, .zero⟩
def VRV_CTL.reserve : Fld := ⟨189, 8, 8, .rw, 4, 128, .zero⟩
def VRV_CTL.reg : RegDef := ⟨0x9, 0x100, 0x0, 1,
  [VRV_CTL.ckpt_en, VRV_CTL.reserve]⟩
/-! VRV_LOG: 06_strata_and_varve.md, R185. -/
def VRV_LOG.log2_entries : Fld := ⟨190, 0, 5, .rw, 4, 0, .zero⟩
def VRV_LOG.base : Fld := ⟨191, 12, 40, .rw, 4, 0, .zero⟩
def VRV_LOG.reg : RegDef := ⟨0x9, 0x108, 0x0, 1,
  [VRV_LOG.log2_entries, VRV_LOG.base]⟩
/-! VRV_LEAF: 06_strata_and_varve.md, R185. -/
def VRV_LEAF.log2_entries : Fld := ⟨192, 0, 5, .rw, 4, 0, .zero⟩
def VRV_LEAF.base : Fld := ⟨193, 12, 40, .rw, 4, 0, .zero⟩
def VRV_LEAF.reg : RegDef := ⟨0x9, 0x110, 0x0, 1,
  [VRV_LEAF.log2_entries, VRV_LEAF.base]⟩
/-! VRV_CKPT_LOG: 06_strata_and_varve.md, R185. -/
def VRV_CKPT_LOG.log2_entries : Fld := ⟨194, 0, 5, .rw, 4, 0, .zero⟩
def VRV_CKPT_LOG.base : Fld := ⟨195, 12, 40, .rw, 4, 0, .zero⟩
def VRV_CKPT_LOG.reg : RegDef := ⟨0x9, 0x118, 0x0, 1,
  [VRV_CKPT_LOG.log2_entries, VRV_CKPT_LOG.base]⟩
/-! VRV_CKPT_CTL: 06_strata_and_varve.md, R185. -/
def VRV_CKPT_CTL.ti : Fld := ⟨196, 0, 12, .rw, 4, 0, .zero⟩
def VRV_CKPT_CTL.pool : Fld := ⟨197, 16, 5, .rw, 4, 0, .zero⟩
def VRV_CKPT_CTL.reg : RegDef := ⟨0x9, 0x148, 0x0, 1,
  [VRV_CKPT_CTL.ti, VRV_CKPT_CTL.pool]⟩
/-! VRV_STATUS: 06_strata_and_varve.md, R185. -/
def VRV_STATUS.paused : Fld := ⟨198, 0, 1, .ro, 0, 0, .zero⟩
def VRV_STATUS.husk : Fld := ⟨199, 1, 1, .ro, 0, 0, .zero⟩
def VRV_STATUS.ckpt_fail : Fld := ⟨200, 16, 16, .rc, 0, 0, .zero⟩
def VRV_STATUS.batches : Fld := ⟨201, 32, 32, .rc, 0, 0, .zero⟩
def VRV_STATUS.reg : RegDef := ⟨0x9, 0x150, 0x0, 1,
  [VRV_STATUS.paused, VRV_STATUS.husk, VRV_STATUS.ckpt_fail, VRV_STATUS.batches]⟩
/-! RAS_HOME_CTL: 10_memory_model_and_coherence.md, R289. -/
def RAS_HOME_CTL.limit_us : Fld := ⟨202, 0, 12, .rw, 8, 20, .zero⟩
def RAS_HOME_CTL.far_limit_us : Fld := ⟨203, 16, 12, .rw, 8, 40, .zero⟩
def RAS_HOME_CTL.reg : RegDef := ⟨0xE, 0x400, 0x0, 1,
  [RAS_HOME_CTL.limit_us, RAS_HOME_CTL.far_limit_us]⟩
/-! RAS_HOME_STATUS: 10_memory_model_and_coherence.md, R289. -/
def RAS_HOME_STATUS.timeouts : Fld := ⟨204, 0, 16, .rc, 0, 0, .zero⟩
def RAS_HOME_STATUS.back_inval : Fld := ⟨205, 16, 32, .rc, 0, 0, .zero⟩
def RAS_HOME_STATUS.last_slice : Fld := ⟨206, 48, 7, .ro, 0, 0, .zero⟩
def RAS_HOME_STATUS.reg : RegDef := ⟨0xE, 0x408, 0x0, 1,
  [RAS_HOME_STATUS.timeouts, RAS_HOME_STATUS.back_inval, RAS_HOME_STATUS.last_slice]⟩
/-! RAS_HOME_ADDR: 10_memory_model_and_coherence.md, R289. -/
def RAS_HOME_ADDR.addr : Fld := ⟨207, 6, 46, .ro, 0, 0, .zero⟩
def RAS_HOME_ADDR.holder_stop : Fld := ⟨208, 52, 9, .ro, 0, 0, .zero⟩
def RAS_HOME_ADDR.reg : RegDef := ⟨0xE, 0x410, 0x0, 1,
  [RAS_HOME_ADDR.addr, RAS_HOME_ADDR.holder_stop]⟩
/-! TIF_CFG: 11_tenant_interfaces.md, R294. -/
def TIF_CFG.home : Fld := ⟨209, 0, 1, .rw, 7, 0, .zero⟩
def TIF_CFG.priv : Fld := ⟨210, 1, 2, .rw, 12, 0, .zero⟩
def TIF_CFG.quota_lock : Fld := ⟨211, 3, 1, .rw, 6, 0, .zero⟩
def TIF_CFG.tenant : Fld := ⟨212, 16, 12, .rw, 7, 0, .zero⟩
def TIF_CFG.reg : RegDef := ⟨0xA, 0x100, 0x0, 1,
  [TIF_CFG.home, TIF_CFG.priv, TIF_CFG.quota_lock, TIF_CFG.tenant]⟩
/-! TIF_RING: 11_tenant_interfaces.md, R294. -/
def TIF_RING.log2_size : Fld := ⟨213, 0, 5, .rw, 7, 0, .zero⟩
def TIF_RING.base : Fld := ⟨214, 12, 40, .rw, 7, 0, .zero⟩
def TIF_RING.reg : RegDef := ⟨0xA, 0x108, 0x0, 1,
  [TIF_RING.log2_size, TIF_RING.base]⟩
/-! TIF_SHADOW: 11_tenant_interfaces.md, R294. -/
def TIF_SHADOW.enable : Fld := ⟨215, 0, 1, .rw, 7, 0, .zero⟩
def TIF_SHADOW.addr : Fld := ⟨216, 6, 46, .rw, 7, 0, .zero⟩
def TIF_SHADOW.reg : RegDef := ⟨0xA, 0x110, 0x0, 1,
  [TIF_SHADOW.enable, TIF_SHADOW.addr]⟩
/-! TIF_SQ: 11_tenant_interfaces.md, R303. -/
def TIF_SQ.enable : Fld := ⟨217, 0, 1, .rw, 7, 0, .zero⟩
def TIF_SQ.log2_size : Fld := ⟨218, 1, 4, .rw, 7, 0, .zero⟩
def TIF_SQ.base : Fld := ⟨219, 12, 40, .rw, 7, 0, .zero⟩
def TIF_SQ.reg : RegDef := ⟨0xA, 0x200, 0x8, 16,
  [TIF_SQ.enable, TIF_SQ.log2_size, TIF_SQ.base]⟩
/-! TIF_SQ_STATE: 11_tenant_interfaces.md, R303. -/
def TIF_SQ_STATE.fetch : Fld := ⟨220, 0, 12, .ro, 0, 0, .zero⟩
def TIF_SQ_STATE.tail : Fld := ⟨221, 16, 12, .ro, 0, 0, .zero⟩
def TIF_SQ_STATE.status : Fld := ⟨222, 32, 8, .ro, 0, 0, .zero⟩
def TIF_SQ_STATE.restart : Fld := ⟨223, 48, 1, .wo, 7, 0, .zero⟩
def TIF_SQ_STATE.reg : RegDef := ⟨0xA, 0x280, 0x8, 16,
  [TIF_SQ_STATE.fetch, TIF_SQ_STATE.tail, TIF_SQ_STATE.status, TIF_SQ_STATE.restart]⟩
/-! TIF_GEN: 11_tenant_interfaces.md, R307. -/
def TIF_GEN.gen : Fld := ⟨224, 0, 16, .ro, 0, 0, .zero⟩
def TIF_GEN.reset_go : Fld := ⟨225, 16, 1, .wo, 7, 0, .zero⟩
def TIF_GEN.drain : Fld := ⟨226, 17, 1, .rw, 7, 0, .zero⟩
def TIF_GEN.busy : Fld := ⟨227, 18, 1, .ro, 0, 0, .zero⟩
def TIF_GEN.reg : RegDef := ⟨0xA, 0x130, 0x0, 1,
  [TIF_GEN.gen, TIF_GEN.reset_go, TIF_GEN.drain, TIF_GEN.busy]⟩
/-! TIF_STATUS: 11_tenant_interfaces.md, R307. -/
def TIF_STATUS.stalled : Fld := ⟨228, 0, 1, .ro, 0, 0, .zero⟩
def TIF_STATUS.resetting : Fld := ⟨229, 1, 1, .ro, 0, 0, .zero⟩
def TIF_STATUS.denied : Fld := ⟨230, 2, 1, .ro, 0, 0, .zero⟩
def TIF_STATUS.outstanding : Fld := ⟨231, 16, 16, .ro, 0, 0, .zero⟩
def TIF_STATUS.old_tasks : Fld := ⟨232, 32, 16, .ro, 0, 0, .zero⟩
def TIF_STATUS.last_status : Fld := ⟨233, 48, 8, .ro, 0, 0, .zero⟩
def TIF_STATUS.reg : RegDef := ⟨0xA, 0x138, 0x0, 1,
  [TIF_STATUS.stalled, TIF_STATUS.resetting, TIF_STATUS.denied, TIF_STATUS.outstanding, TIF_STATUS.old_tasks, TIF_STATUS.last_status]⟩
/-! TIF_COUNT: 11_tenant_interfaces.md, R307. -/
def TIF_COUNT.stale : Fld := ⟨234, 0, 32, .rc, 0, 0, .zero⟩
def TIF_COUNT.quota : Fld := ⟨235, 32, 16, .rc, 0, 0, .zero⟩
def TIF_COUNT.bad_doorbell : Fld := ⟨236, 48, 16, .rc, 0, 0, .zero⟩
def TIF_COUNT.reg : RegDef := ⟨0xA, 0x140, 0x0, 1,
  [TIF_COUNT.stale, TIF_COUNT.quota, TIF_COUNT.bad_doorbell]⟩
/-! TIF_QUOTA: 11_tenant_interfaces.md, R308. -/
def TIF_QUOTA.weight : Fld := ⟨237, 0, 8, .rw, 7, 1, .zero⟩
def TIF_QUOTA.depth : Fld := ⟨238, 16, 16, .rw, 7, 64, .zero⟩
def TIF_QUOTA.kao_slots : Fld := ⟨239, 32, 6, .rw, 7, 0, .zero⟩
def TIF_QUOTA.reg : RegDef := ⟨0xA, 0x118, 0x0, 1,
  [TIF_QUOTA.weight, TIF_QUOTA.depth, TIF_QUOTA.kao_slots]⟩
/-! DSP_TI_COUNT: 11_tenant_interfaces.md, R310. -/
def DSP_TI_COUNT.live : Fld := ⟨240, 0, 13, .ro, 0, 0, .zero⟩
def DSP_TI_COUNT.privileged : Fld := ⟨241, 16, 5, .ro, 0, 0, .zero⟩
def DSP_TI_COUNT.queues : Fld := ⟨242, 32, 14, .ro, 0, 0, .zero⟩
def DSP_TI_COUNT.stalled : Fld := ⟨243, 48, 13, .ro, 0, 0, .zero⟩
def DSP_TI_COUNT.reg : RegDef := ⟨0x3, 0x600, 0x0, 1,
  [DSP_TI_COUNT.live, DSP_TI_COUNT.privileged, DSP_TI_COUNT.queues, DSP_TI_COUNT.stalled]⟩
/-! EVH_SRC: 12_event_hub.md, R312. -/
def EVH_SRC.enable : Fld := ⟨244, 0, 1, .rw, 7, 0, .zero⟩
def EVH_SRC.secure : Fld := ⟨245, 1, 1, .rw, 4, 0, .secureId⟩
def EVH_SRC.level : Fld := ⟨246, 2, 1, .rw, 7, 0, .zero⟩
def EVH_SRC.mode : Fld := ⟨247, 3, 1, .rw, 7, 0, .zero⟩
def EVH_SRC.priority : Fld := ⟨248, 8, 8, .rw, 7, 255, .zero⟩
def EVH_SRC.target : Fld := ⟨249, 16, 8, .rw, 7, 0, .zero⟩
def EVH_SRC.pending : Fld := ⟨250, 32, 1, .ro, 0, 0, .zero⟩
def EVH_SRC.active : Fld := ⟨251, 33, 1, .ro, 0, 0, .zero⟩
def EVH_SRC.denied : Fld := ⟨252, 34, 1, .ro, 0, 0, .zero⟩
def EVH_SRC.reg : RegDef := ⟨0xB, 0x8000, 0x8, 4096,
  [EVH_SRC.enable, EVH_SRC.secure, EVH_SRC.level, EVH_SRC.mode, EVH_SRC.priority, EVH_SRC.target, EVH_SRC.pending, EVH_SRC.active, EVH_SRC.denied]⟩
/-! EVH_RAISE: 12_event_hub.md, R320. -/
def EVH_RAISE.id : Fld := ⟨253, 0, 12, .wo, 23, 0, .zero⟩
def EVH_RAISE.qualifier : Fld := ⟨254, 12, 12, .wo, 23, 0, .zero⟩
def EVH_RAISE.withdraw : Fld := ⟨255, 31, 1, .wo, 23, 0, .zero⟩
def EVH_RAISE.reg : RegDef := ⟨0xB, 0x1000, 0x0, 1,
  [EVH_RAISE.id, EVH_RAISE.qualifier, EVH_RAISE.withdraw]⟩
/-! EVH_SGI: 12_event_hub.md, R320. -/
def EVH_SGI.id : Fld := ⟨256, 0, 12, .wo, 7, 0, .zero⟩
def EVH_SGI.target : Fld := ⟨257, 16, 8, .wo, 7, 0, .zero⟩
def EVH_SGI.all_hardpan : Fld := ⟨258, 32, 1, .wo, 4, 0, .zero⟩
def EVH_SGI.reg : RegDef := ⟨0xB, 0x108, 0x0, 1,
  [EVH_SGI.id, EVH_SGI.target, EVH_SGI.all_hardpan]⟩
/-! EVH_TIQ_CFG: 12_event_hub.md, R324. -/
def EVH_TIQ_CFG.log2_size : Fld := ⟨259, 0, 5, .rw, 7, 0, .zero⟩
def EVH_TIQ_CFG.base : Fld := ⟨260, 12, 40, .rw, 7, 0, .zero⟩
def EVH_TIQ_CFG.reg : RegDef := ⟨0xB, 0x90000, 0x10, 4096,
  [EVH_TIQ_CFG.log2_size, EVH_TIQ_CFG.base]⟩
/-! EVH_CLAIM_K: 12_event_hub.md, R325. -/
def EVH_CLAIM_K.id : Fld := ⟨261, 0, 12, .ro, 0, 0, .zero⟩
def EVH_CLAIM_K.qualifier : Fld := ⟨262, 12, 12, .ro, 0, 0, .zero⟩
def EVH_CLAIM_K.multi : Fld := ⟨263, 24, 1, .ro, 0, 0, .zero⟩
def EVH_CLAIM_K.half : Fld := ⟨264, 25, 1, .ro, 0, 0, .zero⟩
def EVH_CLAIM_K.reg : RegDef := ⟨0xB, 0x10000, 0x1000, 128,
  [EVH_CLAIM_K.id, EVH_CLAIM_K.qualifier, EVH_CLAIM_K.multi, EVH_CLAIM_K.half]⟩
/-! EVH_CLAIM_V: 12_event_hub.md, R325. -/
def EVH_CLAIM_V.id : Fld := ⟨265, 0, 12, .ro, 0, 0, .zero⟩
def EVH_CLAIM_V.qualifier : Fld := ⟨266, 12, 12, .ro, 0, 0, .zero⟩
def EVH_CLAIM_V.multi : Fld := ⟨267, 24, 1, .ro, 0, 0, .zero⟩
def EVH_CLAIM_V.half : Fld := ⟨268, 25, 1, .ro, 0, 0, .zero⟩
def EVH_CLAIM_V.reg : RegDef := ⟨0xB, 0x10010, 0x1000, 128,
  [EVH_CLAIM_V.id, EVH_CLAIM_V.qualifier, EVH_CLAIM_V.multi, EVH_CLAIM_V.half]⟩
/-! EVH_PRIO: 12_event_hub.md, R325. -/
def EVH_PRIO.thr_k : Fld := ⟨269, 0, 8, .rw, 7, 255, .zero⟩
def EVH_PRIO.thr_v : Fld := ⟨270, 8, 8, .rw, 6, 255, .zero⟩
def EVH_PRIO.split : Fld := ⟨271, 16, 3, .rw, 7, 0, .zero⟩
def EVH_PRIO.run_k : Fld := ⟨272, 24, 8, .ro, 0, 255, .zero⟩
def EVH_PRIO.run_v : Fld := ⟨273, 32, 8, .ro, 0, 255, .zero⟩
def EVH_PRIO.act_k : Fld := ⟨274, 40, 5, .ro, 0, 0, .zero⟩
def EVH_PRIO.act_v : Fld := ⟨275, 48, 5, .ro, 0, 0, .zero⟩
def EVH_PRIO.reg : RegDef := ⟨0xB, 0x10020, 0x1000, 128,
  [EVH_PRIO.thr_k, EVH_PRIO.thr_v, EVH_PRIO.split, EVH_PRIO.run_k, EVH_PRIO.run_v, EVH_PRIO.act_k, EVH_PRIO.act_v]⟩
/-! EVH_EQ_CFG: 12_event_hub.md, R325. -/
def EVH_EQ_CFG.log2_size : Fld := ⟨276, 0, 5, .rw, 7, 0, .zero⟩
def EVH_EQ_CFG.base : Fld := ⟨277, 12, 40, .rw, 7, 0, .zero⟩
def EVH_EQ_CFG.id : Fld := ⟨278, 52, 12, .rw, 7, 0, .zero⟩
def EVH_EQ_CFG.reg : RegDef := ⟨0xB, 0x10040, 0x1000, 128,
  [EVH_EQ_CFG.log2_size, EVH_EQ_CFG.base, EVH_EQ_CFG.id]⟩
/-! EVH_STAT: 12_event_hub.md, R325. -/
def EVH_STAT.bad_raise : Fld := ⟨279, 0, 16, .rc, 0, 0, .zero⟩
def EVH_STAT.bad_eoi : Fld := ⟨280, 16, 16, .rc, 0, 0, .zero⟩
def EVH_STAT.dropped : Fld := ⟨281, 32, 16, .rc, 0, 0, .zero⟩
def EVH_STAT.reg : RegDef := ⟨0xB, 0x110, 0x0, 1,
  [EVH_STAT.bad_raise, EVH_STAT.bad_eoi, EVH_STAT.dropped]⟩
/-! KAO_CHAN_CFG: 13_kaolin.md, R344. -/
def KAO_CHAN_CFG.enable : Fld := ⟨282, 0, 1, .rw, 15, 0, .zero⟩
def KAO_CHAN_CFG.log2_size : Fld := ⟨283, 1, 4, .rw, 15, 0, .zero⟩
def KAO_CHAN_CFG.base : Fld := ⟨284, 12, 40, .rw, 15, 0, .zero⟩
def KAO_CHAN_CFG.reg : RegDef := ⟨0xC, 0x400, 0x20, 64,
  [KAO_CHAN_CFG.enable, KAO_CHAN_CFG.log2_size, KAO_CHAN_CFG.base]⟩
/-! KAO_CHAN_BIND: 13_kaolin.md, R344. -/
def KAO_CHAN_BIND.ti : Fld := ⟨285, 0, 12, .rw, 15, 0, .zero⟩
def KAO_CHAN_BIND.intr_id : Fld := ⟨286, 16, 12, .rw, 15, 0, .zero⟩
def KAO_CHAN_BIND.gen : Fld := ⟨287, 32, 16, .ro, 0, 0, .zero⟩
def KAO_CHAN_BIND.reg : RegDef := ⟨0xC, 0x408, 0x20, 64,
  [KAO_CHAN_BIND.ti, KAO_CHAN_BIND.intr_id, KAO_CHAN_BIND.gen]⟩
/-! KAO_CHAN_STATE: 13_kaolin.md, R344. -/
def KAO_CHAN_STATE.fetch : Fld := ⟨288, 0, 12, .ro, 0, 0, .zero⟩
def KAO_CHAN_STATE.tail : Fld := ⟨289, 12, 12, .ro, 0, 0, .zero⟩
def KAO_CHAN_STATE.status : Fld := ⟨290, 24, 8, .ro, 0, 0, .zero⟩
def KAO_CHAN_STATE.running : Fld := ⟨291, 32, 1, .ro, 0, 0, .zero⟩
def KAO_CHAN_STATE.open : Fld := ⟨292, 33, 1, .ro, 0, 0, .zero⟩
def KAO_CHAN_STATE.denied : Fld := ⟨293, 34, 1, .ro, 0, 0, .zero⟩
def KAO_CHAN_STATE.restart : Fld := ⟨294, 40, 1, .wo, 15, 0, .zero⟩
def KAO_CHAN_STATE.reg : RegDef := ⟨0xC, 0x410, 0x20, 64,
  [KAO_CHAN_STATE.fetch, KAO_CHAN_STATE.tail, KAO_CHAN_STATE.status, KAO_CHAN_STATE.running, KAO_CHAN_STATE.open, KAO_CHAN_STATE.denied, KAO_CHAN_STATE.restart]⟩
/-! KAO_SLOT: 13_kaolin.md, R344. -/
def KAO_SLOT.enable : Fld := ⟨295, 0, 1, .rw, 15, 0, .zero⟩
def KAO_SLOT.chan : Fld := ⟨296, 1, 6, .rw, 15, 0, .zero⟩
def KAO_SLOT.full : Fld := ⟨297, 7, 1, .ro, 0, 0, .zero⟩
def KAO_SLOT.status : Fld := ⟨298, 8, 8, .ro, 0, 0, .zero⟩
def KAO_SLOT.reg : RegDef := ⟨0xC, 0xC00, 0x8, 32,
  [KAO_SLOT.enable, KAO_SLOT.chan, KAO_SLOT.full, KAO_SLOT.status]⟩
/-! KAO_STAT: 13_kaolin.md, R344. -/
def KAO_STAT.jobs : Fld := ⟨299, 0, 32, .rc, 0, 0, .zero⟩
def KAO_STAT.failed : Fld := ⟨300, 32, 16, .rc, 0, 0, .zero⟩
def KAO_STAT.bad_doorbell : Fld := ⟨301, 48, 8, .rc, 0, 0, .zero⟩
def KAO_STAT.raw_units : Fld := ⟨302, 56, 8, .rc, 0, 0, .zero⟩
def KAO_STAT.reg : RegDef := ⟨0xC, 0x100, 0x0, 1,
  [KAO_STAT.jobs, KAO_STAT.failed, KAO_STAT.bad_doorbell, KAO_STAT.raw_units]⟩
/-! DMC_CFG: 14_dram_controller.md, R365. -/
def DMC_CFG.present : Fld := ⟨303, 0, 4, .rw, 8, 0, .zero⟩
def DMC_CFG.density : Fld := ⟨304, 4, 1, .rw, 8, 0, .zero⟩
def DMC_CFG.spare_en : Fld := ⟨305, 5, 1, .rw, 8, 0, .zero⟩
def DMC_CFG.bitmap_en : Fld := ⟨306, 6, 1, .rw, 8, 1, .zero⟩
def DMC_CFG.set : Fld := ⟨307, 8, 2, .rw, 8, 0, .zero⟩
def DMC_CFG.map : Fld := ⟨308, 16, 8, .rw, 8, 0, .zero⟩
def DMC_CFG.active : Fld := ⟨309, 24, 3, .rw, 8, 0, .zero⟩
def DMC_CFG.reg : RegDef := ⟨0xD, 0x100, 0x0, 1,
  [DMC_CFG.present, DMC_CFG.density, DMC_CFG.spare_en, DMC_CFG.bitmap_en, DMC_CFG.set, DMC_CFG.map, DMC_CFG.active]⟩
/-! DMC_STATUS: 14_dram_controller.md, R365. -/
def DMC_STATUS.rank_state : Fld := ⟨310, 0, 12, .ro, 0, 0, .zero⟩
def DMC_STATUS.migrating : Fld := ⟨311, 12, 1, .ro, 0, 0, .zero⟩
def DMC_STATUS.hot : Fld := ⟨312, 13, 1, .ro, 0, 0, .zero⟩
def DMC_STATUS.last_status : Fld := ⟨313, 16, 8, .ro, 0, 0, .zero⟩
def DMC_STATUS.drift_max : Fld := ⟨314, 32, 16, .ro, 0, 0, .zero⟩
def DMC_STATUS.reg : RegDef := ⟨0xD, 0x108, 0x0, 1,
  [DMC_STATUS.rank_state, DMC_STATUS.migrating, DMC_STATUS.hot, DMC_STATUS.last_status, DMC_STATUS.drift_max]⟩
/-! DMC_REFRESH: 14_dram_controller.md, R365. -/
def DMC_REFRESH.postpone_max : Fld := ⟨315, 0, 4, .rw, 8, 8, .zero⟩
def DMC_REFRESH.nr_k : Fld := ⟨316, 8, 4, .rw, 8, 10, .zero⟩
def DMC_REFRESH.nr_en : Fld := ⟨317, 12, 1, .rw, 8, 1, .zero⟩
def DMC_REFRESH.hot : Fld := ⟨318, 13, 1, .rw, 8, 0, .zero⟩
def DMC_REFRESH.reg : RegDef := ⟨0xD, 0x110, 0x0, 1,
  [DMC_REFRESH.postpone_max, DMC_REFRESH.nr_k, DMC_REFRESH.nr_en, DMC_REFRESH.hot]⟩
/-! DMC_RETRAIN: 14_dram_controller.md, R365. -/
def DMC_RETRAIN.interval_ms : Fld := ⟨319, 0, 16, .rw, 8, 128, .zero⟩
def DMC_RETRAIN.pause_ns : Fld := ⟨320, 16, 12, .rw, 8, 200, .zero⟩
def DMC_RETRAIN.drift_limit : Fld := ⟨321, 32, 8, .rw, 8, 16, .zero⟩
def DMC_RETRAIN.reg : RegDef := ⟨0xD, 0x120, 0x0, 1,
  [DMC_RETRAIN.interval_ms, DMC_RETRAIN.pause_ns, DMC_RETRAIN.drift_limit]⟩
/-! DMC_COUNT: 14_dram_controller.md, R365. -/
def DMC_COUNT.nr : Fld := ⟨322, 0, 32, .rc, 0, 0, .zero⟩
def DMC_COUNT.rfm : Fld := ⟨323, 32, 16, .rc, 0, 0, .zero⟩
def DMC_COUNT.owed_max : Fld := ⟨324, 48, 8, .rc, 0, 0, .zero⟩
def DMC_COUNT.replays : Fld := ⟨325, 56, 8, .rc, 0, 0, .zero⟩
def DMC_COUNT.reg : RegDef := ⟨0xD, 0x140, 0x0, 1,
  [DMC_COUNT.nr, DMC_COUNT.rfm, DMC_COUNT.owed_max, DMC_COUNT.replays]⟩
/-! DMC_TRAIN_CTL: 14_dram_controller.md, R365. -/
def DMC_TRAIN_CTL.op : Fld := ⟨326, 0, 4, .rw, 8, 0, .zero⟩
def DMC_TRAIN_CTL.rank : Fld := ⟨327, 4, 2, .rw, 8, 0, .zero⟩
def DMC_TRAIN_CTL.sub : Fld := ⟨328, 6, 1, .rw, 8, 0, .zero⟩
def DMC_TRAIN_CTL.lfsr : Fld := ⟨329, 7, 1, .rw, 8, 0, .zero⟩
def DMC_TRAIN_CTL.lanes : Fld := ⟨330, 12, 20, .rw, 8, 0, .zero⟩
def DMC_TRAIN_CTL.go : Fld := ⟨331, 32, 1, .wo, 8, 0, .zero⟩
def DMC_TRAIN_CTL.busy : Fld := ⟨332, 33, 1, .ro, 0, 0, .zero⟩
def DMC_TRAIN_CTL.steps : Fld := ⟨333, 40, 8, .rw, 8, 64, .zero⟩
def DMC_TRAIN_CTL.reg : RegDef := ⟨0xD, 0x200, 0x0, 1,
  [DMC_TRAIN_CTL.op, DMC_TRAIN_CTL.rank, DMC_TRAIN_CTL.sub, DMC_TRAIN_CTL.lfsr, DMC_TRAIN_CTL.lanes, DMC_TRAIN_CTL.go, DMC_TRAIN_CTL.busy, DMC_TRAIN_CTL.steps]⟩
/-! DMC_TRAIN_WIN: 14_dram_controller.md, R365. -/
def DMC_TRAIN_WIN.errors : Fld := ⟨334, 0, 16, .rc, 0, 0, .zero⟩
def DMC_TRAIN_WIN.left : Fld := ⟨335, 16, 8, .ro, 0, 0, .zero⟩
def DMC_TRAIN_WIN.right : Fld := ⟨336, 24, 8, .ro, 0, 0, .zero⟩
def DMC_TRAIN_WIN.reg : RegDef := ⟨0xD, 0x240, 0x8, 20,
  [DMC_TRAIN_WIN.errors, DMC_TRAIN_WIN.left, DMC_TRAIN_WIN.right]⟩
/-! DMC_DELAY: 14_dram_controller.md, R365. -/
def DMC_DELAY.rd : Fld := ⟨337, 0, 10, .rw, 8, 0, .zero⟩
def DMC_DELAY.wr : Fld := ⟨338, 16, 10, .rw, 8, 0, .zero⟩
def DMC_DELAY.vref : Fld := ⟨339, 32, 8, .rw, 8, 0, .zero⟩
def DMC_DELAY.reg : RegDef := ⟨0xD, 0x300, 0x8, 20,
  [DMC_DELAY.rd, DMC_DELAY.wr, DMC_DELAY.vref]⟩
/-! DMC_MIGRATE: 14_dram_controller.md, R365. -/
def DMC_MIGRATE.src : Fld := ⟨340, 0, 2, .rw, 8, 0, .zero⟩
def DMC_MIGRATE.go : Fld := ⟨341, 2, 1, .wo, 8, 0, .zero⟩
def DMC_MIGRATE.auto : Fld := ⟨342, 3, 1, .rw, 8, 1, .zero⟩
def DMC_MIGRATE.rate : Fld := ⟨343, 8, 8, .rw, 8, 32, .zero⟩
def DMC_MIGRATE.status : Fld := ⟨344, 16, 8, .ro, 0, 0, .zero⟩
def DMC_MIGRATE.active : Fld := ⟨345, 24, 1, .ro, 0, 0, .zero⟩
def DMC_MIGRATE.ue_lines : Fld := ⟨346, 32, 32, .rc, 0, 0, .zero⟩
def DMC_MIGRATE.reg : RegDef := ⟨0xD, 0x400, 0x0, 1,
  [DMC_MIGRATE.src, DMC_MIGRATE.go, DMC_MIGRATE.auto, DMC_MIGRATE.rate, DMC_MIGRATE.status, DMC_MIGRATE.active, DMC_MIGRATE.ue_lines]⟩
/-! RAS_CTL: 15_riddle_codes_and_ras.md, R379. -/
def RAS_CTL.ce_max : Fld := ⟨347, 0, 16, .rw, 9, 64, .zero⟩
def RAS_CTL.t_inject : Fld := ⟨348, 16, 1, .rw, 8, 0, .zero⟩
def RAS_CTL.mark_thr : Fld := ⟨349, 24, 8, .rw, 8, 16, .zero⟩
def RAS_CTL.reg : RegDef := ⟨0xE, 0x100, 0x0, 1,
  [RAS_CTL.ce_max, RAS_CTL.t_inject, RAS_CTL.mark_thr]⟩
/-! RAS_LOG: 15_riddle_codes_and_ras.md, R379. -/
def RAS_LOG.log2_entries : Fld := ⟨350, 0, 5, .rw, 1, 0, .zero⟩
def RAS_LOG.base : Fld := ⟨351, 12, 40, .rw, 1, 0, .zero⟩
def RAS_LOG.reg : RegDef := ⟨0xE, 0x108, 0x0, 1,
  [RAS_LOG.log2_entries, RAS_LOG.base]⟩
/-! RAS_SLOG: 15_riddle_codes_and_ras.md, R379. -/
def RAS_SLOG.log2_entries : Fld := ⟨352, 0, 5, .rw, 4, 0, .zero⟩
def RAS_SLOG.base : Fld := ⟨353, 12, 40, .rw, 4, 0, .zero⟩
def RAS_SLOG.reg : RegDef := ⟨0xE, 0x118, 0x0, 1,
  [RAS_SLOG.log2_entries, RAS_SLOG.base]⟩
/-! RAS_MARK: 15_riddle_codes_and_ras.md, R380. -/
def RAS_MARK.valid : Fld := ⟨354, 0, 1, .rw, 8, 0, .zero⟩
def RAS_MARK.device : Fld := ⟨355, 1, 4, .rw, 8, 0, .zero⟩
def RAS_MARK.auto : Fld := ⟨356, 5, 1, .ro, 0, 0, .zero⟩
def RAS_MARK.count : Fld := ⟨357, 16, 16, .ro, 0, 0, .zero⟩
def RAS_MARK.reg : RegDef := ⟨0xE, 0x600, 0x8, 64,
  [RAS_MARK.valid, RAS_MARK.device, RAS_MARK.auto, RAS_MARK.count]⟩
/-! RAS_PATROL: 15_riddle_codes_and_ras.md, R384. -/
def RAS_PATROL.enable : Fld := ⟨358, 0, 1, .rw, 13, 1, .zero⟩
def RAS_PATROL.target_h : Fld := ⟨359, 8, 8, .rw, 13, 24, .zero⟩
def RAS_PATROL.reg : RegDef := ⟨0xE, 0x200, 0x0, 1,
  [RAS_PATROL.enable, RAS_PATROL.target_h]⟩
/-! RAS_LAP: 15_riddle_codes_and_ras.md, R384. -/
def RAS_LAP.last_lap_s : Fld := ⟨360, 0, 32, .ro, 0, 0, .zero⟩
def RAS_LAP.laps : Fld := ⟨361, 32, 16, .ro, 0, 0, .zero⟩
def RAS_LAP.progress : Fld := ⟨362, 48, 16, .ro, 0, 0, .zero⟩
def RAS_LAP.reg : RegDef := ⟨0xE, 0x210, 0x8, 8,
  [RAS_LAP.last_lap_s, RAS_LAP.laps, RAS_LAP.progress]⟩
/-! RAS_PASS_CTL: 15_riddle_codes_and_ras.md, R384. -/
def RAS_PASS_CTL.go : Fld := ⟨363, 0, 1, .wo, 15, 0, .zero⟩
def RAS_PASS_CTL.cancel : Fld := ⟨364, 1, 1, .wo, 15, 0, .zero⟩
def RAS_PASS_CTL.busy : Fld := ⟨365, 2, 1, .ro, 0, 0, .zero⟩
def RAS_PASS_CTL.rate : Fld := ⟨366, 8, 8, .rw, 15, 8, .zero⟩
def RAS_PASS_CTL.last_status : Fld := ⟨367, 24, 8, .ro, 0, 0, .zero⟩
def RAS_PASS_CTL.by : Fld := ⟨368, 32, 2, .ro, 0, 0, .zero⟩
def RAS_PASS_CTL.reg : RegDef := ⟨0xE, 0x310, 0x0, 1,
  [RAS_PASS_CTL.go, RAS_PASS_CTL.cancel, RAS_PASS_CTL.busy, RAS_PASS_CTL.rate, RAS_PASS_CTL.last_status, RAS_PASS_CTL.by]⟩
/-! RAS_INJ_CTL: 15_riddle_codes_and_ras.md, R386. -/
def RAS_INJ_CTL.target : Fld := ⟨369, 0, 2, .rw, 15, 0, .zero⟩
def RAS_INJ_CTL.granule : Fld := ⟨370, 3, 1, .rw, 15, 0, .zero⟩
def RAS_INJ_CTL.poison : Fld := ⟨371, 4, 1, .rw, 15, 0, .zero⟩
def RAS_INJ_CTL.persist : Fld := ⟨372, 5, 1, .rw, 15, 0, .zero⟩
def RAS_INJ_CTL.nsym : Fld := ⟨373, 6, 2, .rw, 15, 0, .zero⟩
def RAS_INJ_CTL.pos0 : Fld := ⟨374, 8, 6, .rw, 15, 0, .zero⟩
def RAS_INJ_CTL.pos1 : Fld := ⟨375, 14, 6, .rw, 15, 0, .zero⟩
def RAS_INJ_CTL.pos2 : Fld := ⟨376, 20, 6, .rw, 15, 0, .zero⟩
def RAS_INJ_CTL.pattern : Fld := ⟨377, 32, 16, .rw, 15, 0, .zero⟩
def RAS_INJ_CTL.go : Fld := ⟨378, 48, 1, .wo, 15, 0, .zero⟩
def RAS_INJ_CTL.disarm : Fld := ⟨379, 49, 1, .wo, 15, 0, .zero⟩
def RAS_INJ_CTL.armed : Fld := ⟨380, 50, 1, .ro, 0, 0, .zero⟩
def RAS_INJ_CTL.fired : Fld := ⟨381, 51, 1, .w1c, 15, 0, .zero⟩
def RAS_INJ_CTL.last_status : Fld := ⟨382, 56, 8, .ro, 0, 0, .zero⟩
def RAS_INJ_CTL.reg : RegDef := ⟨0xE, 0x508, 0x0, 1,
  [RAS_INJ_CTL.target, RAS_INJ_CTL.granule, RAS_INJ_CTL.poison, RAS_INJ_CTL.persist, RAS_INJ_CTL.nsym, RAS_INJ_CTL.pos0, RAS_INJ_CTL.pos1, RAS_INJ_CTL.pos2, RAS_INJ_CTL.pattern, RAS_INJ_CTL.go, RAS_INJ_CTL.disarm, RAS_INJ_CTL.armed, RAS_INJ_CTL.fired, RAS_INJ_CTL.last_status]⟩
/-! PWR_RAIL: 16_power_ageing_repair.md, R389. -/
def PWR_RAIL.set_mv : Fld := ⟨383, 0, 12, .ro, 0, 0, .rail⟩
def PWR_RAIL.sense_mv : Fld := ⟨384, 12, 12, .ro, 0, 0, .zero⟩
def PWR_RAIL.last_status : Fld := ⟨385, 24, 8, .ro, 0, 0, .zero⟩
def PWR_RAIL.retries : Fld := ⟨386, 32, 2, .ro, 0, 0, .zero⟩
def PWR_RAIL.fault : Fld := ⟨387, 34, 1, .ro, 0, 0, .zero⟩
def PWR_RAIL.valid : Fld := ⟨388, 35, 1, .ro, 0, 0, .railValid⟩
def PWR_RAIL.faults : Fld := ⟨389, 40, 8, .rc, 0, 0, .zero⟩
def PWR_RAIL.amps : Fld := ⟨390, 48, 16, .ro, 0, 0, .zero⟩
def PWR_RAIL.reg : RegDef := ⟨0xF, 0x200, 0x8, 14,
  [PWR_RAIL.set_mv, PWR_RAIL.sense_mv, PWR_RAIL.last_status, PWR_RAIL.retries, PWR_RAIL.fault, PWR_RAIL.valid, PWR_RAIL.faults, PWR_RAIL.amps]⟩
/-! PWR_POWER: 16_power_ageing_repair.md, R391. -/
def PWR_POWER.limit_w : Fld := ⟨391, 0, 16, .ro, 0, 850, .zero⟩
def PWR_POWER.pkg_w : Fld := ⟨392, 16, 16, .ro, 0, 0, .zero⟩
def PWR_POWER.tj_c : Fld := ⟨393, 32, 8, .ro, 0, 0, .zero⟩
def PWR_POWER.over : Fld := ⟨394, 40, 1, .ro, 0, 0, .zero⟩
def PWR_POWER.throttle : Fld := ⟨395, 41, 1, .ro, 0, 0, .zero⟩
def PWR_POWER.trip : Fld := ⟨396, 42, 1, .ro, 0, 0, .zero⟩
def PWR_POWER.mesh_low : Fld := ⟨397, 43, 1, .ro, 0, 0, .zero⟩
def PWR_POWER.reg : RegDef := ⟨0xF, 0x100, 0x0, 1,
  [PWR_POWER.limit_w, PWR_POWER.pkg_w, PWR_POWER.tj_c, PWR_POWER.over, PWR_POWER.throttle, PWR_POWER.trip, PWR_POWER.mesh_low]⟩
/-! PWR_DOM: 16_power_ageing_repair.md, R394. -/
def PWR_DOM.gate : Fld := ⟨398, 0, 1, .rw, 15, 0, .zero⟩
def PWR_DOM.off : Fld := ⟨399, 1, 1, .rw, 15, 0, .zero⟩
def PWR_DOM.state : Fld := ⟨400, 4, 2, .ro, 0, 0, .zero⟩
def PWR_DOM.last_status : Fld := ⟨401, 8, 8, .ro, 0, 0, .zero⟩
def PWR_DOM.reg : RegDef := ⟨0xF, 0x1000, 0x8, 159,
  [PWR_DOM.gate, PWR_DOM.off, PWR_DOM.state, PWR_DOM.last_status]⟩
/-! PWR_DORM: 16_power_ageing_repair.md, R394. -/
def PWR_DORM.max_delay_us : Fld := ⟨402, 0, 16, .rw, 8, 1000, .zero⟩
def PWR_DORM.kind : Fld := ⟨403, 16, 2, .ro, 0, 0, .zero⟩
def PWR_DORM.busy : Fld := ⟨404, 18, 1, .ro, 0, 0, .zero⟩
def PWR_DORM.last_status : Fld := ⟨405, 24, 8, .ro, 0, 0, .zero⟩
def PWR_DORM.ref_class : Fld := ⟨406, 32, 8, .ro, 0, 0, .zero⟩
def PWR_DORM.ref_instance : Fld := ⟨407, 40, 12, .ro, 0, 0, .zero⟩
def PWR_DORM.reg : RegDef := ⟨0xF, 0x300, 0x0, 1,
  [PWR_DORM.max_delay_us, PWR_DORM.kind, PWR_DORM.busy, PWR_DORM.last_status, PWR_DORM.ref_class, PWR_DORM.ref_instance]⟩
/-! PWR_FALLOW: 16_power_ageing_repair.md, R397. -/
def PWR_FALLOW.state : Fld := ⟨408, 0, 2, .ro, 0, 0, .zero⟩
def PWR_FALLOW.off_mask : Fld := ⟨409, 8, 8, .ro, 0, 0, .zero⟩
def PWR_FALLOW.entries : Fld := ⟨410, 32, 16, .rc, 0, 0, .zero⟩
def PWR_FALLOW.reg : RegDef := ⟨0xF, 0x400, 0x0, 1,
  [PWR_FALLOW.state, PWR_FALLOW.off_mask, PWR_FALLOW.entries]⟩
/-! PWR_WATCH: 16_power_ageing_repair.md, R400. -/
def PWR_WATCH.wake_addr : Fld := ⟨411, 0, 7, .rw, 8, 74, .zero⟩
def PWR_WATCH.hp_ready : Fld := ⟨412, 8, 1, .w1s, 4, 0, .zero⟩
def PWR_WATCH.wake_cause : Fld := ⟨413, 16, 4, .ro, 0, 0, .zero⟩
def PWR_WATCH.reg : RegDef := ⟨0xF, 0x480, 0x0, 1,
  [PWR_WATCH.wake_addr, PWR_WATCH.hp_ready, PWR_WATCH.wake_cause]⟩
/-! WTH_CTL: 16_power_ageing_repair.md, R403. -/
def WTH_CTL.period_h : Fld := ⟨414, 0, 8, .rw, 8, 24, .zero⟩
def WTH_CTL.measure : Fld := ⟨415, 8, 1, .wo, 8, 0, .zero⟩
def WTH_CTL.replan : Fld := ⟨416, 9, 1, .wo, 8, 0, .zero⟩
def WTH_CTL.busy : Fld := ⟨417, 10, 1, .ro, 0, 0, .zero⟩
def WTH_CTL.last_status : Fld := ⟨418, 16, 8, .ro, 0, 0, .zero⟩
def WTH_CTL.reg : RegDef := ⟨0x10, 0x100, 0x0, 1,
  [WTH_CTL.period_h, WTH_CTL.measure, WTH_CTL.replan, WTH_CTL.busy, WTH_CTL.last_status]⟩
/-! WTH_SLACK: 16_power_ageing_repair.md, R403. -/
def WTH_SLACK.slack : Fld := ⟨419, 0, 16, .ro, 0, 0, .zero⟩
def WTH_SLACK.temp_c : Fld := ⟨420, 16, 8, .ro, 0, 0, .zero⟩
def WTH_SLACK.valid : Fld := ⟨421, 24, 1, .ro, 0, 0, .zero⟩
def WTH_SLACK.reg : RegDef := ⟨0x10, 0x1000, 0x8, 256,
  [WTH_SLACK.slack, WTH_SLACK.temp_c, WTH_SLACK.valid]⟩
/-! WTH_FMAX: 16_power_ageing_repair.md, R403. -/
def WTH_FMAX.fmax_mhz : Fld := ⟨422, 0, 12, .ro, 0, 0, .plan⟩
def WTH_FMAX.dv_mv : Fld := ⟨423, 16, 8, .ro, 0, 0, .zero⟩
def WTH_FMAX.reg : RegDef := ⟨0x10, 0x2000, 0x8, 136,
  [WTH_FMAX.fmax_mhz, WTH_FMAX.dv_mv]⟩
/-! PWR_MEND: 16_power_ageing_repair.md, R404. -/
def PWR_MEND.count : Fld := ⟨424, 0, 8, .ro, 0, 0, .zero⟩
def PWR_MEND.kinds : Fld := ⟨425, 8, 5, .ro, 0, 0, .zero⟩
def PWR_MEND.reg : RegDef := ⟨0xF, 0x500, 0x0, 1,
  [PWR_MEND.count, PWR_MEND.kinds]⟩
/-! PWR_BACKFILL: 16_power_ageing_repair.md, R406. -/
def PWR_BACKFILL.logical : Fld := ⟨426, 0, 8, .rw, 7, 0, .zero⟩
def PWR_BACKFILL.go : Fld := ⟨427, 8, 1, .wo, 7, 0, .zero⟩
def PWR_BACKFILL.busy : Fld := ⟨428, 9, 1, .ro, 0, 0, .zero⟩
def PWR_BACKFILL.ready : Fld := ⟨429, 10, 1, .ro, 0, 0, .zero⟩
def PWR_BACKFILL.release : Fld := ⟨430, 11, 1, .wo, 7, 0, .zero⟩
def PWR_BACKFILL.last_status : Fld := ⟨431, 16, 8, .ro, 0, 0, .zero⟩
def PWR_BACKFILL.spare : Fld := ⟨432, 32, 9, .ro, 0, 0, .zero⟩
def PWR_BACKFILL.spares_left : Fld := ⟨433, 48, 4, .ro, 0, 8, .zero⟩
def PWR_BACKFILL.reg : RegDef := ⟨0xF, 0x600, 0x0, 1,
  [PWR_BACKFILL.logical, PWR_BACKFILL.go, PWR_BACKFILL.busy, PWR_BACKFILL.ready, PWR_BACKFILL.release, PWR_BACKFILL.last_status, PWR_BACKFILL.spare, PWR_BACKFILL.spares_left]⟩
/-! PWR_ENG_TEST: 16_power_ageing_repair.md, R408. -/
def PWR_ENG_TEST.engine : Fld := ⟨434, 0, 10, .rw, 8, 0, .zero⟩
def PWR_ENG_TEST.go : Fld := ⟨435, 16, 1, .wo, 8, 0, .zero⟩
def PWR_ENG_TEST.busy : Fld := ⟨436, 17, 1, .ro, 0, 0, .zero⟩
def PWR_ENG_TEST.last_status : Fld := ⟨437, 24, 8, .ro, 0, 0, .zero⟩
def PWR_ENG_TEST.reg : RegDef := ⟨0xF, 0x800, 0x0, 1,
  [PWR_ENG_TEST.engine, PWR_ENG_TEST.go, PWR_ENG_TEST.busy, PWR_ENG_TEST.last_status]⟩
/-! TLT_PRIM: 17_tilth_and_object_dictionary.md, R431. -/
def TLT_PRIM.primary : Fld := ⟨438, 0, 1, .ro, 0, 0, .primary⟩
def TLT_PRIM.strap : Fld := ⟨439, 1, 1, .ro, 0, 0, .primary⟩
def TLT_PRIM.strap_mismatch : Fld := ⟨440, 2, 1, .ro, 0, 0, .zero⟩
def TLT_PRIM.grit_ok : Fld := ⟨441, 3, 1, .ro, 0, 0, .zero⟩
def TLT_PRIM.lease_ok : Fld := ⟨442, 4, 1, .ro, 0, 0, .zero⟩
def TLT_PRIM.role : Fld := ⟨443, 5, 2, .ro, 0, 0, .zero⟩
def TLT_PRIM.epoch : Fld := ⟨444, 16, 16, .ro, 0, 0, .zero⟩
def TLT_PRIM.lease_age_us : Fld := ⟨445, 32, 16, .ro, 0, 0, .zero⟩
def TLT_PRIM.reg : RegDef := ⟨0x11, 0x100, 0x0, 1,
  [TLT_PRIM.primary, TLT_PRIM.strap, TLT_PRIM.strap_mismatch, TLT_PRIM.grit_ok, TLT_PRIM.lease_ok, TLT_PRIM.role, TLT_PRIM.epoch, TLT_PRIM.lease_age_us]⟩
/-! TLT_HPOD: 17_tilth_and_object_dictionary.md, R431. -/
def TLT_HPOD.go : Fld := ⟨446, 0, 1, .wo, 4, 0, .zero⟩
def TLT_HPOD.busy : Fld := ⟨447, 1, 1, .ro, 0, 0, .zero⟩
def TLT_HPOD.addr : Fld := ⟨448, 6, 46, .rw, 4, 0, .zero⟩
def TLT_HPOD.reg : RegDef := ⟨0x11, 0x200, 0x0, 1,
  [TLT_HPOD.go, TLT_HPOD.busy, TLT_HPOD.addr]⟩
/-! PRT_IO_RID: 18_ports_lands_and_survival.md, R437. -/
def PRT_IO_RID.enable : Fld := ⟨449, 0, 1, .rw, 7, 0, .zero⟩
def PRT_IO_RID.base : Fld := ⟨450, 12, 40, .rw, 7, 0, .zero⟩
def PRT_IO_RID.reg : RegDef := ⟨0x12, 0x200, 0x8, 4,
  [PRT_IO_RID.enable, PRT_IO_RID.base]⟩
/-! PRT_IO_FAULT: 18_ports_lands_and_survival.md, R437. -/
def PRT_IO_FAULT.rid : Fld := ⟨451, 0, 16, .ro, 0, 0, .zero⟩
def PRT_IO_FAULT.port : Fld := ⟨452, 16, 2, .ro, 0, 0, .zero⟩
def PRT_IO_FAULT.write : Fld := ⟨453, 18, 1, .ro, 0, 0, .zero⟩
def PRT_IO_FAULT.count : Fld := ⟨454, 32, 16, .rc, 0, 0, .zero⟩
def PRT_IO_FAULT.reg : RegDef := ⟨0x12, 0x240, 0x0, 1,
  [PRT_IO_FAULT.rid, PRT_IO_FAULT.port, PRT_IO_FAULT.write, PRT_IO_FAULT.count]⟩
/-! PRT_CXL_WIN: 18_ports_lands_and_survival.md, R438. -/
def PRT_CXL_WIN.size_gib : Fld := ⟨455, 0, 13, .rw, 8, 0, .zero⟩
def PRT_CXL_WIN.denied : Fld := ⟨456, 13, 1, .ro, 0, 0, .zero⟩
def PRT_CXL_WIN.base_gib : Fld := ⟨457, 30, 13, .rw, 8, 0, .zero⟩
def PRT_CXL_WIN.reg : RegDef := ⟨0x12, 0x280, 0x8, 2,
  [PRT_CXL_WIN.size_gib, PRT_CXL_WIN.denied, PRT_CXL_WIN.base_gib]⟩
/-! PRT_ETHQ_CFG: 18_ports_lands_and_survival.md, R443. -/
def PRT_ETHQ_CFG.enable : Fld := ⟨458, 0, 1, .rw, 7, 0, .zero⟩
def PRT_ETHQ_CFG.subport : Fld := ⟨459, 1, 2, .rw, 7, 0, .zero⟩
def PRT_ETHQ_CFG.log2_size : Fld := ⟨460, 3, 4, .rw, 7, 0, .zero⟩
def PRT_ETHQ_CFG.mcast : Fld := ⟨461, 7, 1, .rw, 7, 0, .zero⟩
def PRT_ETHQ_CFG.base : Fld := ⟨462, 12, 40, .rw, 7, 0, .zero⟩
def PRT_ETHQ_CFG.tenant : Fld := ⟨463, 52, 12, .rw, 7, 0, .zero⟩
def PRT_ETHQ_CFG.reg : RegDef := ⟨0x12, 0x4000, 0x10, 128,
  [PRT_ETHQ_CFG.enable, PRT_ETHQ_CFG.subport, PRT_ETHQ_CFG.log2_size, PRT_ETHQ_CFG.mcast, PRT_ETHQ_CFG.base, PRT_ETHQ_CFG.tenant]⟩
/-! PRT_LINE: 18_ports_lands_and_survival.md, R453. -/
def PRT_LINE.state : Fld := ⟨464, 0, 3, .ro, 0, 0, .zero⟩
def PRT_LINE.swapped : Fld := ⟨465, 3, 1, .ro, 0, 0, .zero⟩
def PRT_LINE.value : Fld := ⟨466, 16, 16, .ro, 0, 0, .zero⟩
def PRT_LINE.changes : Fld := ⟨467, 32, 16, .rc, 0, 0, .zero⟩
def PRT_LINE.reg : RegDef := ⟨0x12, 0x300, 0x8, 37,
  [PRT_LINE.state, PRT_LINE.swapped, PRT_LINE.value, PRT_LINE.changes]⟩
/-! KNX_START: 19_start_up_and_reset.md, R465. -/
def KNX_START.release : Fld := ⟨468, 0, 1, .wo, 12, 0, .zero⟩
def KNX_START.waiting : Fld := ⟨469, 1, 1, .ro, 0, 0, .zero⟩
def KNX_START.pc : Fld := ⟨470, 2, 62, .rw, 12, 0, .zero⟩
def KNX_START.reg : RegDef := ⟨0x1, 0x100, 0x0, 1,
  [KNX_START.release, KNX_START.waiting, KNX_START.pc]⟩
/-! POT_PORT: 05_hardpan.md, R138. -/
def POT_PORT.entry : Fld := ⟨471, 0, 64, .rw, 4, 0, .zero⟩
def POT_PORT.reg : RegDef := ⟨0x7, 0x200, 0x8, 4,
  [POT_PORT.entry]⟩
/-! POT_FAULT_ADDR: 05_hardpan.md, R138. -/
def POT_FAULT_ADDR.addr : Fld := ⟨472, 0, 52, .ro, 0, 0, .zero⟩
def POT_FAULT_ADDR.reg : RegDef := ⟨0x7, 0x160, 0x0, 1,
  [POT_FAULT_ADDR.addr]⟩
/-! HPN_KEY_ARG: 05_hardpan.md, R493. -/
def HPN_KEY_ARG.arg : Fld := ⟨473, 0, 64, .rw, 4, 0, .zero⟩
def HPN_KEY_ARG.reg : RegDef := ⟨0x6, 0x308, 0x8, 4,
  [HPN_KEY_ARG.arg]⟩
/-! HPN_STORE_BASE: 05_hardpan.md, R493. -/
def HPN_STORE_BASE.base : Fld := ⟨474, 12, 40, .rw, 4, 0, .zero⟩
def HPN_STORE_BASE.reg : RegDef := ⟨0x6, 0x200, 0x0, 1,
  [HPN_STORE_BASE.base]⟩
/-! HPN_STORE_SIZE: 05_hardpan.md, R493. -/
def HPN_STORE_SIZE.size : Fld := ⟨475, 0, 20, .rw, 4, 0, .zero⟩
def HPN_STORE_SIZE.reg : RegDef := ⟨0x6, 0x208, 0x0, 1,
  [HPN_STORE_SIZE.size]⟩
/-! STR_TIME_LO: 06_strata_and_varve.md, R164. -/
def STR_TIME_LO.value : Fld := ⟨476, 0, 64, .ro, 0, 0, .zero⟩
def STR_TIME_LO.reg : RegDef := ⟨0x8, 0x110, 0x0, 1,
  [STR_TIME_LO.value]⟩
/-! STR_TIME_HI: 06_strata_and_varve.md, R164. -/
def STR_TIME_HI.value : Fld := ⟨477, 0, 32, .ro, 0, 0, .zero⟩
def STR_TIME_HI.reg : RegDef := ⟨0x8, 0x118, 0x0, 1,
  [STR_TIME_HI.value]⟩
/-! STR_CMP_TIME_LO: 06_strata_and_varve.md, R176. -/
def STR_CMP_TIME_LO.value : Fld := ⟨478, 0, 64, .rw, 7, 0, .zero⟩
def STR_CMP_TIME_LO.reg : RegDef := ⟨0x8, 0x1000, 0x20, 64,
  [STR_CMP_TIME_LO.value]⟩
/-! STR_CMP_TIME_HI: 06_strata_and_varve.md, R176. -/
def STR_CMP_TIME_HI.value : Fld := ⟨479, 0, 32, .rw, 7, 0, .zero⟩
def STR_CMP_TIME_HI.reg : RegDef := ⟨0x8, 0x1008, 0x20, 64,
  [STR_CMP_TIME_HI.value]⟩
/-! STR_CMP_ARG: 06_strata_and_varve.md, R176. -/
def STR_CMP_ARG.arg : Fld := ⟨480, 0, 64, .rw, 7, 0, .zero⟩
def STR_CMP_ARG.reg : RegDef := ⟨0x8, 0x1018, 0x20, 64,
  [STR_CMP_ARG.arg]⟩
/-! VRV_NEXT_POS: 06_strata_and_varve.md, R185. -/
def VRV_NEXT_POS.value : Fld := ⟨481, 0, 64, .ro, 0, 0, .zero⟩
def VRV_NEXT_POS.reg : RegDef := ⟨0x9, 0x120, 0x0, 1,
  [VRV_NEXT_POS.value]⟩
/-! VRV_NEXT_LEAF: 06_strata_and_varve.md, R185. -/
def VRV_NEXT_LEAF.value : Fld := ⟨482, 0, 64, .ro, 0, 0, .zero⟩
def VRV_NEXT_LEAF.reg : RegDef := ⟨0x9, 0x128, 0x0, 1,
  [VRV_NEXT_LEAF.value]⟩
/-! VRV_CONS_POS: 06_strata_and_varve.md, R185. -/
def VRV_CONS_POS.value : Fld := ⟨483, 0, 64, .rw, 5, 0, .zero⟩
def VRV_CONS_POS.reg : RegDef := ⟨0x9, 0x130, 0x0, 1,
  [VRV_CONS_POS.value]⟩
/-! VRV_CONS_LEAF: 06_strata_and_varve.md, R185. -/
def VRV_CONS_LEAF.value : Fld := ⟨484, 0, 64, .rw, 5, 0, .zero⟩
def VRV_CONS_LEAF.reg : RegDef := ⟨0x9, 0x138, 0x0, 1,
  [VRV_CONS_LEAF.value]⟩
/-! VRV_CKPT_KEY: 06_strata_and_varve.md, R185. -/
def VRV_CKPT_KEY.handle : Fld := ⟨485, 0, 64, .rw, 4, 0, .zero⟩
def VRV_CKPT_KEY.reg : RegDef := ⟨0x9, 0x140, 0x0, 1,
  [VRV_CKPT_KEY.handle]⟩
/-! TIF_DB: 11_tenant_interfaces.md, R303. -/
def TIF_DB.tail : Fld := ⟨486, 0, 12, .wo, 5, 0, .zero⟩
def TIF_DB.reg : RegDef := ⟨0xA, 0x1000, 0x8, 16,
  [TIF_DB.tail]⟩
/-! TIF_RING_HEAD: 11_tenant_interfaces.md, R303. -/
def TIF_RING_HEAD.head : Fld := ⟨487, 0, 32, .wo, 5, 0, .zero⟩
def TIF_RING_HEAD.reg : RegDef := ⟨0xA, 0x1080, 0x0, 1,
  [TIF_RING_HEAD.head]⟩
/-! TIF_RING_STATE: 11_tenant_interfaces.md, R303. -/
def TIF_RING_STATE.tail : Fld := ⟨488, 0, 32, .ro, 0, 0, .zero⟩
def TIF_RING_STATE.head : Fld := ⟨489, 32, 32, .ro, 0, 0, .zero⟩
def TIF_RING_STATE.reg : RegDef := ⟨0xA, 0x148, 0x0, 1,
  [TIF_RING_STATE.tail, TIF_RING_STATE.head]⟩
/-! TIF_POOLS: 11_tenant_interfaces.md, R308. -/
def TIF_POOLS.mask : Fld := ⟨490, 0, 32, .rw, 7, 0, .zero⟩
def TIF_POOLS.reg : RegDef := ⟨0xA, 0x120, 0x0, 1,
  [TIF_POOLS.mask]⟩
/-! TIF_EVENT: 11_tenant_interfaces.md, R308. -/
def TIF_EVENT.intr_id : Fld := ⟨491, 0, 12, .rw, 7, 0, .zero⟩
def TIF_EVENT.queue_mode : Fld := ⟨492, 12, 1, .rw, 7, 0, .zero⟩
def TIF_EVENT.reg : RegDef := ⟨0xA, 0x128, 0x0, 1,
  [TIF_EVENT.intr_id, TIF_EVENT.queue_mode]⟩
/-! DSP_TI_LIVE: 11_tenant_interfaces.md, R310. -/
def DSP_TI_LIVE.live : Fld := ⟨493, 0, 64, .ro, 0, 0, .zero⟩
def DSP_TI_LIVE.reg : RegDef := ⟨0x3, 0x400, 0x8, 64,
  [DSP_TI_LIVE.live]⟩
/-! EVH_TIQ_PTR: 12_event_hub.md, R324. -/
def EVH_TIQ_PTR.head : Fld := ⟨494, 0, 32, .rw, 7, 0, .zero⟩
def EVH_TIQ_PTR.tail : Fld := ⟨495, 32, 32, .ro, 0, 0, .zero⟩
def EVH_TIQ_PTR.reg : RegDef := ⟨0xB, 0x90008, 0x10, 4096,
  [EVH_TIQ_PTR.head, EVH_TIQ_PTR.tail]⟩
/-! EVH_EOI_K: 12_event_hub.md, R325. -/
def EVH_EOI_K.id : Fld := ⟨496, 0, 12, .wo, 7, 0, .zero⟩
def EVH_EOI_K.reg : RegDef := ⟨0xB, 0x10008, 0x1000, 128,
  [EVH_EOI_K.id]⟩
/-! EVH_EOI_V: 12_event_hub.md, R325. -/
def EVH_EOI_V.id : Fld := ⟨497, 0, 12, .wo, 6, 0, .zero⟩
def EVH_EOI_V.reg : RegDef := ⟨0xB, 0x10018, 0x1000, 128,
  [EVH_EOI_V.id]⟩
/-! EVH_EQ_PTR: 12_event_hub.md, R325. -/
def EVH_EQ_PTR.head : Fld := ⟨498, 0, 32, .rw, 7, 0, .zero⟩
def EVH_EQ_PTR.tail : Fld := ⟨499, 32, 32, .ro, 0, 0, .zero⟩
def EVH_EQ_PTR.reg : RegDef := ⟨0xB, 0x10048, 0x1000, 128,
  [EVH_EQ_PTR.head, EVH_EQ_PTR.tail]⟩
/-! EVH_EQ_OVF: 12_event_hub.md, R325. -/
def EVH_EQ_OVF.overflow : Fld := ⟨500, 0, 16, .rc, 0, 0, .zero⟩
def EVH_EQ_OVF.reg : RegDef := ⟨0xB, 0x10050, 0x1000, 128,
  [EVH_EQ_OVF.overflow]⟩
/-! EVH_SEC_CLAIM: 12_event_hub.md, R325. -/
def EVH_SEC_CLAIM.id : Fld := ⟨501, 0, 12, .ro, 0, 0, .zero⟩
def EVH_SEC_CLAIM.qualifier : Fld := ⟨502, 12, 12, .ro, 0, 0, .zero⟩
def EVH_SEC_CLAIM.multi : Fld := ⟨503, 24, 1, .ro, 0, 0, .zero⟩
def EVH_SEC_CLAIM.half : Fld := ⟨504, 25, 1, .ro, 0, 0, .zero⟩
def EVH_SEC_CLAIM.reg : RegDef := ⟨0xB, 0x4000, 0x40, 128,
  [EVH_SEC_CLAIM.id, EVH_SEC_CLAIM.qualifier, EVH_SEC_CLAIM.multi, EVH_SEC_CLAIM.half]⟩
/-! EVH_SEC_EOI: 12_event_hub.md, R325. -/
def EVH_SEC_EOI.id : Fld := ⟨505, 0, 12, .wo, 4, 0, .zero⟩
def EVH_SEC_EOI.reg : RegDef := ⟨0xB, 0x4008, 0x40, 128,
  [EVH_SEC_EOI.id]⟩
/-! EVH_SEC_PRIO: 12_event_hub.md, R325. -/
def EVH_SEC_PRIO.thr : Fld := ⟨506, 0, 8, .rw, 4, 255, .zero⟩
def EVH_SEC_PRIO.split : Fld := ⟨507, 8, 3, .rw, 4, 0, .zero⟩
def EVH_SEC_PRIO.run : Fld := ⟨508, 16, 8, .ro, 0, 255, .zero⟩
def EVH_SEC_PRIO.act : Fld := ⟨509, 24, 5, .ro, 0, 0, .zero⟩
def EVH_SEC_PRIO.reg : RegDef := ⟨0xB, 0x4010, 0x40, 128,
  [EVH_SEC_PRIO.thr, EVH_SEC_PRIO.split, EVH_SEC_PRIO.run, EVH_SEC_PRIO.act]⟩
/-! EVH_HOLD: 12_event_hub.md, R325. -/
def EVH_HOLD.hold : Fld := ⟨510, 0, 1, .rw, 15, 0, .zero⟩
def EVH_HOLD.reg : RegDef := ⟨0xB, 0x100, 0x0, 1,
  [EVH_HOLD.hold]⟩
/-! KAO_CHAN_DB: 13_kaolin.md, R344. -/
def KAO_CHAN_DB.tail : Fld := ⟨511, 0, 12, .wo, 15, 0, .zero⟩
def KAO_CHAN_DB.reg : RegDef := ⟨0xC, 0x10000, 0x1000, 64,
  [KAO_CHAN_DB.tail]⟩
/-! DMC_NR_LFSR: 14_dram_controller.md, R365. -/
def DMC_NR_LFSR.value : Fld := ⟨512, 0, 32, .rw, 12, 1, .inst⟩
def DMC_NR_LFSR.reg : RegDef := ⟨0xD, 0x118, 0x0, 1,
  [DMC_NR_LFSR.value]⟩
/-! DMC_COUNT2: 14_dram_controller.md, R365. -/
def DMC_COUNT2.zero_fills : Fld := ⟨513, 0, 32, .rc, 0, 0, .zero⟩
def DMC_COUNT2.bitmap_ue : Fld := ⟨514, 32, 16, .rc, 0, 0, .zero⟩
def DMC_COUNT2.reg : RegDef := ⟨0xD, 0x148, 0x0, 1,
  [DMC_COUNT2.zero_fills, DMC_COUNT2.bitmap_ue]⟩
/-! DMC_TRAIN_PAT: 14_dram_controller.md, R365. -/
def DMC_TRAIN_PAT.pattern : Fld := ⟨515, 0, 64, .rw, 8, 0, .zero⟩
def DMC_TRAIN_PAT.reg : RegDef := ⟨0xD, 0x208, 0x8, 4,
  [DMC_TRAIN_PAT.pattern]⟩
/-! DMC_MIG_PTR: 14_dram_controller.md, R365. -/
def DMC_MIG_PTR.p : Fld := ⟨516, 12, 24, .ro, 0, 0, .zero⟩
def DMC_MIG_PTR.reg : RegDef := ⟨0xD, 0x408, 0x0, 1,
  [DMC_MIG_PTR.p]⟩
/-! RAS_LOG_PTR: 15_riddle_codes_and_ras.md, R379. -/
def RAS_LOG_PTR.head : Fld := ⟨517, 0, 32, .rw, 1, 0, .zero⟩
def RAS_LOG_PTR.tail : Fld := ⟨518, 32, 32, .ro, 0, 0, .zero⟩
def RAS_LOG_PTR.reg : RegDef := ⟨0xE, 0x110, 0x0, 1,
  [RAS_LOG_PTR.head, RAS_LOG_PTR.tail]⟩
/-! RAS_SLOG_PTR: 15_riddle_codes_and_ras.md, R379. -/
def RAS_SLOG_PTR.head : Fld := ⟨519, 0, 32, .rw, 4, 0, .zero⟩
def RAS_SLOG_PTR.tail : Fld := ⟨520, 32, 32, .ro, 0, 0, .zero⟩
def RAS_SLOG_PTR.reg : RegDef := ⟨0xE, 0x120, 0x0, 1,
  [RAS_SLOG_PTR.head, RAS_SLOG_PTR.tail]⟩
/-! RAS_COUNT: 15_riddle_codes_and_ras.md, R379. -/
def RAS_COUNT.ce : Fld := ⟨521, 0, 32, .rc, 0, 0, .zero⟩
def RAS_COUNT.de : Fld := ⟨522, 32, 16, .rc, 0, 0, .zero⟩
def RAS_COUNT.uer : Fld := ⟨523, 48, 16, .rc, 0, 0, .zero⟩
def RAS_COUNT.reg : RegDef := ⟨0xE, 0x130, 0x0, 1,
  [RAS_COUNT.ce, RAS_COUNT.de, RAS_COUNT.uer]⟩
/-! RAS_COUNT2: 15_riddle_codes_and_ras.md, R379. -/
def RAS_COUNT2.uef : Fld := ⟨524, 0, 16, .rc, 0, 0, .zero⟩
def RAS_COUNT2.dropped : Fld := ⟨525, 16, 16, .rc, 0, 0, .zero⟩
def RAS_COUNT2.suppressed : Fld := ⟨526, 32, 32, .rc, 0, 0, .zero⟩
def RAS_COUNT2.reg : RegDef := ⟨0xE, 0x138, 0x0, 1,
  [RAS_COUNT2.uef, RAS_COUNT2.dropped, RAS_COUNT2.suppressed]⟩
/-! RAS_PASS_START: 15_riddle_codes_and_ras.md, R384. -/
def RAS_PASS_START.addr : Fld := ⟨527, 6, 46, .rw, 15, 0, .zero⟩
def RAS_PASS_START.reg : RegDef := ⟨0xE, 0x300, 0x0, 1,
  [RAS_PASS_START.addr]⟩
/-! RAS_PASS_LEN: 15_riddle_codes_and_ras.md, R384. -/
def RAS_PASS_LEN.lines : Fld := ⟨528, 0, 40, .rw, 15, 0, .zero⟩
def RAS_PASS_LEN.reg : RegDef := ⟨0xE, 0x308, 0x0, 1,
  [RAS_PASS_LEN.lines]⟩
/-! RAS_PASS_SUM0: 15_riddle_codes_and_ras.md, R384. -/
def RAS_PASS_SUM0.lines : Fld := ⟨529, 0, 40, .ro, 0, 0, .zero⟩
def RAS_PASS_SUM0.cancelled : Fld := ⟨530, 63, 1, .ro, 0, 0, .zero⟩
def RAS_PASS_SUM0.reg : RegDef := ⟨0xE, 0x318, 0x0, 1,
  [RAS_PASS_SUM0.lines, RAS_PASS_SUM0.cancelled]⟩
/-! RAS_PASS_SUM1: 15_riddle_codes_and_ras.md, R384. -/
def RAS_PASS_SUM1.ce : Fld := ⟨531, 0, 16, .ro, 0, 0, .zero⟩
def RAS_PASS_SUM1.new_ue : Fld := ⟨532, 16, 16, .ro, 0, 0, .zero⟩
def RAS_PASS_SUM1.poisoned : Fld := ⟨533, 32, 16, .ro, 0, 0, .zero⟩
def RAS_PASS_SUM1.hidden : Fld := ⟨534, 48, 16, .ro, 0, 0, .zero⟩
def RAS_PASS_SUM1.reg : RegDef := ⟨0xE, 0x320, 0x0, 1,
  [RAS_PASS_SUM1.ce, RAS_PASS_SUM1.new_ue, RAS_PASS_SUM1.poisoned, RAS_PASS_SUM1.hidden]⟩
/-! RAS_PASS_UE: 15_riddle_codes_and_ras.md, R384. -/
def RAS_PASS_UE.valid : Fld := ⟨535, 0, 1, .ro, 0, 0, .zero⟩
def RAS_PASS_UE.already_poisoned : Fld := ⟨536, 1, 1, .ro, 0, 0, .zero⟩
def RAS_PASS_UE.addr : Fld := ⟨537, 6, 46, .ro, 0, 0, .zero⟩
def RAS_PASS_UE.reg : RegDef := ⟨0xE, 0x328, 0x8, 8,
  [RAS_PASS_UE.valid, RAS_PASS_UE.already_poisoned, RAS_PASS_UE.addr]⟩
/-! RAS_POST: 15_riddle_codes_and_ras.md, R385. -/
def RAS_POST.pass : Fld := ⟨538, 0, 1, .ro, 0, 0, .zero⟩
def RAS_POST.failing : Fld := ⟨539, 8, 8, .ro, 0, 0, .zero⟩
def RAS_POST.first_stop : Fld := ⟨540, 16, 9, .ro, 0, 0, .zero⟩
def RAS_POST.tested : Fld := ⟨541, 32, 16, .ro, 0, 0, .zero⟩
def RAS_POST.reg : RegDef := ⟨0xE, 0x800, 0x0, 1,
  [RAS_POST.pass, RAS_POST.failing, RAS_POST.first_stop, RAS_POST.tested]⟩
/-! RAS_INJ_ADDR: 15_riddle_codes_and_ras.md, R386. -/
def RAS_INJ_ADDR.addr : Fld := ⟨542, 6, 46, .rw, 15, 0, .zero⟩
def RAS_INJ_ADDR.reg : RegDef := ⟨0xE, 0x500, 0x0, 1,
  [RAS_INJ_ADDR.addr]⟩
/-! WTH_MARGIN: 16_power_ageing_repair.md, R403. -/
def WTH_MARGIN.years : Fld := ⟨543, 0, 32, .ro, 0, 0, .zero⟩
def WTH_MARGIN.worst_stop : Fld := ⟨544, 32, 9, .ro, 0, 0, .zero⟩
def WTH_MARGIN.hours16 : Fld := ⟨545, 44, 20, .ro, 0, 0, .zero⟩
def WTH_MARGIN.reg : RegDef := ⟨0x10, 0x108, 0x0, 1,
  [WTH_MARGIN.years, WTH_MARGIN.worst_stop, WTH_MARGIN.hours16]⟩
/-! PWR_BACKFILL_PC: 16_power_ageing_repair.md, R406. -/
def PWR_BACKFILL_PC.pc : Fld := ⟨546, 2, 62, .rw, 7, 0, .zero⟩
def PWR_BACKFILL_PC.reg : RegDef := ⟨0xF, 0x608, 0x0, 1,
  [PWR_BACKFILL_PC.pc]⟩
/-! PWR_LINK_FAIL: 16_power_ageing_repair.md, R407. -/
def PWR_LINK_FAIL.failed : Fld := ⟨547, 0, 64, .ro, 0, 0, .zero⟩
def PWR_LINK_FAIL.reg : RegDef := ⟨0xF, 0x700, 0x8, 3,
  [PWR_LINK_FAIL.failed]⟩
/-! PRT_ETHQ_MAC: 18_ports_lands_and_survival.md, R443. -/
def PRT_ETHQ_MAC.mac : Fld := ⟨548, 0, 48, .rw, 7, 0, .zero⟩
def PRT_ETHQ_MAC.vlan : Fld := ⟨549, 48, 12, .rw, 7, 0, .zero⟩
def PRT_ETHQ_MAC.vlan_en : Fld := ⟨550, 60, 1, .rw, 7, 0, .zero⟩
def PRT_ETHQ_MAC.reg : RegDef := ⟨0x12, 0x4008, 0x10, 128,
  [PRT_ETHQ_MAC.mac, PRT_ETHQ_MAC.vlan, PRT_ETHQ_MAC.vlan_en]⟩
/-! PRT_ETH_TX_DB: 18_ports_lands_and_survival.md, R443. -/
def PRT_ETH_TX_DB.tail : Fld := ⟨551, 0, 12, .wo, 7, 0, .zero⟩
def PRT_ETH_TX_DB.reg : RegDef := ⟨0x12, 0x20000, 0x1000, 128,
  [PRT_ETH_TX_DB.tail]⟩
/-! PRT_ETH_RX_DB: 18_ports_lands_and_survival.md, R443. -/
def PRT_ETH_RX_DB.tail : Fld := ⟨552, 0, 12, .wo, 7, 0, .zero⟩
def PRT_ETH_RX_DB.reg : RegDef := ⟨0x12, 0x20008, 0x1000, 128,
  [PRT_ETH_RX_DB.tail]⟩
/-! PRT_ETH_COUNT: 18_ports_lands_and_survival.md, R443. -/
def PRT_ETH_COUNT.nomatch : Fld := ⟨553, 0, 16, .rc, 0, 0, .zero⟩
def PRT_ETH_COUNT.ring_full : Fld := ⟨554, 16, 16, .rc, 0, 0, .zero⟩
def PRT_ETH_COUNT.pot : Fld := ⟨555, 32, 16, .rc, 0, 0, .zero⟩
def PRT_ETH_COUNT.poison : Fld := ⟨556, 48, 16, .rc, 0, 0, .zero⟩
def PRT_ETH_COUNT.reg : RegDef := ⟨0x12, 0x480, 0x0, 1,
  [PRT_ETH_COUNT.nomatch, PRT_ETH_COUNT.ring_full, PRT_ETH_COUNT.pot, PRT_ETH_COUNT.poison]⟩

/-- The registers of class 0x00 (the common header). -/
def tablePFX : List RegDef :=
  [PFX_ID.reg, PFX_CTL.reg, PFX_STATE.reg]
/-- The registers of class 0x01. -/
def tableKNX : List RegDef :=
  [KNX_START.reg]
/-- The registers of class 0x02. -/
def tableSLT : List RegDef :=
  [SLT_POOL.reg, SLT_RUN.reg, SLT_FAULT.reg, SLT_CACHE.reg, SLT_LFSR.reg, SLT_DEBUG.reg, SLT_TASK_LIMIT.reg, SLT_COUNT.reg]
/-- The registers of class 0x03. -/
def tableDSP : List RegDef :=
  [DSP_STEAL_CTL.reg, DSP_STEAL_LFSR.reg, DSP_POOL_LINK.reg, DSP_LAUNCH_CTL.reg, DSP_FETCH_CTL.reg, DSP_ROUTE_CTL.reg, DSP_COUNT.reg, DSP_STEAL_COUNT.reg, DSP_TI_COUNT.reg, DSP_TI_LIVE.reg]
/-- The registers of class 0x04. -/
def tableCLT : List RegDef :=
  [CLT_LANE.reg, CLT_COUNT.reg]
/-- The registers of class 0x05. -/
def tableSVC : List RegDef :=
  [SVC_SRAM_WIN.reg, SVC_IMG.reg, SVC_LOAD.reg, SVC_LOAD_ADDR.reg, SVC_POOL_IMG.reg]
/-- The registers of class 0x06. -/
def tableHPN : List RegDef :=
  [HPN_POOL.reg, HPN_DEBUG.reg, HPN_STATUS.reg, HPN_HEARTBEAT.reg, HPN_RESTART.reg, HPN_CALL_CTL.reg, HPN_KEY_CMD.reg, HPN_TAMPER.reg, HPN_KEY_ARG.reg, HPN_STORE_BASE.reg, HPN_STORE_SIZE.reg]
/-- The registers of class 0x07. -/
def tablePOT : List RegDef :=
  [POT_CTL.reg, POT_MEM_BASE.reg, POT_CXL_BASE.reg, POT_DRS_BASE.reg, POT_CXL_PAGES.reg, POT_INVAL_ADDR.reg, POT_INVAL.reg, POT_FAULT.reg, POT_PORT.reg, POT_FAULT_ADDR.reg]
/-- The registers of class 0x08. -/
def tableSTR : List RegDef :=
  [STR_CTL.reg, STR_STATUS.reg, STR_RATE.reg, STR_STEP.reg, STR_SET_LO.reg, STR_SET_HI.reg, STR_PPS.reg, STR_CMP_CTL.reg, STR_TIME_LO.reg, STR_TIME_HI.reg, STR_CMP_TIME_LO.reg, STR_CMP_TIME_HI.reg, STR_CMP_ARG.reg]
/-- The registers of class 0x09. -/
def tableVRV : List RegDef :=
  [VRV_CTL.reg, VRV_LOG.reg, VRV_LEAF.reg, VRV_CKPT_LOG.reg, VRV_CKPT_CTL.reg, VRV_STATUS.reg, VRV_NEXT_POS.reg, VRV_NEXT_LEAF.reg, VRV_CONS_POS.reg, VRV_CONS_LEAF.reg, VRV_CKPT_KEY.reg]
/-- The registers of class 0x0A. -/
def tableTIF : List RegDef :=
  [TIF_CFG.reg, TIF_RING.reg, TIF_SHADOW.reg, TIF_SQ.reg, TIF_SQ_STATE.reg, TIF_GEN.reg, TIF_STATUS.reg, TIF_COUNT.reg, TIF_QUOTA.reg, TIF_DB.reg, TIF_RING_HEAD.reg, TIF_RING_STATE.reg, TIF_POOLS.reg, TIF_EVENT.reg]
/-- The registers of class 0x0B. -/
def tableEVH : List RegDef :=
  [EVH_SRC.reg, EVH_RAISE.reg, EVH_SGI.reg, EVH_TIQ_CFG.reg, EVH_CLAIM_K.reg, EVH_CLAIM_V.reg, EVH_PRIO.reg, EVH_EQ_CFG.reg, EVH_STAT.reg, EVH_TIQ_PTR.reg, EVH_EOI_K.reg, EVH_EOI_V.reg, EVH_EQ_PTR.reg, EVH_EQ_OVF.reg, EVH_SEC_CLAIM.reg, EVH_SEC_EOI.reg, EVH_SEC_PRIO.reg, EVH_HOLD.reg]
/-- The registers of class 0x0C. -/
def tableKAO : List RegDef :=
  [KAO_CHAN_CFG.reg, KAO_CHAN_BIND.reg, KAO_CHAN_STATE.reg, KAO_SLOT.reg, KAO_STAT.reg, KAO_CHAN_DB.reg]
/-- The registers of class 0x0D. -/
def tableDMC : List RegDef :=
  [DMC_CFG.reg, DMC_STATUS.reg, DMC_REFRESH.reg, DMC_RETRAIN.reg, DMC_COUNT.reg, DMC_TRAIN_CTL.reg, DMC_TRAIN_WIN.reg, DMC_DELAY.reg, DMC_MIGRATE.reg, DMC_NR_LFSR.reg, DMC_COUNT2.reg, DMC_TRAIN_PAT.reg, DMC_MIG_PTR.reg]
/-- The registers of class 0x0E. -/
def tableRAS : List RegDef :=
  [RAS_HOME_CTL.reg, RAS_HOME_STATUS.reg, RAS_HOME_ADDR.reg, RAS_CTL.reg, RAS_LOG.reg, RAS_SLOG.reg, RAS_MARK.reg, RAS_PATROL.reg, RAS_LAP.reg, RAS_PASS_CTL.reg, RAS_INJ_CTL.reg, RAS_LOG_PTR.reg, RAS_SLOG_PTR.reg, RAS_COUNT.reg, RAS_COUNT2.reg, RAS_PASS_START.reg, RAS_PASS_LEN.reg, RAS_PASS_SUM0.reg, RAS_PASS_SUM1.reg, RAS_PASS_UE.reg, RAS_POST.reg, RAS_INJ_ADDR.reg]
/-- The registers of class 0x0F. -/
def tablePWR : List RegDef :=
  [PWR_HOLD.reg, PWR_RAIL.reg, PWR_POWER.reg, PWR_DOM.reg, PWR_DORM.reg, PWR_FALLOW.reg, PWR_WATCH.reg, PWR_MEND.reg, PWR_BACKFILL.reg, PWR_ENG_TEST.reg, PWR_BACKFILL_PC.reg, PWR_LINK_FAIL.reg]
/-- The registers of class 0x10. -/
def tableWTH : List RegDef :=
  [WTH_CTL.reg, WTH_SLACK.reg, WTH_FMAX.reg, WTH_MARGIN.reg]
/-- The registers of class 0x11. -/
def tableTLT : List RegDef :=
  [TLT_PRIM.reg, TLT_HPOD.reg]
/-- The registers of class 0x12. -/
def tablePRT : List RegDef :=
  [PRT_BLOCK_EVT.reg, PRT_CLAIM.reg, PRT_IO_RID.reg, PRT_IO_FAULT.reg, PRT_CXL_WIN.reg, PRT_ETHQ_CFG.reg, PRT_LINE.reg, PRT_ETHQ_MAC.reg, PRT_ETH_TX_DB.reg, PRT_ETH_RX_DB.reg, PRT_ETH_COUNT.reg]

/-- The registers of a block class, after the common header. -/
def table : Nat → List RegDef
  | 0x01 => tableKNX
  | 0x02 => tableSLT
  | 0x03 => tableDSP
  | 0x04 => tableCLT
  | 0x05 => tableSVC
  | 0x06 => tableHPN
  | 0x07 => tablePOT
  | 0x08 => tableSTR
  | 0x09 => tableVRV
  | 0x0A => tableTIF
  | 0x0B => tableEVH
  | 0x0C => tableKAO
  | 0x0D => tableDMC
  | 0x0E => tableRAS
  | 0x0F => tablePWR
  | 0x10 => tableWTH
  | 0x11 => tableTLT
  | 0x12 => tablePRT
  | _ => []

end Reg

end Sys2Proof.Machine
end

