-- ==== Sys2Proof/Machine/State.lean ====
section
/-!
DEFINITION. State: everything the spec gives the A256, as plain data, and the machine right after reset.
-/
namespace Sys2Proof.Machine

/-- A register file of fields: field number, then block instance, then index in the register array; an unlisted field
holds its reset value. -/
abbrev Regs := SMap (SMap (SMap Nat))

/-- The machine. -/
structure State where
  /-- Commands waiting, first in, first out. -/
  pending : List Instr
  /-- Register fields of the device register space (R24). -/
  regs : Regs
  /-- Register writes held until their block reaches ON (R33), by class * 4096 + instance. -/
  heldWrites : SMap (List HeldWrite)
  /-- Blocks whose present start came through restart_pending (R32). -/
  viaRestart : SMap Bool
  mem : Mem
  /-- Generation of each memory key slot; 0 when cleared (R140). -/
  keySlots : SMap Nat
  keyGen : Nat
  /-- Key slots that a channel's key table has lost with its domain's power (R396), by channel * 2048 + slot. -/
  keyLost : SMap Bool
  /-- POT entries held by the walkers' caches (R134): checker, then table * 2^40 + index. -/
  potCache : SMap (SMap Word)
  coh : Coh
  evh : Evh
  ras : SMap RasHalf
  dmc : SMap Dmc
  /-- The Knaxa cores by physical number. -/
  cores : SMap Core
  /-- The Silt engines by engine ID. -/
  engines : SMap Engine
  clusters : SMap Cluster
  dsp : SMap Dsp
  clt : SMap Clt
  /-- The tenant interfaces by number. -/
  tis : SMap Ti
  steals : List StealMsg
  /-- Epoch actions by comparator. -/
  fans : SMap Fan
  /-- The Kaolin units by half. -/
  kao : SMap Kao
  custody : Custody
  ledger : Ledger
  strata : Strata
  sys : Sys
  pwr : Pwr
  tlt : Tlt
  prt : Prt
  out : Out
  /-- How many free values the run has drawn: the model's own. -/
  freeCtr : Nat
  /-- How many bytes the random source has given. -/
  rngCtr : Nat
deriving DecidableEq, Repr

/-- Why a command stops with a fault. No meaning raises one: the spec gives every command an effect. -/
inductive Fault where
  /-- Never raised. Safe: a stop proves nothing false. -/
  | none
deriving DecidableEq, Repr

/-- Why a command is refused. -/
inductive Refusal where
  /-- Raised by Dispatch for a command without a meaning. Safe. -/
  | notModelled (mnemonic : String)
deriving DecidableEq, Repr

/-- The outcome of a command. -/
abbrev Out3 := Host.Outcome State Fault Refusal

/-- The machine right after package reset. -/
def State.reset : State where
  pending := []
  regs := []
  heldWrites := []
  viaRestart := []
  mem := ⟨[], [], [], [], []⟩
  keySlots := []
  keyGen := 0
  keyLost := []
  potCache := []
  coh := Coh.empty
  evh := ⟨[], [], [], [], []⟩
  ras := []
  dmc := []
  cores := []
  engines := []
  clusters := []
  dsp := []
  clt := []
  tis := []
  steals := []
  fans := []
  kao := []
  custody := Custody.empty
  ledger := Ledger.empty
  strata := Strata.empty
  sys := ⟨.root, .field, 0, 0, 0, none, false, [], false, [], [], [], [], [], [], [], [], 4095, false, []⟩
  pwr := Pwr.empty
  tlt := Tlt.empty
  prt := Prt.empty
  out := ⟨0, 0, [], []⟩
  freeCtr := 0
  rngCtr := 0

end Sys2Proof.Machine
end

