-- ==== Sys2Proof/Machine/Ops.lean ====
section
/-!
DEFINITION. Ops: the named operations over the registers, time, memory, the Page Ownership Table, the error logs and the
Event Hub that every meaning is written with.
-/
namespace Sys2Proof.Machine

/-! ## Register fields -/

/-- A field's value after package reset (R9), for block instance `i` and index `j`. -/
def Fld.reset (f : Fld) (i j : Nat) : Nat :=
  match f.kind with
  | .zero => f.rst
  | .inst => f.rst + i
  | .cluster => f.rst + 8 * i + j
  | .preempt => b2n (48 ≤ j && j ≤ 64)
  | .primary => b2n (i == 0)
  | .secureId => b2n ((0x100 ≤ j && j < 0x200) || (0x300 ≤ j && j < 0x400))
  | .rail => [800, 800, 800, 800, 850, 850, 800, 800, 750, 800, 1200, 900, 1800, 0].getD j 0
  | .railValid => 0
  | .plan => 3600

/-- The field's value in instance `i` at index `j`. -/
def State.rf (s : State) (f : Fld) (i : Nat) (j : Nat := 0) : Nat :=
  SMap.get (f.reset i j) (SMap.get [] (SMap.get [] s.regs f.id) i) j

/-- The register file with the field of instance `i`, index `j` set. -/
def Regs.put (r : Regs) (f : Fld) (i j v : Nat) : Regs :=
  SMap.upd [] r f.id fun m => SMap.upd [] m i fun n => SMap.set (f.reset i j) n j (v % 2 ^ f.width)

/-- Set the field of instance `i`, index `j`, to the low bits of `v`. -/
def State.setf (s : State) (f : Fld) (i v : Nat) (j : Nat := 0) : State :=
  { s with regs := s.regs.put f i j v }

/-- Add `n` to a counter that saturates. -/
def State.addf (s : State) (f : Fld) (i : Nat) (j : Nat := 0) (n : Nat := 1) : State :=
  s.setf f i (Nat.min (2 ^ f.width - 1) (s.rf f i j + n)) j

/-- Read a bit field as a Bool. -/
def State.rb (s : State) (f : Fld) (i : Nat) (j : Nat := 0) : Bool := s.rf f i j != 0

/-- A field's value read as two's complement. -/
def Fld.signed (f : Fld) (v : Nat) : Int := if v < 2 ^ (f.width - 1) then v else (v : Int) - 2 ^ f.width

/-- Drop every field of a block class's instance back to its reset value. -/
def State.resetFld (s : State) (f : Fld) (i : Nat) (j : Nat := 0) : State := s.setf f i (f.reset i j) j

/-! ## Block headers (R29 to R31) -/

/-- The instance number under which a block's common header is kept. -/
def blkKey (cls inst : Nat) : Nat := cls * 4096 + inst

def State.blkState (s : State) (cls inst : Nat) : Nat := s.rf Reg.PFX_STATE.state (blkKey cls inst)

/-- The block is ON. -/
def State.blkOn (s : State) (cls inst : Nat) : Bool := s.blkState cls inst == 2

/-- How many instances a block class has (R24). -/
def clsCount : Nat → Nat
  | 0x01 => 272 | 0x02 => 1024 | 0x05 => 16 | 0x0A => 4096 | 0x0D => 16
  | 0x03 => 2 | 0x04 => 2 | 0x06 => 2 | 0x07 => 2 | 0x08 => 2 | 0x09 => 2 | 0x0B => 2 | 0x0C => 2
  | 0x0E => 2 | 0x0F => 2 | 0x10 => 2 | 0x11 => 2 | 0x12 => 2
  | _ => 0

/-- The half of a block instance (R24, R293). -/
def State.blkHalf (s : State) (cls inst : Nat) : Nat :=
  match cls with
  | 0x01 => if inst < 256 then inst / 128 else (inst - 256) / 8
  | 0x02 => inst / 512
  | 0x05 => inst / 8
  | 0x0D => inst / 8
  | 0x0A => s.rf Reg.TIF_CFG.home inst
  | _ => inst

/-- Where a class's map ends: the page after the highest offset its chapter lists (R24). -/
def clsEnd : Nat → Nat
  | 0x01 => 0x1000 | 0x02 => 0x1000 | 0x03 => 0x1000 | 0x04 => 0x1000 | 0x05 => 0x1000
  | 0x06 => 0x5000 | 0x07 => 0x1000 | 0x08 => 0x2000 | 0x09 => 0x1000 | 0x0A => 0x2000
  | 0x0B => 0xA0000 | 0x0C => 0x50000 | 0x0D => 0x1000 | 0x0E => 0x2000 | 0x0F => 0x3000
  | 0x10 => 0x3000 | 0x11 => 0x1000 | 0x12 => 0xA0000
  | _ => 0

/-! ## Stops (R12 to R16) -/

def tStop (h : Nat) : Nat := h * 256 + 0x40
def hStop (h : Nat) : Nat := h * 256 + 0x49
def bStop (h : Nat) : Nat := h * 256 + 0x89
def nStop (h : Nat) : Nat := h * 256 + 0x80
/-- The stop of cluster `c`. -/
def clusterStop (c : Nat) : Nat := (c / 8) * 256 + 0x40 + c % 8 + 1
/-- The stop of channel `c`. -/
def channelStop (c : Nat) : Nat :=
  (c / 8) * 256 + (if c % 8 < 4 then 0x10 + 0x20 * (c % 8) else 0x19 + 0x20 * (c % 8 - 4))
/-- The stop of PCIe/CXL port `n`. -/
def portStop (n : Nat) : Nat := (n / 4) * 256 + (if n % 4 < 2 then 0x00 else 0x09)
/-- The stop of active tile `t` of half `h` (R15). -/
def tileStop (h t : Nat) : Nat :=
  h * 256 + (if t / 8 ≤ 3 then t / 8 else t / 8 + 1) * 16 + t % 8 + 1
/-- The stop of L3 slice `sl`. -/
def sliceStop (sl : Nat) : Nat := tileStop (sl / 64) (sl % 64)
/-- The stop of physical core `p` (R14, R16). -/
def coreStop (p : Nat) : Nat :=
  if p < 256 then tileStop (p / 128) (p % 128 / 2)
  else (p - 256) / 8 * 256 + (match (p - 256) % 8 / 2 with | 0 => 0x20 | 1 => 0x29 | 2 => 0x60 | _ => 0x69)
/-- The half of a physical core. -/
def coreHalf (p : Nat) : Nat := if p < 256 then p / 128 else (p - 256) / 8
/-- The stop that holds a block instance (R29). -/
def State.blkStop (s : State) (cls inst : Nat) : Nat :=
  match cls with
  | 0x01 => coreStop inst
  | 0x02 => clusterStop (inst / 64)
  | 0x05 => clusterStop inst
  | 0x06 => hStop inst
  | 0x07 => hStop inst
  | 0x09 => hStop inst
  | 0x0D => channelStop inst
  | c => tStop (s.blkHalf c inst)

/-! ## Logical cores and Hardpan cores -/

/-- The physical core that runs logical ID `l` (R16). -/
def State.physOf (s : State) (l : Nat) : Nat := SMap.get l s.sys.physOf l

/-- The logical ID a physical core runs, if any. -/
def State.logicalOf (s : State) (p : Nat) : Option Nat :=
  match s.sys.physOf.find? (fun e => e.2 == p) with
  | some e => some e.1
  | none => if p < 256 && s.physOf p == p then some p else none

/-- Logical ID `l` is one of the reserved Hardpan cores (R142). -/
def State.isHardpanCore (s : State) (l : Nat) : Bool :=
  128 - s.rf Reg.HPN_STATUS.cores (l / 128) ≤ l % 128 && l < 256

/-- Hardpan is PRESENT (R152). -/
def State.hpPresent (s : State) (h : Nat) : Bool := s.rf Reg.HPN_STATUS.state h == 1

/-! ## Strata time (R159 to R162) -/

/-- The 96-bit layout of R159 of a time in units of 2^-16 ns. -/
def strataBits (t : Nat) : Nat :=
  ((t / 65536 / 1000000000) % 2 ^ 48) * 2 ^ 48 + (t / 65536 % 1000000000) * 2 ^ 16 + t % 65536

/-- The time that a valid 96-bit value names (R160). -/
def strataOf (v : Nat) : Option Nat :=
  if bitsOf v 47 16 < 1000000000 then
    some ((bitsOf v 95 48 * 1000000000 + bitsOf v 47 16) * 65536 + v % 65536)
  else none

/-- The replica of a stop: the master's value within the bound of R162. -/
def State.replica (s : State) (stop : Nat) : Nat :=
  let b : Int := if s.sys.trimmed then 65536 else 4 * 65536
  ((s.strata.time : Int) + max (-b) (min b (Config.replicaOffset stop))).toNat

/-- The nanosecond field of a half's T-stop replica. -/
def State.nsAt (s : State) (stop : Nat) : Nat := s.replica stop / 65536 % 1000000000

/-- Fetching is stopped by HOLD, on the way into it (R469), or by an orderly power-down (R458). -/
def State.holding (s : State) : Bool :=
  s.sys.mode == .hold || s.tlt.holdFrom.isSome || (match s.pwr.watch with | .hardpan d _ => d | _ => false)

/-! ## The physical address map (R21) -/

/-- What an address names. -/
inductive Region where
  | dram (h : Nat) | cxl (port : Nat) | pcie (port : Nat) | drs | unmapped
deriving DecidableEq, Repr

def cxlBase : Nat := 0x100000000000
def drsBase : Nat := 0xFE00000000000
def gib : Nat := 2 ^ 30

/-- The CXL window of port `4 * h + j` holds the address (R438). -/
def State.inCxlWin (s : State) (h j a : Nat) : Bool :=
  let size := s.rf Reg.PRT_CXL_WIN.size_gib h j
  let base := cxlBase + s.rf Reg.PRT_CXL_WIN.base_gib h j * gib
  size != 0 && base ≤ a && a < base + size * gib

def State.region (s : State) (a : Nat) : Region :=
  if a < s.sys.s0 then .dram 0
  else if a < s.sys.s0 + s.sys.s1 then .dram 1
  else if cxlBase ≤ a && a < 0x180000000000 then
    if s.inCxlWin 0 0 a then .cxl 0 else if s.inCxlWin 0 1 a then .cxl 1
    else if s.inCxlWin 1 0 a then .cxl 4 else if s.inCxlWin 1 1 a then .cxl 5 else .unmapped
  else if 0xD000000000000 ≤ a && a < 0xD000080000000 then .pcie ((a - 0xD000000000000) / 2 ^ 28)
  else if 0xE000000000000 ≤ a && a < 0xE100000000000 then .pcie ((a - 0xE000000000000) / 2 ^ 41)
  else if drsBase ≤ a && a < 2 ^ 52 then .drs
  else .unmapped

/-- A DRS address taken apart (R24): class, instance, offset. -/
def drsParts (a : Nat) : Nat × Nat × Nat :=
  let o := a - drsBase
  (o / 2 ^ 32, o / 2 ^ 20 % 4096, o % 2 ^ 20)

/-- The DRS address names a block (R24). -/
def drsNames (a : Nat) : Bool :=
  let (c, i, o) := drsParts a
  i < clsCount c && o < clsEnd c

/-- XOR of `n` six-bit chunks of `x` (R278). -/
def fold6 : Nat → Nat → Nat
  | 0, _ => 0
  | n + 1, x => (x % 64) ^^^ fold6 n (x / 64)

/-- The home half of an address; `dflt` is the requester's half (R21, R24). -/
def State.homeHalf (s : State) (a dflt : Nat) : Nat :=
  match s.region a with
  | .dram h => h
  | .cxl p => p / 4
  | .pcie p => p / 4
  | .drs => if drsNames a then s.blkHalf (drsParts a).1 (drsParts a).2.1 else dflt
  | .unmapped => dflt

/-- The device-wide home slice of an address (R278, R279). -/
def State.homeSlice (s : State) (a dflt : Nat) : Nat :=
  64 * s.homeHalf a dflt +
    match s.region a with
    | .pcie p => 16 * (p % 4) + 15
    | .drs => fold6 6 (a / 2 ^ 20)
    | _ => fold6 8 (a / 64)

/-! ## DDR5 channels (R347 to R349) -/

def State.chan (s : State) (c : Nat) : Dmc := SMap.get Dmc.empty s.dmc c

def State.updChan (s : State) (c : Nat) (f : Dmc → Dmc) : State :=
  { s with dmc := SMap.upd Dmc.empty s.dmc c f }

/-- The channels that a half uses: 0 all eight, 1 the even set, 2 the odd set (R346). -/
def State.chanSet (s : State) (h : Nat) : Nat :=
  if s.rf Reg.DMC_CFG.set (8 * h) == 1 then 1 else if s.rf Reg.DMC_CFG.set (8 * h + 1) == 2 then 2 else 0

/-- XOR of `n` chunks of `w` bits. -/
def foldBits (w : Nat) : Nat → Nat → Nat
  | 0, _ => 0
  | n + 1, x => (x % 2 ^ w) ^^^ foldBits w n (x / 2 ^ w)

/-- The channel and the channel address of a DRAM address of half `h` (R348). -/
def State.chanOf (s : State) (h a : Nat) : Nat × Nat :=
  let o := if h = 0 then a else a - s.sys.s0
  let b := o / 4096
  match s.chanSet h with
  | 0 => (8 * h + foldBits 3 10 b, b / 8 * 4096 + o % 4096)
  | t => (8 * h + 2 * foldBits 2 15 b + (t - 1), b / 4 * 4096 + o % 4096)

/-- The DRAM address at a channel address: the inverse of R348. -/
def State.chanPa (s : State) (c ca : Nat) : Nat :=
  let h := c / 8
  let top := ca / 4096
  let o := match s.chanSet h with
    | 0 => (top * 8 + ((c % 8) ^^^ foldBits 3 10 (top * 8))) * 4096 + ca % 4096
    | _ => (top * 4 + ((c % 8 / 2) ^^^ foldBits 2 15 (top * 4))) * 4096 + ca % 4096
  (if h = 0 then 0 else s.sys.s0) + o

/-- R, the rank capacity (R345). -/
def State.rankBytes (s : State) (c : Nat) : Nat := 2 ^ (35 + s.rf Reg.DMC_CFG.density c)

/-- The rank of a channel address is fenced there (R365). -/
def State.chanFenced (s : State) (c ca : Nat) : Bool :=
  ca % s.rankBytes c < SMap.get 0 (s.chan c).fence (ca / s.rankBytes c)

/-- A DRAM address is fenced. -/
def State.dramFenced (s : State) (h a : Nat) : Bool := let (c, ca) := s.chanOf h a; s.chanFenced c ca

/-- A channel loses its key table: every slot (R396). -/
def State.loseKeyTable (s : State) (c : Nat) : State :=
  { s with keyLost := (List.range 1028).foldl (fun m k => SMap.set false m (c * 2048 + k) true) s.keyLost }

/-! ## Raw memory: the coherent image and the key tags (R139 to R141) -/

/-- The tag a line is written and read under with a key slot (none: plaintext). -/
def State.tagOf (s : State) : Option Nat → Nat
  | none => 1
  | some slot => (slot + 2) * 2 ^ 32 + SMap.get 0 s.keySlots slot

/-- The tag the line of an address was last written under. -/
def Mem.tagAt (m : Mem) (a : Nat) : Nat :=
  let t := SMap.get 0 m.lineTag (a / 64)
  if t = 0 then SMap.get 0 m.pageTag (a / 4096) else t

/-- A tag names a key that is gone: its slot is cleared. -/
def tagCleared (t : Nat) : Bool := 2 * 2 ^ 32 ≤ t && t % 2 ^ 32 == 0

/-- The channel of an address has lost the key that tag `t` names. -/
def State.tagLost (s : State) (t a : Nat) : Bool :=
  2 * 2 ^ 32 ≤ t && match s.region a with
    | .dram h => SMap.get false s.keyLost ((s.chanOf h a).1 * 2048 + (t / 2 ^ 32 - 2))
    | _ => false

def peekList (f : Nat → Byte) (a : Nat) : Nat → List Byte
  | 0 => []
  | n + 1 => f a :: peekList f (a + 1) n

/-- Multiply a tweak by x in GF(2^128), as IEEE 1619 does. -/
def xtsDouble (n : Nat) : Nat := if n < 2 ^ 127 then 2 * n else (2 * n - 2 ^ 128) ^^^ 0x87

/-- A cipher over the blocks of a data unit, each under the tweak that its number gives. -/
def xtsBlocks (f : List Nat → List Nat) : Nat → List (List Nat) → List Nat
  | _, [] => []
  | w, b :: bs =>
    let k := Crypto.bytesLe 16 w
    Crypto.xorList (f (Crypto.xorList b k)) k ++ xtsBlocks f (xtsDouble w) bs

/-- AES-256-XTS over a line of 64 bytes under the key of a tag: the tweak is the line's number, PA[51:6] (R139). -/
def xtsLine (enc : Bool) (tag line : Nat) (bs : List Nat) : List Nat :=
  let key := (List.range 64).map fun i => Config.memoryKey tag i % 256
  let data := key.take 32
  xtsBlocks (if enc then Crypto.aesEnc data else Crypto.aesDec data)
    (Crypto.natLe (Crypto.aesEnc (key.drop 32) (Crypto.bytesLe 16 line))) (Crypto.blocks 16 bs)

/-- What a line that holds `bs` under tag `w` reads as under tag `t`; tag 1 is plaintext. -/
def lineUnder (w t line : Nat) (bs : List Byte) : List Byte :=
  let plain := bs.map BitVec.toNat
  let cipher := if w < 2 * 2 ^ 32 then plain else xtsLine true w line plain
  (if t < 2 * 2 ^ 32 then cipher else xtsLine false t line cipher).map (BitVec.ofNat 8)

/-- Byte `a` of a line that holds `bs` under tag `w`, read under tag `t` (R141). -/
def State.byteUnder (s : State) (w t a : Nat) (bs : List Byte) : Byte :=
  if tagCleared w || tagCleared t || s.tagLost t a then Config.otherKeyByte a w t (bs.getD (a % 64) 0)
  else if w = t then bs.getD (a % 64) 0
  else (lineUnder w t (a / 64) bs).getD (a % 64) 0

/-- The byte that a read under tag `t` returns (R139, R141). CXL memory that this device has not written holds its own contents. -/
def State.peekAs (s : State) (t a : Nat) : Byte :=
  let w := s.mem.tagAt a
  if w = t && !tagCleared t && !s.tagLost t a then SMap.get 0 s.mem.bytes a
  else if w = 0 then (if cxlBase ≤ a then s.byteUnder 1 t a (peekList Config.cxlByte (a / 64 * 64) 64) else 0)
  else s.byteUnder w t a (peekList (fun x => SMap.get 0 s.mem.bytes x) (a / 64 * 64) 64)

/-- The byte under the key it was written with, for the walker's and the model's own reads. -/
def State.peek (s : State) (a : Nat) : Byte :=
  let w := s.mem.tagAt a
  s.peekAs (if w < 2 * 2 ^ 32 then w else s.tagOf (some (w / 2 ^ 32 - 2))) a

/-- Some granule of the `n` bytes at `a` is poisoned (R288). -/
def Mem.anyPoison (m : Mem) (a n : Nat) : Bool :=
  n != 0 && (List.range ((a + n - 1) / 32 - a / 32 + 1)).any fun k => SMap.get false m.poison (a / 32 + k)

/-- Store bytes one by one. -/
def putBytes (m : SMap Byte) (a : Nat) : List Byte → SMap Byte
  | [] => m
  | b :: bs => putBytes (SMap.set 0 m a b) (a + 1) bs

/-- Bring the line of `a` under tag `t`, keeping what a read under `t` would have returned; a first write to a DRAM block
fills the block (R354). -/
def State.retag (s : State) (t a : Nat) : State :=
  let w := s.mem.tagAt a
  if w = t && !tagCleared t && !s.tagLost t a then s
  else if w = 0 && a < cxlBase then { s with mem := { s.mem with pageTag := SMap.set 0 s.mem.pageTag (a / 4096) t } }
  else
    let base := a / 64 * 64
    let bs := peekList (s.peekAs t) base 64
    { s with mem := { s.mem with bytes := putBytes s.mem.bytes base bs,
                                 lineTag := SMap.set 0 s.mem.lineTag (a / 64) t } }

/-- A granule written in full loses its poison; one written in part keeps it (R288). -/
def clearFull (p : SMap Bool) (a n : Nat) : SMap Bool :=
  if n = 0 then p else
  (List.range ((a + n - 1) / 32 - a / 32 + 1)).foldl (fun p k =>
    let g := a / 32 + k
    if a ≤ g * 32 && g * 32 + 32 ≤ a + n then SMap.set false p g false else p) p

/-- Retag every line that `n` bytes at `a` touch. -/
def State.retagAll (s : State) (t a n : Nat) : State :=
  if n = 0 then s else
  (List.range ((a + n - 1) / 64 - a / 64 + 1)).foldl (fun s k => s.retag t ((a / 64 + k) * 64)) s

/-- Write bytes under tag `t`. -/
def State.pokeAs (s : State) (t a : Nat) (bs : List Byte) : State :=
  let s := s.retagAll t a bs.length
  { s with mem := { s.mem with bytes := putBytes s.mem.bytes a bs,
                               poison := clearFull s.mem.poison a bs.length } }

/-- Mark or clear the poison of a granule. -/
def State.setPoison (s : State) (g : Nat) (b : Bool) : State :=
  { s with mem := { s.mem with poison := SMap.set false s.mem.poison g b } }

/-- Poison both granules of the line of `a`. -/
def State.poisonLine (s : State) (a : Nat) : State :=
  (s.setPoison (a / 64 * 2) true).setPoison (a / 64 * 2 + 1) true

/-! ## Cached copies (R274, R280, R281) -/

def State.lineHome (s : State) (line : Nat) : LineHome := SMap.get LineHome.empty s.coh.lines line

def State.updLine (s : State) (line : Nat) (f : LineHome → LineHome) : State :=
  { s with coh := { s.coh with lines := SMap.upd LineHome.empty s.coh.lines line f } }

/-- The line state a core's L2 holds (R281). -/
def State.lstate (s : State) (c line : Nat) : LState := SMap.get .i (SMap.get [] s.coh.held c) line

/-- Set it. A line that leaves the L2 leaves the L1s it contains (R277). -/
def State.setHeld (s : State) (c line : Nat) (st : LState) : State :=
  let l1 := fun (m : SMap (List Nat)) => if st = .i then SMap.upd [] m c (·.erase line) else m
  { s with coh := { s.coh with held := SMap.upd [] s.coh.held c fun m => SMap.set .i m line st,
                               l1i := l1 s.coh.l1i, l1d := l1 s.coh.l1d } }

/-- A set of `ways` with room for one more line: a full one gives up the line of a way that no rule names (log entry 250). -/
def roomIn (ways fills : Nat) (ls : List Nat) : List Nat :=
  if ls.length < ways then ls else ls.eraseIdx (Config.victimWay fills % ls.length)

/-- The L3 set of a line: its home slice, 4,096 sets indexed by PA[17:6] (R277). -/
def State.l3Set (s : State) (line : Nat) : Nat := s.homeSlice (line * 64) 0 * 4096 + line % 4096

/-- The home's data of a line stands in its L3 slice, of 12 ways (R277). -/
def State.fillL3 (s : State) (line : Nat) : State :=
  let ls := SMap.get [] s.coh.l3 (s.l3Set line)
  if ls.contains line then s
  else { s with coh := { s.coh with l3 := SMap.set [] s.coh.l3 (s.l3Set line) (line :: roomIn 12 s.coh.fills ls),
                                    fills := s.coh.fills + 1 } }

/-! ## Coherence messages in flight (R18, R282, R290) -/

/-- The cores of a list in the home's half, and those that stand behind the far filter of the other half. -/
def nearCores (h : Nat) (l : List CoreId) : List CoreId := l.filter fun c => coreHalf c.val == h
def farCores (h : Nat) (l : List CoreId) : List CoreId := l.filter fun c => coreHalf c.val != h

/-- The messages of a line's transaction that are in flight. The far filter gathers its half's answers into one, which leaves
when the last of its snoops has been answered (R290). -/
def HomeTxn.msgs (t : HomeTxn) (line home h : Nat) : List NetMsg :=
  let r := coreStop t.req.core.val
  (t.snoops.map fun p => ⟨.snoop, home, coreStop p.1.val, .snoop line p.1⟩) ++
    ((nearCores h t.answers).map fun c => ⟨.response, coreStop c.val, home, .answer line c⟩) ++
    (if (farCores h t.answers).isEmpty || !(farCores h (t.snoops.map Prod.fst)).isEmpty then []
      else [⟨.response, bStop (1 - h), home, .farAnswer line⟩]) ++
    (if t.dataMsg.isNone then [] else [⟨.response, t.dataFrom.elim home fun c => coreStop c.val, r, .data line⟩]) ++
    (if t.grantMsg then [⟨.response, home, r, .grant line⟩] else []) ++
    if t.ackMsg then [⟨.completion, r, home, .ack line⟩] else []

/-- Bring the messages in flight up to date with a line's transaction: those that arrived or ended leave, new ones follow the
older ones. -/
def State.syncNet (s : State) (line : Nat) : State :=
  let sl := s.homeSlice (line * 64) 0
  let ms := match (s.lineHome line).txn with
    | some t => t.msgs line (sliceStop sl) (sl / 64)
    | none => []
  let old := s.coh.net.filter fun m => m.what.line != line || ms.contains m
  { s with coh := { s.coh with net := old ++ ms.filter fun m => !old.contains m } }

/-- A message arrives next: no older one of its class has the same source and destination stop (R18), nor so in the bridge's
FIFOs, which keep the order that such messages enter them in (R20). -/
def State.arrives (s : State) (w : NetWhat) : Bool :=
  match s.coh.net.find? fun m => m.what == w with
  | none => false
  | some m => (s.coh.net.find? fun o => o.cls == m.cls && o.src == m.src && o.dst == m.dst) == some m

/-- The cores that the directory records for a line. -/
def LineHome.holders (l : LineHome) : List CoreId := l.owner.toList ++ l.sharers

/-- The transaction on a line of which only the Ack is out has ended for every later access (R284). -/
def LineHome.settle (l : LineHome) : LineHome :=
  { l with txn := l.txn.filter fun t => !t.ackMsg }

/-- Invalidate every cached copy of a line. While a transaction runs on it the directory keeps its record, which the
snoops still out will clear. -/
def State.dropLine (s : State) (line : Nat) : State :=
  let l := s.lineHome line
  ((l.holders.foldl (fun s c => s.setHeld c.val line .i) s).updLine line fun l =>
    let l := l.settle
    if l.txn.isSome then { l with stale := none }
    else { l with owner := none, recorded := .i, sharers := [], stale := none, alloc := 0, evicted := [], hold := none }).syncNet line

/-- The fetch buffers that hold one of these lines are out of date (R240). -/
def State.storedTo (s : State) (hit : Nat → Bool) : State :=
  { s with coh := { s.coh with fetchGen := s.coh.fetchGen.map fun e => if hit e.1 then (e.1, e.2 + 1) else e } }

/-- Invalidate every cached copy of the lines that `n` bytes at `a` touch (R274), and empty the fetch buffers that hold one of
them (R240). -/
def State.dropRange (s : State) (a n : Nat) : State :=
  if n = 0 then s else
  let hit := fun (line : Nat) => decide (a / 64 ≤ line) && decide (line ≤ (a + n - 1) / 64)
  ((SMap.keys s.coh.lines).foldl (fun s line => if hit line then s.dropLine line else s) s).storedTo hit

/-- The lines that `n` bytes at `a` touch stand in L3. -/
def State.fillRange (s : State) (a n : Nat) : State :=
  if n = 0 then s
  else (List.range ((a + n - 1) / 64 - a / 64 + 1)).foldl (fun s k => s.fillL3 (a / 64 + k)) s

/-- A write performed at the home slice: every cached copy is invalidated first (R274). -/
def State.pokeHome (s : State) (t a : Nat) (bs : List Byte) : State :=
  ((s.dropRange a bs.length).fillRange a bs.length).pokeAs t a bs

/-! ## The Page Ownership Table (R130 to R136) -/

inductive Acc where
  | read | write | fetch
deriving DecidableEq, Repr

def Acc.code : Acc → Nat
  | .read => 0 | .write => 1 | .fetch => 2

/-- Table number (0 memory, 1 CXL, 2 DRS, 3 port) and index of an address's entry (R130). -/
def State.potIndex (s : State) (a : Nat) : Option (Nat × Nat) :=
  match s.region a with
  | .dram _ => some (0, a / 4096)
  | .cxl _ => some (1, (a - cxlBase) / 4096)
  | .pcie p => some (3, p)
  | .drs => let (c, i, o) := drsParts a; some (2, c * 2 ^ 20 + i * 2 ^ 8 + o / 4096)
  | .unmapped => none

/-- The entry as the walker of half `h` reads it from its table, and whether it arrived poisoned. -/
def State.potWalk (s : State) (h table idx : Nat) : Nat × Bool :=
  match table with
  | 3 => (s.rf Reg.POT_PORT.entry (idx / 4) (idx % 4), false)
  | t =>
    let base := match t with
      | 0 => s.rf Reg.POT_MEM_BASE.addr h
      | 1 => s.rf Reg.POT_CXL_BASE.addr h
      | _ => s.rf Reg.POT_DRS_BASE.addr h
    let a := base * 4096 + 8 * idx
    (ofLe (peekList s.peek a 8), s.mem.anyPoison a 8)

/-- An entry is invalid under R131. -/
def potInvalid (table e : Nat) : Bool :=
  !bitOf e 0 || bitsOf e 63 32 != 0 || bitsOf e 9 8 == 3 || (2 ≤ table && bitsOf e 9 8 != 0)

/-- The entry that the checker uses: from its cache when it holds one, else by a walk (R134, R137). None is an invalid
entry. -/
def State.potEntry (s : State) (h checker table idx : Nat) : Option Nat :=
  if s.rf Reg.POT_CTL.armed h == 0 then none
  else if table == 1 && s.rf Reg.POT_CXL_PAGES.pages h ≤ idx then none
  else
    let c := SMap.get 0 (SMap.get [] s.potCache checker) (table * 2 ^ 40 + idx)
    let (e, bad) := if c = 0 then s.potWalk h table idx else (c.toNat, false)
    if bad || potInvalid table e then none else some e

/-- The verdict of a check: permitted, the entry's owner, whether it was invalid. -/
structure PotVerdict where
  ok : Bool
  owner : Nat
  invalid : Bool
deriving DecidableEq, Repr

/-- The column of R132 that a requester is checked under: 0 Topsoil core, 1 Hardpan world, 2 Tilth, 3 Topsoil tenant,
4 Hardpan pool or TI. -/
def potColumn (q : Requester) : Nat :=
  match q.kind with
  | .topsoilCore => 0
  | .hardpanWorld => 1
  | .tilth => 2
  | .topsoilTask => 3
  | .hardpanTask => 4
  | .io => 3
  | .dispatch => if q.world = .hardpan then 4 else 3
  | .kaolin => if q.world = .hardpan then 4 else 3

/-- The table of R132 applied to an entry. -/
def potJudge (q : Requester) (acc : Acc) : Option Nat → PotVerdict
  | none => ⟨(potColumn q) == 1, 0, true⟩
  | some e =>
    let owner := bitsOf e 2 1
    let tenantOk := bitsOf e 31 20 == q.tenant.toNat
    let admitted := match owner, (potColumn q) with
      | 0, 0 => true | 0, 1 => true | 0, 2 => false | 0, _ => tenantOk
      | 1, 1 => true | 1, 4 => true | 1, _ => false
      | 2, 2 => true | 2, 1 => acc != .write | 2, _ => false
      | _, _ => true
    let bit := match acc with | .read => bitOf e 3 | .write => bitOf e 4 | .fetch => bitOf e 5
    let eng := match q.kind with | .topsoilTask => bitOf e 6 | .hardpanTask => bitOf e 6 | .io => bitOf e 7 | _ => true
    ⟨admitted && bit && eng, owner, false⟩

/-- The checker of an access: the home slice, or the P or N stop of an I/O requester (R134), with its half. -/
def State.checkerOf (s : State) (q : Requester) (a : Nat) : Nat × Nat :=
  match q.kind with
  | .io => (q.half.val, 1000 + q.stop.toNat)
  | _ => (s.homeHalf a q.half.val, s.homeSlice a q.half.val)

/-- Check one access (R132 to R136). Tilth's DRS accesses are not checked (R133). -/
def State.potCheck (s : State) (q : Requester) (acc : Acc) (a : Nat) : PotVerdict :=
  if q.kind = .tilth && s.region a = .drs then ⟨true, 2, false⟩
  else
    match s.potIndex a with
    | none => ⟨true, 0, false⟩
    | some (t, i) =>
      let (h, c) := s.checkerOf q a
      potJudge q acc (s.potEntry h c t i)

/-- The key slot that the home attaches (R139). -/
def State.keySlotFor (s : State) (q : Requester) (a : Nat) : Option Nat :=
  match s.potIndex a with
  | none => none
  | some (t, i) =>
    let (h, c) := s.checkerOf q a
    match s.potEntry h c t i with
    | none => none
    | some e =>
      match bitsOf e 2 1, bitsOf e 9 8 with
      | 1, _ => some 1025
      | _, 0 => none
      | 0, 1 => some 1024
      | 2, 1 => some 1026
      | 3, 1 => some 1027
      | _, _ => some (bitsOf e 19 10)

/-! ## Error records (R376 to R378) -/

def State.rasHalf (s : State) (h : Nat) : RasHalf := SMap.get RasHalf.empty s.ras h

def State.updRas (s : State) (h : Nat) (f : RasHalf → RasHalf) : State :=
  { s with ras := SMap.upd RasHalf.empty s.ras h f }

/-- Detect an error in half `h`: count it and leave the record for RAS to route. -/
def State.logError (s : State) (h : Nat) (r : ErrRec) : State :=
  let s := match r.cls with
    | 0 => s.addf Reg.RAS_COUNT.ce h
    | 1 => s.addf Reg.RAS_COUNT.de h
    | 2 => s.addf Reg.RAS_COUNT.uer h
    | _ => s.addf Reg.RAS_COUNT2.uef h
  s.updRas h fun x => { x with detected := x.detected ++ [r] }

/-- A record with the fields every rule names; the rest are 0. -/
def State.mkRec (s : State) (cls source status stop addr inst requester : Nat) : ErrRec :=
  { cls := cls, flags := 1, source := source, status := status, stop := stop, addr := addr,
    stamp := strataBits (s.replica stop), inst := inst, requester := requester, syndrome := 0, positions := 0xFFFF,
    count := 1, tenant := 0, location := 0, hardpan := false }

/-! ## The Event Hub: raising (R311, R312, R321 to R324) -/

/-- The key of a source's raise state: per half for device events, per target core for software interrupts, one for
assignable IDs (R311). -/
def evKey (half id core : Nat) : Nat :=
  if id < 0x200 then half * 4096 + id
  else if id < 0x400 then (2 + core) * 4096 + id
  else 1000 * 4096 + id

/-- The half whose EVH_SRC holds an ID's configuration: any surviving half for assignable IDs (R312). -/
def State.evCfgHalf (s : State) (half id : Nat) : Nat :=
  if id < 0x400 then half else match s.sys.lostHalf with | some h => 1 - h.val | none => half

def State.evPend (s : State) (key : Nat) : EvPend := SMap.get EvPend.none s.evh.pend key

/-- Record a raise: the first raise's qualifier and half are kept, a different later one sets multi (R321). -/
def State.setPending (s : State) (key qual half : Nat) : State :=
  { s with evh := { s.evh with pend := SMap.upd EvPend.none s.evh.pend key fun e =>
      if e.pending && e.raised then { e with multi := e.multi || e.qual != qual } else ⟨true, qual, false, half, true⟩ } }

def State.clearPending (s : State) (key : Nat) : State :=
  { s with evh := { s.evh with pend := SMap.set EvPend.none s.evh.pend key EvPend.none } }

/-- The number of entries, as a power of two, that a log2 field with limits names; none when 0 disables. -/
def log2Clamp (v lo hi : Nat) : Option Nat := if v = 0 then none else some (max lo (min hi v))

/-- Record a refused access in POT_FAULT of half `h` (R135). -/
def State.recordFault (s : State) (h : Nat) (q : Requester) (acc : Acc) (a : Nat) (v : PotVerdict) : State :=
  let s := s.setf Reg.POT_FAULT.kind h q.kind.code
  let s := s.setf Reg.POT_FAULT.access h acc.code
  let s := s.setf Reg.POT_FAULT.owner h v.owner
  let s := s.setf Reg.POT_FAULT.invalid h (b2n v.invalid)
  let s := s.setf Reg.POT_FAULT.tenant h q.tenant.toNat
  let s := s.addf Reg.POT_FAULT.count h
  s.setf Reg.POT_FAULT_ADDR.addr h a

/-- The range a fence of R365, the loss of a half (R292) or a CXL link that is down (R438) cuts off: the source of
the record it logs. -/
def State.cutOff (s : State) (a : Nat) : Option Nat :=
  match s.region a with
  | .dram h => if s.sys.lostHalf.any (fun x => x.val == h) || s.dramFenced h a then some 0x52 else none
  | .cxl p =>
    if s.sys.lostHalf.any (fun x => x.val == p / 4) then some 0x52
    else if SMap.get false s.sys.linkUp p then none else some 0x06
  | .pcie p => if s.sys.lostHalf.any (fun x => x.val == p / 4) then some 0x52 else none
  | .drs =>
    if drsNames a && s.sys.lostHalf.any (fun x => x.val == s.blkHalf (drsParts a).1 (drsParts a).2.1) then some 0x52 else none
  | .unmapped => none

/-- One queue entry of R322. -/
def eqEntry (id qual half phase ns : Nat) : List Byte :=
  leBytes 8 (id + qual % 4096 * 2 ^ 12 + half * 2 ^ 24 + phase * 2 ^ 31 + ns * 2 ^ 32)

/-- The requester that writes a core's event queue: the rights of the core itself (log entry 5). -/
def State.eqWriter (s : State) (l : Nat) : Requester :=
  if s.isHardpanCore l then ⟨.hardpanWorld, .h, .hardpan, 0, ⟨l / 128 % 2, by omega⟩, BitVec.ofNat 9 (tStop (l / 128))⟩
  else ⟨.topsoilCore, .t, .topsoil, 0, ⟨l / 128 % 2, by omega⟩, BitVec.ofNat 9 (tStop (l / 128))⟩

/-- A TI's world (R98). -/
def State.tiWorld (s : State) (ti : Nat) : World := if s.rf Reg.TIF_CFG.priv ti == 1 then .hardpan else .topsoil

/-- Dispatch, the Collector and the Event Hub acting for a TI: its world and tenant (R132). -/
def State.tiReq (s : State) (ti : Nat) : Requester :=
  let h := s.rf Reg.TIF_CFG.home ti
  ⟨.dispatch, if s.tiWorld ti = .hardpan then .h else .t, s.tiWorld ti,
    BitVec.ofNat 12 (s.rf Reg.TIF_CFG.tenant ti), ⟨h % 2, by omega⟩, BitVec.ofNat 9 (tStop h)⟩

/-- Why a queue entry was not written: the POT refused it, a register block takes no write of that kind (R25), or the address
is unmapped or cut off, which names the source and status of the UEr record. -/
inductive EqFail where
  | refused (v : PotVerdict)
  | malformed
  | lost (source status : Nat)
deriving DecidableEq, Repr

/-- Send a posted write to a PCIe window: it leaves through its port. -/
def State.postWrite (s : State) (a : Nat) (bs : List Byte) : State :=
  { s with out := { s.out with frames := (leBytes 8 a ++ bs) :: s.out.frames } }

/-- Write bytes for a requester when the POT admits it: the new state, or why not. -/
def State.tryPoke (s : State) (q : Requester) (a : Nat) (bs : List Byte) : Except EqFail State :=
  let v := s.potCheck q .write a
  if !v.ok then .error (.refused v)
  else match s.region a with
    | .unmapped => .error (.lost 0x51 Status.badAddress)
    | .drs => .error .malformed
    | .pcie _ => .ok (s.postWrite a bs)
    | _ => match s.cutOff a with
      | some src => .error (.lost src Status.poisoned)
      | none => .ok (s.pokeHome (s.tagOf (s.keySlotFor q a)) a bs)

/-- Append an entry to logical core `l`'s event queue (R322, R323); `ns` is the time of the raise. -/
def State.coreQueuePut (s : State) (l id qual half ns : Nat) : State × Option (Requester × Nat × EqFail) :=
  let h := l / 128
  let k := l % 128
  let qid := s.rf Reg.EVH_EQ_CFG.id h k
  match log2Clamp (s.rf Reg.EVH_EQ_CFG.log2_size h k) 9 16 with
  | none => (s.addf Reg.EVH_STAT.dropped h, none)
  | some n =>
    if qid < 0x400 || qid == 0xFFF then (s.addf Reg.EVH_STAT.dropped h, none)
    else
      let head := s.rf Reg.EVH_EQ_PTR.head h k
      let tail := s.rf Reg.EVH_EQ_PTR.tail h k
      if (tail + 2 ^ 32 - head) % 2 ^ 32 == 2 ^ n then
        ((s.addf Reg.EVH_EQ_OVF.overflow h k).setPending (evKey h qid l) 0 h, none)
      else
        let a := s.rf Reg.EVH_EQ_CFG.base h k * 4096 + 8 * (tail % 2 ^ n)
        let q := s.eqWriter l
        match s.tryPoke q a (eqEntry id qual half (1 - tail / 2 ^ n % 2) ns) with
        | .error v => (s.addf Reg.EVH_STAT.dropped h, some (q, a, v))
        | .ok s => ((s.setf Reg.EVH_EQ_PTR.tail h (tail + 1) k).setPending (evKey h qid l) 0 h, none)

/-- Append an entry to a TI's event queue in its home half (R324). -/
def State.tiQueuePut (s : State) (ti id qual : Nat) : State × Option (Requester × Nat × EqFail) :=
  let h := s.rf Reg.TIF_CFG.home ti
  let qid := s.rf Reg.TIF_EVENT.intr_id ti
  let signal := fun (s : State) => if qid < 0x400 || qid == 0xFFF then s else s.setPending (evKey h qid 0) ti h
  match log2Clamp (s.rf Reg.EVH_TIQ_CFG.log2_size h ti) 9 16 with
  | none => (s.addf Reg.EVH_STAT.dropped h, none)
  | some n =>
    let head := s.rf Reg.EVH_TIQ_PTR.head h ti
    let tail := s.rf Reg.EVH_TIQ_PTR.tail h ti
    if (tail + 2 ^ 32 - head) % 2 ^ 32 == 2 ^ n then (signal (s.addf Reg.EVH_STAT.dropped h), none)
    else
      let a := s.rf Reg.EVH_TIQ_CFG.base h ti * 4096 + 8 * (tail % 2 ^ n)
      let q := s.tiReq ti
      match s.tryPoke q a (eqEntry id qual h (1 - tail / 2 ^ n % 2) (s.nsAt (tStop h))) with
      | .error v => (s.addf Reg.EVH_STAT.dropped h, some (q, a, v))
      | .ok s => (signal (s.setf Reg.EVH_TIQ_PTR.tail h (tail + 1) ti), none)

/-- What a queue entry that was not written leaves behind: a refusal is recorded in POT_FAULT and raises EV 0x060 once between
reads of it (R135), a block raises EV 0x022 (R25), an address that is unmapped or cut off logs a UEr. The event is given as half,
source and qualifier. -/
def State.queueFail (s : State) (q : Requester) (a : Nat) : EqFail → State × Option (Nat × Nat × Nat)
  | .refused v =>
    let h := (s.checkerOf q a).1
    let s := s.recordFault h q .write a v
    if SMap.get false s.sys.potSpent h then (s, none)
    else ({ s with sys := { s.sys with potSpent := SMap.set false s.sys.potSpent h true } }, some (h, 0x160, 0))
  | .malformed => (s, some (q.half.val, if q.world = .hardpan then 0x122 else 0x022, q.stop.toNat))
  | .lost src st =>
    let r := s.mkRec 2 src st q.stop.toNat a 0 q.stop.toNat
    (s.logError q.half.val { r with hardpan := (potColumn q) == 1 || (potColumn q) == 4 }, none)

/-- Some enabled core queue, or some TI in queue mode, has this assignable ID as its level interrupt (R323, R324). -/
def State.levelSource (s : State) (id : Nat) : Bool :=
  0x400 ≤ id && id < 0xFFF &&
    (([0, 1].any fun h => (List.range 128).any fun k =>
        s.rf Reg.EVH_EQ_CFG.id h k == id && s.rf Reg.EVH_EQ_CFG.log2_size h k != 0)
      || (SMap.keys (SMap.get [] s.regs Reg.TIF_EVENT.queue_mode.id)).any fun ti =>
        s.rb Reg.TIF_EVENT.queue_mode ti && s.rf Reg.TIF_EVENT.intr_id ti == id)

/-- The source's raises are written to its core's queue; the mode of a queue's own interrupt acts as 0 (R323). -/
def State.queued (s : State) (h id : Nat) : Bool := s.rb Reg.EVH_SRC.mode h id && !s.levelSource id

/-- Deliver a raise, made at `ns`, at the Event Hub that holds the target's state; `fuel` bounds the chain of events that
queue entries which cannot be written raise. -/
def State.deliver (s : State) (fuel : Nat) (half id qual target ns : Nat) : State :=
  match fuel with
  | 0 => s
  | fuel + 1 =>
    let ch := if id < 0x200 then half else if id < 0x400 then target / 128 else s.evCfgHalf half id
    if s.sys.lostHalf.any (fun h => h.val == target / 128) then s.addf Reg.EVH_STAT.dropped half
    else if s.queued ch id then
      match s.coreQueuePut target id qual half ns with
      | (s, none) => s
      | (s, some (q, a, e)) =>
        match s.queueFail q a e with
        | (s, none) => s
        | (s, some (h, ev, ql)) => s.deliver fuel h ev ql (s.rf Reg.EVH_SRC.target h ev) (s.nsAt (tStop h))
    else s.setPending (evKey half id target) qual half

/-- Raise source `id` in half `half` with a qualifier (R312); a raise of a software or assignable ID for a core of the other
half crosses the bridge first (R327). `sgi` is the target of a software interrupt. -/
def State.raiseId (s : State) (half id qual sgi : Nat) : State :=
  if id = 0 || id = 0xFFF then s.addf Reg.EVH_STAT.bad_raise half
  else
    let target := if 0x200 ≤ id && id < 0x400 then sgi else s.rf Reg.EVH_SRC.target (s.evCfgHalf half id) id
    let ns := s.nsAt (tStop half)
    if 0x200 ≤ id && target / 128 != half && s.sys.lostHalf.isNone then
      { s with evh := { s.evh with crossing := s.evh.crossing ++ [⟨half, id, qual, target, ns, false⟩] } }
    else s.deliver 3 half id qual target ns

/-- The worlds an event goes to. -/
inductive EvTo where
  | topsoil | hardpan | both
deriving DecidableEq, Repr

def EvTo.ofWorld : World → EvTo
  | .topsoil => .topsoil
  | .hardpan => .hardpan

/-- The world or worlds of an actor (R34). -/
def EvTo.ofActor : Actor → EvTo
  | .t => .topsoil | .v => .topsoil | .h => .hardpan | .m => .both | .io => .topsoil

/-- The events that go to a TI's own queue when it has one (R324). -/
def tiEvents : List Nat := [0x040, 0x041, 0x043, 0x044, 0x046]

/-- A queue entry was not written: its event is raised. -/
def State.queueEvent (s : State) (q : Requester) (a : Nat) (e : EqFail) : State :=
  match s.queueFail q a e with
  | (s, none) => s
  | (s, some (h, ev, ql)) => s.raiseId h ev ql 0

/-- Raise EV `ev` in half `half` to the worlds named (R312). -/
def State.raise (s : State) (ev : Nat) (dest : EvTo) (half qual : Nat) : State :=
  if tiEvents.contains ev && s.rb Reg.TIF_EVENT.queue_mode qual && s.rf Reg.TIF_CFG.home qual == half then
    match s.tiQueuePut qual ev qual with
    | (s, none) => s
    | (s, some (q, a, e)) => s.queueEvent q a e
  else
    let s := if dest = .hardpan then s else s.raiseId half ev qual 0
    if dest = .topsoil then s else s.raiseId half (0x100 + ev) qual 0

/-- Raise an event in both halves. -/
def State.raiseBoth (s : State) (ev : Nat) (dest : EvTo) (qual : Nat) : State :=
  (s.raise ev dest 0 qual).raise ev dest 1 qual

/-- A refused access: POT_FAULT of the checker's half, and EV 0x060 to Hardpan at most once between reads (R135). -/
def State.refuse (s : State) (q : Requester) (acc : Acc) (a : Nat) (v : PotVerdict) : State :=
  let h := (s.checkerOf q a).1
  let s := s.recordFault h q acc a v
  if SMap.get false s.sys.potSpent h then s
  else ({ s with sys := { s.sys with potSpent := SMap.set false s.sys.potSpent h true } }).raise 0x060 .hardpan h 0

/-! ## Memory accesses of a requester -/

/-- What an access to memory gives: bytes and whether a granule was poisoned, or why it failed. -/
inductive MemOut where
  | data (bs : List Byte) (poison : Bool)
  | unmapped
  | refused
deriving DecidableEq, Repr

/-- XOR code symbols into a granule's stored data: Riddle-35 data byte `i` is position `i + 3` (R366). -/
def State.flip35 (s : State) (g : Nat) (e : ErrPat) : State :=
  { s with mem := { s.mem with bytes := e.foldl (fun m x =>
      if x.1 < 3 then m
      else let a := 32 * g + (x.1 - 3); SMap.set 0 m a (SMap.get 0 m a ^^^ BitVec.ofNat 8 x.2)) s.mem.bytes } }

/-- The positions field of R377. -/
def errPositions (c : ErrPat) (mark : Bool) : Nat :=
  (c.getD 0 (0xFF, 0)).1 + (c.getD 1 (0xFF, 0)).1 * 256 + b2n mark * 0x10000

/-- The location of an error in an on-die structure (R377): set, way and granule. L2 has 2,048 sets of 16 ways, a slice of L3
4,096 sets of 12 ways (R277); the way is open. -/
def dieLocation (src line g : Nat) : Nat :=
  if src = 0x11 || src = 0x12 then line % 2048 + 2 ^ 16 * (Config.wayOf src line % 16) + 2 ^ 20 * g
  else if src = 0x13 || src = 0x14 then line % 4096 + 2 ^ 16 * (Config.wayOf src line % 12) + 2 ^ 20 * g
  else 2 ^ 20 * g

/-- A Riddle-35 checker meets the errors `e` of a granule (R367, R372): corrected and logged as a CE, or marked poisoned
and logged as a DE. -/
def State.check35 (s : State) (h src stop inst g : Nat) (e : ErrPat) (inj : Bool) : State :=
  if e = [] then s
  else
    let r := { s.mkRec 0 src Status.ok stop (32 * g) inst 0xFFFF with
      flags := 1 + 8 * b2n inj, syndrome := syn8 e 0 + syn8 e 1 * 2 ^ 8 + syn8 e 2 * 2 ^ 16,
      location := dieLocation src (g / 2) (g % 2) }
    match decode35 e with
    | none => (s.setPoison g true).logError h { r with cls := 1, status := Status.poisoned }
    | some [] => s.flip35 g e
    | some c => (s.flip35 g (errXor e c)).logError h { r with flags := r.flags + 16, positions := errPositions c false }

/-- A reader meets the errors in the L3 copy of a granule. -/
def State.meetOnDie (s : State) (g : Nat) : State :=
  let x := SMap.get ([], false) s.mem.onDie g
  if x.1 = [] then s
  else
    let sl := s.homeSlice (32 * g) 0
    let s := { s with mem := { s.mem with onDie := SMap.set ([], false) s.mem.onDie g ([], false) } }
    s.check35 (sl / 64) 0x13 (sliceStop sl) sl g x.1 x.2

/-- The line's old L3 copy is replaced: its errors are gone with it. -/
def State.dropOnDie (s : State) (line : Nat) : State :=
  let m := SMap.set ([], false) (SMap.set ([], false) s.mem.onDie (2 * line) ([], false)) (2 * line + 1) ([], false)
  { s with mem := { s.mem with onDie := m } }

/-- The granules of `n` bytes at `a`. -/
def State.meetOnDieAll (s : State) (a n : Nat) : State :=
  if n = 0 || s.mem.onDie.isEmpty then s
  else (List.range ((a + n - 1) / 32 - a / 32 + 1)).foldl (fun s k => s.meetOnDie (a / 32 + k)) s

/-- The 4 KiB pages that `n` bytes at `a` touch, by an address in each. -/
def pagesOf (a n : Nat) : List Nat :=
  if n = 0 then [] else a :: ((List.range ((a + n - 1) / 4096 - a / 4096)).map fun k => (a / 4096 + k + 1) * 4096)

/-- The first page of an access that is unmapped or refused. -/
def State.firstBad (s : State) (q : Requester) (acc : Acc) : List Nat → Option (Nat × Option PotVerdict)
  | [] => none
  | p :: ps =>
    if s.region p = .unmapped then some (p, none)
    else
      let v := s.potCheck q acc p
      if v.ok then s.firstBad q acc ps else some (p, some v)

/-- EV 0x022 for an access that is misaligned, of another width or names no block (R25). -/
def State.noBlock (s : State) (q : Requester) : State :=
  let dest := match q.kind with
    | .tilth => EvTo.both
    | .hardpanWorld => .hardpan
    | _ => if q.world = .hardpan then .hardpan else .topsoil
  s.raise 0x022 dest q.half.val q.stop.toNat

/-- `n` free bytes: what a device behind a PCIe window answers. -/
def State.freeBytes (s : State) (n : Nat) : List Byte × State :=
  ((List.range n).map fun k => BitVec.ofNat 8 (Config.freeNat (s.freeCtr + k)), { s with freeCtr := s.freeCtr + n })

/-- A read of memory whose checks have passed. The register space takes no access of a granule's width (R25); a PCIe
window's data is free. -/
def State.readChecked (s : State) (q : Requester) (a n : Nat) : MemOut × State :=
  match s.cutOff a with
  | some src =>
    (.data (List.replicate n 0) true,
      s.logError q.half.val (s.mkRec 2 src Status.poisoned q.stop.toNat a 0 q.stop.toNat))
  | none =>
    match s.region a with
    | .drs => (.data (List.replicate n 0) false, s.noBlock q)
    | .pcie _ => let (bs, s) := s.freeBytes n; (.data bs false, s)
    | _ =>
    let s := s.meetOnDieAll a n
    (.data ((List.range n).map fun k => s.peekAs (s.tagOf (s.keySlotFor q (a + k))) (a + k)) (s.mem.anyPoison a n), s)

/-- Read memory for a requester that moves data in granules (R23, R132, R135). -/
def State.readMem (s : State) (q : Requester) (acc : Acc) (a n : Nat) : MemOut × State :=
  match s.firstBad q acc (pagesOf a n) with
  | some (p, none) =>
    let r := s.mkRec 2 0x51 Status.badAddress q.stop.toNat p 0 q.stop.toNat
    (.unmapped, s.logError q.half.val { r with hardpan := (potColumn q) == 1 || (potColumn q) == 4 })
  | some (p, some v) => (.refused, s.refuse q acc p v)
  | none => s.readChecked q a n

/-- Write page by page, each page under its own key slot. -/
def State.pokePages (s : State) (q : Requester) (fuel a : Nat) (bs : List Byte) : State :=
  match fuel, bs with
  | 0, _ => s
  | _, [] => s
  | fuel + 1, bs =>
    let room := 4096 - a % 4096
    let s := s.pokeHome (s.tagOf (s.keySlotFor q a)) a (bs.take room)
    s.pokePages q fuel (a + room) (bs.drop room)

/-- The granules of a whole line are replaced and not read (R274), so that a checker meets the old data's errors only in lines
that `n` bytes at `a` touch in part. -/
def State.meetPartial (s : State) (a n : Nat) : State :=
  if n = 0 || s.mem.onDie.isEmpty then s
  else
    let whole := fun (l : Nat) => a ≤ l * 64 && l * 64 + 64 ≤ a + n
    let s := if whole (a / 64) then s.dropOnDie (a / 64) else s.meetOnDieAll (a / 64 * 64) 64
    let m := (a + n - 1) / 64
    let s := (List.range (m - a / 64 - 1)).foldl (fun (s : State) k => s.dropOnDie (a / 64 + 1 + k)) s
    if m = a / 64 then s else if whole m then s.dropOnDie m else s.meetOnDieAll (m * 64) 64

/-- A write of memory whose checks have passed; register space and PCIe windows as for a read. -/
def State.writeChecked (s : State) (q : Requester) (a : Nat) (bs : List Byte) : State :=
  match s.cutOff a with
  | some src => s.logError q.half.val (s.mkRec 2 src Status.poisoned q.stop.toNat a 0 q.stop.toNat)
  | none =>
    match s.region a with
    | .drs => s.noBlock q
    | .pcie _ => s.postWrite a bs
    | _ => (s.meetPartial a bs.length).pokePages q (bs.length / 4096 + 2) a bs

/-- Write memory for a requester. -/
def State.writeMem (s : State) (q : Requester) (a : Nat) (bs : List Byte) : MemOut × State :=
  match s.firstBad q .write (pagesOf a bs.length) with
  | some (p, none) =>
    let r := s.mkRec 2 0x51 Status.badAddress q.stop.toNat p 0 q.stop.toNat
    (.unmapped, s.logError q.half.val { r with hardpan := (potColumn q) == 1 || (potColumn q) == 4 })
  | some (p, some v) => (.refused, s.refuse q .write p v)
  | none => (.data [] false, s.writeChecked q a bs)

/-- A buffer holds free bytes wherever the requester may write: the output of a task or job that has failed (R111, R341). -/
def State.scramble (s : State) (q : Requester) (a n : Nat) : State :=
  (pagesOf a n).foldl (fun s p =>
    let k := min (4096 - p % 4096) (a + n - p)
    match s.region p, s.cutOff p with
    | .dram _, none | .cxl _, none =>
      if (s.potCheck q .write p).ok then
        let bs := (List.range k).map fun i => BitVec.ofNat 8 (Config.freeNat (s.freeCtr + i))
        { s with freeCtr := s.freeCtr + k }.pokeHome (s.tagOf (s.keySlotFor q p)) p bs
      else s
    | _, _ => s) s

/-- Hardware that acts in Hardpan world at a stop: Varve, the key custody unit, RAS's log writer (R132). -/
def hwReq (h : Half) (stop : Nat) : Requester := ⟨.hardpanWorld, .h, .hardpan, 0, h, BitVec.ofNat 9 stop⟩

/-- Tilth of a half. -/
def tilthReq (h : Half) : Requester := ⟨.tilth, .m, .hardpan, 0, h, BitVec.ofNat 9 (tStop h.val)⟩

def halfOf (n : Nat) : Half := ⟨n % 2, by omega⟩

/-! ## Register accesses from commands -/

/-- A DRS address of a register. -/
def drsAddr (cls inst off : Nat) : Nat := drsBase + cls * 2 ^ 32 + inst * 2 ^ 20 + off

/-- An access to registers of the lost half logs a UEr (R292). -/
def State.drsLost (s : State) (q : Requester) (a src : Nat) : State :=
  s.logError q.half.val (s.mkRec 2 src Status.poisoned q.stop.toNat a 0 q.stop.toNat)

/-- Check a command's access to a register's page; a refusal is recorded and the command has no other effect (R10), and neither has
one to the lost half (R292). -/
def State.withAccess (s : State) (q : Requester) (acc : Acc) (cls inst off : Nat) (k : State → State) : State :=
  let a := drsAddr cls inst off
  match s.cutOff a with
  | some src => s.drsLost q a src
  | none =>
    let v := s.potCheck q acc a
    if v.ok then k s else s.refuse q acc a v

/-- A command's write to a register: the page check, then the wait of R33 while the block is not ON, else the effect. -/
def State.writeReg (s : State) (q : Requester) (cls inst off v : Nat) (k : State → State) : State :=
  s.withAccess q .write cls inst off fun s =>
    if s.blkOn cls inst then k s
    else { s with heldWrites := SMap.upd [] s.heldWrites (blkKey cls inst) (· ++ [⟨q, off, 8, v⟩]) }

/-- The actor may change the field (R10). -/
def Fld.admits (f : Fld) (a : Actor) : Bool := f.writers &&& a.bit != 0

/-- Bits `f` takes from a register word. -/
def Fld.of (f : Fld) (w : Nat) : Nat := w / 2 ^ f.lo % 2 ^ f.width

/-- Write one field from a register word of which the bits of `mask` were stored (R7, R10). -/
def State.storeFld (s : State) (a : Actor) (i j w mask : Nat) (f : Fld) : State :=
  if f.admits a then
    let m := f.of mask
    let old := s.rf f i j
    let v := f.of w &&& m
    match f.ty with
    | .rw => s.setf f i ((old &&& (2 ^ f.width - 1 - m)) ||| v) j
    | .w1c => s.setf f i (old &&& (2 ^ f.width - 1 - v)) j
    | .w1s => s.setf f i (old ||| v) j
    | _ => s
  else s

/-- Write every plain field of a register. -/
def State.storeReg (s : State) (a : Actor) (i j w mask : Nat) (fs : List Fld) : State :=
  fs.foldl (fun s f => s.storeFld a i j w mask f) s

def allOnes : Nat := 2 ^ 64 - 1

/-- Put the answer of a read where the sender sees it. -/
def State.answer (s : State) (v status : Nat) : State := { s with out := { s.out with value := v, status := status } }

/-- Draw a free value. -/
def State.drawFree (s : State) : Nat × State := (Config.freeNat s.freeCtr, { s with freeCtr := s.freeCtr + 1 })

/-- Draw `n` bytes from the random source. -/
def State.drawRandom (s : State) (n : Nat) : List Byte × State :=
  ((List.range n).map fun k => Config.randomByte (s.rngCtr + k), { s with rngCtr := s.rngCtr + n })

end Sys2Proof.Machine
end

