-- ==== Sys2Proof/Machine/Regs.lean ====
section
/-!
DEFINITION. Regs: reading registers of the device register space whole, with the fields whose value other state holds.
-/
namespace Sys2Proof.Machine

/-- The power and clock domain a block stands in, within its half (R147). -/
def blkDomain (cls inst : Nat) : Option Nat :=
  match cls with
  | 0x01 => some (if inst < 256 then inst % 128 else 128 + (inst - 256) % 8)
  | 0x02 => some (136 + inst / 64 % 8)
  | 0x05 => some (136 + inst % 8)
  | 0x06 => some 156
  | 0x07 => some 156
  | 0x08 => some 157
  | 0x09 => some 156
  | 0x0C => some 158
  | 0x0D => some (145 + inst % 8)
  | _ => none

/-- An active ID's entry is for this source key. -/
def State.isActive (s : State) (key : Nat) : Bool := s.evh.active.any fun a => a.key == key

/-- The active IDs of a core and level. -/
def State.activeOf (s : State) (core level : Nat) : List EvActive :=
  s.evh.active.filter fun a => a.core == core && a.level == level

/-- The most urgent active priority of a core and level, 0xFF when none. -/
def State.runPrio (s : State) (core level : Nat) : Nat :=
  (s.activeOf core level).foldl (fun m a => min m a.prio) 0xFF

/-- Some key of source `id` satisfies `p`: its own, or, for a software interrupt, that of any core of the half. -/
def evAny (half id : Nat) (p : Nat → Bool) : Bool :=
  if 0x200 ≤ id && id < 0x400 then (List.range 128).any fun k => p (evKey half id (128 * half + k))
  else p (evKey half id 0)

/-! ## Fields that the engines, Dispatch and the Collector hold -/

def State.engAt (s : State) (e : Nat) : Engine := SMap.get Engine.empty s.engines e

/-- How many engines of a half are members of a pool (HPN_POOL.members). -/
def State.memberCount (s : State) (h p : Nat) : Nat :=
  ((List.range 512).filter fun i =>
    s.rb Reg.SLT_POOL.member (512 * h + i) && s.rf Reg.SLT_POOL.cur_pool (512 * h + i) == p).length

/-- Tasks of an earlier generation of a TI that an engine has popped and not ended, and their records not yet discarded
(R305). -/
def State.oldTasks (s : State) (ti : Nat) : Nat :=
  let g := s.rf Reg.TIF_GEN.gen ti
  let old := fun (r : Rec) => r.ti == ti && r.gen != g
  s.engines.foldl (fun n p =>
    n + (p.2.latch.filter old).length +
      (match p.2.task with
       | some t => b2n (t.entry.ti == ti && ofLe ((t.entry.desc.drop 2).take 2) != g)
       | none => 0)) 0 +
    s.clt.foldl (fun n p => p.2.lanes.foldl (fun n l => n + (l.2.filter fun r => old r && !r.dispatch).length) n) 0

/-- TIs homed in a half that are live: from STARTING until OFF (R310). -/
def State.tiLive (s : State) (h ti : Nat) : Bool :=
  s.rf Reg.TIF_CFG.home ti == h && (s.rf Reg.PFX_STATE.state (0x0A * 4096 + ti) != 0)

/-- The TIs whose state is listed. -/
def State.tiList (s : State) : List Nat := SMap.keys s.tis

/-- Engines of a cluster that still have to reload their image (SVC_LOAD.pending). -/
def State.reloadCount (s : State) (c : Nat) : Nat :=
  ((List.range 64).filter fun i => (s.engAt (64 * c + i)).stale).length

/-- Records in a lane. -/
def State.laneRecs (s : State) (h k : Nat) : List Rec := SMap.get [] (SMap.get Clt.empty s.clt h).lanes k

/-- The core of a core domain (R147). -/
def domCore (h d : Nat) : Nat := if d < 128 then 128 * h + d else 256 + 8 * h + (d - 128)

/-- A domain's state as PWR_DOM shows it: a core's own run state stands for a core domain. -/
def State.domState (s : State) (h d : Nat) : Nat :=
  if d < 136 then
    match (SMap.get Core.empty s.cores (domCore h d)).run with
    | .reset => 0 | .running => 0 | .doze => 1 | .slumber => 2 | .off => 2
  else s.rf Reg.PWR_DOM.state h d

/-- The view of the fields that engines, Dispatch, the Collector and the TIs hold elsewhere. -/
def State.viewDsp (s : State) (f : Fld) (i j : Nat) : Option Nat :=
  if f = Reg.SLT_RUN.state then some (s.engAt i).run.code
  else if f = Reg.SLT_RUN.pc then some (s.engAt i).pc
  else if f = Reg.SLT_CACHE.lock_mask then some (s.engAt i).locks
  else if f = Reg.SLT_DEBUG.halted then some (b2n ((s.engAt i).run == .halt))
  else if f = Reg.SLT_LFSR.value then (s.engAt i).lfsrNew
  else if f = Reg.HPN_POOL.members then some (s.memberCount i j)
  else if f = Reg.TIF_STATUS.old_tasks then some (s.oldTasks i)
  else if f = Reg.TIF_GEN.busy then some (s.rf Reg.TIF_STATUS.resetting i)
  else if f = Reg.CLT_LANE.occupancy then some (s.laneRecs i j).length
  else if f = Reg.CLT_LANE.remote then some ((s.laneRecs i j).filter fun r => r.remote && !r.dispatch).length
  else if f = Reg.SVC_LOAD.pending then some (s.reloadCount i)
  else if f = Reg.SVC_LOAD.busy then some (b2n (SMap.get Cluster.empty s.clusters i).load.isSome)
  else if f = Reg.DSP_TI_LIVE.live then
    some ((List.range 64).foldl (fun n b => n + b2n (s.tiLive i (64 * j + b)) * 2 ^ b) 0)
  else if f = Reg.DSP_TI_COUNT.live then some (s.tiList.filter (s.tiLive i)).length
  else if f = Reg.DSP_TI_COUNT.privileged then
    some (s.tiList.filter fun n => s.tiLive i n && s.rf Reg.TIF_CFG.priv n != 0).length
  else if f = Reg.DSP_TI_COUNT.queues then
    some (s.tiList.foldl (fun n t => if s.tiLive i t then
      n + ((List.range 16).filter fun q => s.rb Reg.TIF_SQ.enable t q).length else n) 0)
  else if f = Reg.DSP_TI_COUNT.stalled then
    some (s.tiList.filter fun n => s.tiLive i n && s.rb Reg.TIF_STATUS.stalled n).length
  else none

/-- A field's value as a read sees it. -/
def State.viewf (s : State) (f : Fld) (i j : Nat) : Nat :=
  if f = Reg.PFX_ID.block_class then i / 4096
  else if f = Reg.PFX_ID.instance then i % 4096
  else if f = Reg.PFX_ID.stop_id then s.blkStop (i / 4096) (i % 4096)
  else if f = Reg.PFX_STATE.held then
    match blkDomain (i / 4096) (i % 4096) with
    | some d => s.rf Reg.PWR_HOLD.hold (s.blkHalf (i / 4096) (i % 4096)) d
    | none => 0
  else if f = Reg.EVH_SRC.pending then b2n (evAny i j fun k => (s.evPend k).pending)
  else if f = Reg.EVH_SRC.active then b2n (evAny i j s.isActive)
  else if f = Reg.EVH_PRIO.run_k then s.runPrio (128 * i + j) 0
  else if f = Reg.EVH_PRIO.run_v then s.runPrio (128 * i + j) 1
  else if f = Reg.EVH_PRIO.act_k then (s.activeOf (128 * i + j) 0).length
  else if f = Reg.EVH_PRIO.act_v then (s.activeOf (128 * i + j) 1).length
  else if f = Reg.EVH_SEC_PRIO.run then s.runPrio (128 * i + j) 2
  else if f = Reg.EVH_SEC_PRIO.act then (s.activeOf (128 * i + j) 2).length
  else if f = Reg.DMC_STATUS.hot then s.rf Reg.DMC_REFRESH.hot i 0
  else if f = Reg.PWR_DOM.state then s.domState i j
  else if f = Reg.KNX_START.waiting then b2n (s.blkOn 0x01 i && (SMap.get Core.empty s.cores i).run == .reset)
  else if f = Reg.STR_STATUS.master then b2n (s.sys.primary.val == i)
  else if f = Reg.TLT_PRIM.primary then b2n (s.sys.primary.val == i)
  else if f = Reg.TLT_PRIM.role then
    (if s.tlt.root == .none || s.tlt.root == .rails || s.tlt.root == .railsDead || s.tlt.root == .cold then 0
     else if s.sys.primary.val == i then (if s.sys.lostHalf.isSome then 2 else 0) else if s.sys.lostHalf.isSome then 3 else 1)
  else if f = Reg.TLT_PRIM.lease_age_us then min 0xFFFF ((s.strata.tick - SMap.get 0 s.tlt.leaseSeen i) / 1000)
  else if f = Reg.PWR_RAIL.valid then
    b2n (if j < 8 then j / 2 % 2 == i && j < 4 || 4 ≤ j && j % 2 == i else s.sys.primary.val == i)
  else if f = Reg.STR_TIME_LO.value then strataBits (s.replica (tStop i)) % 2 ^ 64
  else if f = Reg.STR_TIME_HI.value then strataBits (s.replica (tStop i)) / 2 ^ 64
  else match s.viewDsp f i j with
    | some v => v
    | none => if f.ty = .wo then 0 else s.rf f i j

/-- A register word. -/
def State.regWord (s : State) (i j : Nat) (fs : List Fld) : Nat :=
  fs.foldl (fun w f => w + (s.viewf f i j % 2 ^ f.width) * 2 ^ f.lo) 0

/-- Clear the fields that a read clears (R7). -/
def State.clearRC (s : State) (i j : Nat) (fs : List Fld) : State :=
  fs.foldl (fun s f => if f.ty = .rc then s.setf f i 0 j else s) s

/-- Registers that exist only in the primary half's instance read 0 in the other (R37, R173). -/
def primaryOnly (r : RegDef) : Bool :=
  r == Reg.PRT_CLAIM.reg || r == Reg.STR_CMP_CTL.reg || r == Reg.STR_CMP_TIME_LO.reg || r == Reg.STR_CMP_TIME_HI.reg
    || r == Reg.STR_CMP_ARG.reg

/-- Read a register: its word is the answer, and its RC fields clear. Device-wide registers are kept at instance 0. -/
def State.readReg (s : State) (r : RegDef) (i j : Nat) : State :=
  if primaryOnly r then
    if s.sys.primary.val == i then (s.clearRC 0 j r.fields).answer (s.regWord 0 j r.fields) 0
    else s.answer 0 0
  else (s.clearRC i j r.fields).answer (s.regWord i j r.fields) 0

/-- The register and index at an offset of a table. -/
def findReg (off : Nat) : List RegDef → Option (RegDef × Nat)
  | [] => none
  | r :: rs =>
    if r.stride = 0 then (if off = r.off then some (r, 0) else findReg off rs)
    else if r.off ≤ off && (off - r.off) % r.stride == 0 && (off - r.off) / r.stride < r.count then
      some (r, (off - r.off) / r.stride)
    else findReg off rs

/-- EVH_SRC has no entry for the IDs 0x000 and 0xFFF (R312). -/
def noSource (cls off : Nat) : Bool := cls == 0x0B && (off == 0x8000 || off == 0xFFF8)

/-- The register at an offset of a block, with the instance its fields are kept under. -/
def regAt (cls inst off : Nat) : Option (RegDef × Nat × Nat) :=
  if off < 0x40 then (findReg off Reg.tablePFX).map fun (r, j) => (r, blkKey cls inst, j)
  else if noSource cls off then none
  else (findReg off (Reg.table cls)).map fun (r, j) => (r, inst, j)

/-- A command's read of a register: the page check, then the word (R10, R25). -/
def State.readCmd (s : State) (q : Requester) (cls inst : Nat) (r : RegDef) (j : Nat) (k : State → State) : State :=
  s.withAccess q .read cls inst (r.off + r.stride * j) fun s => k (s.readReg r inst j)

end Sys2Proof.Machine
end

