-- ==== Sys2Proof/Machine/EventHub.lean ====
section
/-!
DEFINITION. EventHub: the commands of the Event Hub (chapter "Event Hub", R311 to R327).
-/
namespace Sys2Proof.Machine

/-! ## Candidates (R314, R315) -/

/-- The source ID of a raise key. -/
def keyId (key : Nat) : Nat := key % 4096

/-- The half whose EVH_SRC configures the source of a raise key. -/
def State.keyHalf (s : State) (key : Nat) : Nat :=
  let g := key / 4096
  if g < 2 then g else if g < 1000 then (g - 2) / 128 else s.evCfgHalf 0 (keyId key)

/-- The core that a raise key's source targets. -/
def State.keyTarget (s : State) (key : Nat) : Nat :=
  let g := key / 4096
  if 2 ≤ g && g < 1000 then g - 2 else s.rf Reg.EVH_SRC.target (s.keyHalf key) (keyId key)

/-- The level a raise key's source is signalled at: 0 K, 1 V, 2 secure (R312). -/
def State.keyLevel (s : State) (key : Nat) : Nat :=
  if s.rb Reg.EVH_SRC.secure (s.keyHalf key) (keyId key) then 2
  else s.rf Reg.EVH_SRC.level (s.keyHalf key) (keyId key)

/-- Some enabled core queue has this ID as its interrupt and is not empty (R323). -/
def State.coreQueueHas (s : State) (id : Nat) : Bool :=
  [0, 1].any fun h => (List.range 128).any fun k =>
    s.rf Reg.EVH_EQ_CFG.id h k == id && s.rf Reg.EVH_EQ_CFG.log2_size h k != 0 &&
      s.rf Reg.EVH_EQ_PTR.head h k != s.rf Reg.EVH_EQ_PTR.tail h k

/-- Some TI in queue mode has this ID as its interrupt and its queue is not empty (R324). -/
def State.tiQueueHas (s : State) (id : Nat) : Bool :=
  (SMap.keys (SMap.get [] s.regs Reg.TIF_EVENT.queue_mode.id)).any fun ti =>
    s.rb Reg.TIF_EVENT.queue_mode ti && s.rf Reg.TIF_EVENT.intr_id ti == id &&
      (let h := s.rf Reg.TIF_CFG.home ti
       s.rf Reg.EVH_TIQ_PTR.head h ti != s.rf Reg.EVH_TIQ_PTR.tail h ti)

/-- The ID is a level source whose condition holds (R323, R324). -/
def State.levelHolds (s : State) (id : Nat) : Bool :=
  0x400 ≤ id && id < 0xFFF && (s.coreQueueHas id || s.tiQueueHas id)

/-- The group of a priority under a core's and level's split (R314). -/
def State.evGroup (s : State) (core level p : Nat) : Nat :=
  p / 2 ^ (if level = 2 then s.rf Reg.EVH_SEC_PRIO.split (core / 128) (core % 128)
           else s.rf Reg.EVH_PRIO.split (core / 128) (core % 128))

/-- The threshold of a core and level. -/
def State.evThr (s : State) (core level : Nat) : Nat :=
  match level with
  | 0 => s.rf Reg.EVH_PRIO.thr_k (core / 128) (core % 128)
  | 1 => s.rf Reg.EVH_PRIO.thr_v (core / 128) (core % 128)
  | _ => s.rf Reg.EVH_SEC_PRIO.thr (core / 128) (core % 128)

def State.keyPrio (s : State) (key : Nat) : Nat := s.rf Reg.EVH_SRC.priority (s.keyHalf key) (keyId key)

/-- The raise key is a candidate for its core and level (R315). -/
def State.isCandidate (s : State) (key : Nat) : Bool :=
  let h := s.keyHalf key
  let id := keyId key
  let core := s.keyTarget key
  let level := s.keyLevel key
  let p := s.keyPrio key
  (s.evPend key).pending && s.rb Reg.EVH_SRC.enable h id && !s.isActive key && !s.queued h id
    && p < s.evThr core level && p != 0xFF
    && ((s.activeOf core level).isEmpty || s.evGroup core level p < s.evGroup core level (s.runPrio core level))
    && (if level = 2 then s.isHardpanCore core || s.hpPresent (core / 128)
        else !s.rb Reg.EVH_HOLD.hold (core / 128))

/-- The better of two candidates: the lower priority value, then the lower ID (R314). -/
def State.evBetter (s : State) (a b : Nat) : Nat :=
  if s.keyPrio b < s.keyPrio a || (s.keyPrio b == s.keyPrio a && keyId b < keyId a) then b else a

/-- The candidate selected for a core and level (R314). -/
def State.candidate (s : State) (core level : Nat) : Option Nat :=
  (SMap.keys s.evh.pend).foldl (fun best key =>
    if s.isCandidate key && s.keyTarget key == core && s.keyLevel key == level then
      match best with
      | none => some key
      | some b => some (s.evBetter b key)
    else best) none

/-- Note every core and level that is signalled now, before a change that may end a signal (R317). -/
def State.noteSignals (s : State) : State :=
  { s with evh := { s.evh with signalled :=
      (SMap.keys s.evh.pend).foldl (fun m key =>
        if s.isCandidate key then SMap.set false m (s.keyTarget key * 3 + s.keyLevel key) true else m) s.evh.signalled } }

/-! ## Sources -/

/-- R313: the write of `v` to EVH_SRC[id] of half `h` is ignored as a whole. -/
def State.srcDenied (s : State) (a : Actor) (h id v : Nat) : Bool :=
  let sec := s.rb Reg.EVH_SRC.secure h id
  let secNew := if a = .h && 0x400 ≤ id then Reg.EVH_SRC.secure.of v != 0 else sec
  let target := Reg.EVH_SRC.target.of v
  let direct := Reg.EVH_SRC.level.of v == 0 && Reg.EVH_SRC.mode.of v == 0
  let soft := 0x200 ≤ id && id < 0x400
  ((a = .t || a = .v) && sec)
    || (!soft && !secNew && s.isHardpanCore target)
    || (id < 0x200 && target / 128 != h)
    || (!soft && secNew && !s.isHardpanCore target && !direct)
    || (a = .h && secNew != sec && s.isActive (evKey h id 0))
    || (a = .h && 0x300 ≤ id && id < 0x400 && Reg.EVH_SRC.mode.of v != 0)

/-- Apply an accepted write to one half's EVH_SRC[id]; secure is fixed below 0x400. -/
def State.srcStore (s : State) (a : Actor) (h id v : Nat) : State :=
  let fs := if 0x400 ≤ id then Reg.EVH_SRC.reg.fields else Reg.EVH_SRC.reg.fields.filter (· != Reg.EVH_SRC.secure)
  (s.storeReg a h id v allOnes fs).setf Reg.EVH_SRC.denied h 0 id

/-- EVH_SRC is written (R312, R313, R323). A change of secure clears a raise that is pending and one that crosses the bridge. -/
def State.evhSrc (s : State) (a : Actor) (h id v : Nat) : State :=
  let s := s.noteSignals
  let halves := if 0x400 ≤ id then [0, 1] else [h]
  if id = 0 || id = 0xFFF || a = .m || a = .io then s
  else if s.srcDenied a h id v then halves.foldl (fun s h => s.setf Reg.EVH_SRC.denied h 1 id) s
  else
    let key := evKey h id 0
    let moved := a = .h && 0x400 ≤ id && (Reg.EVH_SRC.secure.of v != 0) != s.rb Reg.EVH_SRC.secure h id
    let s := halves.foldl (fun s h => s.srcStore a h id v) s
    let s := if moved then
        { s with evh := { s.evh with crossing := s.evh.crossing.filter fun e => e.withdraw || e.id != id } }
      else s
    if moved || (!(0x200 ≤ id && id < 0x400) && s.queued h id) then s.clearPending key else s

def execEvhSrcWrite (q : Requester) (h : Half) (id : Fin 4096) (v : Word) (s : State) : Out3 :=
  .next (s.writeReg q Cls.evh h.val (0x8000 + 8 * id.val) v.toNat
    fun s => s.evhSrc q.actor h.val id.val v.toNat)

/-! ## Raising -/

/-- Withdraw an assignable ID where its state is held (R320); a level source stays pending while its condition holds. -/
def State.withdrawHere (s : State) (id : Nat) : State :=
  let s := s.noteSignals
  if s.levelHolds id then s else s.clearPending (evKey 0 id 0)

/-- The oldest raise or withdrawal leaving half `h` reaches the Event Hub of the other half (R327). -/
def State.raiseCross (s : State) (h : Nat) : State :=
  match s.evh.crossing.find? (fun e => e.half == h) with
  | none => s
  | some e =>
    let s := { s with evh := { s.evh with crossing := s.evh.crossing.erase e } }
    if e.withdraw then s.withdrawHere e.id else s.deliver 3 e.half e.id e.qual e.target e.ns

def execRaiseCrossing (h : Half) (s : State) : Out3 := .next (s.raiseCross h.val)

/-- A raise or withdraw through EVH_RAISE names an ID that this writer may not name (R312). -/
def State.badRaise (s : State) (a : Actor) (h id : Nat) : Bool :=
  id < 0x400 || id == 0xFFF || ((a = .t || a = .v || a = .io) && s.rb Reg.EVH_SRC.secure (s.evCfgHalf h id) id)

/-- Withdraw an assignable ID (R320). Like a raise it crosses the bridge to a target of the other half, behind the raises
before it (R327). -/
def State.evhWithdraw (s : State) (a : Actor) (h id : Nat) : State :=
  if s.badRaise a h id then s.addf Reg.EVH_STAT.bad_raise h
  else
    let target := s.rf Reg.EVH_SRC.target (s.evCfgHalf h id) id
    if target / 128 != h && s.sys.lostHalf.isNone then
      { s with evh := { s.evh with crossing := s.evh.crossing ++ [⟨h, id, 0, target, 0, true⟩] } }
    else s.withdrawHere id

/-- EVH_RAISE is written (R312, R320). -/
def State.evhRaise (s : State) (a : Actor) (h v : Nat) : State :=
  if !Reg.EVH_RAISE.id.admits a then s
  else
    let id := Reg.EVH_RAISE.id.of v
    if Reg.EVH_RAISE.withdraw.of v != 0 then s.evhWithdraw a h id
    else if s.badRaise a h id then s.addf Reg.EVH_STAT.bad_raise h
    else s.raiseId h id (Reg.EVH_RAISE.qualifier.of v) 0

def execEvhRaiseWrite (q : Requester) (h : Half) (v : Word) (s : State) : Out3 :=
  .next (s.writeReg q Cls.evh h.val 0x1000 v.toNat fun s => s.evhRaise q.actor h.val v.toNat)

def execEvhWithdraw (q : Requester) (h : Half) (id : Fin 4096) (s : State) : Out3 :=
  .next (s.writeReg q Cls.evh h.val 0x1000 (2 ^ 31 + id.val) fun s =>
    if Reg.EVH_RAISE.id.admits q.actor then s.evhWithdraw q.actor h.val id.val else s)

/-- The Hardpan cores of the device by logical ID (R142). -/
def State.hardpanCores (s : State) : List Nat := (List.range 256).filter s.isHardpanCore

/-- EVH_SGI is written (R311, R313). -/
def State.evhSgi (s : State) (a : Actor) (h v : Nat) : State :=
  let id := Reg.EVH_SGI.id.of v
  let target := Reg.EVH_SGI.target.of v
  let all := a = .h && Reg.EVH_SGI.all_hardpan.of v != 0
  if !Reg.EVH_SGI.id.admits a then s
  else if id < 0x200 || 0x400 ≤ id || (0x300 ≤ id && a != .h) then s.addf Reg.EVH_STAT.bad_raise h
  else if all then
    if id < 0x300 then s.addf Reg.EVH_STAT.bad_raise h
    else s.hardpanCores.foldl (fun s c => s.raiseId h id 0 c) s
  else if id < 0x300 && s.isHardpanCore target then s.addf Reg.EVH_STAT.bad_raise h
  else s.raiseId h id 0 target

def execEvhSgiWrite (q : Requester) (h : Half) (v : Word) (s : State) : Out3 :=
  .next (s.writeReg q Cls.evh h.val 0x108 v.toNat fun s => s.evhSgi q.actor h.val v.toNat)

/-! ## Claim and complete (R317, R318) -/

/-- The word that a claim returns for a key (R321). -/
def claimWord (key : Nat) (e : EvPend) : Nat :=
  keyId key + e.qual % 4096 * 2 ^ 12 + b2n e.multi * 2 ^ 24 + e.half % 2 * 2 ^ 25

/-- A level source stays pending after its claim, with no raise since (R317, R321). -/
def State.claimStays (s : State) (key : Nat) : State :=
  { s with evh := { s.evh with pend := SMap.upd EvPend.none s.evh.pend key fun e =>
      { e with qual := 0, multi := false, raised := false } } }

/-- A claim read by logical core `l` at a level. -/
def State.claim (s : State) (l level : Nat) : State :=
  if 16 ≤ (s.activeOf l level).length then s.answer 0xFFF 0
  else
    match s.candidate l level with
    | some key =>
      let e := s.evPend key
      let stays := s.levelHolds (keyId key)
      let s := { s with evh := { s.evh with
        active := EvActive.mk key l level (s.keyPrio key) :: s.evh.active,
        signalled := SMap.set false s.evh.signalled (l * 3 + level) false } }
      let s := if stays then s.claimStays key else s.clearPending key
      s.answer (claimWord key e) 0
    | none => s.answer (if SMap.get false s.evh.signalled (l * 3 + level) then 0xFFF else 0) 0

def execEvhClaimK (q : Requester) (l : Fin 256) (s : State) : Out3 :=
  .next (s.withAccess q .read Cls.evh (l.val / 128) (0x10000 + 0x1000 * (l.val % 128)) fun s => s.claim l.val 0)

def execEvhClaimV (q : Requester) (l : Fin 256) (s : State) : Out3 :=
  .next (s.withAccess q .read Cls.evh (l.val / 128) (0x10010 + 0x1000 * (l.val % 128)) fun s => s.claim l.val 1)

def execEvhSecClaim (q : Requester) (l : Fin 256) (s : State) : Out3 :=
  .next (s.withAccess q .read Cls.evh (l.val / 128) (0x4000 + 0x40 * (l.val % 128)) fun s => s.claim l.val 2)

/-- A write of `id` to a complete register. -/
def State.complete (s : State) (l level id : Nat) : State :=
  match (s.activeOf l level).find? (fun a => keyId a.key == id) with
  | some a => { s with evh := { s.evh with active := s.evh.active.erase a } }
  | none => s.addf Reg.EVH_STAT.bad_eoi (l / 128)

def execEvhEoiK (q : Requester) (l : Fin 256) (v : Word) (s : State) : Out3 :=
  .next (s.writeReg q Cls.evh (l.val / 128) (0x10008 + 0x1000 * (l.val % 128)) v.toNat fun s =>
    if Reg.EVH_EOI_K.id.admits q.actor then s.complete l.val 0 (v.toNat % 4096) else s)

def execEvhEoiV (q : Requester) (l : Fin 256) (v : Word) (s : State) : Out3 :=
  .next (s.writeReg q Cls.evh (l.val / 128) (0x10018 + 0x1000 * (l.val % 128)) v.toNat fun s =>
    if Reg.EVH_EOI_V.id.admits q.actor then s.complete l.val 1 (v.toNat % 4096) else s)

def execEvhSecEoi (q : Requester) (l : Fin 256) (v : Word) (s : State) : Out3 :=
  .next (s.writeReg q Cls.evh (l.val / 128) (0x4008 + 0x40 * (l.val % 128)) v.toNat fun s =>
    if Reg.EVH_SEC_EOI.id.admits q.actor then s.complete l.val 2 (v.toNat % 4096) else s)

/-! ## Hold and queues -/

/-- EVH_HOLD is one value in both halves (R319, R325). -/
def State.evhHold (s : State) (a : Actor) (v : Nat) : State :=
  let s := s.noteSignals
  (s.storeReg a 0 0 v allOnes Reg.EVH_HOLD.reg.fields).storeReg a 1 0 v allOnes Reg.EVH_HOLD.reg.fields

def execEvhHoldWrite (q : Requester) (h : Half) (v : Word) (s : State) : Out3 :=
  .next (s.writeReg q Cls.evh h.val 0x100 v.toNat fun s => s.evhHold q.actor v.toNat)

/-- Withdraw a queue's level interrupt when nothing keeps it (R320, R323). -/
def State.dropLevel (s : State) (id : Nat) : State :=
  if 0x400 ≤ id && id < 0xFFF && !s.levelHolds id then s.clearPending (evKey 0 id 0) else s

/-- The queue of a TI in its home half has moved its head, or was set up anew: the next ring-advance entry may be written, and
in queue mode the level interrupt ends with its condition (R320, R324). -/
def State.tiqMoved (s : State) (h ti : Nat) : State :=
  if s.rf Reg.TIF_CFG.home ti != h then s
  else
    let s := { s with evh := { s.evh with tiqEntry := SMap.set false s.evh.tiqEntry ti false } }
    if s.rb Reg.TIF_EVENT.queue_mode ti then s.dropLevel (s.rf Reg.TIF_EVENT.intr_id ti) else s

/-- EVH_TIQ_CFG is written: both pointers return to 0 (R324). -/
def State.tiqCfg (s : State) (a : Actor) (h ti v : Nat) : State :=
  if !Reg.EVH_TIQ_CFG.base.admits a then s
  else
    let s := s.noteSignals
    let s := s.storeReg a h ti v allOnes Reg.EVH_TIQ_CFG.reg.fields
    ((s.setf Reg.EVH_TIQ_PTR.head h 0 ti).setf Reg.EVH_TIQ_PTR.tail h 0 ti).tiqMoved h ti

def execEvhTiqCfgWrite (q : Requester) (h : Half) (ti : TiId) (v : Word) (s : State) : Out3 :=
  .next (s.writeReg q Cls.evh h.val (0x90000 + 16 * ti.val) v.toNat
    fun s => s.tiqCfg q.actor h.val ti.val v.toNat)

/-- A head write between the current head and the tail, in 32-bit ring order. -/
def headOk (head tail v : Nat) : Bool := (v + 2 ^ 32 - head) % 2 ^ 32 ≤ (tail + 2 ^ 32 - head) % 2 ^ 32

/-- The head of a TI's event queue is written (R324). -/
def State.tiqHead (s : State) (a : Actor) (h ti v : Nat) : State :=
  let w := v % 2 ^ 32
  if !Reg.EVH_TIQ_PTR.head.admits a || !headOk (s.rf Reg.EVH_TIQ_PTR.head h ti) (s.rf Reg.EVH_TIQ_PTR.tail h ti) w then s
  else
    let s := s.noteSignals
    (s.setf Reg.EVH_TIQ_PTR.head h w ti).tiqMoved h ti

def execEvhTiqHeadWrite (q : Requester) (h : Half) (ti : TiId) (v : Word) (s : State) : Out3 :=
  .next (s.writeReg q Cls.evh h.val (0x90008 + 16 * ti.val) v.toNat
    fun s => s.tiqHead q.actor h.val ti.val v.toNat)

/-- The head of a core's event queue is written (R323). -/
def State.eqHead (s : State) (a : Actor) (l v : Nat) : State :=
  let h := l / 128
  let k := l % 128
  let w := v % 2 ^ 32
  if !Reg.EVH_EQ_PTR.head.admits a || !headOk (s.rf Reg.EVH_EQ_PTR.head h k) (s.rf Reg.EVH_EQ_PTR.tail h k) w then s
  else
    let s := s.noteSignals
    let s := s.setf Reg.EVH_EQ_PTR.head h w k
    if s.rf Reg.EVH_EQ_CFG.log2_size h k = 0 then s else s.dropLevel (s.rf Reg.EVH_EQ_CFG.id h k)

def execEvhEqHeadWrite (q : Requester) (l : Fin 256) (v : Word) (s : State) : Out3 :=
  .next (s.writeReg q Cls.evh (l.val / 128) (0x10048 + 0x1000 * (l.val % 128)) v.toNat
    fun s => s.eqHead q.actor l.val v.toNat)

def execEvhStatRead (q : Requester) (h : Half) (s : State) : Out3 :=
  .next (s.readCmd q Cls.evh h.val Reg.EVH_STAT.reg 0 id)

def execEvhEqOvfRead (q : Requester) (l : Fin 256) (s : State) : Out3 :=
  .next (s.readCmd q Cls.evh (l.val / 128) Reg.EVH_EQ_OVF.reg (l.val % 128) id)

end Sys2Proof.Machine
end

