-- ==== Sys2Proof/Machine/Modes.lean ====
section
/-!
DEFINITION. Modes: the device mode and its log (R467, R468), the object dictionary's stored numbers (R420), FALLOW's exit
(R397) and the repairs that MEND counts (R404).
-/
namespace Sys2Proof.Machine

/-! ## Object dictionary numbers (R420) -/

/-- A parameter's key. -/
def odKey (idx sub : Nat) : Nat := idx * 256 + sub

/-- Defaults that are not 0 (R420 and each parameter's row). -/
def odDefault (k : Nat) : Nat :=
  if k = odKey 0x0020 1 then 60
  else if k = odKey 0x0030 1 then 1
  else if k = odKey 0x0030 2 then 4095
  else if k = odKey 0x0210 1 then 4
  else if k = odKey 0x0400 1 then 850
  else if k = odKey 0x0410 2 then 0x0101
  else if k = odKey 0x0410 3 then 400
  else if k = odKey 0x0420 2 then 0x4A
  else if k = odKey 0x0801 1 then 37
  else if k = odKey 0x1000 2 then 3
  else if k = odKey 0x1800 2 then 6371
  else if k = odKey 0x1850 8 then 1
  else 0

/-- A parameter's value. -/
def State.od (s : State) (idx sub : Nat) : Nat :=
  match SMap.get 0 s.sys.od (odKey idx sub) with
  | 0 => odDefault (odKey idx sub)
  | n + 1 => n

def State.setOd (s : State) (idx sub v : Nat) : State :=
  { s with sys := { s.sys with od := SMap.set 0 s.sys.od (odKey idx sub) (v + 1) } }

/-- Set a parameter and its copy in the store: what R472 says the store keeps of retired ranks, lost engines and backfills. -/
def State.setOdStored (s : State) (idx sub v : Nat) : State :=
  { s.setOd idx sub v with tlt := { s.tlt with stored := SMap.set 0 s.tlt.stored (odKey idx sub) (v + 1) } }

/-! ## The mode log -/

/-- What else a mode-log entry records: a primacy strap mismatch (R409), a rail outside its window (R457), a region's CRC
(R429) or a parameter that took its default (R420). -/
inductive LogNote where
  | none | strapMismatch | railWindow | crc (region : Nat) | odIndex (idx : Nat) | imageRefused (which : Nat)
deriving DecidableEq, Repr

def LogNote.code : LogNote → Nat
  | .none => 0 | .strapMismatch => 1 | .railWindow => 2
  | .crc r => 0x10000 + r | .odIndex i => 0x20000 + i | .imageRefused w => 0x30000 + w

/-- Add an entry; 256 are kept (OD 0x1C80). -/
def State.logMode (s : State) (cause : Option Nat) (note : LogNote) : State :=
  { s with sys := { s.sys with modeLog :=
      (ModeEntry.mk (strataBits s.strata.time) s.sys.mode.code cause note.code :: s.sys.modeLog).take 256 } }

/-- Enter a mode with a cause of R468. -/
def State.toMode (s : State) (m : Mode) (cause : Nat) : State :=
  ({ s with sys := { s.sys with prevMode := s.sys.mode, mode := m } }).logMode (some cause) .none

/-! ## Stores (R428) -/

/-- Some rail of R387 is outside its window. -/
def State.railsOut (s : State) : Bool := s.pwr.railOut.any Prod.snd

/-- The bit of a region in OD 0x1C90.02, in the order of the store's layout. -/
def StoreWork.bit : StoreWork → Nat
  | .fw r _ => 2 ^ r
  | .od _ _ => 8
  | .boot _ => 16
  | .cal _ => 32

/-- A store ends: OD 0x1C90.02 records it, and EV 0x0E5 is raised to both worlds. -/
def State.storeEnded (s : State) (mask status ms : Nat) : State :=
  ({ s with tlt := { s.tlt with lastMask := mask, lastStatus := status, lastMs := ms } } : State).raise 0x0E5 .both
    s.sys.primary.val 0

/-- A store is asked for: BUSY while one runs, RAIL_WINDOW while a rail is outside its window, else it starts. -/
def State.storeBegin (s : State) (w : StoreWork) : Nat × State :=
  if s.tlt.storing.isSome then (Status.busy, s)
  else if s.railsOut then (Status.railWindow, s.storeEnded w.bit Status.railWindow 0)
  else (Status.ok, { s with tlt := { s.tlt with storing := some w, storeFrom := s.strata.tick } })

/-- A store that Tilth needs itself waits for the one that runs. -/
def State.storeSoon (s : State) (w : StoreWork) : Nat × State :=
  if s.tlt.storing.isSome then (Status.ok, { s with tlt := { s.tlt with storeAgain := s.tlt.storeAgain ++ [w] } })
  else s.storeBegin w

/-! ## The Weathering plan (R402) and the rails it sets (R387) -/

/-- The core rail that feeds a physical core: half * 2, and 1 more for rows 5 to 8 (R150). -/
def coreRail (c : Nat) : Nat := coreHalf c * 2 + b2n (5 ≤ coreStop c % 256 / 16)

/-- A core's domain number within its half (R147). -/
def coreDom (c : Nat) : Nat := if c < 256 then c % 128 else 128 + (c - 256) % 8

/-- The half whose Tilth controls or monitors a rail. -/
def State.railHalf (s : State) (r : Nat) : Nat :=
  if r < 4 then r / 2 else if r < 8 then r % 2 else s.sys.primary.val

/-- A range of an AVS rail in mV. -/
def railRange (r : Nat) : Nat × Nat := if r < 4 then (600, 1050) else if r < 6 then (700, 950) else (650, 950)

/-- The rail that feeds a core's, a cluster's or the mesh's domain. -/
def domRail (h d : Nat) : Nat := if d < 136 then coreRail (domCore h d) else if d = 144 then 4 + h else 6 + h

/-- The points of the plan. -/
def planPoints : List Nat := (List.range 29).map fun k => 800 + 100 * k

/-- What the plan asks for a unit at a point in mV: a re-plan never lowers a voltage. -/
def State.planAsk (s : State) (h d mhz : Nat) : Nat :=
  let c := s.tlt.cal
  c.plans.foldl (fun v p => if p.half = h then max v (Config.planVolt c.base p.hours p.readings (h * 256 + d) mhz) else v)
    (Config.planVolt c.base 0 [] (h * 256 + d) mhz)

/-- The voltage in mV that a unit needs at a point: the plan's, or without a valid set the top of the point's guard band (R430),
within its rail's range. -/
def State.planMv (s : State) (h d mhz : Nat) : Nat :=
  let (lo, hi) := railRange (domRail h d)
  max lo (min hi (if s.sys.trimmed then s.planAsk h d mhz else Config.guardTop (h * 256 + d) mhz))

/-- The highest usable point of a unit: a point whose voltage would exceed its rail's range is removed. The factory's plan has them
all. -/
def State.planTop (s : State) (h d : Nat) : Nat :=
  if s.tlt.cal.base.isNone && s.tlt.cal.plans.all (fun p => p.half != h) then 3600
  else ((planPoints.filter fun f => s.planAsk h d f ≤ (railRange (domRail h d)).2).getLast?).getD 800

/-- The highest point of the plan that a voltage supports (R389). -/
def State.planSupports (s : State) (h d mv : Nat) : Nat :=
  ((planPoints.filter fun f => s.planMv h d f ≤ mv).getLast?).getD 800

/-- The voltage that all re-plans since manufacture have added to a point. -/
def State.planAdded (s : State) (h d mhz : Nat) : Nat :=
  (s.tlt.cal.base.elim 0 fun b => Config.planAdded b (h * 256 + d) mhz) +
    (s.planAsk h d mhz - Config.planVolt s.tlt.cal.base 0 [] (h * 256 + d) mhz)

/-- WTH_FMAX shows the plan of a half; after a re-plan fmax never rises. -/
def State.planShow (s : State) (h : Nat) (replan : Bool) : State :=
  (List.range 136).foldl (fun s c =>
    let f := if replan then min (s.rf Reg.WTH_FMAX.fmax_mhz h c) (s.planTop h c) else s.planTop h c
    (s.setf Reg.WTH_FMAX.fmax_mhz h f c).setf Reg.WTH_FMAX.dv_mv h (min 0xFF (s.planAdded h c f)) c) s

/-! ## The mesh clock and the package limit (R390, R391, R396) -/

/-- The acknowledged voltage of a faulted VMESH rail does not support 2.0 GHz (R389). -/
def State.meshCapped (s : State) (h : Nat) : Bool :=
  s.rb Reg.PWR_RAIL.fault h (4 + h) && s.planSupports h 144 (s.rf Reg.PWR_RAIL.set_mv h (4 + h)) < 2000

/-- A half's mesh runs at 1.5 GHz in FALLOW, during a thermal trip, while R390 holds it there, and while its rail's fault leaves no
more. -/
def State.setMesh (s : State) : State :=
  [0, 1].foldl (fun s h =>
    let low := s.rb Reg.PWR_POWER.trip h || SMap.get false s.pwr.meshPower h
    let fallow := s.rf Reg.PWR_FALLOW.state h == 2 && !s.rb Reg.PWR_HOLD.hold h 144
    let slow := low || fallow || s.meshCapped h
    let s := s.setf Reg.PWR_POWER.mesh_low h (b2n low)
    { s with sys := { s.sys with meshSlow := SMap.set false s.sys.meshSlow h slow } }) s

/-- PWR_POWER.limit_w: OD 0x0400.01 as R390 limits it, or FALLOW's limit. -/
def State.setLimit (s : State) : State :=
  [0, 1].foldl (fun s h =>
    s.setf Reg.PWR_POWER.limit_w h
      (if s.rf Reg.PWR_FALLOW.state h = 2 then s.od 0x0410 3 else max 600 (min 850 (s.od 0x0400 1)))) s

/-! ## FALLOW's exit (R397) -/

/-- FALLOW ends: the engines are powered again and their clusters rejoin; EV 0x0D9 with qualifier 0 to both worlds. The
mode that follows is the caller's. -/
def State.endFallow (s : State) : State :=
  let s := [0, 1].foldl (fun s h =>
    let off := s.rf Reg.PWR_FALLOW.off_mask h
    let s := (List.range 8).foldl (fun s c =>
      let s := if bitOf off c then s.setf Reg.PWR_DOM.state h 0 (136 + c) else s
      if bitOf (s.od 0x0410 2) (8 * h + c) then s else s.setf Reg.PWR_HOLD.pend_off h 0 (136 + c)) s
    let s := (s.setf Reg.PWR_HOLD.pend_scale h 0 144).setf Reg.PWR_HOLD.pend_mhz h 0 144
    (s.setf Reg.PWR_FALLOW.state h 0).setf Reg.PWR_FALLOW.off_mask h 0) s
  let s := ((s.setOd 0x0410 1 0).setMesh).setLimit
  s.raise 0x0D9 .both s.sys.primary.val 0

/-- A FALLOW exit trigger: back to FIELD. -/
def State.fallowExit (s : State) : State :=
  if s.sys.mode = .fallow then s.endFallow.toMode .field 0x0A else s

/-- The device enters HUSK for a lost half, a lost bridge or a fenced rank (R468). -/
def State.huskMode (s : State) : State :=
  match s.sys.mode with
  | .fallow => s.endFallow.toMode .husk 0x0F
  | .tune | .field | .clay | .mend | .hold => s.toMode .husk 0x0F
  | _ => s

/-- TUNE's steps are under way: in TUNE, or in the HUSK that a loss during TUNE entered (R464, R468). -/
def State.tuning (s : State) : Bool :=
  s.sys.mode == .tune || (s.sys.mode == .husk && (s.tlt.root == .proved || s.tlt.root == .tuned))

/-! ## Clay mode of the device (R467, R468) -/

/-- Some core is in clay mode. -/
def State.anyClay (s : State) : Bool := s.cores.any fun p => SMap.get 0 p.2.ctl 0x110 % 2 == 1

/-- A core has entered or left clay mode. -/
def State.clayChanged (s : State) : State :=
  if s.anyClay then
    if s.sys.mode = .field then s.toMode .clay 0x0B
    else if s.sys.mode = .fallow then s.endFallow.toMode .clay 0x0B
    else s
  else if s.sys.mode = .clay then s.toMode .field 0x0C
  else s

/-! ## Repairs (R404) -/

/-- The kinds of PWR_MEND.kinds. -/
inductive Repair where
  | backfill | migration | reroute | engineTest | updateWindow
deriving DecidableEq, Repr

def Repair.bit : Repair → Nat
  | .backfill => 1 | .migration => 2 | .reroute => 4 | .engineTest => 8 | .updateWindow => 16

/-- PWR_MEND is valid in the primary; both halves' instances are kept equal. -/
def State.setMend (s : State) (count kinds : Nat) : State :=
  [0, 1].foldl (fun s h => (s.setf Reg.PWR_MEND.count h count).setf Reg.PWR_MEND.kinds h kinds) s

/-- A repair begins. -/
def State.repairBegins (s : State) (r : Repair) : State :=
  let s := if s.sys.mode = .fallow then s.endFallow else s
  let s := s.setMend (min 255 (s.rf Reg.PWR_MEND.count 0 + 1)) (s.rf Reg.PWR_MEND.kinds 0 ||| r.bit)
  if s.sys.mode = .field || s.sys.mode = .fallow || s.sys.mode = .clay then s.toMode .mend 0x0D else s

/-- A repair ends; `more` tells whether another of its kind still runs. -/
def State.repairEnds (s : State) (r : Repair) (more : Bool) : State :=
  let n := s.rf Reg.PWR_MEND.count 0 - 1
  let kinds := s.rf Reg.PWR_MEND.kinds 0
  let s := s.setMend n (if more || kinds &&& r.bit == 0 then kinds else kinds - r.bit)
  if n = 0 && s.sys.mode = .mend then s.toMode (if s.anyClay then .clay else .field) 0x0E else s

end Sys2Proof.Machine
end

