-- ==== Sys2Proof/Machine/BlkCore.lean ====
section
/-!
DEFINITION. BlkCore: the block state machine's shared parts (R31 to R33) and the claim table (R34 to R37).
-/
namespace Sys2Proof.Machine

/-- EV 0x010 or EV 0x011 of a block, and PRT_BLOCK_EVT of its half (R32). -/
def State.blockEvent (s : State) (cls inst : Nat) (restart : Bool) : State :=
  let h := s.blkHalf cls inst
  let st := s.rf Reg.PFX_STATE.last_status (blkKey cls inst)
  let s := (s.setf Reg.PRT_BLOCK_EVT.block_class h cls).setf Reg.PRT_BLOCK_EVT.instance h inst
  let s := (s.setf Reg.PRT_BLOCK_EVT.restart h (b2n restart)).setf Reg.PRT_BLOCK_EVT.last_status h st
  (s.addf Reg.PRT_BLOCK_EVT.count h).raise (if restart then 0x011 else 0x010) .both h cls

/-! ## Claims: the table is kept in instance 0 -/

def State.claimHeld (s : State) (n : Nat) : Bool := s.rb Reg.PRT_CLAIM.held 0 n

/-- Entry `n` is held by this actor, class and instance. -/
def State.claimOwned (s : State) (n : Nat) (a : Actor) (cls inst : Nat) : Bool :=
  s.claimHeld n && s.rf Reg.PRT_CLAIM.owner_actor 0 n == a.code && s.rf Reg.PRT_CLAIM.owner_class 0 n == cls &&
    s.rf Reg.PRT_CLAIM.owner_instance 0 n == inst

def State.claimTake (s : State) (n : Nat) (a : Actor) (cls inst : Nat) : State :=
  let s := if n = 64 then { s with prt := { s.prt with landFrom := s.strata.tick } } else s
  let s := (s.setf Reg.PRT_CLAIM.held 0 1 n).setf Reg.PRT_CLAIM.owner_actor 0 a.code n
  (s.setf Reg.PRT_CLAIM.owner_class 0 cls n).setf Reg.PRT_CLAIM.owner_instance 0 inst n

def State.claimFree (s : State) (n : Nat) : State :=
  let s := (s.setf Reg.PRT_CLAIM.held 0 0 n).setf Reg.PRT_CLAIM.owner_actor 0 0 n
  (s.setf Reg.PRT_CLAIM.owner_class 0 0 n).setf Reg.PRT_CLAIM.owner_instance 0 0 n

/-- The world an owner's events go to (R34). -/
def ownerEvTo (code : Nat) : EvTo := if code = 2 then .hardpan else if code = 3 then .both else .topsoil

/-- A feature loses its claim: its enable clears and, where its register has a status field, it shows `st` (R34). The features
without a register of their own in the DRS hold their entry alone (log entry 23); a PPS pulse ends at once (R454); a save slot is
zeroed (R336). -/
def State.claimClear (s : State) (n st : Nat) : State :=
  if n < 64 then
    let s := s.setf Reg.STR_CMP_CTL.enable 0 0 n
    let s := s.setf Reg.STR_CMP_CTL.armed 0 0 n
    if st = 0 then s else s.setf Reg.STR_CMP_CTL.last_status 0 st n
  else if n = 64 then { s with tlt := { s.tlt with pins := SMap.set false s.tlt.pins 2 false } }
  else if 66 ≤ n then
    let h := (n - 66) / 32
    let j := (n - 66) % 32
    let s := s.setf Reg.KAO_SLOT.enable h 0 j
    let s := s.setf Reg.KAO_SLOT.full h 0 j
    let s := { s with kao := SMap.upd Kao.empty s.kao h fun k =>
      { k with slots := SMap.set none k.slots j none, releaseDue := SMap.set false k.releaseDue j false } }
    if st = 0 then s else s.setf Reg.KAO_SLOT.status h st j
  else s

/-- Every claim entry that a block holds is released (R33). -/
def State.releaseClaims (s : State) (cls inst : Nat) : State :=
  (List.range 130).foldl (fun s n =>
    if s.claimHeld n && s.rf Reg.PRT_CLAIM.owner_class 0 n == cls && s.rf Reg.PRT_CLAIM.owner_instance 0 n == inst then
      (s.claimClear n 0).claimFree n
    else s) s

/-- A block enters FAULT with a status (R31, R32). Its claims end; Kaolin's, which a stop keeps until OFF, in STOPPING too
(R344). -/
def State.blockFault (s : State) (cls inst status : Nat) : State :=
  let k := blkKey cls inst
  let s := if s.blkOn cls inst || cls = Cls.kao then s.releaseClaims cls inst else s
  let s := if cls = Cls.tif then
      { s.setf Reg.TIF_STATUS.resetting inst 0 with
        tis := SMap.upd Ti.empty s.tis inst fun t => { t with failed := true } }
    else s
  let s := (s.setf Reg.PFX_STATE.state k 4).setf Reg.PFX_STATE.last_status k status
  (s.setf Reg.PFX_STATE.restart_pending k 0).blockEvent cls inst false

end Sys2Proof.Machine
end

