-- ==== Sys2Proof/Machine/KnxCore.lean ====
section
/-!
DEFINITION. KnxCore: what every Knaxa instruction is written with: register access, translation (R214 to R219), exception
entry and return (R207 to R213), clay mode's accounts (R242, R243), and the frame of one instruction.
-/
namespace Sys2Proof.Machine

/-! ## Registers (R186) -/

def State.core (s : State) (c : Nat) : Core := SMap.get Core.empty s.cores c

/-- A core number as a core. -/
def coreOf (n : Nat) : CoreId := ⟨n % 272, by omega⟩

def State.setCore (s : State) (c : Nat) (k : Core) : State := { s with cores := SMap.set Core.empty s.cores c k }

def State.updCore (s : State) (c : Nat) (f : Core → Core) : State := s.setCore c (f (s.core c))

/-- g0 reads 0. -/
def Core.rg (k : Core) (r : Nat) : Word := if r = 0 then 0 else SMap.get 0 k.g r

/-- A write to g0 is discarded. -/
def Core.setg (k : Core) (r : Nat) (v : Word) : Core := if r = 0 then k else { k with g := SMap.set 0 k.g r v }

def Core.rv (k : Core) (r : Nat) : Wide := SMap.get 0 k.v r
def Core.setv (k : Core) (r : Nat) (x : Wide) : Core := { k with v := SMap.set 0 k.v r x }
def Core.rp (k : Core) (r : Nat) : BitVec 32 := SMap.get 0 k.p r
def Core.setp (k : Core) (r : Nat) (x : BitVec 32) : Core := { k with p := SMap.set 0 k.p r x }

/-- The value of a vector group as one little-endian number (R249). -/
def Core.grp (k : Core) (r : Nat) : Nat → Nat
  | 0 => 0
  | f + 1 => (k.rv r).toNat + 2 ^ 256 * k.grp (r + 1) f

def Core.setGrp (k : Core) (r n : Nat) : Nat → Core
  | 0 => k
  | f + 1 => (k.setv r (BitVec.ofNat 256 n)).setGrp (r + 1) (n / 2 ^ 256) f

/-- The bits of a predicate group (R251). -/
def Core.pgrp (k : Core) (r : Nat) : Nat → Nat
  | 0 => 0
  | f + 1 => (k.rp r).toNat + 2 ^ 32 * k.pgrp (r + 1) f

def Core.setPgrp (k : Core) (r n : Nat) : Nat → Core
  | 0 => k
  | f + 1 => (k.setp r (BitVec.ofNat 32 n)).setPgrp (r + 1) (n / 2 ^ 32) f

/-- A control register kept as a number, with its reset value (R190, R248). -/
def Core.cr (k : Core) (n : Nat) : Nat :=
  SMap.get (match n with | 0x060 => 3 | 0x120 => 0xA28 | _ => 0) k.ctl n

def Core.setCr (k : Core) (n v : Nat) : Core :=
  { k with ctl := SMap.set (match n with | 0x060 => 3 | 0x120 => 0xA28 | _ => 0) k.ctl n (v % 2 ^ 64) }

/-- The live status word (R188). -/
def Core.status (k : Core) : Nat :=
  k.level + b2n k.hard * 4 + b2n k.ie * 8 + b2n k.guest * 16 + b2n k.sie * 64

def Core.depth (k : Core) : Nat := k.frames.length

/-- A bit field of an instruction word. -/
def ifld (w : IWord) (hi lo : Nat) : Nat := bitsOf w.toNat hi lo

/-- Sign-extend the low `n` bits. -/
def sext (n v : Nat) : Int := if v % 2 ^ n < 2 ^ (n - 1) then (v % 2 ^ n : Nat) else (v % 2 ^ n : Nat) - (2 ^ n : Int)

def w64 (n : Nat) : Word := BitVec.ofNat 64 n
def wInt (i : Int) : Word := BitVec.ofInt 64 i

/-- The core runs on a reserved Hardpan core (R142). -/
def State.coreIsHardpan (s : State) (c : Nat) : Bool :=
  match s.logicalOf c with
  | some l => s.isHardpanCore l
  | none => false

/-- A core as a requester (R132): its world and, for the writers of registers, its level. -/
def State.coreReq (s : State) (c : Nat) : Requester :=
  let k := s.core c
  ⟨if k.hard then .hardpanWorld else .topsoilCore, if k.hard then .h else if k.level = 2 then .v else .t,
    if k.hard then .hardpan else .topsoil, 0, halfOf (coreHalf c), BitVec.ofNat 9 (coreStop c)⟩

/-! ## Exceptions (R207 to R213) -/

namespace Cause
def illegal : Nat := 0x01
def priv : Nat := 0x02
def svc : Nat := 0x03
def hvc : Nat := 0x04
def brk : Nat := 0x05
def debug : Nat := 0x06
def pcAlign : Nat := 0x07
def translate : Nat := 0x08
def perm : Nat := 0x09
def align : Nat := 0x0A
def deviceUse : Nat := 0x0B
def unmapped : Nat := 0x0C
def ownership : Nat := 0x0D
def poison : Nat := 0x0E
def estack : Nat := 0x0F
def interrupt : Nat := 0x10
def secureInt : Nat := 0x11
def hpcall : Nat := 0x12
end Cause

/-- A synchronous exception: its cause, the syndrome, the faulting address, and for a stage-2 fault the guest physical
address; `toV` marks the causes that a guest takes to V (R210). -/
structure Flt where
  cause : Nat
  syn : Nat
  addr : Nat
  gpa : Option Nat
  toV : Bool
deriving DecidableEq, Repr

/-- The level an exception is taken to (R210): 1 K, 2 V, 3 M. `irq` is the routing of a Topsoil interrupt. -/
def Core.destination (k : Core) (cause : Nat) (toV : Bool) (irq : Nat) : Nat :=
  if cause = Cause.secureInt || cause = Cause.hpcall then 3
  else if k.hard then 3
  else if k.level = 2 then 2
  else if cause = Cause.interrupt then (if k.guest then 2 else irq)
  else if k.guest && toV then 2
  else if cause = Cause.hvc then (if k.level = 0 then 1 else 2)
  else 1

/-- A frame of the core at `pc` with a cause and syndrome (R212). -/
def Core.frameAt (k : Core) (pc : Word) (cause syn : Nat) : Frame :=
  ⟨pc, w64 (k.status + cause * 2 ^ 16 + syn * 2 ^ 32), (List.range 15).map fun i => k.rg (i + 1), k.hard⟩

/-- The vector base register of a level. -/
def evbOf (level : Nat) : Nat := 0x01F + level

/-- Enter a level: status bits, vector (R211 steps 2 and 4). -/
def Core.enter (k : Core) (level off : Nat) : Core :=
  { k with level := level, hard := k.hard || level == 3, ie := false,
           guest := k.guest && level == 1, sie := k.sie && level != 3,
           pc := w64 (k.cr (evbOf level) + off), wait := .none, fetchBuf := none }

/-- The CRC-64 of R243, one byte. -/
def crc64Byte (crc : Nat) (b : Nat) : Nat :=
  (List.range 8).foldl (fun c _ =>
    let c2 := c * 2 % 2 ^ 64
    if 2 ^ 63 ≤ c then c2 ^^^ 0x42F0E1EBA9EA3693 else c2) ((crc ^^^ (b * 2 ^ 56)) % 2 ^ 64)

/-- Feed the eight bytes of a number, least significant first. -/
def crc64Word (crc n : Nat) : Nat := (leBytes 8 n).foldl (fun c b => crc64Byte c b.toNat) crc

/-- Clay mode is on and counting (R240). -/
def Core.clay (k : Core) : Bool := k.cr 0x110 % 2 == 1

/-- Add a charge and the path of an instruction in clay mode (R242, R243). -/
def Core.clayAccount (k : Core) (charge : Nat) (pc : Nat) (vas : List Nat) : Core :=
  if k.clay && k.wait != .clayEntry then
    let hidden := k.hard && k.level == 3
    let path := (pc :: vas).foldl (fun crc a => crc64Word crc (if hidden then 0 else a)) (k.cr 0x112)
    (k.setCr 0x111 (k.cr 0x111 + charge)).setCr 0x112 path
  else k

/-- Exception entry adds its charge in clay mode; the path takes instructions alone (R242, R243). -/
def Core.clayEntryCharge (k : Core) : Core :=
  if k.clay && k.wait != .clayEntry then k.setCr 0x111 (k.cr 0x111 + 24) else k

/-- Restore a frame (R203). Hardpan world is always at level M, M never occurs in Topsoil, and V is never a guest (R188). -/
def Core.return_ (k : Core) (f : Frame) (rest : List Frame) (keep : Nat) : Core :=
  let st := f.status.toNat
  let hard := bitOf st 2
  let lvl := if hard then 3 else min 2 (st % 4)
  let k := { k with frames := rest, pc := f.pc &&& ~~~3#64, level := lvl, hard := hard, ie := bitOf st 3,
                    guest := bitOf st 4 && lvl < 2, sie := bitOf st 6, wait := .none, fetchBuf := none,
                    inStub := k.inStub && hard }
  (List.range 15).foldl (fun k i => if keep < i + 1 then k.setg (i + 1) (f.gs.getD i 0) else k) k

/-- The forced unwind of R144 and R202: discard the frames above the one that entered Hardpan world, set g1, and return
through that frame as ERET with keep 1. -/
def Core.unwind (k : Core) (g1 : Nat) : Core :=
  match k.frames.dropWhile (·.hard) with
  | [] => k
  | f :: rest => (k.return_ f rest 1).setg 1 (w64 g1)

/-! ## Core reset (R472) -/

/-- Put a core in core reset: what it does not name as cleared stays, the limits that Tilth set and the debug agent's state among
it. STATUS reads world and level as its table says (R188). -/
def Core.toReset (k : Core) (hard : Bool) : Core :=
  { Core.empty with run := .reset, level := if hard then 3 else 2, hard := hard, capPower := k.capPower, capThermal := k.capThermal,
                    debugHalt := k.debugHalt, breakpoints := k.breakpoints, watchpoints := k.watchpoints, stepArmed := k.stepArmed }

/-- A write to a range that is cut off is discarded and logged (R292, R365, R438). -/
def State.discardWrite (s : State) (c pa src : Nat) : State :=
  s.logError (coreHalf c) (s.mkRec 2 src Status.poisoned (coreStop c) pa c (coreStop c))

/-- Write bytes at the home slice for a core: clay mode, near atomics and uncached writes (R240, R287). -/
def State.homePut (s : State) (c pa : Nat) (bs : List Byte) : State :=
  match s.cutOff pa with
  | some src => s.discardWrite c pa src
  | none => s.pokeHome (s.tagOf (s.keySlotFor (s.coreReq c) pa)) pa bs

/-- The home takes a WriteBack or CleanEvict of a core's copy: modified data goes to L3, and the directory drops the copy. One whose
copy the directory no longer records as the owner's completes as a clean completion (R283, R285 rule 4). -/
def State.takeWb (s : State) (line c : Nat) : State :=
  let own := (s.lineHome line).owner.any fun o => o.val == c
  let s := s.updLine line fun l =>
    let l := { l with evicted := l.evicted.filter fun o => o.val != c }
    if own then
      let l := { l with owner := none, recorded := .i, stale := none }
      if l.sharers.isEmpty then { l with alloc := 0 } else l
    else l
  if own then s.fillL3 line else s

/-- A core's copy of a line is evicted: D, X and L copies send a WriteBack or CleanEvict, which waits at the home while a
transaction runs on the line, and an S copy goes in silence, its directory bit left stale (R283, R285). -/
def State.evict (s : State) (c line : Nat) : State :=
  let st := s.lstate c line
  let s := s.setHeld c line .i
  if st == .i || st == .s then s
  else if (s.lineHome line).txn.isSome then s.updLine line fun l => { l with evicted := l.evicted ++ [coreOf c] }
  else s.takeWb line c

/-- Write back and invalidate every line of a core. -/
def State.flushCore (s : State) (c : Nat) : State :=
  (SMap.keys (SMap.get [] s.coh.held c)).foldl (fun s line => s.evict c line) s

/-- Every store that a core has retired is performed, and its caches are written back and invalidated. -/
def State.coreDrain (s : State) (c : Nat) : State :=
  let s := (s.core c).sb.foldl (fun (s : State) e => s.homePut c e.pa e.bytes) s
  (s.updCore c fun k => { k with sb := [] }).flushCore c

/-- Core reset: what the core has retired is performed before its state clears. -/
def State.coreReset (s : State) (c : Nat) : State :=
  (s.coreDrain c).updCore c fun k => k.toReset (s.coreIsHardpan c)

/-- Take an exception (R209 to R211): the shared entry. `savedPc` is the pc that the cause saves; `off` the vector. -/
def State.takeExc (s : State) (c : Nat) (f : Flt) (savedPc : Word) (off irq : Nat) : State :=
  let k := s.core c
  let dest := k.destination f.cause f.toV irq
  let depth := k.depth
  if !k.hard && dest != 3 && 13 ≤ depth then
    -- ESTACK: every frame is discarded, then one is pushed (R209).
    let lvl := if k.guest || k.level == 2 then 2 else 1
    let fr := k.frameAt k.pc Cause.estack depth
    s.setCore c (({ k with frames := [fr] }.enter lvl 0).clayEntryCharge)
  else if k.hard && 15 ≤ depth then
    if s.coreIsHardpan c then
      (s.coreReset c).raise 0x090 .hardpan (coreHalf c) 0
    else s.setCore c (k.unwind Status.timeout)
  else
    let fr := k.frameAt savedPc f.cause f.syn
    let k1 := { k with frames := fr :: k.frames }.enter dest off
    let k2 := if 0x06 ≤ f.cause && f.cause ≤ 0x0E then k1.setCr (0x027 + dest) f.addr else k1
    let k3 := match f.gpa with | some g => k2.setCr 0x02B g | none => k2
    s.setCore c { k3.clayEntryCharge with inStub := k.inStub || f.cause == Cause.hpcall }

/-- A synchronous fault of the instruction at pc. -/
def State.fault (s : State) (c : Nat) (f : Flt) : State := s.takeExc c f (s.core c).pc 0 0

def simpleFlt (cause syn : Nat) : Flt := ⟨cause, syn, 0, none, false⟩

def State.illegal (s : State) (c : Nat) (w : IWord) : State := s.fault c (simpleFlt Cause.illegal w.toNat)

/-- PRIV; `toV` for a V register, TLBI kind 3 and HPCALL from a guest. -/
def State.privFault (s : State) (c : Nat) (w : IWord) (toV : Bool) : State :=
  s.fault c { simpleFlt Cause.priv w.toNat with toV := toV }

/-! ## Translation (R214 to R220) -/

/-- The kinds of access in the syndrome (R213), and PREF for write, which needs what a store needs and is none (R219). -/
inductive KxAcc where
  | load | store | fetch | atomic | prefWrite
deriving DecidableEq, Repr

def KxAcc.code : KxAcc → Nat
  | .load => 0 | .store => 1 | .fetch => 2 | .atomic => 3 | .prefWrite => 1

/-- The failure of a walk before the access's own fields are added. -/
structure WalkFlt where
  cause : Nat
  stage : Nat
  level : Nat
  walk : Bool
  noncanon : Bool
  gpa : Option Nat
deriving DecidableEq, Repr

/-- The index of an address at a table level (R215). -/
def walkIndex (a level stage : Nat) : Nat :=
  match level with
  | 0 => if stage = 0 then bitsOf a 54 48 else bitsOf a 51 48
  | 1 => bitsOf a 47 39
  | 2 => bitsOf a 38 30
  | 3 => bitsOf a 29 21
  | _ => bitsOf a 20 12

/-- The size a leaf of a level maps (R215). -/
def leafSize (level : Nat) : Nat := match level with | 2 => 2 ^ 30 | 3 => 2 ^ 21 | _ => 2 ^ 12

/-- A leaf as the walk found it: the entry, its level and its physical address. -/
structure Leaf where
  entry : Nat
  level : Nat
  pa : Nat
deriving DecidableEq, Repr

/-- One table entry read through the coherent caches and checked as a data read of the core (R215). -/
def State.readEntry (s : State) (q : Requester) (pa : Nat) : Except Nat Nat × State :=
  match s.readMem q .read pa 8 with
  | (.data bs false, s) => (.ok (ofLe bs), s)
  | (.data _ true, s) => (.error Cause.poison, s)
  | (.unmapped, s) => (.error Cause.unmapped, s)
  | (.refused, s) => (.error Cause.ownership, s)

/-- An entry that R217 refuses at a level; the rest are a valid leaf or table entry. -/
def badEntry (e level : Nat) : Bool :=
  !bitOf e 0 || bitOf e 63 ||
    (if bitOf e 1 then level < 2 || 2 ≤ bitsOf e 11 10 || bitsOf e 51 12 * 4096 % leafSize level != 0
     else level == 4 || bitsOf e 11 2 != 0)

/-- Walk the levels of one stage from a table base. `toPa` takes a table address to a physical address. -/
def walk (q : Requester) (toPa : State → Nat → Except WalkFlt Nat × State) (stage a : Nat) :
    List Nat → State → Nat → Except WalkFlt Leaf × State
  | [], s, _ => (.error ⟨Cause.translate, stage, 4, false, false, none⟩, s)
  | l :: ls, s, base =>
    match toPa s (base + 8 * walkIndex a l stage) with
    | (.error e, s) => (.error e, s)
    | (.ok pa, s) =>
      match s.readEntry q pa with
      | (.error cause, s) => (.error ⟨cause, stage, l, true, false, none⟩, s)
      | (.ok e, s) =>
        if badEntry e l then (.error ⟨Cause.translate, stage, l, false, false, none⟩, s)
        else if bitOf e 1 then (.ok ⟨e, l, pa⟩, s)
        else walk q toPa stage a ls s (bitsOf e 51 12 * 4096)

/-- The output address of a leaf. -/
def Leaf.out (x : Leaf) (a : Nat) : Nat := bitsOf x.entry 51 12 * 4096 + a % leafSize x.level

/-- The stage-1 leaf admits the access (R218); `2 ^ 64` stands for a stage that is off. -/
def perm1 (leaf : Nat) (acc : KxAcc) (atA : Bool) : Bool :=
  leaf == 2 ^ 64 ||
    (let r := bitOf leaf 2; let w := bitOf leaf 3; let x := bitOf leaf 4; let kx := bitOf leaf 5; let u := bitOf leaf 6
     match acc with
     | .load => r && (u || !atA)
     | .store => w && (u || !atA)
     | .prefWrite => w && (u || !atA)
     | .fetch => if atA then x && u else kx && !u
     | .atomic => r && w && (u || !atA))

/-- The stage-2 leaf admits the access. -/
def perm2 (leaf : Nat) (acc : KxAcc) : Bool :=
  leaf == 2 ^ 64 ||
    (match acc with
     | .load => bitOf leaf 2
     | .store => bitOf leaf 3
     | .prefWrite => bitOf leaf 3
     | .fetch => bitOf leaf 4
     | .atomic => bitOf leaf 2 && bitOf leaf 3)

/-- Set af, and d for a store or atomic, in a leaf in memory (R219). -/
def State.touchLeaf (s : State) (q : Requester) (x : Leaf) (acc : KxAcc) : Except Nat Nat × State :=
  let e := x.entry ||| 2 ^ 8 ||| (if acc = .store || acc = .atomic then 2 ^ 9 else 0)
  if e = x.entry then (.ok e, s)
  else
    match s.writeMem q x.pa (leBytes 8 e) with
    | (.data _ _, s) => (.ok e, s)
    | (.unmapped, s) => (.error Cause.unmapped, s)
    | (.refused, s) => (.error Cause.ownership, s)

/-- Stage 2: a guest physical address to a physical address and the leaf (R215). The access is `acc`. -/
def State.stage2 (s : State) (c : Nat) (q : Requester) (acc : KxAcc) (gpa : Nat) :
    Except WalkFlt (Nat × Leaf) × State :=
  if 2 ^ 52 ≤ gpa then (.error ⟨Cause.translate, 1, 0, false, true, some gpa⟩, s)
  else
    match walk q (fun s a => (.ok a, s)) 1 gpa [0, 1, 2, 3, 4] s (bitsOf ((s.core c).cr 0x038) 51 12 * 4096) with
    | (.error e, s) => (.error { e with gpa := some gpa }, s)
    | (.ok x, s) =>
      if !perm2 x.entry acc then (.error ⟨Cause.perm, 1, x.level, false, false, some gpa⟩, s)
      else
        match s.touchLeaf q x acc with
        | (.error cause, s) => (.error ⟨cause, 1, x.level, true, false, some gpa⟩, s)
        | (.ok e, s) => (.ok (x.out gpa, { x with entry := e }), s)

/-- The tag under which a core's translations are cached (R220). -/
def Core.vmidTag (k : Core) : Option Nat := if k.guest then some (k.cr 0x039 % 65536) else none

/-- The cached translation of a virtual page, if one may be used for the access: it was made with the stages that are on now,
and a store needs its d bits set. -/
def Core.tlbFind (k : Core) (vpn : Nat) (acc : KxAcc) : Option TlbEntry :=
  k.tlb.find? fun t =>
    t.vpn == vpn && (t.leaf1 == 2 ^ 64) == (k.cr 0x030 % 2 == 0) &&
      (t.leaf2 == 2 ^ 64) == !(k.guest && bitOf (k.cr 0x030) 1) && t.vmid == k.vmidTag && (t.asid == none || t.asid == some (k.cr 0x033 % 65536)) &&
      ((acc != .store && acc != .atomic) ||
        ((t.leaf1 == 2 ^ 64 || bitOf t.leaf1 9) && (t.leaf2 == 2 ^ 64 || bitOf t.leaf2 9)))

/-- DRS, PCIe configuration and PCIe windows are device memory (R216). -/
def State.deviceRegion (s : State) (pa : Nat) : Bool :=
  match s.region pa with
  | .drs => true
  | .pcie _ => true
  | _ => false

/-- Translation is off for the core: at M, or with s1 off outside a guest (R216). -/
def Core.xlateOff (k : Core) : Bool := k.hard || (!k.guest && k.cr 0x030 % 2 == 0)

/-- A walk of both stages for a virtual address; the leaves are touched once both stages permit the access (R219). -/
def State.walkBoth (s : State) (c : Nat) (q : Requester) (acc : KxAcc) (va : Nat) :
    Except WalkFlt TlbEntry × State :=
  let k := s.core c
  let s1 := k.cr 0x030 % 2 == 1
  let s2 := k.guest && bitOf (k.cr 0x030) 1
  let toPa := fun (s : State) (a : Nat) =>
    if s2 then
      match s.stage2 c q .load a with
      | (.error e, s) => (.error e, s)
      | (.ok (pa, _), s) => (.ok pa, s)
    else ((.ok a : Except WalkFlt Nat), s)
  let first : Except WalkFlt (Nat × Option Leaf) × State :=
    if !s1 then (.ok (va, none), s)
    else
      match walk q toPa 0 va [0, 1, 2, 3, 4] s (bitsOf (k.cr (if bitOf va 55 then 0x032 else 0x031)) 51 12 * 4096) with
      | (.error e, s) => (.error e, s)
      | (.ok x, s) =>
        if !perm1 x.entry acc (k.level == 0) then (.error ⟨Cause.perm, 0, x.level, false, false, none⟩, s)
        else (.ok (x.out va, some x), s)
  match first with
  | (.error e, s) => (.error e, s)
  | (.ok (ipa, leaf), s) =>
    let second : Except WalkFlt (Nat × Nat × Bool) × State :=
      if !s2 then (.ok (ipa, 2 ^ 64, false), s)
      else match s.stage2 c q acc ipa with
        | (.error e, s) => (.error e, s)
        | (.ok (pa, x), s) => (.ok (pa, x.entry, bitOf x.entry 10), s)
    match second, leaf with
    | (.error e, s), _ => (.error e, s)
    | (.ok (pa, l2, dev2), s), none => (.ok ⟨va / 4096, 4096, none, k.vmidTag, 2 ^ 64, l2, pa / 4096, dev2⟩, s)
    | (.ok (pa, l2, dev2), s), some x =>
      match s.touchLeaf q x acc with
      | (.error cause, s) => (.error ⟨cause, 0, x.level, true, false, none⟩, s)
      | (.ok e, s) =>
        let asid := if bitOf e 7 then none else some (k.cr 0x033 % 65536)
        (.ok ⟨va / 4096, leafSize x.level, asid, k.vmidTag, e, l2, pa / 4096, bitOf e 10 || dev2⟩, s)

/-- Translate a virtual address for an access: the physical address and whether it is device memory. A cached translation whose
stage 2 refuses the access is walked again. -/
def State.translate (s : State) (c : Nat) (acc : KxAcc) (va : Nat) : Except WalkFlt (Nat × Bool) × State :=
  let k := s.core c
  let q := s.coreReq c
  if k.xlateOff then
    if 2 ^ 52 ≤ va then (.error ⟨Cause.translate, 0, 0, false, true, none⟩, s)
    else (.ok (va, s.deviceRegion va), s)
  else if k.cr 0x030 % 2 == 1 && bitsOf va 63 55 != 0 && bitsOf va 63 55 != 0x1FF then
    (.error ⟨Cause.translate, 0, 0, false, true, none⟩, s)
  else if k.cr 0x030 % 2 == 0 && 2 ^ 52 ≤ va then (.error ⟨Cause.translate, 0, 0, false, true, none⟩, s)
  else
    match (k.tlbFind (va / 4096) acc).filter fun t => !perm1 t.leaf1 acc (k.level == 0) || perm2 t.leaf2 acc with
    | some t =>
      if !perm1 t.leaf1 acc (k.level == 0) then
        (.error ⟨Cause.perm, 0, if t.leafSize = 2 ^ 30 then 2 else if t.leafSize = 2 ^ 21 then 3 else 4, false, false, none⟩, s)
      else
        let pa := t.page * 4096 + va % 4096
        (.ok (pa, t.device || s.deviceRegion pa), s)
    | none =>
      match s.walkBoth c q acc va with
      | (.error e, s) => (.error e, s)
      | (.ok t, s) =>
        let pa := t.page * 4096 + va % 4096
        (.ok (pa, t.device || s.deviceRegion pa),
          s.updCore c fun k => { k with tlb := t :: k.tlb.filter fun o => o.vpn != t.vpn || o.vmid != t.vmid || o.asid != t.asid })

/-- log2 of an access size. -/
def log2Size (n : Nat) : Nat := if n = 8 then 3 else if n = 4 then 2 else if n = 2 then 1 else 0

/-- The exception of a failed access (R213). -/
def accFlt (acc : KxAcc) (va size : Nat) (elem : Option Nat) (e : WalkFlt) : Flt :=
  { cause := e.cause, addr := va, gpa := if e.stage = 1 then e.gpa else none,
    toV := e.stage == 1 && (e.cause == Cause.translate || e.cause == Cause.perm),
    syn := acc.code + e.stage * 4 + e.level * 8 + log2Size size * 64 + b2n e.walk * 512 +
      (match elem with | some i => 1024 + i * 2048 | none => 0) + b2n e.noncanon * 2 ^ 18 }

/-- A checked access: its physical address and whether it is device memory. -/
structure KxRef where
  va : Nat
  pa : Nat
  device : Bool
deriving DecidableEq, Repr

/-- All checks of one access before its effect, in the order of R208 item 7. `noDev` is set for the accesses that R205 and
R258 keep from device memory. A line the core holds is not checked by the POT again (R134). Poison is checked for
accesses that read. -/
def State.kxCheck (s : State) (c : Nat) (acc : KxAcc) (noDev : Bool) (va size : Nat) (elem : Option Nat) :
    Except Flt KxRef × State :=
  let plain := fun (cause : Nat) => accFlt acc va size elem ⟨cause, 0, 0, false, false, none⟩
  if va % size != 0 then (.error (plain Cause.align), s)
  else
    match s.translate c acc va with
    | (.error e, s) => (.error (accFlt acc va size elem e), s)
    | (.ok (pa, dev), s) =>
      if dev && noDev then (.error (plain Cause.deviceUse), s)
      else if s.region pa = .unmapped then
        let q := s.coreReq c
        (.error (plain Cause.unmapped), (s.readMem q .read pa size).2)
      else
        let q := s.coreReq c
        let st := s.lstate c (pa / 64)
        let held := !dev && (if acc = .load || acc = .fetch then st != .i else st == .d || st == .x)
        let kinds : List Acc := match acc with
          | .load => [.read] | .store | .prefWrite => [.write] | .fetch => [.fetch] | .atomic => [.read, .write]
        match if held then none else kinds.find? (fun a => !(s.potCheck q a pa).ok) with
        | some a => (.error (plain Cause.ownership), s.refuse q a pa (s.potCheck q a pa))
        | none =>
          let reads := acc != .store
          let cut := (s.cutOff pa).isSome
          if reads && !dev && (cut || s.mem.anyPoison pa size) then
            let r := s.mkRec 2 0x40 Status.poisoned (coreStop c) pa c (coreStop c)
            (.error (plain Cause.poison), s.logError (coreHalf c) { r with hardpan := (s.core c).hard })
          else (.ok ⟨va, pa, dev⟩, s)

/-! ## Requests to the home (R282, R283) -/

/-- Core `c` has a request of one of the kinds at the home of a line. -/
def LineHome.asks (l : LineHome) (c : Nat) (kinds : List HomeKind) : Bool :=
  (l.queue.any fun r => r.core.val == c && kinds.contains r.kind) ||
    (match l.txn with | some t => t.req.core.val == c && kinds.contains t.req.kind && !t.ackMsg | none => false)

/-- So has it, or keeps one in the mesh for the home's queue. -/
def State.asks (s : State) (c line : Nat) (kinds : List HomeKind) : Bool :=
  (s.lineHome line).asks c kinds || s.coh.mesh.any fun m => m.1 == line && m.2.core.val == c && kinds.contains m.2.kind

/-- How many requests wait in the queue of the slice that homes a line (R284). -/
def State.homeWaiting (s : State) (sl : Nat) : Nat :=
  (s.coh.lines.filter fun e => !e.2.queue.isEmpty && s.homeSlice (e.1 * 64) 0 == sl).foldl (fun n e => n + e.2.queue.length) 0

/-- A request is sent to the home of a line: into its slice's queue of 256, or, while that is full, it waits in the mesh
(R284). -/
def State.sendHome (s : State) (line : Nat) (r : HomeReq) : State :=
  let sl := s.homeSlice (line * 64) 0
  if s.homeWaiting sl < 256 && !s.coh.mesh.any (fun m => s.homeSlice (m.1 * 64) 0 == sl) then
    s.updLine line fun l => { l with queue := l.queue ++ [r] }
  else { s with coh := { s.coh with mesh := s.coh.mesh ++ [(line, r)] } }

/-- The requests of a core that its homes have not answered in full: each takes a miss buffer (R224). -/
def State.missesOf (s : State) (c : Nat) : List HomeReq :=
  (s.coh.lines.flatMap fun e => e.2.queue ++ (match e.2.txn with | some t => if t.ackMsg then [] else [t.req] | none => [])
    |>.filter fun r => r.core.val == c) ++ (s.coh.mesh.map Prod.snd).filter fun r => r.core.val == c

/-- A miss buffer is free: 32 at L2, of which L1D uses 16 (R224). -/
def State.missRoom (s : State) (c : Nat) (inst : Bool) : Bool :=
  let ms := s.missesOf c
  ms.length < 32 && (inst || (ms.filter fun r => !r.inst).length < 16)

/-- A line that the core's L2 holds is filled into its L1I or L1D, of 64 sets and 16 ways (R277). -/
def State.fillL1 (s : State) (c : Nat) (inst : Bool) (line : Nat) : State :=
  let ls := SMap.get [] (if inst then s.coh.l1i else s.coh.l1d) c
  if ls.contains line then s
  else
    let set := ls.filter (· % 64 == line % 64)
    let kept := roomIn 16 s.coh.fills set
    let ls := line :: ls.filter fun l => l % 64 != line % 64 || kept.contains l
    let coh := { s.coh with fills := s.coh.fills + 1 }
    { s with coh := if inst then { coh with l1i := SMap.set [] coh.l1i c ls } else { coh with l1d := SMap.set [] coh.l1d c ls } }

/-- A load or fetch finds its line in L2, or asks its home for it when a miss buffer is free; in clay mode the caches are
bypassed (R240). -/
def State.askShared (s : State) (c : CoreId) (inst : Bool) (line : Nat) : State :=
  if (s.core c.val).clay then s
  else if s.lstate c.val line != .i then s.fillL1 c.val inst line
  else if s.asks c.val line [.readShared, .readOwn] || !s.missRoom c.val inst then s
  else s.sendHome line ⟨.readShared, c, inst⟩

/-- A store or atomic asks for ownership of a line that the core does not hold in D or X. -/
def State.askOwn (s : State) (c : CoreId) (line : Nat) : State :=
  let st := s.lstate c.val line
  if st == .d || st == .x || s.asks c.val line [.readOwn, .upgrade] || !s.missRoom c.val false then s
  else s.sendHome line ⟨if st == .i then .readOwn else .upgrade, c, false⟩

/-! ## The frame of one instruction -/

/-- A Knaxa instruction's meaning once its word is legal and its level is enough. -/
abbrev KxBody := Nat → IWord → State → State

/-- Invasive debug is enabled for the world a core runs in (R146). -/
def State.debugInv (s : State) (c : Nat) : Bool :=
  s.sys.mode != .seal &&
    s.rb (if (s.core c).hard then Reg.HPN_DEBUG.h_inv else Reg.HPN_DEBUG.t_inv) (coreHalf c)

/-- Count a retired instruction: INSTRET, and clay mode's accounts (R242). -/
def State.countRetired (s : State) (c charge : Nat) (vas : List Nat) : State :=
  s.updCore c fun k => (k.setCr 0x051 (k.cr 0x051 + 1)).clayAccount charge k.pc.toNat vas

/-- After an instruction, a step or a watchpoint of the debug agent raises DEBUG with the next instruction saved (R207,
R208). The spec gives a step no faulting address: it is a free value. -/
def State.debugAfter (s : State) (c : Nat) (next : Word) (vas : List Nat) : State :=
  let k := s.core c
  if (k.stepArmed || !k.watchpoints.isEmpty) && s.debugInv c then
    match vas.find? fun a => k.watchpoints.contains a with
    | some a => s.takeExc c { simpleFlt Cause.debug 0 with addr := a } next 0 0
    | none =>
      if k.stepArmed then
        let (v, s) := s.drawFree
        (s.updCore c fun k => { k with stepArmed := false }).takeExc c { simpleFlt Cause.debug 0 with addr := v } next 0 0
      else s
  else s

/-- Retire the instruction: it counts, pc moves to `next`, and the debug agent may act. -/
def State.retireTo (s : State) (c : Nat) (next : Word) (charge : Nat) (vas : List Nat) : State :=
  ((s.countRetired c charge vas).updCore c fun k => { k with pc := next, wait := .none }).debugAfter c next vas

def State.retire (s : State) (c : Nat) (charge : Nat) (vas : List Nat) : State :=
  s.retireTo c ((s.core c).pc + 4) charge vas

/-- An instruction breakpoint of the debug agent stands at pc (R208 item 3). -/
def State.atBreakpoint (s : State) (c : Nat) : Bool :=
  (s.core c).breakpoints.contains (s.core c).pc.toNat && s.debugInv c

/-- Clay mode's fetch buffer takes the line of a fetch (R240). -/
def State.bufferLine (s : State) (c va line : Nat) : State :=
  let gen := max 1 (SMap.get 0 s.coh.fetchGen line)
  { s with coh := { s.coh with fetchGen := SMap.set 0 s.coh.fetchGen line gen } }.updCore c
    fun k => { k with fetchBuf := some (va / 64, line, gen) }

/-- Clay mode's fetch buffer holds the line of `va`, which no store has reached since it was read (R240). -/
def State.buffered (s : State) (c va : Nat) : Bool :=
  match (s.core c).fetchBuf with
  | some (v, line, gen) => (s.core c).clay && v == va / 64 && SMap.get 0 s.coh.fetchGen line == gen
  | none => false

/-- The fetch of the instruction at pc (R208 item 4); a fetch that misses asks the home for its line, and in clay mode it reads
the line into the fetch buffer (R240). -/
def State.kxFetch (s : State) (c : Nat) : Except Flt Unit × State :=
  let va := (s.core c).pc.toNat
  if s.atBreakpoint c then (.error { simpleFlt Cause.debug 0 with addr := va }, s)
  else if va % 4 != 0 then (.error ⟨Cause.pcAlign, 0, va, none, false⟩, s)
  else if s.buffered c va then (.ok (), s)
  else
    match s.kxCheck c .fetch false va 4 none with
    | (.error f, s) => (.error f, s)
    | (.ok r, s) =>
      (.ok (), if r.device then s
        else if (s.core c).clay then s.bufferLine c va (r.pa / 64)
        else s.askShared (coreOf c) true (r.pa / 64))

/-- The core takes instructions now. -/
def Core.ready (k : Core) : Bool := k.run == .running && k.wait == .none && !k.debugHalt

end Sys2Proof.Machine
end

