-- ==== Sys2Proof/Machine/KnxDecode.lean ====
section
/-!
DEFINITION. KnxDecode: which Knaxa instruction a word is (R193 to R199, R253, R256, R264), and which words break the
constraints stated for their instruction (R194).
-/
namespace Sys2Proof.Machine

/-- The Knaxa instructions. -/
inductive KxOp where
  | add | sub | and | or | xor | andn | sll | srl | sra
  | ror | slt | sltu | min | max | minu | maxu | clz | ctz
  | popc | bswap | mul | mulh | mulhu | div | divu | rem | remu
  | addi | andi | ori | xori | shi | movz | movk | ld | lw
  | lws | lh | lhs | lb | lbs | sd | sw | sh | sb
  | pref | bcc | bzcc | j | jl | jr | jlr | amoadd | amoswap
  | amoand | amoor | amoxor | amosmin | amosmax | amoumin | amoumax | cas | crr
  | cwr | svc | hvc | brk | hpcall | eret | fence | fenceAck | isync
  | rdstrata | tlbi | wfiDoze | wfiSlumber | vadd | vsub | vmul | vmulh | vmulhu
  | vmin | vmax | vminu | vmaxu | vabs | vneg | vand | vor | vxor
  | vandn | vsll | vsrl | vsra | vror | vcmpeq | vcmpne | vcmplt | vcmpltu
  | vcmple | vcmpleu | vsel | vperm | vbcast | vins | vext | vradd | vrmin
  | vrmax | vrand | vrorReduction | vrxor | pand | por | pxor | pnot | prange
  | pcount | pfind | fftop | ptoff | vld | vlds | pld | vst | vsts
  | pst | vgather | vscatter | vldff | vgatherff | vadc | vsbb | vcshl | vmulw
  | vmont | vredm
deriving DecidableEq, Repr

/-- The `i`-th operation of a group, if the group lists it. -/
def nthOp (l : List KxOp) (i : Nat) : Option KxOp := l[i]?

/-- The instruction a word names by its major opcode and function fields; none for an unlisted one (R195). -/
def kxOp (w : IWord) : Option KxOp :=
  let fn11 := ifld w 10 0
  let fn4 := ifld w 3 0
  let fnS := ifld w 15 12
  let x := ifld w 11 0
  match ifld w 31 26 with
  | 0x01 => nthOp [.add, .sub, .and, .or, .xor, .andn, .sll, .srl, .sra, .ror, .slt, .sltu, .min, .max, .minu, .maxu, .clz, .ctz, .popc, .bswap] fn11
  | 0x02 => nthOp [.mul, .mulh, .mulhu, .div, .divu, .rem, .remu] fn11
  | 0x03 => some .addi | 0x04 => some .andi | 0x05 => some .ori | 0x06 => some .xori
  | 0x07 => some .shi | 0x08 => some .movz | 0x09 => some .movk
  | 0x0A => some .ld | 0x0B => some .lw | 0x0C => some .lws | 0x0D => some .lh | 0x0E => some .lhs
  | 0x0F => some .lb | 0x10 => some .lbs
  | 0x11 => some .sd | 0x12 => some .sw | 0x13 => some .sh | 0x14 => some .sb
  | 0x15 => nthOp [.amoadd, .amoswap, .amoand, .amoor, .amoxor, .amosmin, .amosmax, .amoumin, .amoumax, .cas] fn4
  | 0x16 => some .pref
  | 0x18 => some .bcc
  | 0x19 => if ifld w 25 23 ≤ 5 then some .bzcc else none
  | 0x1A => some .j | 0x1B => some .jl
  | 0x1C => some (if ifld w 25 25 = 1 then .jlr else .jr)
  | 0x1E => nthOp [.crr, .cwr] fnS
  | 0x1F =>
    match fnS with
    | 0x0 => some .svc | 0x1 => some .hvc | 0x2 => some .brk | 0x3 => some .hpcall | 0x4 => some .eret
    | 0x5 => if x = 0 then some .fence else if x = 1 then some .fenceAck else none
    | 0x6 => some .isync | 0x7 => some .rdstrata | 0x8 => some .tlbi
    | 0x9 => if x = 0 then some .wfiDoze else if x = 1 then some .wfiSlumber else none
    | _ => none
  | 0x20 => nthOp [.vadd, .vsub, .vmul, .vmulh, .vmulhu, .vmin, .vmax, .vminu, .vmaxu, .vabs, .vneg] fn4
  | 0x21 => nthOp [.vand, .vor, .vxor, .vandn, .vsll, .vsrl, .vsra, .vror] fn4
  | 0x22 => nthOp [.vcmpeq, .vcmpne, .vcmplt, .vcmpltu, .vcmple, .vcmpleu] fn4
  | 0x23 => nthOp [.vsel, .vperm, .vbcast, .vins, .vext] fn4
  | 0x24 => nthOp [.vradd, .vrmin, .vrmax, .vrand, .vrorReduction, .vrxor] fn4
  | 0x25 => nthOp [.pand, .por, .pxor, .pnot, .prange, .pcount, .pfind, .fftop, .ptoff] fn4
  | 0x28 => nthOp [.vld, .vlds, .pld] fn4
  | 0x29 => nthOp [.vst, .vsts, .pst] fn4
  | 0x2A => nthOp [.vgather] fn4
  | 0x2B => nthOp [.vscatter] fn4
  | 0x2C => nthOp [.vldff] fn4
  | 0x2D => nthOp [.vgatherff] fn4
  | 0x30 => nthOp [.vadc, .vsbb, .vcshl] fn4
  | 0x31 => nthOp [.vmulw, .vmont, .vredm] fn4
  | _ => none

/-! ## Fields -/

def rdOf (w : IWord) : Nat := ifld w 25 21
def raOf (w : IWord) : Nat := ifld w 20 16
def rbOf (w : IWord) : Nat := ifld w 15 11
/-- The group factor of gf (R249); gf 3 is ILLEGAL. -/
def gfOf (w : IWord) : Nat := 2 ^ ifld w 7 6
/-- The element size of esz (R250). -/
def eszOf (w : IWord) : Nat := 2 ^ ifld w 5 4
def pgOf (w : IWord) : Nat := ifld w 10 8

/-- The field names a vector group: a multiple of f (R249). -/
def vOk (f r : Nat) : Bool := r % f == 0
/-- The field names a predicate group (R251). -/
def pOk (f r : Nat) : Bool := r < 8 && r % f == 0

/-- Registers `a` to `a + n - 1` and `b` to `b + m - 1` are disjoint. -/
def disjointRegs (a n b m : Nat) : Bool := a + n ≤ b || b + m ≤ a

/-- The word breaks a constraint of its instruction's row: a zero field, an unused field, or a register constraint (R194). -/
def kxMalformed (op : KxOp) (w : IWord) : Bool :=
  let rd := rdOf w
  let ra := raOf w
  let rb := rbOf w
  let f := gfOf w
  let pg := pgOf w
  let esz := ifld w 5 4
  let x := ifld w 11 0
  let sane := ifld w 7 6 != 3
  let arith3 := sane && vOk f rd && vOk f ra && vOk f rb && vOk f pg
  w.toNat == 0 ||
  !(match op with
    | .clz | .ctz | .popc | .bswap => rb == 0
    | .shi => ifld w 15 8 == 0
    | .movz | .movk => ifld w 18 16 == 0
    | .pref => rd ≤ 1
    | .jr | .jlr => ifld w 24 21 == 0 && ifld w 15 0 == 0
    | .amoadd | .amoswap | .amoand | .amoor | .amoxor | .amosmin | .amosmax | .amoumin | .amoumax | .cas => ifld w 8 4 == 0
    | .crr => ra == 0
    | .cwr => rd == 0
    | .svc | .hvc | .brk | .fence | .fenceAck | .wfiDoze | .wfiSlumber => rd == 0 && ra == 0
    | .hpcall | .isync => rd == 0 && ra == 0 && x == 0
    | .eret => rd == 0 && ra == 0 && ifld w 11 4 == 0
    | .rdstrata => ra == 0 && x == 0 && rd % 2 == 0 && 2 ≤ rd && rd ≤ 30
    | .tlbi => rd == 0 && ifld w 11 2 == 0
    | .vadd | .vsub | .vmul | .vmulh | .vmulhu | .vmin | .vmax | .vminu | .vmaxu => arith3
    | .vabs | .vneg => arith3 && rb == 0
    | .vand | .vor | .vxor | .vandn | .vsll | .vsrl | .vsra | .vror => arith3
    | .vcmpeq | .vcmpne | .vcmplt | .vcmpltu | .vcmple | .vcmpleu => arith3 && pOk f rd
    | .vsel | .vperm => arith3
    | .vbcast => sane && vOk f rd && rb == 0 && vOk f pg
    | .vins => sane && vOk f rd && vOk f pg
    | .vext => sane && vOk f ra && pg == 0
    | .vradd | .vrmin | .vrmax | .vrand | .vrorReduction | .vrxor => sane && vOk f ra && rb == 0 && vOk f pg
    | .pand | .por | .pxor => sane && pOk f rd && pOk f ra && pOk f rb && vOk f pg && esz == 0
    | .pnot => sane && pOk f rd && pOk f ra && rb == 0 && vOk f pg && esz == 0
    | .prange => sane && pOk f rd && pg == 0
    | .pcount | .pfind => sane && pOk f ra && rb == 0 && vOk f pg
    | .fftop => sane && pOk f rd && ra == 0 && rb == 0 && vOk f pg
    | .ptoff => sane && pOk f ra && rd == 0 && rb == 0 && pg == 0
    | .vld | .vlds | .vst | .vsts | .vldff => sane && vOk f rd && vOk f pg
    | .pld | .pst => sane && pOk f rd && esz == 0 && pg == 0
    | .vgather | .vscatter | .vgatherff => sane && vOk f rd && vOk f rb && vOk f pg && 2 ≤ esz
    | .vadc | .vsbb => sane && esz == 3 && vOk f rd && vOk f ra && vOk f rb
    | .vcshl => sane && esz == 3 && vOk f rd && vOk f ra && rb == 0
    | .vmulw => sane && esz == 3 && vOk (2 * f) rd && vOk f ra && vOk f rb && pg == 0
    | .vmont => sane && esz == 3 && vOk f rd && vOk f ra && vOk f rb && rd + f ≤ 31 && rb + f ≤ 31
        && disjointRegs rd (f + 1) ra f && disjointRegs rd (f + 1) rb (f + 1)
    | .vredm => sane && esz == 3 && vOk f rd && vOk f rb && ra == 0
    | _ => true)

/-- The lowest level of an instruction (R198); control registers and RDSTRATA have their own rules. -/
def kxLevel : KxOp → Nat
  | .hvc | .hpcall | .eret | .tlbi | .wfiDoze | .wfiSlumber => 1
  | _ => 0

/-- Run one instruction: the core must be ready; the fetch is checked; a word that names no instruction, or breaks its
constraints, raises ILLEGAL; a level below the lowest raises PRIV, after the ILLEGAL of an ERET without a frame (R208), and a guest's TLBI of kind 3 to V
(R210); then the body. A word that names another instruction
than the command's is not that command: it has no effect (log entry 7). -/
def kxInstr (op : KxOp) (body : KxBody) (c : CoreId) (w : IWord) (s : State) : State :=
  let k := s.core c.val
  if !k.ready || (kxOp w != some op && (kxOp w).isSome) then s
  else
    match s.kxFetch c.val with
    | (.error f, s) => s.fault c.val f
    | (.ok _, s) =>
      if (kxOp w).isNone || kxMalformed op w then s.illegal c.val w
      else if k.level < kxLevel op then
        if op = .eret && k.frames.isEmpty then s.illegal c.val w
        else s.privFault c.val w (op = .tlbi && k.guest && ifld w 1 0 = 3)
      else body c.val w s

end Sys2Proof.Machine
end

