-- ==== Sys2Proof/Machine/Operands.lean ====
section
/-!
DEFINITION. Operands: the operand forms shared by the Knaxa and Silt instructions: shift and rotate amounts, signed
comparisons, sign extension, counts of bits, and reading a Knaxa instruction's operand registers.
-/
namespace Sys2Proof.Machine

/-- Rotate a 64-bit word right. -/
def rotr64 (a : Word) (n : Nat) : Word := a.rotateRight (n % 64)

/-- How many zero bits lead a word of `n` bits, counted from bit `n - 1` down. -/
def clzN : Nat → Nat → Nat
  | 0, _ => 0
  | n + 1, v => if v.testBit n then 0 else 1 + clzN n v

/-- How many zero bits trail, counted from bit `i` up, of `n` bits. -/
def ctzN : Nat → Nat → Nat → Nat
  | 0, _, _ => 0
  | n + 1, i, v => if v.testBit i then 0 else 1 + ctzN n (i + 1) v

/-- How many bits are 1 among the low `n`. -/
def popN : Nat → Nat → Nat
  | 0, _ => 0
  | n + 1, v => b2n (v.testBit n) + popN n v

def clz64 (a : Word) : Word := w64 (clzN 64 a.toNat)
def ctz64 (a : Word) : Word := w64 (ctzN 64 0 a.toNat)
def popc64 (a : Word) : Word := w64 (popN 64 a.toNat)
def bswap64 (a : Word) : Word := w64 (ofBe (leBytes 8 a.toNat))

/-- The shift that a 2-bit kind names: SLL, SRL, SRA, ROR. -/
def shiftOp (kind : Nat) (a : Word) (n : Nat) : Word :=
  match kind with
  | 0 => a <<< (n % 64)
  | 1 => a >>> (n % 64)
  | 2 => a.sshiftRight (n % 64)
  | _ => rotr64 a n

def sltW (a b : Word) : Word := if a.toInt < b.toInt then 1 else 0
def sltuW (a b : Word) : Word := if a.toNat < b.toNat then 1 else 0

/-- The high 64 bits of the unsigned product. -/
def mulhuW (a b : Word) : Word := w64 (a.toNat * b.toNat / 2 ^ 64)
/-- The high 64 bits of the signed product. -/
def mulhW (a b : Word) : Word := wInt (a.toInt * b.toInt / 2 ^ 64)

/-- Replace 16-bit field `pos`. -/
def movkW (a : Word) (pos imm : Nat) : Word :=
  w64 (a.toNat - bitsOf a.toNat (16 * pos + 15) (16 * pos) * 2 ^ (16 * pos) + imm * 2 ^ (16 * pos))

/-- A loaded value of `n` bytes, extended to 64 bits. -/
def extendLoad (sign : Bool) (n v : Nat) : Word := if sign then wInt (sext (8 * n) v) else w64 v

/-- imm16 sign-extended (R193). -/
def immS (w : IWord) : Int := sext 16 (ifld w 15 0)
def immZ (w : IWord) : Nat := ifld w 15 0

def Core.ra (k : Core) (w : IWord) : Word := k.rg (raOf w)
def Core.rb (k : Core) (w : IWord) : Word := k.rg (rbOf w)
def Core.rd (k : Core) (w : IWord) : Word := k.rg (rdOf w)

/-- The address ra + sext(imm16) (R196). -/
def Core.ea (k : Core) (w : IWord) : Nat := (k.ra w + wInt (immS w)).toNat

end Sys2Proof.Machine
end

