-- ==== Sys2Proof/Machine/Flags.lean ====
section
/-!
DEFINITION. Flags: the carry and borrow that an addition or subtraction of `n` bits gives, for the Silt engine's cf (R47) and
the Knaxa carry predicate (R264). The Knaxa core has no other condition flags.
-/
namespace Sys2Proof.Machine

/-- The sum of `n`-bit numbers with a carry in: the low `n` bits and the carry out. -/
def addCarry (n a b c : Nat) : Nat × Bool := ((a + b + c) % 2 ^ n, 2 ^ n ≤ a + b + c)

/-- The difference of `n`-bit numbers with a borrow in: the low `n` bits and the borrow out. -/
def subBorrow (n a b c : Nat) : Nat × Bool := ((a + 2 ^ n + 2 ^ n - b - c) % 2 ^ n, a < b + c)

/-- Write a carry predicate: bit 0 holds the carry, the other bits 0 (R264). -/
def Core.setCarry (k : Core) (pg : Nat) (c : Bool) : Core := k.setp pg (BitVec.ofNat 32 (b2n c))

/-- The carry in of a carry predicate: its bit 0 (R264). -/
def Core.carry (k : Core) (pg : Nat) : Nat := (k.rp pg).toNat % 2

end Sys2Proof.Machine
end

