-- ==== Sys2Proof/Machine/KnxPredict.lean ====
section
/-!
DEFINITION. KnxPredict: the branch predictor of a Knaxa core (R228 to R232). It changes no architectural state but its own: a
wrong prediction costs time alone (log entry 17). Instructions run one at a time, so that each prediction is made with the
tables as all older instructions have left them (log entry 251).
-/
namespace Sys2Proof.Machine

/-- The realm of the code a core runs (R229). -/
def Core.realm (k : Core) : Nat := if k.hard then 2 else if k.level = 0 then 0 else 1

/-- Prediction is off for the running realm (R231). -/
def Core.predOff (k : Core) : Bool := k.clay || bitOf (k.cr 0x101) k.realm

/-! ## Directions (R228) -/

/-- The history length of a tagged table, and the bits of its tag. -/
def histLength (t : Nat) : Nat := [0, 4, 9, 20, 43, 95, 210, 464, 1024].getD t 0
def tagBits (t : Nat) : Nat := [0, 8, 8, 9, 9, 10, 10, 11, 12].getD t 0

/-- The place of a branch in the base partition of a realm, of 8,192 counters. -/
def baseSlot (realm pc : Nat) : Nat := realm * 8192 + Config.predIndex 0 pc [] % 8192

/-- Its place in tagged table `t` of 2,048 entries, and its tag there. -/
def Pred.slot (p : Pred) (t pc : Nat) : Nat :=
  (t - 1) * 2048 + Config.predIndex t pc (p.hist.take (histLength t)) % 2048
def Pred.tag (p : Pred) (t pc : Nat) : Nat := Config.predTag t pc (p.hist.take (histLength t)) % 2 ^ tagBits t

/-- The entry of tagged table `t` that matches a branch in a realm. -/
def Pred.matching (p : Pred) (realm t pc : Nat) : Option PredEntry :=
  (SMap.get none p.tagged (p.slot t pc)).filter fun e => e.tag == p.tag t pc && e.realm == realm

/-- The table that supplies the prediction: the longest history whose tag matches, else the base table, 0. -/
def Pred.supplier (p : Pred) (realm pc : Nat) : Nat :=
  ([8, 7, 6, 5, 4, 3, 2, 1].find? fun t => (p.matching realm t pc).isSome).getD 0

/-- The counter that supplies it. -/
def Pred.counter (p : Pred) (realm pc : Nat) : Nat :=
  let t := p.supplier realm pc
  if t = 0 then SMap.get 0 p.base (baseSlot realm pc)
  else match p.matching realm t pc with | some e => e.ctr | none => 0

/-- A 2-bit counter predicts taken from 2 on. -/
def Pred.predicts (p : Pred) (realm pc : Nat) : Bool := decide (2 ≤ p.counter realm pc)

/-- A counter moves one step towards the outcome. -/
def ctrStep (n : Nat) (taken : Bool) : Nat := if taken then min 3 (n + 1) else n - 1

/-- A retired conditional branch trains the counter that predicted it, and a misprediction allocates an entry in the next longer
table (R230); a new entry predicts the outcome weakly. -/
def Pred.trainDirection (p : Pred) (realm pc : Nat) (taken : Bool) : Pred :=
  let t := p.supplier realm pc
  let n := ctrStep (p.counter realm pc) taken
  let wrong := p.predicts realm pc != taken
  let q :=
    if t = 0 then { p with base := SMap.set 0 p.base (baseSlot realm pc) n }
    else { p with tagged := SMap.set none p.tagged (p.slot t pc) (some ⟨p.tag t pc, realm, n⟩) }
  if wrong && t < 8 then
    { q with tagged := SMap.set none q.tagged (p.slot (t + 1) pc) (some ⟨p.tag (t + 1) pc, realm, if taken then 2 else 1⟩) }
  else q

/-- The global history takes a branch: the outcome of a conditional one, and two address bits of each that is taken. Tables look
at 1,024 branches at most. -/
def Pred.record (p : Pred) (pc : Nat) (conditional taken : Bool) : Pred :=
  let x := b2n (conditional && taken) + (if taken then 2 * (Config.historyBits pc % 4) else 0)
  { p with hist := (x :: p.hist).take 1024 }

/-! ## Targets (R229) -/

/-- The branch target buffer of 8,192 entries learns a target. -/
def Pred.trainBtb (p : Pred) (realm pc target : Nat) : Pred :=
  { p with btb := SMap.set none p.btb (Config.btbIndex pc % 8192) (some ⟨pc, realm, target⟩) }

/-- Where a jump's target comes from: its predicted target, none where no entry of the realm matches. -/
def Pred.btbTarget (p : Pred) (realm pc : Nat) : Option Nat :=
  ((SMap.get none p.btb (Config.btbIndex pc % 8192)).filter fun e => e.pc == pc && e.realm == realm).map (·.target)

/-- The place of an indirect jump in the indirect target table of 4,096 entries. -/
def Pred.indirectSlot (p : Pred) (pc : Nat) : Nat := Config.indirectIndex pc p.targets % 4096

def Pred.indirectTarget (p : Pred) (realm pc : Nat) : Option Nat :=
  ((SMap.get none p.indirect (p.indirectSlot pc)).filter fun e => e.realm == realm).map (·.target)

/-- The indirect target table learns a target, which joins the last 16. -/
def Pred.trainIndirect (p : Pred) (realm pc target : Nat) : Pred :=
  { p with indirect := SMap.set none p.indirect (p.indirectSlot pc) (some ⟨pc, realm, target⟩),
           targets := (target :: p.targets).take 16 }

/-- A call pushes its return address on the return stack of 32 entries. -/
def Pred.push (p : Pred) (realm addr : Nat) : Pred := { p with returns := ((realm, addr) :: p.returns).take 32 }

/-- A return's predicted target: the top of the stack, or the branch target buffer's when that entry is of another realm. -/
def Pred.returnTarget (p : Pred) (realm pc : Nat) : Option Nat :=
  match p.returns with
  | (r, a) :: _ => if r = realm then some a else p.btbTarget realm pc
  | [] => p.btbTarget realm pc

/-- The kinds of transfer that the predictor tells apart: a conditional branch, J or JL, and JR or JLR through a register. -/
inductive Transfer where
  | conditional (taken : Bool)
  | direct (link : Bool)
  | register (link : Bool) (ra : Nat)
deriving DecidableEq, Repr

/-- The transfer leaves the sequence. -/
def Transfer.taken : Transfer → Bool
  | .conditional t => t
  | _ => true

/-- What the predictor gives a transfer's target as, in a realm; an untaken prediction gives none. -/
def Pred.target (p : Pred) (realm pc : Nat) : Transfer → Option Nat
  | .conditional _ => if p.predicts realm pc then p.btbTarget realm pc else none
  | .direct _ => p.btbTarget realm pc
  | .register link ra =>
    if ra != 31 then p.indirectTarget realm pc else if link then none else p.returnTarget realm pc

/-- What a retired transfer from `pc` to `next` leaves in the predictor (R230). A return pops the stack, whosever entry that was,
and teaches the branch target buffer, which predicts it when that entry is skipped. -/
def Pred.retire (p : Pred) (realm pc next : Nat) (x : Transfer) : Pred :=
  let p := match x with
    | .conditional taken =>
      let p := p.trainDirection realm pc taken
      if taken then p.trainBtb realm pc next else p
    | .direct link =>
      let p := p.trainBtb realm pc next
      if link then p.push realm (pc + 4) else p
    | .register link ra =>
      let p := if ra != 31 then p.trainIndirect realm pc next
        else if link then p else { p.trainBtb realm pc next with returns := p.returns.drop 1 }
      if link then p.push realm (pc + 4) else p
  p.record pc (match x with | .conditional _ => true | _ => false) x.taken

/-- A core's predictor takes a retired transfer, unless prediction is off (R231). -/
def Core.trained (k : Core) (next : Nat) (x : Transfer) : Core :=
  if k.predOff then k else { k with pred := k.pred.retire k.realm k.pc.toNat next x }

/-! ## Flushes (R232) -/

/-- Clear the entries of realms, those of the return stack among them, and the speculative history. -/
def Pred.flush (p : Pred) (rs : List Nat) : Pred :=
  let out := fun (e : Option TargetEntry) => e.any fun e => rs.contains e.realm
  { base := p.base.filter fun e => !rs.contains (e.1 / 8192)
    tagged := p.tagged.filter fun e => !(e.2.any fun e => rs.contains e.realm)
    btb := p.btb.filter fun e => !out e.2
    indirect := p.indirect.filter fun e => !out e.2
    returns := p.returns.filter fun e => !rs.contains e.1
    hist := []
    targets := [] }

def Core.flushRealms (k : Core) (rs : List Nat) : Core := { k with pred := k.pred.flush rs }

end Sys2Proof.Machine
end

