-- ==== Sys2Proof/Machine/KnxScalar.lean ====
section
/-!
DEFINITION. KnxScalar: the scalar Knaxa instructions but for the loads and stores (R196, R197).
-/
namespace Sys2Proof.Machine

/-- rd ← f(ra, rb); clay charge `n`. -/
def kxAlu (n : Nat) (f : Word → Word → Word) : KxBody := fun c w s =>
  let k := s.core c
  (s.setCore c (k.setg (rdOf w) (f (k.ra w) (k.rb w)))).retire c n []

/-- rd ← f(ra, w): the immediate forms. -/
def kxImm (f : Word → IWord → Word) : KxBody := fun c w s =>
  let k := s.core c
  (s.setCore c (k.setg (rdOf w) (f (k.ra w) w))).retire c 1 []

def kxAddBody : KxBody := kxAlu 1 fun a b => a + b
def execKxAdd (c : CoreId) (w : IWord) (s : State) : Out3 := .next (kxInstr .add kxAddBody c w s)
def kxSubBody : KxBody := kxAlu 1 fun a b => a - b
def execKxSub (c : CoreId) (w : IWord) (s : State) : Out3 := .next (kxInstr .sub kxSubBody c w s)
def kxAndBody : KxBody := kxAlu 1 fun a b => a &&& b
def execKxAnd (c : CoreId) (w : IWord) (s : State) : Out3 := .next (kxInstr .and kxAndBody c w s)
def kxOrBody : KxBody := kxAlu 1 fun a b => a ||| b
def execKxOr (c : CoreId) (w : IWord) (s : State) : Out3 := .next (kxInstr .or kxOrBody c w s)
def kxXorBody : KxBody := kxAlu 1 fun a b => a ^^^ b
def execKxXor (c : CoreId) (w : IWord) (s : State) : Out3 := .next (kxInstr .xor kxXorBody c w s)
def kxAndnBody : KxBody := kxAlu 1 fun a b => a &&& ~~~b
def execKxAndn (c : CoreId) (w : IWord) (s : State) : Out3 := .next (kxInstr .andn kxAndnBody c w s)
def kxSllBody : KxBody := kxAlu 1 fun a b => shiftOp 0 a (b.toNat % 64)
def execKxSll (c : CoreId) (w : IWord) (s : State) : Out3 := .next (kxInstr .sll kxSllBody c w s)
def kxSrlBody : KxBody := kxAlu 1 fun a b => shiftOp 1 a (b.toNat % 64)
def execKxSrl (c : CoreId) (w : IWord) (s : State) : Out3 := .next (kxInstr .srl kxSrlBody c w s)
def kxSraBody : KxBody := kxAlu 1 fun a b => shiftOp 2 a (b.toNat % 64)
def execKxSra (c : CoreId) (w : IWord) (s : State) : Out3 := .next (kxInstr .sra kxSraBody c w s)
def kxRorBody : KxBody := kxAlu 1 fun a b => shiftOp 3 a (b.toNat % 64)
def execKxRor (c : CoreId) (w : IWord) (s : State) : Out3 := .next (kxInstr .ror kxRorBody c w s)
def kxSltBody : KxBody := kxAlu 1 fun a b => sltW a b
def execKxSlt (c : CoreId) (w : IWord) (s : State) : Out3 := .next (kxInstr .slt kxSltBody c w s)
def kxSltuBody : KxBody := kxAlu 1 fun a b => sltuW a b
def execKxSltu (c : CoreId) (w : IWord) (s : State) : Out3 := .next (kxInstr .sltu kxSltuBody c w s)
def kxMinBody : KxBody := kxAlu 1 fun a b => if a.toInt ≤ b.toInt then a else b
def execKxMin (c : CoreId) (w : IWord) (s : State) : Out3 := .next (kxInstr .min kxMinBody c w s)
def kxMaxBody : KxBody := kxAlu 1 fun a b => if a.toInt ≤ b.toInt then b else a
def execKxMax (c : CoreId) (w : IWord) (s : State) : Out3 := .next (kxInstr .max kxMaxBody c w s)
def kxMinuBody : KxBody := kxAlu 1 fun a b => if a.toNat ≤ b.toNat then a else b
def execKxMinu (c : CoreId) (w : IWord) (s : State) : Out3 := .next (kxInstr .minu kxMinuBody c w s)
def kxMaxuBody : KxBody := kxAlu 1 fun a b => if a.toNat ≤ b.toNat then b else a
def execKxMaxu (c : CoreId) (w : IWord) (s : State) : Out3 := .next (kxInstr .maxu kxMaxuBody c w s)
def kxClzBody : KxBody := kxAlu 1 fun a _ => clz64 a
def execKxClz (c : CoreId) (w : IWord) (s : State) : Out3 := .next (kxInstr .clz kxClzBody c w s)
def kxCtzBody : KxBody := kxAlu 1 fun a _ => ctz64 a
def execKxCtz (c : CoreId) (w : IWord) (s : State) : Out3 := .next (kxInstr .ctz kxCtzBody c w s)
def kxPopcBody : KxBody := kxAlu 1 fun a _ => popc64 a
def execKxPopc (c : CoreId) (w : IWord) (s : State) : Out3 := .next (kxInstr .popc kxPopcBody c w s)
def kxBswapBody : KxBody := kxAlu 1 fun a _ => bswap64 a
def execKxBswap (c : CoreId) (w : IWord) (s : State) : Out3 := .next (kxInstr .bswap kxBswapBody c w s)
def kxMulBody : KxBody := kxAlu 3 fun a b => a * b
def execKxMul (c : CoreId) (w : IWord) (s : State) : Out3 := .next (kxInstr .mul kxMulBody c w s)
def kxMulhBody : KxBody := kxAlu 3 fun a b => mulhW a b
def execKxMulh (c : CoreId) (w : IWord) (s : State) : Out3 := .next (kxInstr .mulh kxMulhBody c w s)
def kxMulhuBody : KxBody := kxAlu 3 fun a b => mulhuW a b
def execKxMulhu (c : CoreId) (w : IWord) (s : State) : Out3 := .next (kxInstr .mulhu kxMulhuBody c w s)

/-- DIV by zero gives all ones, and −2^63 by −1 gives −2^63 (R197). -/
def divW (a b : Word) : Word := if b = 0 then BitVec.allOnes 64 else wInt (a.toInt.tdiv b.toInt)
def divuW (a b : Word) : Word := if b = 0 then BitVec.allOnes 64 else w64 (a.toNat / b.toNat)
/-- REM by zero gives ra (R197). -/
def remW (a b : Word) : Word := if b = 0 then a else wInt (a.toInt.tmod b.toInt)
def remuW (a b : Word) : Word := if b = 0 then a else w64 (a.toNat % b.toNat)

def kxDivBody : KxBody := kxAlu 42 fun a b => divW a b
def execKxDiv (c : CoreId) (w : IWord) (s : State) : Out3 := .next (kxInstr .div kxDivBody c w s)
def kxDivuBody : KxBody := kxAlu 42 fun a b => divuW a b
def execKxDivu (c : CoreId) (w : IWord) (s : State) : Out3 := .next (kxInstr .divu kxDivuBody c w s)
def kxRemBody : KxBody := kxAlu 42 fun a b => remW a b
def execKxRem (c : CoreId) (w : IWord) (s : State) : Out3 := .next (kxInstr .rem kxRemBody c w s)
def kxRemuBody : KxBody := kxAlu 42 fun a b => remuW a b
def execKxRemu (c : CoreId) (w : IWord) (s : State) : Out3 := .next (kxInstr .remu kxRemuBody c w s)
def kxAddiBody : KxBody := kxImm fun a w => a + wInt (immS w)
def execKxAddi (c : CoreId) (w : IWord) (s : State) : Out3 := .next (kxInstr .addi kxAddiBody c w s)
def kxAndiBody : KxBody := kxImm fun a w => a &&& w64 (immZ w)
def execKxAndi (c : CoreId) (w : IWord) (s : State) : Out3 := .next (kxInstr .andi kxAndiBody c w s)
def kxOriBody : KxBody := kxImm fun a w => a ||| w64 (immZ w)
def execKxOri (c : CoreId) (w : IWord) (s : State) : Out3 := .next (kxInstr .ori kxOriBody c w s)
def kxXoriBody : KxBody := kxImm fun a w => a ^^^ w64 (immZ w)
def execKxXori (c : CoreId) (w : IWord) (s : State) : Out3 := .next (kxInstr .xori kxXoriBody c w s)
def kxShiBody : KxBody := kxImm fun a w => shiftOp (ifld w 7 6) a (ifld w 5 0)
def execKxShi (c : CoreId) (w : IWord) (s : State) : Out3 := .next (kxInstr .shi kxShiBody c w s)
def kxMovzBody : KxBody := fun c w s =>
  (s.updCore c fun k => k.setg (rdOf w) (w64 (immZ w * 2 ^ (16 * ifld w 20 19)))).retire c 1 []
def execKxMovz (c : CoreId) (w : IWord) (s : State) : Out3 := .next (kxInstr .movz kxMovzBody c w s)
def kxMovkBody : KxBody := fun c w s =>
  (s.updCore c fun k => k.setg (rdOf w) (movkW (k.rd w) (ifld w 20 19) (immZ w))).retire c 1 []
def execKxMovk (c : CoreId) (w : IWord) (s : State) : Out3 := .next (kxInstr .movk kxMovkBody c w s)

/-! ## Branches and jumps (R196); a Knaxa branch has no delay slot -/

/-- pc + 4 · off. -/
def pcOff (pc : Word) (off : Int) : Word := pc + wInt (4 * off)

/-- The condition of Bcc. -/
def bccHolds (cond : Nat) (a b : Word) : Bool :=
  match cond with
  | 0 => a == b | 1 => a != b
  | 2 => a.toInt < b.toInt | 3 => b.toInt ≤ a.toInt
  | 4 => a.toNat < b.toNat | 5 => b.toNat ≤ a.toNat
  | 6 => (a &&& b) != 0 | _ => (a &&& b) == 0

/-- The condition of BZcc. -/
def bzccHolds (cond : Nat) (a : Word) : Bool :=
  match cond with
  | 0 => a == 0 | 1 => a != 0
  | 2 => a.toInt < 0 | 3 => 0 ≤ a.toInt
  | 4 => 0 < a.toInt | _ => a.toInt ≤ 0

/-- Retire a transfer of control: the predictor learns it (R230), and one that is taken empties the fetch buffer (R240). -/
def State.retireJump (s : State) (c : Nat) (next : Word) (charge : Nat) (x : Transfer) : State :=
  (s.updCore c fun k =>
    let k := k.trained next.toNat x
    if x.taken then { k with fetchBuf := none } else k).retireTo c next charge []

/-- A conditional branch, taken or not. -/
def State.branch (s : State) (c : Nat) (taken : Bool) (off : Int) : State :=
  let pc := (s.core c).pc
  s.retireJump c (if taken then pcOff pc off else pc + 4) (if taken then 2 else 1) (.conditional taken)

def kxBccBody : KxBody := fun c w s =>
  let k := s.core c
  s.branch c (bccHolds (ifld w 25 23) (k.rg (ifld w 22 18)) (k.rg (ifld w 17 13))) (sext 13 (ifld w 12 0))
def execKxBcc (c : CoreId) (w : IWord) (s : State) : Out3 := .next (kxInstr .bcc kxBccBody c w s)
def kxBzccBody : KxBody := fun c w s =>
  s.branch c (bzccHolds (ifld w 25 23) ((s.core c).rg (ifld w 22 18))) (sext 18 (ifld w 17 0))
def execKxBzcc (c : CoreId) (w : IWord) (s : State) : Out3 := .next (kxInstr .bzcc kxBzccBody c w s)
def kxJBody : KxBody := fun c w s => s.retireJump c (pcOff (s.core c).pc (sext 26 (ifld w 25 0))) 2 (.direct false)
def execKxJ (c : CoreId) (w : IWord) (s : State) : Out3 := .next (kxInstr .j kxJBody c w s)
def kxJlBody : KxBody := fun c w s =>
  let k := s.core c
  (s.setCore c (k.setg 31 (k.pc + 4))).retireJump c (pcOff k.pc (sext 26 (ifld w 25 0))) 2 (.direct true)
def execKxJl (c : CoreId) (w : IWord) (s : State) : Out3 := .next (kxInstr .jl kxJlBody c w s)

/-- pc ← ra; a target with bits 1:0 not 0 raises PC_ALIGN with the target in FADDR (R196, R211). -/
def kxJump (link : Bool) : KxBody := fun c w s =>
  let k := s.core c
  let t := k.ra w
  if t.toNat % 4 != 0 then s.fault c (simpleFlt Cause.pcAlign 0 |> fun f => { f with addr := t.toNat })
  else (if link then s.setCore c (k.setg 31 (k.pc + 4)) else s).retireJump c t 4 (.register link (raOf w))

def kxJrBody : KxBody := kxJump false
def execKxJr (c : CoreId) (w : IWord) (s : State) : Out3 := .next (kxInstr .jr kxJrBody c w s)
def kxJlrBody : KxBody := kxJump true
def execKxJlr (c : CoreId) (w : IWord) (s : State) : Out3 := .next (kxInstr .jlr kxJlrBody c w s)

end Sys2Proof.Machine
end

