-- ==== Sys2Proof/Machine/KnxMem.lean ====
section
/-!
DEFINITION. KnxMem: the scalar Knaxa loads, stores and atomics, the store buffer with its forwarding, and what a core leaves
waiting (R196, R205, R270 to R276, R287).
-/
namespace Sys2Proof.Machine

/-! ## Waiting -/

/-- Hold the instruction until stores have left the store buffer; it is tried again after each of them. -/
def State.waitInstr (s : State) (c : Nat) (w : IWord) : State := s.updCore c fun k => { k with wait := .instr w }

/-- The store buffer holds nothing. -/
def State.sbEmpty (s : State) (c : Nat) : Bool := (s.core c).sb.isEmpty

/-! ## Values (R275, R276) -/

/-- The bytes of a cacheable or uncached access as the core reads them from the coherent image. -/
def State.imageRead (s : State) (c pa n : Nat) : List Byte :=
  let q := s.coreReq c
  (List.range n).map fun k => s.peekAs (s.tagOf (s.keySlotFor q (pa + k))) (pa + k)

/-- The entry overlaps `n` bytes at `pa`. -/
def SbEntry.overlaps (e : SbEntry) (pa n : Nat) : Bool := e.pa < pa + n && pa < e.pa + e.bytes.length

/-- A load's value: forwarded from the youngest overlapping store when that store covers it, else from memory when no store
overlaps; none when it must wait (R276). -/
def State.loadVal (s : State) (c pa n : Nat) : Option Nat :=
  match (s.core c).sb.reverse.find? fun e => e.overlaps pa n with
  | none => some (ofLe (s.imageRead c pa n))
  | some e =>
    if e.pa ≤ pa && pa + n ≤ e.pa + e.bytes.length then some (ofLe ((e.bytes.drop (pa - e.pa)).take n)) else none

/-- The home's own copy of a line, kept while an owner's copy differs (R281). -/
def Mem.lineImage (m : Mem) (line : Nat) : StaleLine :=
  ⟨(List.range 64).map fun i => SMap.get 0 m.bytes (line * 64 + i), SMap.get 0 m.lineTag line,
    SMap.get false m.poison (line * 2), SMap.get false m.poison (line * 2 + 1)⟩

/-- The access that a Grant was held for has been performed (R286). -/
def LineHome.performed (l : LineHome) (c : Nat) : LineHome := { l with hold := l.hold.filter fun o => o.val != c }

/-- Write bytes into L1D of a core that holds the line in D or X, which becomes D (R283). -/
def State.corePut (s : State) (c pa : Nat) (bs : List Byte) : State :=
  let line := pa / 64
  let img := s.mem.lineImage line
  match s.cutOff pa with
  | some src => s.discardWrite c pa src
  | none =>
    let s := (s.setHeld c line .d).updLine line fun l => { l.performed c with stale := some (l.stale.getD img) }
    ((s.fillL1 c false line).storedTo (· == line)).pokeAs (s.tagOf (s.keySlotFor (s.coreReq c) pa)) pa bs

/-- Ask for the lines of the retired stores, as far as the miss buffers go (R275). -/
def State.askStores (s : State) (c : CoreId) : State :=
  (((s.core c.val).sb.map fun e => e.pa / 64).eraseDups.take 16).foldl (fun s line => s.askOwn c line) s

/-- A retired store enters the store buffer; in clay mode it is performed at the home (R240, R275). -/
def State.putStore (s : State) (c pa : Nat) (bs : List Byte) : State :=
  if (s.core c).clay then s.homePut c pa bs
  else (s.updCore c fun k => { k with sb := k.sb ++ [⟨pa, bs⟩] }).askStores (coreOf c)

/-- The store buffer has no room for another store (R275). -/
def State.sbFull (s : State) (c : Nat) : Bool := !(s.core c).clay && 64 ≤ (s.core c).sb.length

/-- Put stores into the store buffer, as address and bytes, as far as it has room: the ones left. -/
def State.pushStores (s : State) (c : Nat) : List (Nat × List Byte) → List (Nat × List Byte) × State
  | [] => ([], s)
  | e :: es => if s.sbFull c then (e :: es, s) else (s.putStore c e.1 e.2).pushStores c es

/-! ## Device accesses (R270) -/

/-- The size of one access of an instruction. -/
def kxAccSize (w : IWord) : Nat :=
  match kxOp w with
  | some .ld | some .sd => 8
  | some .lw | some .lws | some .sw | some .pld | some .pst => 4
  | some .lh | some .lhs | some .sh => 2
  | some .lb | some .lbs | some .sb => 1
  | _ => eszOf w

/-- The instruction stores. -/
def kxStores (w : IWord) : Bool :=
  match kxOp w with
  | some .sd | some .sw | some .sh | some .sb | some .vst | some .vsts | some .pst => true
  | _ => false

/-- Perform the cacheable elements of the waiting instruction up to its next device element, and send that one once every older
store has left the store buffer, those of elements below it among them (R257, R270, R271). -/
def State.sendDev (s : State) (c : Nat) (w : IWord) : List (Nat × Nat × Bool) → List Nat → State
  | [], got => s.updCore c fun k => { k with wait := .device w [] got }
  | (pa, v, dev) :: left, got =>
    let held := s.updCore c fun k => { k with wait := .device w ((pa, v, dev) :: left) got }
    if dev then
      if !s.sbEmpty c then held
      else { held with coh := { s.coh with dev := s.coh.dev ++ [⟨coreOf c, kxStores w, pa, kxAccSize w, v⟩] } }
    else if kxStores w then
      if s.sbFull c then held else (s.putStore c pa (leBytes (kxAccSize w) v)).sendDev c w left (0 :: got)
    else (s.askShared (coreOf c) false (pa / 64)).sendDev c w left (ofLe (s.imageRead c pa (kxAccSize w)) :: got)

/-- A device access issues only after every older store has left the store buffer (R270). -/
def State.startDev (s : State) (c : Nat) (w : IWord) (els : List (Nat × Nat × Bool)) : State :=
  if s.sbEmpty c then s.sendDev c w els [] else s.waitInstr c w

/-! ## Loads and stores (R196) -/

/-- The end of a scalar load: rd gets the value. -/
def kxLoadEnd (sign : Bool) (n : Nat) (c : Nat) (w : IWord) (v : Nat) (s : State) : State :=
  let va := (s.core c).ea w
  (s.updCore c fun k => k.setg (rdOf w) (extendLoad sign n v)).retire c 4 [va]

/-- A scalar load of `n` bytes. -/
def kxLoad (sign : Bool) (n : Nat) : KxBody := fun c w s =>
  match s.kxCheck c .load false ((s.core c).ea w) n none with
  | (.error f, s) => s.fault c f
  | (.ok r, s) =>
    if r.device then s.startDev c w [(r.pa, 0, true)]
    else
      match s.loadVal c r.pa n with
      | none => s.waitInstr c w
      | some v => kxLoadEnd sign n c w v (s.askShared (coreOf c) false (r.pa / 64))

/-- A scalar store of `n` bytes of rd. The next store waits while the store buffer holds 64 (R275). -/
def kxStore (n : Nat) : KxBody := fun c w s =>
  let k := s.core c
  match s.kxCheck c .store false (k.ea w) n none with
  | (.error f, s) => s.fault c f
  | (.ok r, s) =>
    let v := (k.rd w).toNat % 2 ^ (8 * n)
    if r.device then s.startDev c w [(r.pa, v, true)]
    else if s.sbFull c then s.waitInstr c w
    else (s.putStore c r.pa (leBytes n v)).retire c 4 [k.ea w]

def kxLdBody : KxBody := kxLoad false 8
def execKxLd (c : CoreId) (w : IWord) (s : State) : Out3 := .next (kxInstr .ld kxLdBody c w s)
def kxLwBody : KxBody := kxLoad false 4
def execKxLw (c : CoreId) (w : IWord) (s : State) : Out3 := .next (kxInstr .lw kxLwBody c w s)
def kxLwsBody : KxBody := kxLoad true 4
def execKxLws (c : CoreId) (w : IWord) (s : State) : Out3 := .next (kxInstr .lws kxLwsBody c w s)
def kxLhBody : KxBody := kxLoad false 2
def execKxLh (c : CoreId) (w : IWord) (s : State) : Out3 := .next (kxInstr .lh kxLhBody c w s)
def kxLhsBody : KxBody := kxLoad true 2
def execKxLhs (c : CoreId) (w : IWord) (s : State) : Out3 := .next (kxInstr .lhs kxLhsBody c w s)
def kxLbBody : KxBody := kxLoad false 1
def execKxLb (c : CoreId) (w : IWord) (s : State) : Out3 := .next (kxInstr .lb kxLbBody c w s)
def kxLbsBody : KxBody := kxLoad true 1
def execKxLbs (c : CoreId) (w : IWord) (s : State) : Out3 := .next (kxInstr .lbs kxLbsBody c w s)
def kxSdBody : KxBody := kxStore 8
def execKxSd (c : CoreId) (w : IWord) (s : State) : Out3 := .next (kxInstr .sd kxSdBody c w s)
def kxSwBody : KxBody := kxStore 4
def execKxSw (c : CoreId) (w : IWord) (s : State) : Out3 := .next (kxInstr .sw kxSwBody c w s)
def kxShBody : KxBody := kxStore 2
def execKxSh (c : CoreId) (w : IWord) (s : State) : Out3 := .next (kxInstr .sh kxShBody c w s)
def kxSbBody : KxBody := kxStore 1
def execKxSb (c : CoreId) (w : IWord) (s : State) : Out3 := .next (kxInstr .sb kxSbBody c w s)

/-- PREF asks the home for the line; a failed translation or check drops it, and clay mode does nothing (R196, R240). For write it
needs what a store needs, and sets no d bit (R219). -/
def kxPrefBody : KxBody := fun c w s =>
  let k := s.core c
  let write := rdOf w == 1
  let acc := if write then KxAcc.prefWrite else KxAcc.load
  let s :=
    if k.clay then s
    else
      match s.translate c acc (k.ea w) with
      | (.error _, _) => s
      | (.ok (pa, dev), s1) =>
        if dev || s1.region pa = .unmapped || !(s1.potCheck (s1.coreReq c) (if write then .write else .read) pa).ok then s1
        else if write then s1.askOwn (coreOf c) (pa / 64) else s1.askShared (coreOf c) false (pa / 64)
  s.retire c 4 []
def execKxPref (c : CoreId) (w : IWord) (s : State) : Out3 := .next (kxInstr .pref kxPrefBody c w s)

/-! ## Atomics (R205, R287) -/

/-- The new value of an atomic on `n` bytes from the old value, rb and rd; none keeps the old value. -/
def amoNew (op : KxOp) (n old b d : Nat) : Option Nat :=
  let m := 2 ^ (8 * n)
  let lt := fun (x y : Nat) => sext (8 * n) x < sext (8 * n) y
  match op with
  | .amoadd => some ((old + b) % m)
  | .amoswap => some (b % m)
  | .amoand => some (old &&& b % m)
  | .amoor => some (old ||| b % m)
  | .amoxor => some (old ^^^ b % m)
  | .amosmin => some (if lt (b % m) old then b % m else old)
  | .amosmax => some (if lt old (b % m) then b % m else old)
  | .amoumin => some (min old (b % m))
  | .amoumax => some (max old (b % m))
  | _ => if old = d % m then some (b % m) else none

/-- The read-modify-write itself, in L1D or at the home. -/
def amoPerform (op : KxOp) (n : Nat) (atHome : Bool) (c pa va : Nat) (w : IWord) (s : State) : State :=
  let k := s.core c
  let old := ofLe (s.imageRead c pa n)
  let s := match amoNew op n old (k.rb w).toNat (k.rd w).toNat with
    | none => s
    | some v => if atHome then s.homePut c pa (leBytes n v) else s.corePut c pa (leBytes n v)
  (s.updCore c fun k => k.setg (rdOf w) (w64 old)).retire c 8 [va]

/-- An atomic: it waits for the store buffer, being a FENCE before and after itself, then for its line in D, or for the home
when near = 1 or in clay mode; `now` is set when the home performs it (R205, R287). -/
def kxAtomic (op : KxOp) (now : Bool) : KxBody := fun c w s =>
  let k := s.core c
  let va := (k.ra w).toNat
  let n := if bitOf w.toNat 9 then 8 else 4
  match s.kxCheck c .atomic true va n none with
  | (.error f, s) => s.fault c f
  | (.ok r, s) =>
    let line := r.pa / 64
    if !s.sbEmpty c then s.waitInstr c w
    else if now then amoPerform op n true c r.pa va w s
    else if bitOf w.toNat 10 || k.clay then
      (s.sendHome line ⟨.nearAtomic, coreOf c, false⟩).updCore c fun k => { k with wait := .near w r.pa }
    else if s.lstate c line == .d || s.lstate c line == .x then amoPerform op n false c r.pa va w s
    else (s.askOwn (coreOf c) line).updCore c fun k => { k with wait := .atomic w r.pa }

def kxAmoaddBody : KxBody := kxAtomic .amoadd false
def execKxAmoadd (c : CoreId) (w : IWord) (s : State) : Out3 := .next (kxInstr .amoadd kxAmoaddBody c w s)
def kxAmoswapBody : KxBody := kxAtomic .amoswap false
def execKxAmoswap (c : CoreId) (w : IWord) (s : State) : Out3 := .next (kxInstr .amoswap kxAmoswapBody c w s)
def kxAmoandBody : KxBody := kxAtomic .amoand false
def execKxAmoand (c : CoreId) (w : IWord) (s : State) : Out3 := .next (kxInstr .amoand kxAmoandBody c w s)
def kxAmoorBody : KxBody := kxAtomic .amoor false
def execKxAmoor (c : CoreId) (w : IWord) (s : State) : Out3 := .next (kxInstr .amoor kxAmoorBody c w s)
def kxAmoxorBody : KxBody := kxAtomic .amoxor false
def execKxAmoxor (c : CoreId) (w : IWord) (s : State) : Out3 := .next (kxInstr .amoxor kxAmoxorBody c w s)
def kxAmosminBody : KxBody := kxAtomic .amosmin false
def execKxAmosmin (c : CoreId) (w : IWord) (s : State) : Out3 := .next (kxInstr .amosmin kxAmosminBody c w s)
def kxAmosmaxBody : KxBody := kxAtomic .amosmax false
def execKxAmosmax (c : CoreId) (w : IWord) (s : State) : Out3 := .next (kxInstr .amosmax kxAmosmaxBody c w s)
def kxAmouminBody : KxBody := kxAtomic .amoumin false
def execKxAmoumin (c : CoreId) (w : IWord) (s : State) : Out3 := .next (kxInstr .amoumin kxAmouminBody c w s)
def kxAmoumaxBody : KxBody := kxAtomic .amoumax false
def execKxAmoumax (c : CoreId) (w : IWord) (s : State) : Out3 := .next (kxInstr .amoumax kxAmoumaxBody c w s)
def kxCasBody : KxBody := kxAtomic .cas false
def execKxCas (c : CoreId) (w : IWord) (s : State) : Out3 := .next (kxInstr .cas kxCasBody c w s)

end Sys2Proof.Machine
end

