-- ==== Sys2Proof/Machine/KnxVector.lean ====
section
/-!
DEFINITION. KnxVector: the vector instructions of the Knaxa core (chapter "Vector and big-integer extension", R249 to R263).
-/
namespace Sys2Proof.Machine

/-! ## Groups, elements and predicates (R249 to R252) -/

/-- How many elements a group holds (R250). -/
def vCount (w : IWord) : Nat := 32 * gfOf w / eszOf w

/-- Element `i` of a group's value. -/
def vElem (sz v i : Nat) : Nat := v / 2 ^ (8 * sz * i) % 2 ^ (8 * sz)

/-- The group value with these elements. -/
def vPack (sz : Nat) (es : List Nat) : Nat := es.foldr (fun e acc => e % 2 ^ (8 * sz) + 2 ^ (8 * sz) * acc) 0

/-- Bit `sz * i` of a predicate group for each `i`, the other bits 0 (R251). -/
def pPack (sz : Nat) (bs : List Bool) : Nat := bs.foldr (fun b acc => b2n b + 2 ^ sz * acc) 0

/-- Element `i` is active under a predicate group's bits. -/
def pActive (sz p i : Nat) : Bool := p.testBit (sz * i)

/-- Predicate registers of a group. -/
def Core.pg (k : Core) (w : IWord) : Nat := k.pgrp (pgOf w) (gfOf w)

/-- The operand groups. -/
def Core.vd (k : Core) (w : IWord) : Nat := k.grp (rdOf w) (gfOf w)
def Core.va (k : Core) (w : IWord) : Nat := k.grp (raOf w) (gfOf w)
def Core.vb (k : Core) (w : IWord) : Nat := k.grp (rbOf w) (gfOf w)

/-- A latency by group factor. -/
def byGf (w : IWord) (a b c : Nat) : Nat := match ifld w 7 6 with | 0 => a | 1 => b | _ => c

/-! ## Element-wise arithmetic (R253) -/

/-- vd_i ← f(size, va_i, vb_i) for each active i. -/
def vMap (lat : Nat) (f : Nat → Nat → Nat → Nat) : KxBody := fun c w s =>
  let k := s.core c
  let sz := eszOf w
  let res := (List.range (vCount w)).map fun i =>
    if pActive sz (k.pg w) i then f sz (vElem sz (k.va w) i) (vElem sz (k.vb w) i) else vElem sz (k.vd w) i
  (s.setCore c (k.setGrp (rdOf w) (vPack sz res) (gfOf w))).retire c lat []

/-- A number of `sz` bytes from an integer. -/
def vInt (sz : Nat) (i : Int) : Nat := (i % 2 ^ (8 * sz)).toNat
def vSigned (sz v : Nat) : Int := sext (8 * sz) v

def kxVaddBody : KxBody := vMap 2 fun _ a b => a + b
def kxVsubBody : KxBody := vMap 2 fun sz a b => a + 2 ^ (8 * sz) - b
def kxVmulBody : KxBody := vMap 4 fun _ a b => a * b
def kxVmulhBody : KxBody := vMap 4 fun sz a b => vInt sz (vSigned sz a * vSigned sz b / 2 ^ (8 * sz))
def kxVmulhuBody : KxBody := vMap 4 fun sz a b => a * b / 2 ^ (8 * sz)
def kxVminBody : KxBody := vMap 2 fun sz a b => if vSigned sz b < vSigned sz a then b else a
def kxVmaxBody : KxBody := vMap 2 fun sz a b => if vSigned sz a < vSigned sz b then b else a
def kxVminuBody : KxBody := vMap 2 fun _ a b => min a b
def kxVmaxuBody : KxBody := vMap 2 fun _ a b => max a b
def kxVabsBody : KxBody := vMap 2 fun sz a _ => if vSigned sz a < 0 then 2 ^ (8 * sz) - a else a
def kxVnegBody : KxBody := vMap 2 fun sz a _ => 2 ^ (8 * sz) - a
def kxVandBody : KxBody := vMap 1 fun _ a b => a &&& b
def kxVorBody : KxBody := vMap 1 fun _ a b => a ||| b
def kxVxorBody : KxBody := vMap 1 fun _ a b => a ^^^ b
def kxVandnBody : KxBody := vMap 1 fun sz a b => a &&& (2 ^ (8 * sz) - 1 - b)
def kxVsllBody : KxBody := vMap 2 fun sz a b => a * 2 ^ (b % (8 * sz))
def kxVsrlBody : KxBody := vMap 2 fun sz a b => a / 2 ^ (b % (8 * sz))
def kxVsraBody : KxBody := vMap 2 fun sz a b => vInt sz (vSigned sz a / 2 ^ (b % (8 * sz)))
def kxVrorBody : KxBody := vMap 2 fun sz a b =>
  a / 2 ^ (b % (8 * sz)) + a % 2 ^ (b % (8 * sz)) * 2 ^ (8 * sz - b % (8 * sz))

/-- Bit sz·i of pd ← the comparison, for each active i; an inactive element's bit is 0. -/
def vCmp (f : Nat → Nat → Nat → Bool) : KxBody := fun c w s =>
  let k := s.core c
  let sz := eszOf w
  let res := (List.range (vCount w)).map fun i =>
    pActive sz (k.pg w) i && f sz (vElem sz (k.va w) i) (vElem sz (k.vb w) i)
  (s.setCore c (k.setPgrp (rdOf w) (pPack sz res) (gfOf w))).retire c 2 []

def kxVcmpeqBody : KxBody := vCmp fun _ a b => a == b
def kxVcmpneBody : KxBody := vCmp fun _ a b => a != b
def kxVcmpltBody : KxBody := vCmp fun sz a b => vSigned sz a < vSigned sz b
def kxVcmpltuBody : KxBody := vCmp fun _ a b => a < b
def kxVcmpleBody : KxBody := vCmp fun sz a b => vSigned sz a ≤ vSigned sz b
def kxVcmpleuBody : KxBody := vCmp fun _ a b => a ≤ b

/-! ## Moves (R253) -/

/-- Write the whole group vd. -/
def vWrite (lat : Nat) (c : Nat) (w : IWord) (es : List Nat) (s : State) : State :=
  (s.updCore c fun k => k.setGrp (rdOf w) (vPack (eszOf w) es) (gfOf w)).retire c lat []

def kxVselBody : KxBody := fun c w s =>
  let k := s.core c
  let sz := eszOf w
  vWrite 1 c w ((List.range (vCount w)).map fun i =>
    if pActive sz (k.pg w) i then vElem sz (k.va w) i else vElem sz (k.vb w) i) s

def kxVpermBody : KxBody := fun c w s =>
  let k := s.core c
  let sz := eszOf w
  vWrite 3 c w ((List.range (vCount w)).map fun i =>
    if pActive sz (k.pg w) i then vElem sz (k.va w) (vElem sz (k.vb w) i % vCount w) else vElem sz (k.vd w) i) s

def kxVbcastBody : KxBody := fun c w s =>
  let k := s.core c
  let sz := eszOf w
  vWrite 3 c w ((List.range (vCount w)).map fun i =>
    if pActive sz (k.pg w) i then (k.ra w).toNat else vElem sz (k.vd w) i) s

def kxVinsBody : KxBody := fun c w s =>
  let k := s.core c
  let sz := eszOf w
  let j := (k.rb w).toNat % vCount w
  vWrite 3 c w ((List.range (vCount w)).map fun i =>
    if i == j && pActive sz (k.pg w) i then (k.ra w).toNat else vElem sz (k.vd w) i) s

def kxVextBody : KxBody := fun c w s =>
  let k := s.core c
  let sz := eszOf w
  (s.setCore c (k.setg (rdOf w) (w64 (vElem sz (k.va w) ((k.rb w).toNat % vCount w))))).retire c 4 []

/-! ## Reductions (R254) -/

/-- The active elements of va. -/
def Core.activeElems (k : Core) (w : IWord) : List Nat :=
  ((List.range (vCount w)).filter fun i => pActive (eszOf w) (k.pg w) i).map fun i => vElem (eszOf w) (k.va w) i

/-- gd ← f(size, the active elements). -/
def vReduce (f : Nat → List Nat → Word) : KxBody := fun c w s =>
  let k := s.core c
  (s.setCore c (k.setg (rdOf w) (f (eszOf w) (k.activeElems w)))).retire c (byGf w 5 6 7) []

def kxVraddBody : KxBody := vReduce fun _ es => w64 (es.foldl (· + ·) 0)
def kxVrminBody : KxBody := vReduce fun sz es =>
  wInt (es.foldl (fun m e => if vSigned sz e < m then vSigned sz e else m) (2 ^ (8 * sz - 1) - 1))
def kxVrmaxBody : KxBody := vReduce fun sz es =>
  wInt (es.foldl (fun m e => if m < vSigned sz e then vSigned sz e else m) (-(2 ^ (8 * sz - 1))))
def kxVrandBody : KxBody := vReduce fun sz es => w64 (es.foldl (· &&& ·) (2 ^ (8 * sz) - 1))
def kxVrorReductionBody : KxBody := vReduce fun _ es => w64 (es.foldl (· ||| ·) 0)
def kxVrxorBody : KxBody := vReduce fun _ es => w64 (es.foldl (· ^^^ ·) 0)

/-! ## Predicates (R253) -/

/-- pd ← f(pa, pb) & pg over all 32·f bits. -/
def pLogic (f : Nat → Nat → Nat) : KxBody := fun c w s =>
  let k := s.core c
  let v := f (k.pgrp (raOf w) (gfOf w)) (k.pgrp (rbOf w) (gfOf w)) &&& k.pg w
  (s.setCore c (k.setPgrp (rdOf w) v (gfOf w))).retire c 1 []

def kxPandBody : KxBody := pLogic fun a b => a &&& b
def kxPorBody : KxBody := pLogic fun a b => a ||| b
def kxPxorBody : KxBody := pLogic fun a b => a ^^^ b
def kxPnotBody : KxBody := pLogic fun a _ => 2 ^ 128 - 1 - a

def kxPrangeBody : KxBody := fun c w s =>
  let k := s.core c
  let v := pPack (eszOf w) ((List.range (vCount w)).map fun i => (k.ra w).toNat + i < (k.rb w).toNat)
  (s.setCore c (k.setPgrp (rdOf w) v (gfOf w))).retire c 2 []

/-- The elements active in both pa and pg. -/
def Core.bothActive (k : Core) (w : IWord) : List Nat :=
  (List.range (vCount w)).filter fun i =>
    pActive (eszOf w) (k.pgrp (raOf w) (gfOf w)) i && pActive (eszOf w) (k.pg w) i

def kxPcountBody : KxBody := fun c w s =>
  let k := s.core c
  (s.setCore c (k.setg (rdOf w) (w64 (k.bothActive w).length))).retire c 3 []
def kxPfindBody : KxBody := fun c w s =>
  let k := s.core c
  (s.setCore c (k.setg (rdOf w) (w64 ((k.bothActive w).headD (vCount w))))).retire c 3 []
def kxFftopBody : KxBody := fun c w s =>
  let k := s.core c
  let v := pPack (eszOf w) ((List.range (vCount w)).map fun i => pActive (eszOf w) (k.pg w) i && k.ffr.toNat.testBit i)
  (s.setCore c (k.setPgrp (rdOf w) v (gfOf w))).retire c 1 []
def kxPtoffBody : KxBody := fun c w s =>
  let k := s.core c
  let v := pPack 1 ((List.range (vCount w)).map fun i => pActive (eszOf w) (k.pgrp (raOf w) (gfOf w)) i)
  (s.setCore c { k with ffr := BitVec.ofNat 128 v }).retire c 1 []

/-! ## Memory (R256 to R263) -/

/-- The forms of element address. -/
inductive VAddr where
  | contiguous | strided | indexed | predicate
deriving DecidableEq, Repr

/-- The address of element `i` (R256). -/
def Core.vAddr (k : Core) (w : IWord) (form : VAddr) (i : Nat) : Nat :=
  let sz := eszOf w
  match form with
  | .contiguous => (k.ra w + k.rb w + w64 (sz * i)).toNat
  | .strided => (k.ra w + w64 i * k.rb w).toNat
  | .indexed => (k.ra w + wInt (vSigned sz (vElem sz (k.vb w) i) * sz)).toNat
  | .predicate => (k.ra w + k.rb w + w64 (4 * i)).toNat

/-- The elements that access memory, by index and address; PLD and PST access 4 bytes per predicate. -/
def Core.vRefs (k : Core) (w : IWord) (form : VAddr) : List (Nat × Nat) :=
  let is := if form = .predicate then List.range (gfOf w)
    else (List.range (vCount w)).filter fun i => pActive (eszOf w) (k.pg w) i
  is.map fun i => (i, k.vAddr w form i)

/-- Check the elements in ascending order up to the first that faults: the checked elements, the faulting one with its
exception, the state with every check made, and the state without the faulting check (R260). -/
def State.checkElems (c : Nat) (acc : KxAcc) (noDev : Bool) (size : Nat) (tagged : Bool) :
    List (Nat × Nat) → List (Nat × KxRef) → State → List (Nat × KxRef) × Option (Nat × Flt) × State × State
  | [], done, s => (done.reverse, none, s, s)
  | (i, va) :: rest, done, s =>
    match s.kxCheck c acc noDev va size (if tagged then some i else none) with
    | (.error f, s1) => (done.reverse, some (i, f), s1, s)
    | (.ok r, s1) => State.checkElems c acc noDev size tagged rest ((i, r) :: done) s1

/-- The values of checked elements; none when some element must wait for the store buffer (R257, R276). -/
def State.elemVals (s : State) (c size : Nat) : List (Nat × KxRef) → Option (List (Nat × Nat))
  | [] => some []
  | (i, r) :: rest =>
    match s.loadVal c r.pa size, s.elemVals c size rest with
    | some v, some vs => some ((i, v) :: vs)
    | _, _ => none

/-- The clay charge of a vector memory instruction (R259). -/
def vMemCharge (w : IWord) (form : VAddr) : Nat :=
  match form with
  | .contiguous => byGf w 7 7 8
  | .strided => 6 + (vCount w + 1) / 2
  | .indexed => 4 * vCount w
  | .predicate => 5

/-- The element value with index `i`, or 0. -/
def valAt (vals : List (Nat × Nat)) (i : Nat) : Nat :=
  match vals.find? fun p => p.1 == i with
  | some p => p.2
  | none => 0

/-- The end of a vector load: the loaded elements, every other element 0. -/
def kxVLoadEnd (form : VAddr) (c : Nat) (w : IWord) (vals : List (Nat × Nat)) (s : State) : State :=
  let vas := ((s.core c).vRefs w form).filterMap fun p => if vals.any fun v => v.1 == p.1 then some p.2 else none
  (s.updCore c fun k =>
    if form = .predicate then k.setPgrp (rdOf w) (vPack 4 ((List.range (gfOf w)).map (valAt vals))) (gfOf w)
    else k.setGrp (rdOf w) (vPack (eszOf w) ((List.range (vCount w)).map (valAt vals))) (gfOf w)).retire c (vMemCharge w form) vas

/-- Ask for the lines that loaded elements missed. -/
def State.askElems (s : State) (c : Nat) (rs : List (Nat × KxRef)) : State :=
  rs.foldl (fun s p => s.askShared (coreOf c) false (p.2.pa / 64)) s

/-- A vector load. -/
def vLoad (form : VAddr) : KxBody := fun c w s =>
  let size := if form = .predicate then 4 else eszOf w
  match State.checkElems c .load (form = .indexed) size (form != .predicate) ((s.core c).vRefs w form) [] s with
  | (_, some (_, f), s, _) => s.fault c f
  | (rs, none, s, _) =>
    if rs.any fun p => p.2.device then s.startDev c w (rs.map fun p => (p.2.pa, 0, p.2.device))
    else
      match s.elemVals c size rs with
      | none => s.waitInstr c w
      | some vals => kxVLoadEnd form c w vals (s.askElems c rs)

/-- A first-fault load: a fault of an element other than the lowest active one cuts the load short (R263). -/
def vLoadFF (form : VAddr) : KxBody := fun c w s =>
  let size := eszOf w
  match State.checkElems c .load true size true ((s.core c).vRefs w form) [] s with
  | ([], some (_, f), s, _) => s.fault c f
  | (rs, some (e, _), _, s) =>
    match s.elemVals c size rs with
    | none => s.waitInstr c w
    | some vals =>
      let s := s.updCore c fun k => { k with ffr := BitVec.ofNat 128 (k.ffr.toNat -
        k.ffr.toNat % 2 ^ vCount w / 2 ^ e * 2 ^ e) }
      kxVLoadEnd form c w vals (s.askElems c rs)
  | (rs, none, s, _) =>
    match s.elemVals c size rs with
    | none => s.waitInstr c w
    | some vals => kxVLoadEnd form c w vals (s.askElems c rs)

/-- The value of element `i` of the source of a vector store. -/
def Core.vStoreVal (k : Core) (w : IWord) (form : VAddr) (i : Nat) : Nat :=
  if form = .predicate then (k.rp (rdOf w + i)).toNat else vElem (eszOf w) (k.vd w) i

/-- The form of a vector store's addresses. -/
def vStoreForm (w : IWord) : VAddr :=
  match kxOp w with
  | some .vsts => .strided
  | some .vscatter => .indexed
  | some .pst => .predicate
  | _ => .contiguous

/-- The elements of a vector store enter the store buffer, each as a store of its own (R257), as it has room for them (R275); the
instruction retires with the last. -/
def State.storeElems (s : State) (c : Nat) (w : IWord) (es : List (Nat × List Byte)) : State :=
  match s.pushStores c es with
  | ([], s) =>
    let form := vStoreForm w
    s.retire c (vMemCharge w form) (((s.core c).vRefs w form).map Prod.snd)
  | (left, s) => s.updCore c fun k => { k with wait := .vstore w left }

/-- A vector store: every active element is checked before one is written (R262). -/
def vStore (form : VAddr) : KxBody := fun c w s =>
  let k := s.core c
  let size := if form = .predicate then 4 else eszOf w
  match State.checkElems c .store (form = .indexed) size (form != .predicate) (k.vRefs w form) [] s with
  | (_, some (_, f), s, _) => s.fault c f
  | (rs, none, s, _) =>
    if rs.any fun p => p.2.device then s.startDev c w (rs.map fun p => (p.2.pa, k.vStoreVal w form p.1, p.2.device))
    else if s.sbFull c then s.waitInstr c w
    else s.storeElems c w (rs.map fun p => (p.2.pa, leBytes size (k.vStoreVal w form p.1)))

def kxVldBody : KxBody := vLoad .contiguous
def kxVldsBody : KxBody := vLoad .strided
def kxPldBody : KxBody := vLoad .predicate
def kxVstBody : KxBody := vStore .contiguous
def kxVstsBody : KxBody := vStore .strided
def kxPstBody : KxBody := vStore .predicate
def kxVgatherBody : KxBody := vLoad .indexed
def kxVscatterBody : KxBody := vStore .indexed
def kxVldffBody : KxBody := vLoadFF .contiguous
def kxVgatherffBody : KxBody := vLoadFF .indexed

def execKxVadd (c : CoreId) (w : IWord) (s : State) : Out3 := .next (kxInstr .vadd kxVaddBody c w s)
def execKxVsub (c : CoreId) (w : IWord) (s : State) : Out3 := .next (kxInstr .vsub kxVsubBody c w s)
def execKxVmul (c : CoreId) (w : IWord) (s : State) : Out3 := .next (kxInstr .vmul kxVmulBody c w s)
def execKxVmulh (c : CoreId) (w : IWord) (s : State) : Out3 := .next (kxInstr .vmulh kxVmulhBody c w s)
def execKxVmulhu (c : CoreId) (w : IWord) (s : State) : Out3 := .next (kxInstr .vmulhu kxVmulhuBody c w s)
def execKxVmin (c : CoreId) (w : IWord) (s : State) : Out3 := .next (kxInstr .vmin kxVminBody c w s)
def execKxVmax (c : CoreId) (w : IWord) (s : State) : Out3 := .next (kxInstr .vmax kxVmaxBody c w s)
def execKxVminu (c : CoreId) (w : IWord) (s : State) : Out3 := .next (kxInstr .vminu kxVminuBody c w s)
def execKxVmaxu (c : CoreId) (w : IWord) (s : State) : Out3 := .next (kxInstr .vmaxu kxVmaxuBody c w s)
def execKxVabs (c : CoreId) (w : IWord) (s : State) : Out3 := .next (kxInstr .vabs kxVabsBody c w s)
def execKxVneg (c : CoreId) (w : IWord) (s : State) : Out3 := .next (kxInstr .vneg kxVnegBody c w s)
def execKxVand (c : CoreId) (w : IWord) (s : State) : Out3 := .next (kxInstr .vand kxVandBody c w s)
def execKxVor (c : CoreId) (w : IWord) (s : State) : Out3 := .next (kxInstr .vor kxVorBody c w s)
def execKxVxor (c : CoreId) (w : IWord) (s : State) : Out3 := .next (kxInstr .vxor kxVxorBody c w s)
def execKxVandn (c : CoreId) (w : IWord) (s : State) : Out3 := .next (kxInstr .vandn kxVandnBody c w s)
def execKxVsll (c : CoreId) (w : IWord) (s : State) : Out3 := .next (kxInstr .vsll kxVsllBody c w s)
def execKxVsrl (c : CoreId) (w : IWord) (s : State) : Out3 := .next (kxInstr .vsrl kxVsrlBody c w s)
def execKxVsra (c : CoreId) (w : IWord) (s : State) : Out3 := .next (kxInstr .vsra kxVsraBody c w s)
def execKxVror (c : CoreId) (w : IWord) (s : State) : Out3 := .next (kxInstr .vror kxVrorBody c w s)
def execKxVcmpeq (c : CoreId) (w : IWord) (s : State) : Out3 := .next (kxInstr .vcmpeq kxVcmpeqBody c w s)
def execKxVcmpne (c : CoreId) (w : IWord) (s : State) : Out3 := .next (kxInstr .vcmpne kxVcmpneBody c w s)
def execKxVcmplt (c : CoreId) (w : IWord) (s : State) : Out3 := .next (kxInstr .vcmplt kxVcmpltBody c w s)
def execKxVcmpltu (c : CoreId) (w : IWord) (s : State) : Out3 := .next (kxInstr .vcmpltu kxVcmpltuBody c w s)
def execKxVcmple (c : CoreId) (w : IWord) (s : State) : Out3 := .next (kxInstr .vcmple kxVcmpleBody c w s)
def execKxVcmpleu (c : CoreId) (w : IWord) (s : State) : Out3 := .next (kxInstr .vcmpleu kxVcmpleuBody c w s)
def execKxVsel (c : CoreId) (w : IWord) (s : State) : Out3 := .next (kxInstr .vsel kxVselBody c w s)
def execKxVperm (c : CoreId) (w : IWord) (s : State) : Out3 := .next (kxInstr .vperm kxVpermBody c w s)
def execKxVbcast (c : CoreId) (w : IWord) (s : State) : Out3 := .next (kxInstr .vbcast kxVbcastBody c w s)
def execKxVins (c : CoreId) (w : IWord) (s : State) : Out3 := .next (kxInstr .vins kxVinsBody c w s)
def execKxVext (c : CoreId) (w : IWord) (s : State) : Out3 := .next (kxInstr .vext kxVextBody c w s)
def execKxVradd (c : CoreId) (w : IWord) (s : State) : Out3 := .next (kxInstr .vradd kxVraddBody c w s)
def execKxVrmin (c : CoreId) (w : IWord) (s : State) : Out3 := .next (kxInstr .vrmin kxVrminBody c w s)
def execKxVrmax (c : CoreId) (w : IWord) (s : State) : Out3 := .next (kxInstr .vrmax kxVrmaxBody c w s)
def execKxVrand (c : CoreId) (w : IWord) (s : State) : Out3 := .next (kxInstr .vrand kxVrandBody c w s)
def execKxVrorReduction (c : CoreId) (w : IWord) (s : State) : Out3 := .next (kxInstr .vrorReduction kxVrorReductionBody c w s)
def execKxVrxor (c : CoreId) (w : IWord) (s : State) : Out3 := .next (kxInstr .vrxor kxVrxorBody c w s)
def execKxPand (c : CoreId) (w : IWord) (s : State) : Out3 := .next (kxInstr .pand kxPandBody c w s)
def execKxPor (c : CoreId) (w : IWord) (s : State) : Out3 := .next (kxInstr .por kxPorBody c w s)
def execKxPxor (c : CoreId) (w : IWord) (s : State) : Out3 := .next (kxInstr .pxor kxPxorBody c w s)
def execKxPnot (c : CoreId) (w : IWord) (s : State) : Out3 := .next (kxInstr .pnot kxPnotBody c w s)
def execKxPrange (c : CoreId) (w : IWord) (s : State) : Out3 := .next (kxInstr .prange kxPrangeBody c w s)
def execKxPcount (c : CoreId) (w : IWord) (s : State) : Out3 := .next (kxInstr .pcount kxPcountBody c w s)
def execKxPfind (c : CoreId) (w : IWord) (s : State) : Out3 := .next (kxInstr .pfind kxPfindBody c w s)
def execKxFftop (c : CoreId) (w : IWord) (s : State) : Out3 := .next (kxInstr .fftop kxFftopBody c w s)
def execKxPtoff (c : CoreId) (w : IWord) (s : State) : Out3 := .next (kxInstr .ptoff kxPtoffBody c w s)
def execKxVld (c : CoreId) (w : IWord) (s : State) : Out3 := .next (kxInstr .vld kxVldBody c w s)
def execKxVlds (c : CoreId) (w : IWord) (s : State) : Out3 := .next (kxInstr .vlds kxVldsBody c w s)
def execKxPld (c : CoreId) (w : IWord) (s : State) : Out3 := .next (kxInstr .pld kxPldBody c w s)
def execKxVst (c : CoreId) (w : IWord) (s : State) : Out3 := .next (kxInstr .vst kxVstBody c w s)
def execKxVsts (c : CoreId) (w : IWord) (s : State) : Out3 := .next (kxInstr .vsts kxVstsBody c w s)
def execKxPst (c : CoreId) (w : IWord) (s : State) : Out3 := .next (kxInstr .pst kxPstBody c w s)
def execKxVgather (c : CoreId) (w : IWord) (s : State) : Out3 := .next (kxInstr .vgather kxVgatherBody c w s)
def execKxVscatter (c : CoreId) (w : IWord) (s : State) : Out3 := .next (kxInstr .vscatter kxVscatterBody c w s)
def execKxVldff (c : CoreId) (w : IWord) (s : State) : Out3 := .next (kxInstr .vldff kxVldffBody c w s)
def execKxVgatherff (c : CoreId) (w : IWord) (s : State) : Out3 := .next (kxInstr .vgatherff kxVgatherffBody c w s)

end Sys2Proof.Machine
end

