-- ==== Sys2Proof/Machine/KnxBig.lean ====
section
/-!
DEFINITION. KnxBig: the big-integer instructions of the Knaxa core (R264, R265).
-/
namespace Sys2Proof.Machine

/-- 2 to the width of a group in bits. -/
def gTop (w : IWord) : Nat := 2 ^ (256 * gfOf w)

/-- Write the group vd and, when given, the carry predicate. -/
def bigWrite (lat : Nat) (c : Nat) (w : IWord) (v : Nat) (carry : Bool) (s : State) : State :=
  (s.updCore c fun k => (k.setGrp (rdOf w) v (gfOf w)).setCarry (pgOf w) carry).retire c lat []

def kxVadcBody : KxBody := fun c w s =>
  let k := s.core c
  let r := addCarry (256 * gfOf w) (k.va w) (k.vb w) (k.carry (pgOf w))
  bigWrite (byGf w 2 2 3) c w r.1 r.2 s

def kxVsbbBody : KxBody := fun c w s =>
  let k := s.core c
  let r := subBorrow (256 * gfOf w) (k.va w) (k.vb w) (k.carry (pgOf w))
  bigWrite (byGf w 2 2 3) c w r.1 r.2 s

def kxVcshlBody : KxBody := fun c w s =>
  let k := s.core c
  let r := addCarry (256 * gfOf w) (k.va w) (k.va w) (k.carry (pgOf w))
  bigWrite (byGf w 2 2 3) c w r.1 r.2 s

/-- The full product of the groups va and vb into the 2·f registers from vd. -/
def kxVmulwBody : KxBody := fun c w s =>
  let k := s.core c
  (s.setCore c (k.setGrp (rdOf w) (k.va w * k.vb w) (2 * gfOf w))).retire c (byGf w 6 8 12) []

/-- The operands of VMONT: T, a, B, N, N′ (R265). -/
structure Mont where
  t : Nat
  a : Nat
  b : Nat
  n : Nat
  n' : Nat
deriving DecidableEq, Repr

def Core.mont (k : Core) (w : IWord) : Mont :=
  ⟨k.vd w + gTop w * k.carry (pgOf w), (k.rv (rdOf w + gfOf w)).toNat, k.va w, k.vb w, (k.rv (rbOf w + gfOf w)).toNat⟩

/-- The conditions under which R265 states the result. -/
def Mont.valid (m : Mont) : Bool :=
  m.n % 2 == 1 && m.n * m.n' % 2 ^ 256 == 2 ^ 256 - 1 && m.b < m.n && m.t < 2 * m.n

/-- {c, vd} after the step. -/
def Mont.result (m : Mont) : Nat :=
  let u := m.t + m.a * m.b
  (u + u % 2 ^ 256 * m.n' % 2 ^ 256 * m.n) / 2 ^ 256

/-- Outside the conditions of R265 the result is unspecified: a free value. -/
def kxVmontBody : KxBody := fun c w s =>
  let m := (s.core c).mont w
  let (r, s) := if m.valid then (m.result, s) else s.drawFree
  bigWrite (byGf w 8 10 14) c w (r % gTop w) (bitOf r (256 * gfOf w)) s

def kxVredmBody : KxBody := fun c w s =>
  let k := s.core c
  let t := k.vd w + gTop w * k.carry (pgOf w)
  bigWrite (byGf w 2 2 3) c w (if k.vb w ≤ t then t - k.vb w else t) false s

def execKxVadc (c : CoreId) (w : IWord) (s : State) : Out3 := .next (kxInstr .vadc kxVadcBody c w s)
def execKxVsbb (c : CoreId) (w : IWord) (s : State) : Out3 := .next (kxInstr .vsbb kxVsbbBody c w s)
def execKxVcshl (c : CoreId) (w : IWord) (s : State) : Out3 := .next (kxInstr .vcshl kxVcshlBody c w s)
def execKxVmulw (c : CoreId) (w : IWord) (s : State) : Out3 := .next (kxInstr .vmulw kxVmulwBody c w s)
def execKxVmont (c : CoreId) (w : IWord) (s : State) : Out3 := .next (kxInstr .vmont kxVmontBody c w s)
def execKxVredm (c : CoreId) (w : IWord) (s : State) : Out3 := .next (kxInstr .vredm kxVredmBody c w s)

end Sys2Proof.Machine
end

