-- ==== Sys2Proof/Machine/KnxSystem.lean ====
section
/-!
DEFINITION. KnxSystem: control registers, system instructions, clay mode, clock requests, sleep and interrupts of a Knaxa core
(R189 to R204, R221, R232, R237 to R248, R316, R326).
-/
namespace Sys2Proof.Machine

/-! ## Rights of control registers (R190, R248) -/

/-- The lowest levels that read and write a control register; none for an unlisted number. -/
def crRights (k : Core) (x : Nat) : Option (Nat × Option Nat) :=
  let star := if k.cr 0x060 % 2 = 1 then 0 else 1
  if 0x010 ≤ x && x ≤ 0x01E then some (1, some 1)
  else match x with
  | 0x000 => some (0, some 1)
  | 0x001 | 0x002 => some (1, some 1)
  | 0x003 => some (1, none)
  | 0x020 | 0x028 | 0x030 | 0x031 | 0x032 | 0x033 | 0x060 | 0x070 => some (1, some 1)
  | 0x021 | 0x029 | 0x02B | 0x038 | 0x039 | 0x071 => some (2, some 2)
  | 0x022 | 0x02A | 0x072 => some (3, some 3)
  | 0x040 => some (0, none)
  | 0x041 => some (1, none)
  | 0x050 | 0x051 => some (star, some 2)
  | 0x100 | 0x101 | 0x110 | 0x120 => some (1, some 1)
  | 0x111 | 0x112 => some (0, some 1)
  | 0x121 => some (1, none)
  | _ => none

/-- The top frame may be reached from the core's world (R191). -/
def Core.topFrame (k : Core) : Option Frame :=
  match k.frames with
  | [] => none
  | f :: _ => if !k.hard && bitOf f.status.toNat 2 then none else some f

/-- Change the top frame, when it may be reached. -/
def Core.setTop (k : Core) (f : Frame → Frame) : Core :=
  match k.topFrame with
  | none => k
  | some t => { k with frames := f t :: k.frames.drop 1 }

/-- DVFSSTAT (R248). -/
def Core.dvfsStat (k : Core) : Nat :=
  k.curMhz + k.granted * 2 ^ 16 + k.limits * 2 ^ 32 + b2n k.dvfsPending * 2 ^ 37 + k.changes * 2 ^ 48

/-- The value a control register reads. CYCLE advances by a free number of cycles between reads. -/
def State.crRead (s : State) (c x : Nat) : Nat × State :=
  let k := s.core c
  if 0x010 ≤ x && x ≤ 0x01E then
    ((match k.topFrame with | none => 0 | some f => (f.gs.getD (x - 0x010) 0).toNat), s)
  else match x with
  | 0x000 => (k.status, s)
  | 0x001 => ((match k.topFrame with | none => 0 | some f => f.pc.toNat), s)
  | 0x002 => ((match k.topFrame with | none => 0 | some f => f.status.toNat), s)
  | 0x003 => (k.depth, s)
  | 0x040 => ((s.logicalOf c).getD 0, s)
  | 0x041 => (c, s)
  | 0x050 =>
    let (d, s) := s.drawFree
    let v := (k.cr 0x050 + d) % 2 ^ 64
    (v, s.updCore c fun k => k.setCr 0x050 v)
  | 0x121 => (k.dvfsStat, s.updCore c fun k => { k with changes := 0 })
  | _ => (k.cr x, s)

/-- A guest that reaches for a register of V (R189, R210). -/
def Core.guestV (k : Core) (lowest : Nat) : Bool := k.guest && lowest == 2

/-- rd ← control register x. -/
def kxCrrBody : KxBody := fun c w s =>
  let k := s.core c
  let x := ifld w 11 0
  match crRights k x with
  | none => s.illegal c w
  | some (r, _) =>
    if k.level < r then s.privFault c w (k.guestV r)
    else
      let (v, s) := s.crRead c x
      (s.updCore c fun k => k.setg (rdOf w) (w64 v)).retire c 2 []
def execKxCrr (c : CoreId) (w : IWord) (s : State) : Out3 := .next (kxInstr .crr kxCrrBody c w s)

/-- CRR DVFSSTAT. -/
def execKxDvfsstatRead (c : CoreId) (w : IWord) (s : State) : Out3 :=
  .next (if ifld w 11 0 = 0x121 then kxInstr .crr kxCrrBody c w s else s)

/-! ## Clocks (R244, R245) -/

/-- A boost slot of the core's rail is free for it (R244). -/
def State.boostFree (s : State) (c : Nat) : Bool :=
  3000 < (s.core c).granted ||
    (s.cores.filter fun p => p.1 != c && coreRail p.1 == coreRail c && 3000 < p.2.granted).length < 2

/-- The request of DVFSCTL: rounded down to 100 MHz and clamped to 800 to 3,600. -/
def dvfsRequest (target : Nat) : Nat := max 800 (min 3600 (target / 100 * 100))

/-- The highest frequency of the plan that the acknowledged voltage of a faulted rail supports (R389). -/
def State.railCap (s : State) (c : Nat) : Nat :=
  if s.rb Reg.PWR_RAIL.fault (coreHalf c) (coreRail c) then
    s.planSupports (coreHalf c) (coreDom c) (s.rf Reg.PWR_RAIL.set_mv (coreHalf c) (coreRail c))
  else 3600

/-- The thermal limit of a core: 800 MHz while its half has tripped (R391). -/
def State.thermalCap (s : State) (c : Nat) : Nat :=
  if s.rb Reg.PWR_POWER.trip (coreHalf c) then 800 else (s.core c).capThermal

/-- What protective reductions leave a core, whatever its floor (R150): a trip and a rail's fault. -/
def State.protectCap (s : State) (c : Nat) : Nat :=
  min (if s.rb Reg.PWR_POWER.trip (coreHalf c) then 800 else 3600) (s.railCap c)

/-- The grant and the limits that applied, in the order of DVFSSTAT. FALLOW grants no boost (R396). A rail's fault caps the
grant as the plan does (R389). -/
def State.dvfsGrant (s : State) (c : Nat) : Nat × Nat :=
  let k := s.core c
  let req := dvfsRequest (k.cr 0x120 % 4096)
  let wth := min (s.rf Reg.WTH_FMAX.fmax_mhz (coreHalf c) (coreDom c)) (s.railCap c)
  let thermal := s.thermalCap c
  let safe := if s.sys.trimmed then 3600 else 2400
  let g := min (min req k.capPower) (min thermal (min wth safe))
  let boost := 3000 < g && (!s.boostFree c || s.sys.mode = .fallow)
  let g2 := if boost then 3000 else g
  (g2, b2n (k.capPower < req) + 2 * b2n (thermal < req) + 4 * b2n (wth < req) + 8 * b2n (safe < req) + 16 * b2n boost)

/-! ### Voltage (R245, R387, R388) -/

def State.rail (s : State) (r : Nat) : Option RailReq := SMap.get none s.pwr.rails r

def State.setRail (s : State) (r : Nat) (x : Option RailReq) : State :=
  { s with pwr := { s.pwr with rails := SMap.set none s.pwr.rails r x } }

/-- A request of four failed attempts waits for the retry of each second. -/
def RailReq.flying (x : RailReq) : Bool := x.fails < 4

/-- A voltage is written to a rail; while a request is in flight it is combined with the next. -/
def State.railAsk (s : State) (r mv : Nat) : State :=
  let first := (s.setRail r (some ⟨mv, 0, none⟩)).setf Reg.PWR_RAIL.retries (s.railHalf r) 0 r
  match s.rail r with
  | some x => if x.flying then s.setRail r (some { x with next := some (max mv (x.next.getD 0)) }) else first
  | none => first

/-- The highest voltage that any domain on an AVS rail needs (R245, R388): of a VCORE rail its cores, for the clock in force and the one
granted, of VMESH the mesh, of VSILT the clusters whose engines have power. -/
def State.railNeed (s : State) (r : Nat) : Nat :=
  if r < 4 then
    s.cores.foldl (fun n p =>
      if coreRail p.1 == r && p.2.run != .off then max n (s.planMv (coreHalf p.1) (coreDom p.1) (max p.2.curMhz p.2.granted)) else n) 600
  else if r < 6 then s.planMv (r - 4) 144 (if SMap.get false s.sys.meshSlow (r - 4) then 1500 else 2000)
  else (List.range 8).foldl (fun n k =>
    if s.domState (r - 6) (136 + k) = 0 then max n (s.planMv (r - 6) (136 + k) 1800) else n) 650

/-- A grant that needs a higher voltage has its rail raised. A faulted rail is left to its retry (R389). -/
def State.railRaise (s : State) (c : Nat) : State :=
  let r := coreRail c
  let need := s.railNeed r
  let asked := match s.rail r with
    | some x => max x.target (x.next.getD 0)
    | none => s.rf Reg.PWR_RAIL.set_mv (s.railHalf r) r
  if s.rb Reg.PWR_RAIL.fault (s.railHalf r) r || need ≤ asked then s else s.railAsk r need

/-- Tilth grants anew: what would fall below the floor of a held domain is latched and the floor granted, unless Hardpan asked for
it (R148, R244); a protective reduction is applied whatever the floor, with secure EV 0x074 (R150). -/
def State.regrant (s : State) (c : Nat) (latches : Bool) : State :=
  let h := coreHalf c
  let d := coreDom c
  let (g, lim) := s.dvfsGrant c
  let floor := if s.rb Reg.PWR_HOLD.hold h d && latches then s.rf Reg.PWR_HOLD.floor_mhz h d else 0
  let n := max g (min floor (s.protectCap c))
  let s := if n < floor && n < (s.core c).granted then s.raise 0x074 .hardpan h d else s
  let s :=
    if g < n then
      ((s.setf Reg.PWR_HOLD.pend_scale h 1 d).setf Reg.PWR_HOLD.pend_mhz h g d).setf Reg.PWR_HOLD.last_status h
        Status.pendingHeld d
    else (s.setf Reg.PWR_HOLD.pend_scale h 0 d).setf Reg.PWR_HOLD.pend_mhz h 0 d
  let pend := g < n || s.rb Reg.PWR_HOLD.pend_off h d
  (s.updCore c fun k => { k with granted := n, limits := lim, dvfsPending := pend }).railRaise c

/-- A core's request is answered in its domain's hold register: OK, unless the grant is latched (R147). -/
def State.dvfsAsk (s : State) (c : Nat) (latches : Bool) : State :=
  (s.setf Reg.PWR_HOLD.last_status (coreHalf c) Status.ok (coreDom c)).regrant c latches

/-- The acknowledged voltage of a core's rail supports its grant. -/
def State.voltageReady (s : State) (c : Nat) : Bool :=
  s.planMv (coreHalf c) (coreDom c) (s.core c).granted ≤ s.rf Reg.PWR_RAIL.set_mv (s.railHalf (coreRail c)) (coreRail c)

/-- A granted clock change completes: a rise waits for the rail's acknowledged voltage, and a change asked for in doze or slumber
for the wake (R245, R246). -/
def execDvfsChangeDone (c : CoreId) (s : State) : Out3 :=
  let k := s.core c.val
  .next (
    if k.curMhz = k.granted || k.run = .doze || k.run = .slumber || (k.curMhz < k.granted && !s.voltageReady c.val) then s
    else s.updCore c.val fun k => { k with curMhz := k.granted, changes := min 0xFF (k.changes + 1) })

/-! ## Writes of control registers -/

/-- The bits a plain control register keeps. -/
def crMask (k : Core) (x : Nat) : Nat :=
  match x with
  | 0x020 | 0x021 | 0x022 => 2 ^ 64 - 2 ^ 12
  | 0x030 => if 2 ≤ k.level then 3 else 1
  | 0x031 | 0x032 | 0x038 => 2 ^ 52 - 2 ^ 12
  | 0x033 | 0x039 => 2 ^ 16 - 1
  | 0x060 | 0x100 => 3
  | _ => 2 ^ 64 - 1

/-- Replace the bits of a mask. -/
def maskIn (old mask v : Nat) : Nat := (old &&& (2 ^ 64 - 1 - mask)) ||| (v &&& mask)

/-- ESTATUS: K may set level to 0 or 1 and ie; V also level 2 and guest; M every field but cause and syndrome (R190). -/
def estatusWrite (k : Core) (old v : Nat) : Nat :=
  let lvl := v % 4
  let m := if k.hard then 2 ^ 0 * 3 + 4 + 8 + 16 + 64
    else (if lvl ≤ k.level then 3 else 0) + 8 + (if k.level = 2 then 16 else 0)
  maskIn old m v

/-- PREDCTL without its flush bit (R248). -/
def predMask (k : Core) : Nat := 3 + 16 + (if k.hard then 4 else 0) + (if 2 ≤ k.level then 32 else 0)

/-- The effect of a CWR on a core's own registers. -/
def Core.crWrite (k : Core) (x v : Nat) : Core :=
  if 0x010 ≤ x && x ≤ 0x01E then k.setTop fun f => { f with gs := f.gs.set (x - 0x010) (w64 v) }
  else match x with
  | 0x000 => { k with ie := bitOf v 3, sie := if k.hard then bitOf v 6 else k.sie }
  | 0x001 => k.setTop fun f => { f with pc := w64 v }
  | 0x002 => k.setTop fun f => { f with status := w64 (estatusWrite k f.status.toNat v) }
  | 0x033 =>
    let k := k.setCr x (v % 2 ^ 16)
    if bitOf (k.cr 0x101) 4 then k.flushRealms [0] else k
  | 0x039 =>
    let k := k.setCr x (v % 2 ^ 16)
    if bitOf (k.cr 0x101) 5 then k.flushRealms [0, 1] else k
  | 0x101 =>
    let k := k.setCr x (maskIn (k.cr x) (predMask k) v)
    if bitOf v 8 then k.flushRealms (if k.hard then [0, 1, 2] else [0, 1]) else k
  | 0x120 =>
    let tgt := if k.guest && bitOf (k.cr x) 16 then 0 else 0xFFF
    k.setCr x (maskIn (k.cr x) (tgt + if 2 ≤ k.level then 2 ^ 16 else 0) v)
  | _ => k.setCr x (maskIn (k.cr x) (crMask k x) v)

/-- CWR CLAYCTL: on = 1 waits for the store buffer, writes back and invalidates the caches and waits for the entry to
finish, with interrupts held meanwhile; on = 0 leaves clay mode (R241). -/
def State.clayWrite (s : State) (c : Nat) (w : IWord) (on : Bool) : State :=
  let k := s.core c
  if on && !k.clay then
    if !k.sb.isEmpty then s.updCore c fun k => { k with wait := .clayDrain w }
    else ((s.flushCore c).retire c 2 []).updCore c fun k => { k.setCr 0x110 1 with wait := .clayEntry, fetchBuf := none }
  else if !on && k.clay then ((s.retire c 2 []).updCore c fun k => { k.setCr 0x110 0 with fetchBuf := none }).clayChanged
  else s.retire c 2 []

/-- Control register x ← ra. -/
def kxCwrBody : KxBody := fun c w s =>
  let k := s.core c
  let x := ifld w 11 0
  let v := (k.ra w).toNat
  match crRights k x with
  | none => s.illegal c w
  | some (_, none) => s.illegal c w
  | some (_, some l) =>
    if k.level < l then s.privFault c w (k.guestV l)
    else if x = 0x110 then s.clayWrite c w (v % 2 == 1)
    else
      let s := s.setCore c (k.crWrite x v)
      (if x = 0x120 then s.dvfsAsk c (!k.hard) else s).retire c 2 []
def execKxCwr (c : CoreId) (w : IWord) (s : State) : Out3 := .next (kxInstr .cwr kxCwrBody c w s)

/-- CWR of PREDCTL, ASID or VMID. -/
def execKxPredctlFlush (c : CoreId) (w : IWord) (s : State) : Out3 :=
  .next (if [0x101, 0x033, 0x039].contains (ifld w 11 0) then kxInstr .cwr kxCwrBody c w s else s)

/-- CWR of CLAYCTL. -/
def execKxClayctlWrite (c : CoreId) (w : IWord) (s : State) : Out3 :=
  .next (if ifld w 11 0 = 0x110 then kxInstr .cwr kxCwrBody c w s else s)

/-- CWR of DVFSCTL. -/
def execKxDvfsctlWrite (c : CoreId) (w : IWord) (s : State) : Out3 :=
  .next (if ifld w 11 0 = 0x120 then kxInstr .cwr kxCwrBody c w s else s)

/-- The entry into clay mode finishes and counting starts (R241 step 3). -/
def execClayEntryDone (c : CoreId) (s : State) : Out3 :=
  .next (if (s.core c.val).wait = .clayEntry then (s.updCore c.val fun k => { k with wait := .none }).clayChanged else s)

/-! ## Calls and return (R198, R202, R203) -/

/-- An instruction whose effect is an exception with the next instruction saved: it counts as retired. -/
def State.callExc (s : State) (c : Nat) (f : Flt) (charge off : Nat) : State :=
  let pc := (s.core c).pc
  (s.countRetired c charge []).takeExc c f (pc + 4) off 0

def kxSvcBody : KxBody := fun c w s =>
  if (s.core c).hard then s.illegal c w else s.callExc c (simpleFlt Cause.svc (ifld w 11 0)) 1 0
def execKxSvc (c : CoreId) (w : IWord) (s : State) : Out3 := .next (kxInstr .svc kxSvcBody c w s)

def kxHvcBody : KxBody := fun c w s =>
  if (s.core c).hard then s.illegal c w else s.callExc c (simpleFlt Cause.hvc (ifld w 11 0)) 1 0
def execKxHvc (c : CoreId) (w : IWord) (s : State) : Out3 := .next (kxInstr .hvc kxHvcBody c w s)

/-- BRK saves its own address. -/
def kxBrkBody : KxBody := fun c w s =>
  (s.updCore c fun k => k.clayAccount 1 k.pc.toNat []).fault c (simpleFlt Cause.brk (ifld w 11 0))
def execKxBrk (c : CoreId) (w : IWord) (s : State) : Out3 := .next (kxInstr .brk kxBrkBody c w s)

/-- HPCALL (R202). -/
def kxHpcallBody : KxBody := fun c w s =>
  let k := s.core c
  if k.hard then s.illegal c w
  else if k.guest then s.privFault c w true
  else if s.hpPresent (coreHalf c) then s.callExc c (simpleFlt Cause.hpcall 0) 40 0x300
  else
    let st := if s.sys.mode = .seal then Status.sealed else Status.hpAbsent
    (s.setCore c (k.setg 1 (w64 st))).retire c 40 []
def execHpcall (c : CoreId) (w : IWord) (s : State) : Out3 := .next (kxInstr .hpcall kxHpcallBody c w s)

def kxEretBody : KxBody := fun c w s =>
  let k := s.core c
  match k.frames with
  | [] => s.illegal c w
  | f :: rest =>
    let st := f.status.toNat
    if k.level < st % 4 || (!k.hard && bitOf st 2) then s.privFault c w false
    else
      let s := (s.countRetired c 16 []).updCore c fun k => k.return_ f rest (ifld w 3 0)
      s.debugAfter c (s.core c).pc []
def execKxEret (c : CoreId) (w : IWord) (s : State) : Out3 := .next (kxInstr .eret kxEretBody c w s)

/-! ## Fences, time and translation caches (R200, R201, R204, R221) -/

/-- Retire once the store buffer is empty. -/
def kxOrdered (charge : Nat) (f : Nat → IWord → State → State) : KxBody := fun c w s =>
  if s.sbEmpty c then (f c w s).retire c charge [] else s.waitInstr c w

def kxFenceBody : KxBody := kxOrdered 1 fun _ _ s => s
def execKxFence (c : CoreId) (w : IWord) (s : State) : Out3 := .next (kxInstr .fence kxFenceBody c w s)

/-- Device stores retire when their target has taken them, so none of this core is in flight here. -/
def kxFenceAckBody : KxBody := kxOrdered 8 fun _ _ s => s
def execKxFenceAck (c : CoreId) (w : IWord) (s : State) : Out3 := .next (kxInstr .fenceAck kxFenceAckBody c w s)

/-- ISYNC fetches anew (R201): clay mode's fetch buffer empties too (R240). -/
def kxIsyncBody : KxBody := kxOrdered 1 fun c _ s => s.updCore c fun k => { k with fetchBuf := none }
def execKxIsync (c : CoreId) (w : IWord) (s : State) : Out3 := .next (kxInstr .isync kxIsyncBody c w s)

def kxRdstrataBody : KxBody := fun c w s =>
  let k := s.core c
  if k.level = 0 && !bitOf (k.cr 0x060) 1 then s.privFault c w false
  else
    let t := strataBits (s.replica (coreStop c))
    (s.setCore c ((k.setg (rdOf w) (w64 t)).setg (rdOf w + 1) (w64 (t / 2 ^ 64)))).retire c 20 []
def execKxRdstrata (c : CoreId) (w : IWord) (s : State) : Out3 := .next (kxInstr .rdstrata kxRdstrataBody c w s)

/-- A cached translation that a TLBI removes (R221): the operand's kind and value, issued by core `k`. -/
def tlbiHits (k : Core) (kind v : Nat) (t : TlbEntry) : Bool :=
  let inVm := if k.guest then t.vmid == k.vmidTag else true
  match kind with
  | 0 => inVm && bitsOf (t.vpn * 4096) 47 0 / t.leafSize == v % 2 ^ 48 / t.leafSize
      && (t.asid == none || t.asid == some (bitsOf v 63 48))
  | 1 => inVm && t.asid == some (v % 2 ^ 16)
  | 2 => if k.guest then t.vmid == k.vmidTag else t.vmid == none || t.vmid == some (k.cr 0x039 % 65536)
  | _ => t.vmid == some (v % 2 ^ 16)

/-- Remove matching entries from every core of both halves. -/
def State.tlbi (s : State) (k : Core) (kind v : Nat) : State :=
  (SMap.keys s.cores).foldl (fun s c => s.updCore c fun o => { o with tlb := o.tlb.filter fun t => !tlbiHits k kind v t }) s

/-- The physical addresses of a core's accesses in flight: its stores in the store buffer and its device elements. -/
def Core.inFlight (k : Core) : List Nat :=
  k.sb.map (·.pa) ++ (match k.wait with | .device _ left _ => left.map Prod.fst | _ => [])

/-- The accesses in flight that a TLBI waits for, as core and physical address: those in the pages of the entries it removes. -/
def State.tlbiLeft (s : State) (k : Core) (kind v : Nat) : List (Nat × Nat) :=
  (SMap.keys s.cores).flatMap fun c =>
    let o := s.core c
    let pages := (o.tlb.filter (tlbiHits k kind v)).map (·.page)
    (o.inFlight.filter fun pa => pages.contains (pa / 4096)).map fun pa => (c, pa)

/-- TLBI waits for this core's stores, removes the entries, and retires once every access translated under them is done. -/
def kxTlbiBody : KxBody := fun c w s =>
  let k := s.core c
  let kind := ifld w 1 0
  let v := (k.ra w).toNat
  if kind = 3 && k.level < 2 then s.privFault c w k.guest
  else if !s.sbEmpty c then s.waitInstr c w
  else
    let left := s.tlbiLeft k kind v
    let s := s.tlbi k kind v
    if left.isEmpty then s.retire c 40 [] else s.updCore c fun k => { k with wait := .tlbi w left }
def execKxTlbi (c : CoreId) (w : IWord) (s : State) : Out3 := .next (kxInstr .tlbi kxTlbiBody c w s)

/-! ## Sleep (R246, R247) -/

def kxWfiDozeBody : KxBody := fun c w s =>
  if s.sbEmpty c then (s.retire c 40 []).updCore c fun k => { k with run := .doze } else s.waitInstr c w
def execKxWfiDoze (c : CoreId) (w : IWord) (s : State) : Out3 := .next (kxInstr .wfiDoze kxWfiDozeBody c w s)

/-- Slumber: PRIV to V from a guest; a held domain only dozes and latches the power-off, but a Hardpan core's own request
takes effect. -/
def kxWfiSlumberBody : KxBody := fun c w s =>
  let k := s.core c
  let h := coreHalf c
  let d := coreDom c
  if k.guest then s.privFault c w true
  else if !s.sbEmpty c then s.waitInstr c w
  else if s.rb Reg.PWR_HOLD.hold h d && !s.coreIsHardpan c then
    let s := (s.setf Reg.PWR_HOLD.pend_off h 1 d).setf Reg.PWR_HOLD.last_status h Status.pendingHeld d
    (s.retire c 40 []).updCore c fun k => { k with run := .doze, dvfsPending := true }
  else
    let s := s.setf Reg.PWR_HOLD.last_status h Status.ok d
    ((s.flushCore c).retire c 40 []).updCore c fun k => { k.flushRealms [0, 1, 2] with run := .slumber, tlb := [] }
def execKxWfiSlumber (c : CoreId) (w : IWord) (s : State) : Out3 := .next (kxInstr .wfiSlumber kxWfiSlumberBody c w s)

/-! ## Interrupts (R208, R209, R237, R316) -/

/-- The core may take an interrupt at its present boundary: no atomic or device access has left it, no vector store is part of the
way into the store buffer (log entry 252), and no clay entry runs. -/
def Core.atBoundary (k : Core) : Bool :=
  k.run == .running && !k.debugHalt &&
    (match k.wait with | .none => true | .instr _ => true | .tlbi _ _ => true | _ => false)

/-- The level whose signal the core takes now: 2 secure, 1 V, 0 K; V before K when both are takeable. -/
def State.takeable (s : State) (c : Nat) : Option Nat :=
  let k := s.core c
  match s.logicalOf c with
  | none => none
  | some l =>
    let sig := fun lv => (s.candidate l lv).isSome
    let secure := sig 2 && (if k.hard then k.sie && k.depth < 15 else true)
    let room := k.depth < 13
    let v := sig 1 && !k.hard && room && (if k.level = 2 then k.ie else true)
    let kk := sig 0 && !k.hard && room && k.level != 2 && (k.guest || k.level == 0 || k.ie)
    if secure then some 2 else if v then some 1 else if kk then some 0 else none

/-- A WFI that waits for the store buffer retires before an interrupt is taken (R237). -/
def State.retireWfi (s : State) (c : Nat) : State :=
  match (s.core c).wait with
  | .instr w => if kxOp w = some .wfiDoze || kxOp w = some .wfiSlumber then s.retire c 40 [] else s
  | _ => s

/-- Take a signal: the saved pc is the next instruction (R207). -/
def State.takeSignal (s : State) (c lv : Nat) : State :=
  let s := s.retireWfi c
  let pc := (s.core c).pc
  match lv with
  | 2 => s.takeExc c (simpleFlt Cause.secureInt 0) pc 0x200 0
  | 1 => s.takeExc c (simpleFlt Cause.interrupt 0) pc 0x100 2
  | _ => s.takeExc c (simpleFlt Cause.interrupt 0) pc 0x100 1

/-- A takeable Topsoil interrupt is taken; a secure one that may be taken goes first, and then this one waits. -/
def execInterrupt (c : CoreId) (s : State) : Out3 :=
  .next (if (s.core c.val).atBoundary then
    match s.takeable c.val with
    | some 1 => s.takeSignal c.val 1
    | some 0 => s.takeSignal c.val 0
    | _ => s
  else s)

/-- A takeable secure interrupt is taken to M. -/
def execSecureInt (c : CoreId) (s : State) : Out3 :=
  .next (if (s.core c.val).atBoundary && s.takeable c.val == some 2 then s.takeSignal c.val 2 else s)

/-- A source that wakes logical core `l` (R326): enabled, pending, direct and aimed at it, unless held. -/
def State.wakes (s : State) (l key : Nat) : Bool :=
  let h := s.keyHalf key
  let id := keyId key
  (s.evPend key).pending && s.rb Reg.EVH_SRC.enable h id && !s.queued h id && s.keyTarget key == l
    && (if s.keyLevel key = 2 then s.isHardpanCore l || s.hpPresent (l / 128) else !s.rb Reg.EVH_HOLD.hold (l / 128))

/-- A wake source reaches a dozing or slumbering core, which resumes or takes an interrupt (R246, R247); a latched power-off is
cancelled, the core being asked to run (R148). -/
def execCoreWake (c : CoreId) (s : State) : Out3 :=
  let k := s.core c.val
  .next (match s.logicalOf c.val with
  | none => s
  | some l =>
    if (k.run == .doze || k.run == .slumber) && (SMap.keys s.evh.pend).any (s.wakes l) then
      let s := s.setf Reg.PWR_HOLD.pend_off (coreHalf c.val) 0 (coreDom c.val)
      let scale := s.rb Reg.PWR_HOLD.pend_scale (coreHalf c.val) (coreDom c.val)
      let s := s.updCore c.val fun k => { k with run := .running, dvfsPending := k.dvfsPending && scale }
      match s.takeable c.val with
      | some lv => s.takeSignal c.val lv
      | none => s
    else s)

end Sys2Proof.Machine
end

