-- ==== Sys2Proof/Machine/Coherence.lean ====
section
/-!
DEFINITION. Coherence: instructions tried again after a wait, the store buffer's drain, and the transactions of the home
slices (chapter "Memory model and coherence", R275, R280 to R292).
-/
namespace Sys2Proof.Machine

/-! ## Instructions tried again -/

/-- The meaning of each Knaxa instruction, for a core that waited. -/
def kxBody : KxOp → KxBody
  | .add => kxAddBody
  | .sub => kxSubBody
  | .and => kxAndBody
  | .or => kxOrBody
  | .xor => kxXorBody
  | .andn => kxAndnBody
  | .sll => kxSllBody
  | .srl => kxSrlBody
  | .sra => kxSraBody
  | .ror => kxRorBody
  | .slt => kxSltBody
  | .sltu => kxSltuBody
  | .min => kxMinBody
  | .max => kxMaxBody
  | .minu => kxMinuBody
  | .maxu => kxMaxuBody
  | .clz => kxClzBody
  | .ctz => kxCtzBody
  | .popc => kxPopcBody
  | .bswap => kxBswapBody
  | .mul => kxMulBody
  | .mulh => kxMulhBody
  | .mulhu => kxMulhuBody
  | .div => kxDivBody
  | .divu => kxDivuBody
  | .rem => kxRemBody
  | .remu => kxRemuBody
  | .addi => kxAddiBody
  | .andi => kxAndiBody
  | .ori => kxOriBody
  | .xori => kxXoriBody
  | .shi => kxShiBody
  | .movz => kxMovzBody
  | .movk => kxMovkBody
  | .ld => kxLdBody
  | .lw => kxLwBody
  | .lws => kxLwsBody
  | .lh => kxLhBody
  | .lhs => kxLhsBody
  | .lb => kxLbBody
  | .lbs => kxLbsBody
  | .sd => kxSdBody
  | .sw => kxSwBody
  | .sh => kxShBody
  | .sb => kxSbBody
  | .pref => kxPrefBody
  | .bcc => kxBccBody
  | .bzcc => kxBzccBody
  | .j => kxJBody
  | .jl => kxJlBody
  | .jr => kxJrBody
  | .jlr => kxJlrBody
  | .amoadd => kxAmoaddBody
  | .amoswap => kxAmoswapBody
  | .amoand => kxAmoandBody
  | .amoor => kxAmoorBody
  | .amoxor => kxAmoxorBody
  | .amosmin => kxAmosminBody
  | .amosmax => kxAmosmaxBody
  | .amoumin => kxAmouminBody
  | .amoumax => kxAmoumaxBody
  | .cas => kxCasBody
  | .crr => kxCrrBody
  | .cwr => kxCwrBody
  | .svc => kxSvcBody
  | .hvc => kxHvcBody
  | .brk => kxBrkBody
  | .hpcall => kxHpcallBody
  | .eret => kxEretBody
  | .fence => kxFenceBody
  | .fenceAck => kxFenceAckBody
  | .isync => kxIsyncBody
  | .rdstrata => kxRdstrataBody
  | .tlbi => kxTlbiBody
  | .wfiDoze => kxWfiDozeBody
  | .wfiSlumber => kxWfiSlumberBody
  | .vadd => kxVaddBody
  | .vsub => kxVsubBody
  | .vmul => kxVmulBody
  | .vmulh => kxVmulhBody
  | .vmulhu => kxVmulhuBody
  | .vmin => kxVminBody
  | .vmax => kxVmaxBody
  | .vminu => kxVminuBody
  | .vmaxu => kxVmaxuBody
  | .vabs => kxVabsBody
  | .vneg => kxVnegBody
  | .vand => kxVandBody
  | .vor => kxVorBody
  | .vxor => kxVxorBody
  | .vandn => kxVandnBody
  | .vsll => kxVsllBody
  | .vsrl => kxVsrlBody
  | .vsra => kxVsraBody
  | .vror => kxVrorBody
  | .vcmpeq => kxVcmpeqBody
  | .vcmpne => kxVcmpneBody
  | .vcmplt => kxVcmpltBody
  | .vcmpltu => kxVcmpltuBody
  | .vcmple => kxVcmpleBody
  | .vcmpleu => kxVcmpleuBody
  | .vsel => kxVselBody
  | .vperm => kxVpermBody
  | .vbcast => kxVbcastBody
  | .vins => kxVinsBody
  | .vext => kxVextBody
  | .vradd => kxVraddBody
  | .vrmin => kxVrminBody
  | .vrmax => kxVrmaxBody
  | .vrand => kxVrandBody
  | .vrorReduction => kxVrorReductionBody
  | .vrxor => kxVrxorBody
  | .pand => kxPandBody
  | .por => kxPorBody
  | .pxor => kxPxorBody
  | .pnot => kxPnotBody
  | .prange => kxPrangeBody
  | .pcount => kxPcountBody
  | .pfind => kxPfindBody
  | .fftop => kxFftopBody
  | .ptoff => kxPtoffBody
  | .vld => kxVldBody
  | .vlds => kxVldsBody
  | .pld => kxPldBody
  | .vst => kxVstBody
  | .vsts => kxVstsBody
  | .pst => kxPstBody
  | .vgather => kxVgatherBody
  | .vscatter => kxVscatterBody
  | .vldff => kxVldffBody
  | .vgatherff => kxVgatherffBody
  | .vadc => kxVadcBody
  | .vsbb => kxVsbbBody
  | .vcshl => kxVcshlBody
  | .vmulw => kxVmulwBody
  | .vmont => kxVmontBody
  | .vredm => kxVredmBody

/-- Try a word again from a core's boundary. -/
def State.kxAgain (s : State) (c : Nat) (w : IWord) : State :=
  match kxOp w with
  | some op => kxInstr op (kxBody op) (coreOf c) w (s.updCore c fun k => { k with wait := .none })
  | none => s

/-- The end of a device access whose elements have all been sent and answered (R258, R270). -/
def State.devDone (s : State) (c : Nat) (w : IWord) (got : List Nat) : State :=
  let vals := fun (form : VAddr) => (((s.core c).vRefs w form).map Prod.fst).zip got.reverse
  let vas := fun (form : VAddr) => ((s.core c).vRefs w form).map Prod.snd
  match kxOp w with
  | some .ld => kxLoadEnd false 8 c w (got.headD 0) s
  | some .lw => kxLoadEnd false 4 c w (got.headD 0) s
  | some .lws => kxLoadEnd true 4 c w (got.headD 0) s
  | some .lh => kxLoadEnd false 2 c w (got.headD 0) s
  | some .lhs => kxLoadEnd true 2 c w (got.headD 0) s
  | some .lb => kxLoadEnd false 1 c w (got.headD 0) s
  | some .lbs => kxLoadEnd true 1 c w (got.headD 0) s
  | some .vld => kxVLoadEnd .contiguous c w (vals .contiguous) s
  | some .vlds => kxVLoadEnd .strided c w (vals .strided) s
  | some .pld => kxVLoadEnd .predicate c w (vals .predicate) s
  | some .vst => s.retire c (vMemCharge w .contiguous) (vas .contiguous)
  | some .vsts => s.retire c (vMemCharge w .strided) (vas .strided)
  | some .pst => s.retire c (vMemCharge w .predicate) (vas .predicate)
  | _ => s.retire c 4 [(s.core c).ea w]

/-- A device access goes on with its next element, and ends when none is left. -/
def State.goDev (s : State) (c : Nat) (w : IWord) (left : List (Nat × Nat × Bool)) (got : List Nat) : State :=
  let s := s.sendDev c w left got
  match (s.core c).wait with
  | .device w [] got => s.devDone c w got
  | _ => s

/-- A waiting TLBI retires once every access that it waits for is done (R221). -/
def State.tlbiNote (s : State) (c : Nat) : State :=
  match (s.core c).wait with
  | .tlbi w left =>
    let left := left.filter fun p => (s.core p.1).inFlight.contains p.2
    if left.isEmpty then s.retire c 40 [] else s.updCore c fun k => { k with wait := .tlbi w left }
  | _ => s

def State.tlbiNotes (s : State) : State := (SMap.keys s.cores).foldl State.tlbiNote s

/-! ## The store buffer's drain (R275) -/

/-- What waits for the core's store buffer goes on: an instruction held back, a vector store, a device access whose next element
has not left, the entry to clay mode. -/
def State.retryInstr (s : State) (c : Nat) : State :=
  match (s.core c).wait with
  | .instr w => if (s.core c).debugHalt then s else s.kxAgain c w
  | .vstore w left => s.storeElems c w left
  | .device w left got => if s.coh.dev.any fun d => d.core.val == c then s else s.goDev c w left got
  | .clayDrain w => if s.sbEmpty c then s.kxAgain c w else s
  | _ => s

/-- The oldest store writes L1D when its line is in D or X; otherwise its line is asked for again. -/
def State.drainOne (s : State) (c : Nat) : State :=
  match (s.core c).sb with
  | [] => s
  | e :: rest =>
    let st := s.lstate c (e.pa / 64)
    if st == .d || st == .x || (s.cutOff e.pa).isSome then
      ((((s.corePut c e.pa e.bytes).updCore c fun k => { k with sb := rest }).askStores (coreOf c))).retryInstr c
    else s.askStores (coreOf c)

def execStoreBufferDrain (c : CoreId) (s : State) : Out3 := .next (s.drainOne c.val).tlbiNotes

/-! ## Directory entries (R280, R290) -/

/-- The entries of other lines that a condition on line and entry picks. -/
def State.otherLines (s : State) (line : Nat) (p : Nat → LineHome → Bool) : List (Nat × LineHome) :=
  s.coh.lines.filter fun e => e.1 != line && e.2.alloc != 0 && p e.1 e.2

/-- The least recently allocated entry. -/
def oldestLine : List (Nat × LineHome) → Option (Nat × LineHome)
  | [] => none
  | e :: es => some (es.foldl (fun b x => if x.2.alloc < b.2.alloc then x else b) e)

/-- Make room by evicting the least recently allocated of the entries that fill a place of `size`, in the way given; none while that
entry's line runs a transaction, for which the request waits. -/
def State.makeRoom (s : State) (size : Nat) (full : List (Nat × LineHome)) (go : State → Nat → State) : Option State :=
  if full.length < size then some s
  else match oldestLine full with
    | some v => if v.2.txn.isSome then none else some (go s v.1)
    | none => some s

/-- Room for a new entry in the set of the line's slice, of 24 ways: every copy of the entry that goes is invalidated, and
RAS_HOME_STATUS counts it (R280). -/
def State.directoryRoom (s : State) (line : Nat) : Option State :=
  let sl := s.homeSlice (line * 64) 0
  s.makeRoom 24 (s.otherLines line fun l _ => l % 4096 == line % 4096 && s.homeSlice (l * 64) 0 == sl) fun s v =>
    ((s.dropLine v).fillL3 v).addf Reg.RAS_HOME_STATUS.back_inval (sl / 64)

/-- The cores of half `h` that a line's far filter entry records, a requester in progress among them. -/
def LineHome.inHalf (l : LineHome) (h : Nat) : Bool :=
  (nearCores h l.holders).length != 0 || l.txn.any fun t => coreHalf t.req.core.val == h

/-- The copies of a line in half `h` are invalidated; modified data is written back to the home. -/
def State.dropLocal (s : State) (h line : Nat) : State :=
  let l := s.lineHome line
  let own := l.owner.any fun o => coreHalf o.val == h
  let s := (nearCores h l.holders).foldl (fun s c => s.setHeld c.val line .i) s
  let s := s.updLine line fun l =>
    let l := { l with sharers := farCores h l.sharers }
    let l := if own then { l with owner := none, recorded := .i, stale := none } else l
    if l.holders.isEmpty then { l with alloc := 0 } else l
  if own then s.fillL3 line else s

/-- Room in the far filter of a core's half for a line homed in the other half: the entry that goes loses its copies in this half
alone (R290). -/
def State.farRoom (s : State) (line c : Nat) : Option State :=
  let h := coreHalf c
  if s.homeHalf (line * 64) h == h || (s.lineHome line).inHalf h then some s
  else
    s.makeRoom 1048576 (s.otherLines line fun l e => s.homeHalf (l * 64) h != h && e.inHalf h) fun s v =>
      (s.dropLocal h v).addf Reg.RAS_HOME_STATUS.back_inval h

/-- The entry of a line for a request of core `c`: none while there is no room for it. -/
def State.allocLine (s : State) (line : Nat) (c : CoreId) : Option State :=
  (if (s.lineHome line).alloc != 0 then some s else s.directoryRoom line).bind fun s =>
    (s.farRoom line c.val).map fun s =>
      if (s.lineHome line).alloc != 0 then s
      else
        let n := s.coh.allocNext + 1
        { s with coh := { s.coh with allocNext := n } }.updLine line fun l => { l with alloc := n }

/-! ## Serving requests (R283 to R285) -/

/-- The request that the home takes next, when no transaction runs on the line. -/
def LineHome.next (l : LineHome) : Option HomeReq := if l.txn.isSome then none else l.queue.head?

/-- The oldest request that waits in the mesh for a slice enters its queue when that has room (R284). -/
def State.admitOne (s : State) (sl : Nat) : State :=
  match if s.homeWaiting sl < 256 then s.coh.mesh.find? fun m => s.homeSlice (m.1 * 64) 0 == sl else none with
  | some m =>
    { s with coh := { s.coh with mesh := s.coh.mesh.erase m } }.updLine m.1 fun l => { l with queue := l.queue ++ [m.2] }
  | none => s

/-- The home takes the request at the head of a line's queue. -/
def State.takeReq (s : State) (line : Nat) : State :=
  (s.updLine line fun l => { l with queue := l.queue.drop 1 }).admitOne (s.homeSlice (line * 64) 0)

/-- The requester may still access the line (R134); a refusal is recorded and the request ends. -/
def State.homeAdmits (s : State) (r : HomeReq) (acc : Acc) (line : Nat) : Bool :=
  (s.potCheck (s.coreReq r.core.val) acc (line * 64)).ok

/-- A transaction begins: the snoops that it sends, the data it needs, and the state of data that the home itself supplies; without
snoops an ownership request is granted at once. -/
def HomeTxn.begin (r : HomeReq) (now : Nat) (snoops : List (CoreId × SnpKind)) (needData : Bool) (home : Option LState) : HomeTxn :=
  { req := r, since := now, snoops := snoops, waiting := snoops.map Prod.fst, answers := [], needData := needData,
    dataMsg := home, dataFrom := none, gotData := false,
    grantMsg := (r.kind == .readOwn || r.kind == .upgrade) && snoops.isEmpty, ackMsg := false }

/-- ReadShared: the owner forwards, or the home supplies the data and the reader becomes relay or exclusive. -/
def LineHome.readShared (l : LineHome) (r : HomeReq) (now : Nat) : LineHome :=
  let others := l.sharers.filter (· != r.core)
  match l.owner with
  | some o =>
    if o = r.core then { l with txn := some (.begin r now [] false (some l.recorded)) }
    else { l with sharers := others ++ [r.core], txn := some (.begin r now [(o, .read)] true none) }
  | none =>
    let st : LState := if others.isEmpty then .x else .l
    { l with owner := some r.core, recorded := st, sharers := others, txn := some (.begin r now [] true (some st)) }

def State.serveShared (s : State) (line : Nat) (r : HomeReq) : State :=
  let q := s.coreReq r.core.val
  if !s.homeAdmits r .read line then (s.takeReq line).refuse q .read (line * 64) (s.potCheck q .read (line * 64))
  else match s.allocLine line r.core with
    | none => s
    | some s => ((s.takeReq line).updLine line fun l => l.readShared r s.strata.tick).syncNet line

def execReadShared (line : BitVec 46) (s : State) : Out3 :=
  .next (match (s.lineHome line.toNat).next with
  | some r => if r.kind = .readShared then s.serveShared line.toNat r else s
  | none => s)

/-- ReadOwn and Upgrade: every other copy is snooped; an Upgrade whose copy the home no longer records takes data too. -/
def LineHome.readOwn (l : LineHome) (r : HomeReq) (now : Nat) : LineHome :=
  let others := l.sharers.filter (· != r.core)
  let own := l.owner.filter (· != r.core)
  let needData := !(r.kind == .upgrade && l.holders.contains r.core)
  let snoops := (own.toList.map fun o => (o, SnpKind.own)) ++ others.map fun o => (o, SnpKind.inv)
  { l with txn := some (.begin r now snoops needData (if needData && own.isNone then some .d else none)) }

def State.serveOwn (s : State) (line : Nat) (r : HomeReq) : State :=
  match s.allocLine line r.core with
  | none => s
  | some s => ((s.takeReq line).updLine line fun l => l.readOwn r s.strata.tick).syncNet line

def execReadOwn (line : BitVec 46) (s : State) : Out3 :=
  .next (match (s.lineHome line.toNat).next with
  | some r => if r.kind = .readOwn then s.serveOwn line.toNat r else s
  | none => s)

def execUpgrade (line : BitVec 46) (s : State) : Out3 :=
  .next (match (s.lineHome line.toNat).next with
  | some r => if r.kind = .upgrade then s.serveOwn line.toNat r else s
  | none => s)

/-- NearAtomic: every copy is recalled and the home performs the operation (R287). -/
def State.serveNear (s : State) (line : Nat) (r : HomeReq) : State :=
  let c := r.core.val
  let s := ((s.takeReq line).dropLine line).fillL3 line
  match (s.core c).wait with
  | .near w _ =>
    match kxOp w with
    | some op => kxInstr op (kxAtomic op true) r.core w (s.updCore c fun k => { k with wait := .none })
    | none => s
  | _ => s

def execNearAtomic (line : BitVec 46) (s : State) : Out3 :=
  .next (match (s.lineHome line.toNat).next with
  | some r => if r.kind = .nearAtomic then s.serveNear line.toNat r else s
  | none => s)

/-! ## Snoops and answers (R283, R285, R286, R290) -/

/-- Change the running transaction of a line. -/
def LineHome.onTxn (l : LineHome) (f : HomeTxn → HomeTxn) : LineHome := { l with txn := l.txn.map f }

/-- A snoop of one kind is on its way to core `c`. -/
def LineHome.snoopFor (l : LineHome) (c : CoreId) (k : SnpKind) : Bool := l.txn.any fun t => t.snoops.contains (c, k)

/-- The owner that a read or own snoop is on its way to. -/
def LineHome.snoopedOwner (l : LineHome) (k : SnpKind) : Option CoreId :=
  match l.txn with
  | some t => (t.snoops.find? fun p => p.2 = k).map Prod.fst
  | none => none

/-- The snoop arrives and the core answers it now: not while it holds the line for the access its Grant was for, unless the hold's
64 cc are over (R286). -/
def State.snoopTaken (s : State) (line : Nat) (c : CoreId) (waited : Bool) : Bool :=
  s.arrives (.snoop line c) && ((s.lineHome line).hold != some c || waited)

/-- The snoop reaches the holder: its answer leaves for the home, and data for the requester when the holder forwards it. A line
already in its writeback buffer is answered as if held (R285 rule 4). -/
def State.takeSnoop (s : State) (line : Nat) (c : CoreId) (k : SnpKind) (forward : Option LState) : State :=
  (s.updLine line fun l => { l.performed c.val with txn := l.txn.map fun t =>
    let sends := t.needData && forward.isSome
    { t with snoops := t.snoops.erase (c, k), answers := t.answers ++ [c],
             dataMsg := if sends then forward else t.dataMsg, dataFrom := if sends then some c else t.dataFrom } }).syncNet line

/-- SnpRead: the owner forwards the data and becomes, or stays, the relay. -/
def execSnpRead (x : SnoopTurn) (s : State) : Out3 :=
  let n := x.line.toNat
  .next (match (s.lineHome n).snoopedOwner .read with
  | some o =>
    if !s.snoopTaken n o x.waited then s
    else
      let s := s.takeSnoop n o .read (some .s)
      (if s.lstate o.val n == .i then s else s.setHeld o.val n .l).updLine n fun l => { l with recorded := .l }
  | none => s)

/-- SnpOwn: the owner forwards the data to the new owner and invalidates its copy. -/
def execSnpOwn (x : SnoopTurn) (s : State) : Out3 :=
  let n := x.line.toNat
  .next (match (s.lineHome n).snoopedOwner .own with
  | some o => if s.snoopTaken n o x.waited then (s.takeSnoop n o .own (some .d)).setHeld o.val n .i else s
  | none => s)

/-- SnpInv: a sharer invalidates its copy, or answers at once. -/
def execSnpInv (line : BitVec 46) (c : CoreId) (s : State) : Out3 :=
  let n := line.toNat
  .next (if (s.lineHome n).snoopFor c .inv && s.snoopTaken n c true then (s.takeSnoop n c .inv none).setHeld c.val n .i else s)

/-- The request asks for ownership. -/
def HomeReq.owns (r : HomeReq) : Bool := r.kind == .readOwn || r.kind == .upgrade

/-- A holder has answered or been dropped; the Grant leaves once none is waited for. -/
def HomeTxn.answered (t : HomeTxn) (c : CoreId) : HomeTxn :=
  let t := { t with answers := t.answers.filter (· != c), waiting := t.waiting.filter (· != c) }
  { t with grantMsg := t.grantMsg || (t.req.owns && t.waiting.isEmpty && !t.ackMsg) }

/-- The answers that reach the home with that of core `c`: its own, or all of the far half's, which come as one (R290). -/
def State.answersWith (s : State) (line : Nat) (t : HomeTxn) (c : CoreId) : List CoreId :=
  let h := s.homeSlice (line * 64) 0 / 64
  if coreHalf c.val = h then (if s.arrives (.answer line c) then [c] else [])
  else if s.arrives (.farAnswer line) then farCores h t.answers else []

def execSnoopAnswer (line : BitVec 46) (c : CoreId) (s : State) : Out3 :=
  let n := line.toNat
  .next (match (s.lineHome n).txn with
  | some t =>
    if t.answers.contains c then
      (s.updLine n fun l => l.onTxn fun t => (s.answersWith n t c).foldl HomeTxn.answered t).syncNet n
    else s
  | none => s)

/-- The injection armed for this line and target in half `h`, not yet applied (R386). -/
def State.injectFor (s : State) (h target line : Nat) : Option Inject :=
  (s.rasHalf h).inject.filter fun i => i.target == target && i.line == line && !i.applied

/-- An injected change has been applied: fired sets, and armed clears unless persist is set. -/
def State.injectFired (s : State) (h : Nat) (i : Inject) : State :=
  let s := s.setf Reg.RAS_INJ_CTL.fired h 1
  if i.persist then s.updRas h fun x => { x with inject := some { i with applied := true } }
  else (s.setf Reg.RAS_INJ_CTL.armed h 0).updRas h fun x => { x with inject := none }

/-- The checker at the ejection of a line's data flits meets the errors they picked up on the way (R372), and an armed mesh
injection (R386). -/
def State.ejectLine (s : State) (line stop inst : Nat) (flips : List (Fin 2 × Fin 35 × Byte)) : State :=
  let h := s.homeHalf (64 * line) 0
  let s := (s.meetOnDie (2 * line)).meetOnDie (2 * line + 1)
  let inj := s.injectFor h 2 line
  let s := inj.elim s (s.injectFired h ·)
  [0, 1].foldl (fun s g =>
    let own := inj.filter (·.granule == g)
    let e : ErrPat := (flips.filter fun f => f.1.val == g).foldl (fun e f => errAdd e (f.2.1.val, f.2.2.toNat)) []
    let s := if own.any (·.poison) then s.setPoison (2 * line + g) true else s
    s.check35 h 0x20 stop inst (2 * line + g) (own.elim e (errXor e ·.syms)) own.isSome) s

/-- Make room in a core's L2, of 2,048 sets and 16 ways, for a line (R277): a full set evicts the line of a way that no rule names
(log entry 250). -/
def State.l2Room (s : State) (c line : Nat) : State :=
  let set := (SMap.keys (SMap.get [] s.coh.held c)).filter (· % 2048 == line % 2048)
  if set.length < 16 || set.contains line then s
  else
    let v := set.getD (Config.victimWay s.coh.fills % set.length) 0
    { s with coh := { s.coh with fills := s.coh.fills + 1 } }.evict c v

/-- A line enters a core's caches in a state; a core in clay mode, whose caches are bypassed, gives it up at once (R240). -/
def State.enterLine (s : State) (c : Nat) (inst : Bool) (line : Nat) (st : LState) : State :=
  let s := (((s.l2Room c line).setHeld c line st).fillL1 c inst line).updLine line fun l =>
    { l with evicted := l.evicted.filter fun o => o.val != c }
  if (s.core c).clay then s.evict c line else s

/-- A miss buffer of the core has fallen free: a request that waited for one leaves (R224). -/
def State.reask (s : State) (c : CoreId) : State :=
  match (s.core c.val).wait with
  | .atomic _ pa => s.askOwn c (pa / 64)
  | _ => s.askStores c

/-- Line data reaches the requester: a reader enters its state and acknowledges. -/
def execData (line : BitVec 46) (flips : List (Fin 2 × Fin 35 × Byte)) (s : State) : Out3 :=
  let n := line.toNat
  .next (match (s.lineHome n).txn with
  | some t =>
    match if s.arrives (.data n) then t.dataMsg else none with
    | some st =>
      let c := t.req.core
      let own := t.req.owns
      let s := s.ejectLine n (coreStop c.val) c.val flips
      let s := (s.updLine n fun l => l.onTxn fun t => { t with dataMsg := none, gotData := true, ackMsg := t.ackMsg || !own }).syncNet n
      if own then s else (s.enterLine c.val t.req.inst n st).reask c
    | none => s
  | none => s)

/-- Some access of a core waits for ownership of a line. -/
def Core.wantsLine (k : Core) (line : Nat) : Bool :=
  (k.sb.any fun e => e.pa / 64 == line) || (match k.wait with | .atomic _ pa => pa / 64 == line | _ => false)

/-- A core performs its oldest access to a line it owns, if nothing older stands before it. -/
def State.performOldest (s : State) (c line : Nat) : State :=
  match (s.core c).wait with
  | .atomic w pa => if pa / 64 = line then s.kxAgain c w else s
  | _ =>
    match (s.core c).sb with
    | e :: _ => if e.pa / 64 = line then s.drainOne c else s
    | [] => s

/-- A Grant reaches the requester, with the data where data is needed: it enters D and performs its oldest access to the line
before it answers any snoop; behind an older store the access waits and the line is held for it (R286). -/
def State.takeGrant (s : State) (line : Nat) (r : CoreId) : State :=
  let c := r.val
  let wants := (s.core c).wantsLine line
  let s := (s.updLine line fun l =>
    { l with owner := some r, recorded := .d, sharers := [], hold := if wants then some r else none }.onTxn fun t =>
      { t with grantMsg := false, ackMsg := true }).syncNet line
  let s := (s.enterLine c false line .d).performOldest c line
  let s := if (s.core c).wantsLine line then s else s.updLine line (·.performed c)
  s.reask r

def execGrant (line : BitVec 46) (s : State) : Out3 :=
  let n := line.toNat
  .next (match (s.lineHome n).txn with
  | some t => if t.grantMsg && s.arrives (.grant n) && (!t.needData || t.gotData) then (s.takeGrant n t.req.core).tlbiNotes else s
  | none => s)

/-- The requester's Ack reaches the home and ends the transaction; the evictions that waited for its end are taken (R285). -/
def State.takeAck (s : State) (line : Nat) : State :=
  let s := (s.updLine line fun l => { l with txn := none }).syncNet line
  let s := (s.lineHome line).evicted.foldl (fun s c => s.takeWb line c.val) s
  s.updLine line fun l => if l.holders.isEmpty then { l with alloc := 0 } else l

def execAck (line : BitVec 46) (s : State) : Out3 :=
  let n := line.toNat
  .next (match (s.lineHome n).txn with
  | some t => if t.ackMsg && s.arrives (.ack n) then s.takeAck n else s
  | none => s)

/-! ## Evictions (R283, R285) -/

/-- The line's copy in the core differs from memory, as a WriteBack says. -/
def State.mustWriteBack (s : State) (c line : Nat) : Bool :=
  s.lstate c line == .d || (s.lstate c line == .l && (s.lineHome line).stale.isSome)

def execWriteBack (c : CoreId) (line : BitVec 46) (s : State) : Out3 :=
  .next (if s.mustWriteBack c.val line.toNat then s.evict c.val line.toNat else s)

def execCleanEvict (c : CoreId) (line : BitVec 46) (s : State) : Out3 :=
  let st := s.lstate c.val line.toNat
  .next (if !s.mustWriteBack c.val line.toNat && (st == .x || st == .l) then s.evict c.val line.toNat else s)

/-! ## Lost holders (R289, R292) -/

/-- Put the home's own copy of a line back in place of the owner's, and poison both granules when asked. -/
def State.restoreLine (s : State) (line : Nat) (poison : Bool) : State :=
  let s := match (s.lineHome line).stale with
    | none => s
    | some st =>
      let m := s.mem
      { s with mem := { m with
          bytes := putBytes m.bytes (line * 64) st.bytes
          lineTag := SMap.set 0 m.lineTag line st.tag
          poison := SMap.set false (SMap.set false m.poison (line * 2) st.poison0) (line * 2 + 1) st.poison1 } }
  let s := s.updLine line fun l => { l with stale := none }
  if poison then s.poisonLine (line * 64) else s

/-- Holders that will not answer leave the directory, and the transaction that waits on them goes on with the home's own data;
the copy of an owner in D or L is lost, so the line is poisoned, and of one in X only when `all` asks for it. -/
def State.dropGone (s : State) (line : Nat) (gone : CoreId → Bool) (all : Bool) : State :=
  let l := s.lineHome line
  let s := if l.owner.any gone && (all || l.recorded != .x) then (s.restoreLine line true).fillL3 line
    else if l.owner.any gone then (s.restoreLine line false).fillL3 line else s
  let s := (l.holders.filter gone).foldl (fun s c => s.setHeld c.val line .i) s
  (s.updLine line fun l =>
    let l := { l with owner := l.owner.filter fun c => !gone c, sharers := l.sharers.filter fun c => !gone c,
                      evicted := l.evicted.filter fun c => !gone c, hold := l.hold.filter fun c => !gone c }
    match l.txn with
    | none => if l.holders.isEmpty then { l with alloc := 0 } else l
    | some t =>
      let t1 := (t.waiting.filter gone).foldl HomeTxn.answered { t with snoops := t.snoops.filter fun p => !gone p.1 }
      let missing := t.needData && !t.gotData && ((t.dataMsg.isNone && t.waiting.any gone) || t.dataFrom.any gone)
      if !missing then { l with txn := some t1 }
      else
        let l := { l with txn := some { t1 with dataMsg := some (if t.req.owns then .d else .l), dataFrom := none } }
        if t.req.owns then l
        else { l with owner := some t.req.core, recorded := .l, sharers := l.sharers.filter (· != t.req.core) }).syncNet line

/-- What a home logs of a holder or a read of memory that gave no answer: a DE record for a poisoned line, a CE otherwise, counted, with
EV 0x0A0 (R289). -/
def State.homeNote (s : State) (line : Nat) (poisoned : Bool) (stop : Nat) : State :=
  let sl := s.homeSlice (64 * line) 0
  let h := sl / 64
  let r := s.mkRec (b2n poisoned) 0x50 (if poisoned then Status.poisoned else Status.ok) (sliceStop sl) (64 * line) sl stop
  let s := (s.logError h r).addf Reg.RAS_HOME_STATUS.timeouts h
  let s := (s.setf Reg.RAS_HOME_STATUS.last_slice h sl).setf Reg.RAS_HOME_ADDR.addr h line
  (s.setf Reg.RAS_HOME_ADDR.holder_stop h stop).raise 0x0A0 .both h 0

/-- The stop that stands for a holder: its own, or the B stop of the other half for a far one. -/
def holderStop (h : Nat) (c : CoreId) : Nat := if coreHalf c.val = h then coreStop c.val else bStop (1 - h)

/-- The half lost in HUSK takes its holders with it (R292): a line that it owned is treated as one of an unanswering D or L holder, a
transaction that waits on it ends as R289 says, and a line homed in the lost half leaves the survivor's caches without writeback. -/
def State.huskLine (s : State) (lost : Nat) (line : Nat) : State :=
  let l := s.lineHome line
  if s.homeHalf (line * 64) (1 - lost) == lost then
    let s := l.holders.foldl (fun s c => s.setHeld c.val line .i) s
    (s.updLine line fun _ => LineHome.empty).syncNet line
  else
    let gone : CoreId → Bool := fun c => coreHalf c.val == lost
    let s := (s.dropGone line gone true).updLine line fun l =>
      { l with queue := l.queue.filter fun r => !gone r.core, txn := l.txn.filter fun t => !gone t.req.core }
    let s := (s.updLine line fun l => if l.txn.isNone && l.holders.isEmpty then { l with alloc := 0 } else l).syncNet line
    if l.owner.any gone then s.homeNote line true (bStop lost)
    else if l.txn.any fun t => t.waiting.any gone then s.homeNote line false (bStop lost)
    else s

/-- The stop that answers a home's read of memory: the channel's M stop, or the P stop of a CXL port. -/
def State.memoryStop (s : State) (a : Nat) : Nat :=
  match s.region a with
  | .dram h => channelStop (s.chanOf h a).1
  | .cxl p => portStop p
  | _ => sliceStop (s.homeSlice a 0)

/-- The home limit in ns of half `h`, for a holder of its own half or of the other: 0 µs acts as 1, and a far limit below the near one
acts as it (R289). -/
def State.homeLimit (s : State) (h : Nat) (far : Bool) : Nat :=
  let near := max 1 (s.rf Reg.RAS_HOME_CTL.limit_us h)
  1000 * (if far then max near (s.rf Reg.RAS_HOME_CTL.far_limit_us h) else near)

/-- HOME_TIMEOUT: a holder that the running transaction waits for has given no answer within the limit, or, with none named, the
home's own read of memory has not returned; a holder of the other half stands behind that half's B stop (R289). -/
def execHomeTimeout (line : BitVec 46) (holder : Option CoreId) (s : State) : Out3 :=
  let n := line.toNat
  let l := s.lineHome n
  let h := s.homeSlice (64 * n) 0 / 64
  .next (match l.txn, holder with
  | some t, some c =>
    if !t.waiting.contains c || s.strata.tick < t.since + s.homeLimit h (coreHalf c.val != h) then s
    else (s.dropGone n (· == c) false).homeNote n (l.owner == some c && l.recorded != .x) (holderStop h c)
  | some t, none =>
    if !(t.needData && t.dataMsg.isSome && t.dataFrom.isNone) || s.strata.tick < t.since + s.homeLimit h false then s
    else (s.poisonLine (64 * n)).homeNote n true (s.memoryStop (64 * n))
  | none, _ => s)

/-- RAS_HOME_STATUS_READ. -/
def execRasHomeStatusRead (q : Requester) (h : Half) (s : State) : Out3 :=
  .next (s.readCmd q Cls.ras h.val Reg.RAS_HOME_STATUS.reg 0 id)

/-- The coherence state after the loss of a half; a core of the survivor that waits for a line of the lost half tries its
atomic again and takes the poison. -/
def State.huskCoherence (s : State) (lost : Nat) : State :=
  let s := (SMap.keys s.coh.lines).foldl (fun s line => s.huskLine lost line) s
  let s := { s with coh := { s.coh with
      dev := s.coh.dev.filter fun d => coreHalf d.core.val != lost
      mesh := s.coh.mesh.filter fun m => coreHalf m.2.core.val != lost && s.homeHalf (m.1 * 64) (1 - lost) != lost } }
  let s := s.coh.mesh.foldl (fun s m => s.admitOne (s.homeSlice (m.1 * 64) 0)) s
  (SMap.keys s.cores).foldl (fun s c => s.updCore c fun k =>
    match k.wait with
    | .atomic _ pa => if s.homeHalf pa (1 - lost) == lost then { k with wait := .none } else k
    | .near _ pa => if s.homeHalf pa (1 - lost) == lost then { k with wait := .none } else k
    | _ => k) s

end Sys2Proof.Machine
end

