-- ==== Sys2Proof/Machine/SltCore.lean ====
section
/-!
DEFINITION. SltCore: what every Silt instruction is written with: register access, the words of R45 to R47, addresses
(R43, R44), the engine cache (R54 to R59), stores, faults (R64) and the end of a task (R65).
-/
namespace Sys2Proof.Machine

/-! ## Engines -/

def State.eng (s : State) (e : Nat) : Engine := SMap.get Engine.empty s.engines e

def State.updEng (s : State) (e : Nat) (f : Engine → Engine) : State :=
  { s with engines := SMap.upd Engine.empty s.engines e f }

def Engine.rs (k : Engine) (r : Nat) : Word := SMap.get 0 k.s r
def Engine.rw (k : Engine) (r : Nat) : Wide := SMap.get 0 k.w r
def Engine.rk (k : Engine) (r : Nat) : KeyReg := SMap.get KeyReg.empty k.k r
def Engine.sets (k : Engine) (r : Nat) (v : Word) : Engine := { k with s := SMap.set 0 k.s r v }
def Engine.setw (k : Engine) (r : Nat) (v : Wide) : Engine := { k with w := SMap.set 0 k.w r v }
def Engine.setk (k : Engine) (r : Nat) (v : KeyReg) : Engine := { k with k := SMap.set KeyReg.empty k.k r v }

/-- A cluster's engines have power and clock (R392, R396). -/
def State.clusterUp (s : State) (c : Nat) : Bool := s.rf Reg.PWR_DOM.state (c / 8) (136 + c % 8) == 0

/-- Zero every key register; the modulus latch is zeroed with them (R41, R49). -/
def Engine.zeroKeys (k : Engine) : Engine := { k with k := [], modulus := none }

/-- The engine's half, cluster and number in the cluster (R6, R14). -/
def engHalf (e : Nat) : Nat := e / 512
def engCluster (e : Nat) : Nat := e / 64

/-- The engine is a member of a pool. -/
def State.isMember (s : State) (e : Nat) : Bool := s.rb Reg.SLT_POOL.member e
def State.poolOf (s : State) (e : Nat) : Nat := s.rf Reg.SLT_POOL.cur_pool e
def State.leaving (s : State) (e : Nat) : Bool := s.rb Reg.SLT_POOL.leaving e

/-- The pool's world (HPN_POOL). -/
def State.poolWorld (s : State) (half pool : Nat) : World :=
  if s.rf Reg.HPN_POOL.world half pool = 1 then .hardpan else .topsoil

/-- The world of the engine's pool. R71 speaks of the pool's world alone: an engine in no pool is debugged under Topsoil's
enables, as its events go to Topsoil under R66 (DESIGN CHOICE, log entry 243). -/
def State.engWorld (s : State) (e : Nat) : World :=
  if s.isMember e then s.poolWorld (engHalf e) (s.poolOf e) else .topsoil

/-- Which world's events an engine raises (R66, R69). -/
def State.engEvTo (s : State) (e : Nat) : EvTo := EvTo.ofWorld (s.engWorld e)

/-- A task's requester (R43, R132): its pool's world and its TI's tenant. -/
def State.engReq (s : State) (e : Nat) : Requester :=
  let w := s.engWorld e
  ⟨if w = .hardpan then .hardpanTask else .topsoilTask, if w = .hardpan then .h else .t, w,
    BitVec.ofNat 12 (match (s.eng e).task with | some t => t.tenant | none => 0), halfOf (engHalf e),
    BitVec.ofNat 9 (clusterStop (engCluster e))⟩

/-- Invasive or non-invasive debug is enabled for a world (R71, R146). -/
def State.debugOf (s : State) (h : Nat) (w : World) (invasive : Bool) : Bool :=
  s.sys.mode != .seal &&
    (match w, invasive with
    | .topsoil, true => s.rb Reg.HPN_DEBUG.t_inv h
    | .hardpan, true => s.rb Reg.HPN_DEBUG.h_inv h
    | .topsoil, false => s.rb Reg.HPN_DEBUG.t_inv h || s.rb Reg.HPN_DEBUG.t_noninv h
    | .hardpan, false => s.rb Reg.HPN_DEBUG.h_inv h || s.rb Reg.HPN_DEBUG.h_noninv h)

/-! ## Entries and records -/

/-- A little-endian field of a descriptor (R101). -/
def Entry.fld (e : Entry) (off size : Nat) : Nat := ofLe ((e.desc.drop off).take size)
def Entry.service (e : Entry) : Nat := e.fld 0 2
def Entry.gen (e : Entry) : Nat := e.fld 2 2
def Entry.pool (e : Entry) : Nat := e.fld 4 1 % 32
def Entry.ledger (e : Entry) : Bool := bitOf (e.fld 5 1) 0
def Entry.noReissue (e : Entry) : Bool := bitOf (e.fld 5 1) 1
def Entry.timed (e : Entry) : Bool := bitOf (e.fld 5 1) 2
def Entry.param (e : Entry) : Nat := e.fld 6 2
def Entry.launch (e : Entry) : Nat := e.fld 0x18 12
/-- A byte of the inline area, by its offset in the descriptor. -/
def Entry.inl (e : Entry) (off : Nat) : Nat := e.fld off 1
def Entry.inls (e : Entry) (off n : Nat) : List Nat := ((e.desc.drop off).take n).map BitVec.toNat
def Entry.slot (e : Entry) : Nat := e.queue * 2 ^ 12 + e.index
def Entry.key1 (e : Entry) : Nat := e.fld 0x08 8
def Entry.key2 (e : Entry) : Nat := e.fld 0x10 8
def Entry.inLen (e : Entry) : Nat := e.fld 0x24 4
def Entry.inAddr (e : Entry) : Nat := e.fld 0x28 8
def Entry.auxAddr (e : Entry) : Nat := e.fld 0x30 8
def Entry.auxLen (e : Entry) : Nat := e.fld 0x38 4
def Entry.outLen (e : Entry) : Nat := e.fld 0x3C 4
def Entry.outAddr (e : Entry) : Nat := e.fld 0x40 8

/-- The launch time of a timed entry in units of 2^-16 ns; none of an untimed one, or when the value is no time. -/
def Entry.due (e : Entry) : Option Nat := if e.timed then strataOf e.launch else none

/-- A record that Dispatch makes for an entry (R106, R107). -/
def Entry.dspRec (e : Entry) (status engine : Nat) : Rec :=
  ⟨e.ti, e.gen, status, false, false, e.ledger, true, false, 0, 0, engine, e.slot, false⟩

def State.ti (s : State) (n : Nat) : Ti := SMap.get Ti.empty s.tis n
def State.updTi (s : State) (n : Nat) (f : Ti → Ti) : State := { s with tis := SMap.upd Ti.empty s.tis n f }
def State.tiGen (s : State) (n : Nat) : Nat := s.rf Reg.TIF_GEN.gen n
def State.tiHome (s : State) (n : Nat) : Nat := s.rf Reg.TIF_CFG.home n

/-! ## Instruction words (R45 to R47) -/

/-- The instructions of R47. -/
inductive SOp where
  | add | sub | and | or | xor | andn | sll | srl | sra | ror | slt | sltu | mul | mulhu | clz | popc | bswap
  | addi | andi | ori | xori | shi | movz | movk
  | ld | lw | lh | lb | sd | sw | sh | sb | wld | wst | cpre | clock | cunlock | cinv | cinvl | amoadd | amoswap | amocas
  | bcc | bzcc | j | jr | done
  | nop | fence | rdtl | rdth | brk | getcf | setcf
  | wadd | waddc | wsub | wsubb | wand | wor | wxor | wmov | wshl1 | wshr1 | wzero
  | mullo | mulhi | mmul | madd | msub | msetm
  | aese | aesd | tdese | tdesd | gmul
  | sha256c | sha512c | sha256k | sha512k | keccak
  | wins | wext | wceq | wcsel | wbit
  | kld | kzero | kzall
deriving DecidableEq, Repr

/-- Fields of the formats of R45. -/
def fRd (w : IWord) : Nat := ifld w 25 22
def fRa (w : IWord) : Nat := ifld w 21 18
def fRb (w : IWord) : Nat := ifld w 17 14
def fFn (w : IWord) : Nat := ifld w 5 0
def fImm (w : IWord) : Nat := ifld w 17 0
def fWd (w : IWord) : Nat := ifld w 25 23
def fWa (w : IWord) : Nat := ifld w 22 20
def fWb (w : IWord) : Nat := ifld w 19 17
def fKb (w : IWord) : Nat := ifld w 16 12
def fKsel (w : IWord) : Bool := bitOf w.toNat 11
def fSub (w : IWord) : Nat := ifld w 10 8
def fX (w : IWord) : Nat := ifld w 25 22
def fY (w : IWord) : Nat := ifld w 21 18
def fZ (w : IWord) : Nat := ifld w 17 14
def fXkb (w : IWord) : Nat := ifld w 13 9
def fLane (w : IWord) : Nat := ifld w 8 7
def fKd (w : IWord) : Nat := ifld w 25 21
def fSa (w : IWord) : Nat := ifld w 20 17
def fPart (w : IWord) : Nat := ifld w 16 12

/-- Keep `o` when a word's constraint holds. -/
def SOp.when (c : Bool) (o : SOp) : Option SOp := if c then some o else none

/-- The `n`-th of a list of instructions. -/
def SOp.nth (l : List SOp) (n : Nat) : Option SOp := l[n]?

/-- Op 0x20: a field the instruction does not use must be 0. -/
def SOp.wide (w : IWord) : Option SOp :=
  if ifld w 16 6 != 0 then none
  else match fFn w with
    | 0x07 => SOp.when (fWb w = 0) .wmov
    | 0x08 => SOp.when (fWb w = 0) .wshl1
    | 0x09 => SOp.when (fWb w = 0) .wshr1
    | 0x0A => SOp.when (fWa w = 0 && fWb w = 0) .wzero
    | n => SOp.nth [.wadd, .waddc, .wsub, .wsubb, .wand, .wor, .wxor] n

/-- The unused one of kb and wb is 0. -/
def selOk (w : IWord) : Bool := if fKsel w then fWb w == 0 else fKb w == 0

/-- Op 0x21. -/
def SOp.multiplier (w : IWord) : Option SOp :=
  if ifld w 10 6 != 0 || !selOk w then none
  else match fFn w with
    | 5 => SOp.when (fWd w = 0 && fWb w = 0 && (!fKsel w || fWa w = 0)) .msetm
    | n => SOp.nth [.mullo, .mulhi, .mmul, .madd, .msub] n

/-- Op 0x22. A value of sub without a meaning is refused (DEDUCED, log entry 20). -/
def SOp.cipher (w : IWord) : Option SOp :=
  if ifld w 7 6 != 0 || !selOk w then none
  else
    let aes := fSub w ≤ 3 && (fSub w != 0 || fKsel w)
    match fFn w with
    | 0 => SOp.when aes .aese
    | 1 => SOp.when aes .aesd
    | 2 => SOp.when (fKsel w && fSub w = 0) .tdese
    | 3 => SOp.when (fKsel w && fSub w = 0) .tdesd
    | 4 => SOp.when (!fKsel w && fSub w = 0) .gmul
    | _ => none

/-- Op 0x23. The rows give ksel no meaning, so it must be 0 (DEDUCED, log entry 20). -/
def SOp.hash (w : IWord) : Option SOp :=
  if ifld w 7 6 != 0 || fKsel w then none
  else match fFn w with
    | 0 => SOp.when (fWa w % 2 = 0 && fWb w = 0 && fKb w = 0 && fSub w = 0) .sha256c
    | 1 => SOp.when (fWd w = 0 && fWa w = 0 && fWb w = 0 && fKb w = 0 && fSub w = 0) .sha512c
    | 2 => SOp.when (fWa w = 0 && fWb w = 0 && fKb w % 2 = 0 && fSub w ≤ 1) .sha256k
    | 3 => SOp.when (fWd w = 0 && fWa w = 0 && fWb w = 0 && fKb w % 4 = 0 && fSub w ≤ 1) .sha512k
    | 4 => SOp.when (ifld w 25 8 = 0) .keccak
    | _ => none

/-- Op 0x24. -/
def SOp.cross (w : IWord) : Option SOp :=
  if ifld w 6 6 != 0 then none
  else match fFn w with
    | 0 => SOp.when (fX w < 8 && fZ w = 0 && fXkb w = 0) .wins
    | 1 => SOp.when (fY w < 8 && fZ w = 0 && fXkb w = 0) .wext
    | 2 => SOp.when (fY w < 8 && fZ w < 8 && fXkb w = 0 && fLane w = 0) .wceq
    | 3 => SOp.when (fX w < 8 && fZ w < 8 && fLane w = 0) .wcsel
    | 4 => SOp.when (fY w < 8 && fXkb w = 0 && fLane w = 0) .wbit
    | _ => none

/-- Op 0x13: the cache operations of R56. -/
def SOp.cacheOp (w : IWord) : Option SOp :=
  match ifld w 17 12 with
  | 0 => SOp.when (fRa w = 0 && ifld w 11 4 = 0) .clock
  | 1 => SOp.when (fRa w = 0 && ifld w 11 4 = 0) .cunlock
  | 2 => SOp.when (fRd w = 0 && fRa w = 0 && ifld w 11 0 = 0) .cinv
  | 3 => SOp.when (fRd w = 0 && ifld w 11 0 = 0) .cinvl
  | _ => none

/-- Op 0x1F: unused register fields must be 0. -/
def SOp.system (w : IWord) : Option SOp :=
  if ifld w 13 6 != 0 then none
  else match fFn w with
    | 0 => SOp.when (fRd w = 0 && fRa w = 0 && fRb w = 0) .nop
    | 1 => SOp.when (fRd w = 0 && fRa w = 0 && fRb w = 0) .fence
    | 2 => SOp.when (fRa w = 0 && fRb w = 0) .rdtl
    | 3 => SOp.when (fRa w = 0 && fRb w = 0) .rdth
    | 4 => SOp.when (fRd w = 0 && fRa w = 0 && fRb w = 0) .brk
    | 5 => SOp.when (fRa w = 0 && fRb w = 0) .getcf
    | 6 => SOp.when (fRd w = 0 && fRb w = 0) .setcf
    | _ => none

/-- Op 0x00. -/
def SOp.scalar (w : IWord) : Option SOp :=
  if ifld w 13 6 != 0 then none
  else match fFn w with
    | 0x0E => SOp.when (fRb w = 0) .clz
    | 0x0F => SOp.when (fRb w = 0) .popc
    | 0x10 => SOp.when (fRb w = 0) .bswap
    | n => SOp.nth [.add, .sub, .and, .or, .xor, .andn, .sll, .srl, .sra, .ror, .slt, .sltu, .mul, .mulhu] n

/-- The instruction a word spells; none where R46 raises ILLEGAL. -/
def SOp.of (w : IWord) : Option SOp :=
  match ifld w 31 26 with
  | 0x00 => SOp.scalar w
  | 0x01 => some .addi
  | 0x02 => some .andi
  | 0x03 => some .ori
  | 0x04 => some .xori
  | 0x05 => SOp.when (ifld w 17 8 = 0) .shi
  | 0x06 => SOp.when (ifld w 19 16 = 0) .movz
  | 0x07 => SOp.when (ifld w 19 16 = 0) .movk
  | 0x08 => some .ld
  | 0x09 => some .lw
  | 0x0A => some .lh
  | 0x0B => some .lb
  | 0x0C => some .sd
  | 0x0D => some .sw
  | 0x0E => some .sh
  | 0x0F => some .sb
  | 0x10 => SOp.when (ifld w 22 22 = 0) .wld
  | 0x11 => SOp.when (ifld w 22 22 = 0) .wst
  | 0x12 => SOp.when (ifld w 23 22 = 0) .cpre
  | 0x13 => SOp.cacheOp w
  | 0x14 => if ifld w 13 6 != 0 then none else SOp.nth [.amoadd, .amoswap, .amocas] (fFn w)
  | 0x18 => some .bcc
  | 0x19 => SOp.when (fRb w = 0 && ifld w 24 22 ≤ 5) .bzcc
  | 0x1C => some .j
  | 0x1D => SOp.when (ifld w 19 0 = 0) .jr
  | 0x1E => SOp.when (fRd w = 0 && ifld w 13 0 = 0) .done
  | 0x1F => SOp.system w
  | 0x20 => SOp.wide w
  | 0x21 => SOp.multiplier w
  | 0x22 => SOp.cipher w
  | 0x23 => SOp.hash w
  | 0x24 => SOp.cross w
  | 0x28 =>
    if ifld w 11 6 != 0 then none
    else match fFn w with
      | 0 => some .kld
      | 1 => SOp.when (fSa w = 0 && fPart w = 0) .kzero
      | 2 => SOp.when (ifld w 25 12 = 0) .kzall
      | _ => none
  | _ => none

/-! ## Faults (R64) -/

namespace SFault
def illegal : Nat := 0x01
def dctiSlot : Nat := 0x02
def iramWrite : Nat := 0x03
def misaligned : Nat := 0x04
def addrForm : Nat := 0x05
def localRange : Nat := 0x06
def deviceSpace : Nat := 0x07
def pcRange : Nat := 0x08
def watchdog : Nat := 0x09
def keyEmpty : Nat := 0x0A
def modulus : Nat := 0x0B
def break_ : Nat := 0x0C
def badStatus : Nat := 0x0D
def unmapped : Nat := 0x10
def potDenied : Nat := 0x11
def sramWindow : Nat := 0x12
def poison : Nat := 0x13
def keyRefused : Nat := 0x14
def keyOld : Nat := 0x15
def hpGone : Nat := 0x16
def hwLost : Nat := 0x20
end SFault

/-- The status a cause gives (R64). -/
def causeStatus (c : Nat) : Nat :=
  match c with
  | 0x10 => Status.badAddress
  | 0x11 => Status.ownership
  | 0x12 => Status.ownership
  | 0x13 => Status.poisoned
  | 0x14 => Status.keyDenied
  | 0x15 => Status.keyVersion
  | 0x16 => Status.hpAbsent
  | 0x20 => Status.engineLost
  | _ => Status.engineFault

/-- SLT_FAULT of a fault or a halt (R53). -/
def State.sltRecord (s : State) (e epc enpc : Nat) (inSlot : Bool) : State :=
  ((s.setf Reg.SLT_FAULT.epc e epc).setf Reg.SLT_FAULT.enpc e enpc).setf Reg.SLT_FAULT.in_slot e (b2n inSlot)

/-- SLT_FAULT of a fault: its cause, status and count with the place. -/
def State.sltRecordFault (s : State) (e cause status epc enpc : Nat) (inSlot : Bool) : State :=
  let s := (s.setf Reg.SLT_FAULT.cause e cause).setf Reg.SLT_FAULT.status e status
  (s.addf Reg.SLT_FAULT.count e).sltRecord e epc enpc inSlot

/-- Invalidate every unlocked way (R42, R56). -/
def Engine.invalidateUnlocked (k : Engine) : Engine :=
  { k with cache := k.cache.filter fun p => k.locks.testBit (p.1 % 4) }

/-- The actions R72 defers to the end of the task, in the order written; one word with both invalidates and then unlocks, as an
idle engine does (DESIGN CHOICE, log entry 242). -/
def Engine.taskBoundary (k : Engine) : Engine :=
  let k := if k.invalidateDue then k.invalidateUnlocked else k
  let k := if k.unlockDue then { k with locks := 0 } else k
  let k := if k.invalidateAfter then k.invalidateUnlocked else k
  { k with unlockDue := false, invalidateDue := false, invalidateAfter := false, lfsrNew := none, limitOld := none,
           cacheWas := none }

/-- The end of a task (R41, R65, R72): the record enters the output latch and the engine becomes free. -/
def State.sltEndTask (s : State) (e : Nat) (t : Task) (status result : Nat) : State :=
  let k := s.eng e
  let r : Rec := ⟨t.entry.ti, t.entry.gen, status, t.late, t.entry.reissue, t.entry.ledger, false,
    t.home != engHalf e, result, 0, e, t.entry.slot, false⟩
  let s := match k.lfsrNew with | some v => s.setf Reg.SLT_LFSR.value e v | none => s
  let s := s.updEng e fun k =>
    let k := if status = Status.ok || status = Status.verifyFail then k else k.zeroKeys
    { k.taskBoundary with latch := k.latch ++ [r], task := none, run := .idle, stall := .none, stepping := false,
                          storeFault := none, steal := .local 0 }
  s.addf Reg.SLT_COUNT.tasks e

/-- The status and result with which a task is ending. -/
def Stall.ends (st : Stall) : Option (Nat × Nat) :=
  match st with
  | .done status result => some (status, result)
  | .ending status result => some (status, result)
  | _ => Option.none

/-- The task is ending by a fault (R64), not by DONE nor because no service takes it. -/
def Engine.faulting (k : Engine) : Bool :=
  k.storeFault.isSome || match k.stall with | .ending st _ => st != Status.badService | _ => false

/-- After a fault the first out_len bytes of the task's output buffer are free values (R111). -/
def State.sltSpoil (s : State) (e : Nat) (t : Task) : State :=
  if (s.eng e).faulting then s.scramble (s.engReq e) t.entry.outAddr t.entry.outLen else s

/-- End the task once its posted stores are acknowledged and the latch has room (R65); a refused store decides the
status at the latest here (R64). R64 does not say what SLT_FAULT holds when an earlier store is refused after an instruction's own
fault: the store's cause, status and place replace the instruction's and count rises again (DESIGN CHOICE, log entry 244). -/
def State.sltTryEnd (s : State) (e : Nat) : State :=
  let k := s.eng e
  match k.stall.ends, k.task with
  | some (status, result), some t =>
    if !k.posted.isEmpty || 2 ≤ k.latch.length then s
    else
      let s := s.sltSpoil e t
      match k.storeFault with
      | some f =>
        let (v, s) := s.drawFree
        (s.sltRecordFault e f.cause f.status f.epc f.enpc f.inSlot).sltEndTask e t f.status (v % 2 ^ 64)
      | none => s.sltEndTask e t status result
  | _, _ => s

/-- The task ends by DONE with a status and a result (R65). -/
def State.sltEnd (s : State) (e status result : Nat) : State :=
  (s.updEng e fun k => { k with stall := .done status result }).sltTryEnd e

/-- The task ends otherwise: by a fault, or because no service takes it. -/
def State.sltStop (s : State) (e status result : Nat) : State :=
  (s.updEng e fun k => { k with stall := .ending status result }).sltTryEnd e

/-- A fault ends the task; its record's result is a free value (R64, log entry 21). -/
def State.sltFault (s : State) (e cause : Nat) : State :=
  let k := s.eng e
  let s := s.sltRecordFault e cause (causeStatus cause) k.pc k.npc k.slot
  let (v, s) := s.drawFree
  s.sltStop e (causeStatus cause) (v % 2 ^ 64)

/-! ## Moving on (R50, R53, R71) -/

def Engine.advance (k : Engine) : Engine :=
  { k with pc := k.npc, npc := (k.npc + 4) % 2 ^ 64, slot := false, annul := false, stall := .none, cacheWas := none }

/-- Enter HALT with SLT_FAULT naming the next instruction. -/
def State.sltHalt (s : State) (e : Nat) : State :=
  let k := s.eng e
  (s.updEng e fun k => { k with run := .halt, stepping := false }).sltRecord e k.pc k.npc k.slot

/-- An instruction boundary: a refused store ends the task (R64), a halt or a single step halts (R71). -/
def State.sltBoundary (s : State) (e : Nat) : State :=
  let k := s.eng e
  if k.run != .run || k.stall != .none then s
  else match k.storeFault with
    | some f => s.sltStop e f.status 0
    | none => if k.stepping || s.rb Reg.SLT_DEBUG.halt e then s.sltHalt e else s

/-- The instruction at pc completes with the engine `k`. -/
def State.sltRetire (s : State) (e : Nat) (f : Engine → Engine) : State :=
  (s.updEng e fun k => (f k).advance).sltBoundary e

/-- The instruction waits. -/
def State.sltWait (s : State) (e : Nat) (st : Stall) : State := s.updEng e fun k => { k with stall := st }

/-! ## Addresses (R43, R44, R488) -/

inductive SAddr where
  | phys (pa : Nat) | sram (off : Nat) | desc (off : Nat) | iram (off : Nat) | bad (cause : Nat)
deriving DecidableEq, Repr

/-- Where an engine address points; device space is judged here too. -/
def State.sltAddr (s : State) (a : Nat) : SAddr :=
  if a < 2 ^ 63 then
    if 2 ^ 52 ≤ a then .bad SFault.addrForm
    else match s.region a with
      | .pcie _ => .bad SFault.deviceSpace
      | .drs => .bad SFault.deviceSpace
      | _ => .phys a
  else
    let o := a - 2 ^ 63
    if o < 0x200000 then .sram o
    else if 0x01000000 ≤ o && o < 0x01000080 then .desc (o - 0x01000000)
    else if 0x02000000 ≤ o && o < 0x02002000 then .iram (o - 0x02000000)
    else .bad SFault.localRange

/-- The address of a memory instruction: ra + sext(imm18). -/
def sltEa (k : Engine) (w : IWord) : Nat := (k.rs (fRa w) + wInt (sext 18 (fImm w))).toNat

/-- An SRAM window is assigned to the engine's pool (R61). -/
def State.sramOk (s : State) (e off : Nat) : Bool :=
  let c := engCluster e
  s.isMember e && s.rb Reg.SVC_SRAM_WIN.assigned c (off / 65536) &&
    s.rf Reg.SVC_SRAM_WIN.pool c (off / 65536) == s.poolOf e

/-- The window is being zeroed: the access stalls (R61). -/
def State.sramBusy (s : State) (e off : Nat) : Bool := s.rb Reg.SVC_SRAM_WIN.zeroing (engCluster e) (off / 65536)

def State.cluster (s : State) (c : Nat) : Cluster := SMap.get Cluster.empty s.clusters c
def State.updCluster (s : State) (c : Nat) (f : Cluster → Cluster) : State :=
  { s with clusters := SMap.upd Cluster.empty s.clusters c f }

/-- Some granule of `n` bytes at `a` of a map of poisoned granules is poisoned. -/
def anyGranule (p : SMap Bool) (a n : Nat) : Bool :=
  n != 0 && (List.range ((a + n - 1) / 32 - a / 32 + 1)).any fun k => SMap.get false p (a / 32 + k)

def State.sramWrite (s : State) (e off : Nat) (bs : List Byte) : State :=
  s.updCluster (engCluster e) fun c =>
    { c with sram := putBytes c.sram off bs, sramPoison := clearFull c.sramPoison off bs.length }

def State.sramRead (s : State) (e off n : Nat) : List Byte × Bool :=
  let c := s.cluster (engCluster e)
  (peekList (SMap.get 0 c.sram) off n, anyGranule c.sramPoison off n)

/-- A byte of the engine's IRAM (R60, R125). -/
def Engine.iramAt (k : Engine) (off : Nat) : Byte :=
  match k.iram with
  | none => Config.iramByte off
  | some i => i.body.getD off (Config.iramByte off)

/-! ## The engine cache (R54 to R59) -/

/-- The way of a set that holds a line. -/
def Engine.findWay (k : Engine) (line : Nat) : Option Nat :=
  [0, 1, 2, 3].find? fun w =>
    match SMap.get none k.cache (line % 64 * 4 + w) with | some l => l.line == line | none => false

def Engine.lineAt (k : Engine) (set way : Nat) : Option CacheLine := SMap.get none k.cache (set * 4 + way)

def Engine.setLine (k : Engine) (set way : Nat) (l : Option CacheLine) : Engine :=
  { k with cache := SMap.set none k.cache (set * 4 + way) l }

/-- One step of the 16-bit Galois register (R55). -/
def lfsrStep (v : Nat) : Nat := if v % 2 = 1 then v / 2 ^^^ 0xB400 else v / 2

/-- The victim way of a set (R55): none when all are locked, and whether the LFSR chose it. -/
def Engine.victim (k : Engine) (set lfsr : Nat) : Option Nat × Bool :=
  let unlocked := [0, 1, 2, 3].filter fun w => !k.locks.testBit w
  match unlocked.find? fun w => (k.lineAt set w).isNone with
  | some w => (some w, false)
  | none =>
    if unlocked.isEmpty then (none, false)
    else (unlocked[lfsr % 256 % unlocked.length]?, true)

/-- The engines of a cluster. -/
def clusterEngines (c : Nat) : List Nat := (List.range 64).map fun i => 64 * c + i

/-- The place of the next store of a cluster in its FIFO to the mesh (R28). -/
def State.nextSend (s : State) (c : Nat) : Nat :=
  (clusterEngines c).foldl (fun n e => (s.eng e).posted.foldl (fun n p => max n (p.seq + 1)) n) 0

/-- An older store of the cluster is on its way to the same home slice, which takes them in the order sent (R18, R28). -/
def State.sendWaits (s : State) (e : Nat) (p : Posted) : Bool :=
  let home := fun (x : Posted) => s.homeSlice x.pa (engHalf e)
  (clusterEngines (engCluster e)).any fun o => (s.eng o).posted.any fun x => x.seq < p.seq && home x == home p

/-- A line of memory for a task: its bytes and poison, or the cause of the fault (R23, R57, R64). The engine's own posted
stores are seen (log entry 22). -/
def State.sltFetch (s : State) (e line : Nat) : (Except Nat CacheLine) × State :=
  let q := s.engReq e
  let a := line * 64
  if s.region a = .unmapped then
    let r := s.mkRec 2 0x51 Status.badAddress q.stop.toNat a e e
    (.error SFault.unmapped,
      s.logError (engHalf e) { r with tenant := q.tenant.toNat, hardpan := q.world = .hardpan })
  else
    let v := s.potCheck q .read a
    if !v.ok then (.error SFault.potDenied, s.refuse q .read a v)
    else match s.cutOff a with
      | some src =>
        let r := s.mkRec 2 src Status.poisoned q.stop.toNat a e e
        (.ok ⟨line, List.replicate 64 0, true, true, [], []⟩,
          s.logError (engHalf e) { r with tenant := q.tenant.toNat, hardpan := q.world = .hardpan })
      | none =>
        let t := s.tagOf (s.keySlotFor q a)
        let bs := peekList (s.peekAs t) a 64
        let bs := (s.eng e).posted.foldl (fun bs p =>
          if p.pa / 64 = line then
            bs.take (p.pa % 64) ++ p.bytes ++ bs.drop (p.pa % 64 + p.bytes.length)
          else bs) bs
        (.ok ⟨line, bs, SMap.get false s.mem.poison (line * 2), SMap.get false s.mem.poison (line * 2 + 1), [], []⟩, s)

/-- Place a fetched line in a way, dropping a copy in another way of its set (R57). -/
def Engine.place (k : Engine) (way : Nat) (l : CacheLine) : Engine :=
  let set := l.line % 64
  let k := match k.findWay l.line with
    | some w => if w = way then k else k.setLine set w none
    | none => k
  k.setLine set way (some l)

/-- Place a missed line in its victim way (R55). -/
def State.sltPlaceMiss (s : State) (e : Nat) (l : CacheLine) : State :=
  let lfsr := s.rf Reg.SLT_LFSR.value e
  match (s.eng e).victim (l.line % 64) lfsr with
  | (none, _) => s
  | (some way, byLfsr) =>
    let s := s.updEng e fun k => k.place way l
    if byLfsr then s.setf Reg.SLT_LFSR.value e (lfsrStep lfsr) else s

/-- The bytes of a line at an address, and whether they touch a poisoned granule. -/
def CacheLine.bytesAt (l : CacheLine) (a n : Nat) : List Byte × Bool :=
  let o := a % 64
  ((l.bytes.drop o).take n, (l.poison0 && o < 32) || (l.poison1 && 32 < o + n))

/-- SLT_CACHE.enable as it acts: a write during an instruction acts at the next boundary (R72). -/
def State.cacheOn (s : State) (e : Nat) : Bool := ((s.eng e).cacheWas).getD (s.rb Reg.SLT_CACHE.enable e)

/-- A checker that finds the pattern `e` in a granule leaves `decode35 e` of it: what it delivers differs from what was stored by
the rest, which a later read of the same codeword delivers again (R367). -/
def CacheLine.deliver (l : CacheLine) (g : Nat) (e x : ErrPat) : CacheLine :=
  let l := { l with bytes := (errXor e x).foldl (fun bs (y : Nat × Nat) => if y.1 < 3 then bs
    else bs.modify (32 * g + (y.1 - 3)) (· ^^^ BitVec.ofNat 8 y.2)) l.bytes }
  if g = 0 then { l with errs0 := x } else { l with errs1 := x }

/-- The engine cache's checker reads one granule of a line held in a way (R59, R372): a corrected error is a CE, and an
uncorrectable one invalidates the line, which the access then misses, and counts as a CE too. -/
def State.sltCheck (s : State) (e way : Nat) (l : CacheLine) (g : Nat) : State :=
  let p := if g = 0 then l.errs0 else l.errs1
  if p = [] then s
  else
    let q := s.engReq e
    let r := { s.mkRec 0 0x31 Status.ok q.stop.toNat (64 * l.line + 32 * g) e e with
      syndrome := syn8 p 0 + syn8 p 1 * 2 ^ 8 + syn8 p 2 * 2 ^ 16,
      location := l.line % 64 + 2 ^ 16 * way + 2 ^ 20 * g, tenant := q.tenant.toNat, hardpan := q.world = .hardpan }
    match decode35 p with
    | none => (s.updEng e fun k => k.setLine (l.line % 64) way none).logError (engHalf e) r
    | some x =>
      let s := s.updEng e fun k => k.setLine (l.line % 64) way (some (l.deliver g p x))
      if x = [] then s else s.logError (engHalf e) { r with positions := errPositions x false }

/-- An aligned access of `n` bytes reads the engine cache's granule, if a way holds it. -/
def State.sltMeet (s : State) (e a n : Nat) : State :=
  if !s.cacheOn e || a % n != 0 then s
  else match s.sltAddr a with
    | .phys pa =>
      match (s.eng e).findWay (pa / 64) with
      | none => s
      | some w =>
        match (s.eng e).lineAt (pa / 64 % 64) w with
        | none => s
        | some l => s.sltCheck e w l (pa % 64 / 32)
    | _ => s

/-- What a load finds. -/
inductive SLoad where
  | ok (bs : List Byte)
  | fault (cause : Nat)
  | miss
  | busy
deriving DecidableEq, Repr

/-- A load of `n` bytes: from the cache, SRAM, the descriptor image or IRAM, or a miss (R43, R54, R488). -/
def State.sltLoad (s : State) (e a n : Nat) : SLoad :=
  if a % n != 0 then .fault SFault.misaligned
  else
    let k := s.eng e
    match s.sltAddr a with
    | .bad c => .fault c
    | .desc o => .ok (match k.task with | some t => (t.entry.desc.drop o).take n | none => List.replicate n 0)
    | .iram o => .ok (peekList k.iramAt o n)
    | .sram o =>
      if !s.sramOk e o then .fault SFault.sramWindow
      else if s.sramBusy e o then .busy
      else
        let (bs, p) := s.sramRead e o n
        if p then .fault SFault.poison else .ok bs
    | .phys pa =>
      if !s.cacheOn e then .miss
      else match k.findWay (pa / 64) with
        | none => .miss
        | some w =>
          match k.lineAt (pa / 64 % 64) w with
          | none => .miss
          | some l => let (bs, p) := l.bytesAt pa n; if p then .fault SFault.poison else .ok bs

/-- A fault of a load that consumed poison leaves a record of class UEr (R375). -/
def State.sltConsume (s : State) (e a : Nat) : State :=
  let q := s.engReq e
  let r := s.mkRec 2 0x41 Status.poisoned q.stop.toNat a e e
  s.logError (engHalf e) { r with tenant := q.tenant.toNat, hardpan := q.world = .hardpan }

/-- A load's fault. -/
def State.sltLoadFault (s : State) (e a cause : Nat) : State :=
  (if cause = SFault.poison then s.sltConsume e a else s).sltFault e cause

/-- A load instruction: its bytes go to the register `put` names; a miss waits for its line. -/
def State.sltLoadOp (s : State) (e : Nat) (w : IWord) (n : Nat) (put : Engine → Nat → Engine) : State :=
  let a := sltEa (s.eng e) w
  let s := s.sltMeet e a n
  match s.sltLoad e a n with
  | .ok bs => s.sltRetire e fun k => put k (ofLe bs)
  | .fault c => s.sltLoadFault e a c
  | .busy => s.sltWait e (.sram w)
  | .miss => (if s.cacheOn e then s.addf Reg.SLT_COUNT.misses e else s).sltWait e (.fill w)

/-- The symbol errors that come upon a line while the cache holds it, as granule, position and value. -/
def CacheLine.upset (l : CacheLine) (flips : List (Fin 2 × Fin 35 × Byte)) : CacheLine :=
  flips.foldl (fun l f =>
    let x := (f.2.1.val, f.2.2.toNat)
    if f.1.val = 0 then { l with errs0 := errAdd l.errs0 x } else { l with errs1 := errAdd l.errs1 x }) l

/-- The line of a waiting load arrives: it is placed, unless the cache is off (R59), and the load completes. -/
def State.sltLoadFill (s : State) (e : Nat) (w : IWord) (flips : List (Fin 2 × Fin 35 × Byte)) (n : Nat)
    (put : Engine → Nat → Engine) : State :=
  let a := sltEa (s.eng e) w
  match s.sltFetch e (a / 64) with
  | (.error c, s) => s.sltFault e c
  | (.ok l, s) =>
    let s := if s.cacheOn e then s.sltPlaceMiss e (l.upset flips) else s
    let (bs, p) := l.bytesAt a n
    if p then s.sltLoadFault e a SFault.poison else s.sltRetire e fun k => put k (ofLe bs)

/-- Update a cached line with stored bytes (R54): the granule is coded anew, and one stored in part keeps its poison (R288). -/
def Engine.cacheStore (k : Engine) (pa : Nat) (bs : List Byte) : Engine :=
  match k.findWay (pa / 64) with
  | none => k
  | some w =>
    match k.lineAt (pa / 64 % 64) w with
    | none => k
    | some l =>
      let o := pa % 64
      let l := { l with bytes := l.bytes.take o ++ bs ++ l.bytes.drop (o + bs.length),
                        poison0 := l.poison0 && !(o = 0 && 32 ≤ bs.length),
                        poison1 := l.poison1 && !(o ≤ 32 && 64 ≤ o + bs.length),
                        errs0 := if o < 32 then [] else l.errs0, errs1 := if 32 < o + bs.length then [] else l.errs1 }
      k.setLine (pa / 64 % 64) w (some l)

/-- A store instruction of `n` bytes (R43, R54, R60, R62). -/
def State.sltStoreOp (s : State) (e : Nat) (w : IWord) (n : Nat) (v : Nat) : State :=
  let k := s.eng e
  let a := sltEa k w
  if a % n != 0 then s.sltFault e SFault.misaligned
  else match s.sltAddr a with
    | .bad c => s.sltFault e c
    | .desc _ => s.sltFault e SFault.localRange
    | .iram _ => s.sltFault e SFault.iramWrite
    | .sram o =>
      if !s.sramOk e o then s.sltFault e SFault.sramWindow
      else if s.sramBusy e o then s.sltWait e (.sram w)
      else (s.sramWrite e o (leBytes n v)).sltRetire e id
    | .phys pa =>
      if 8 ≤ k.posted.length then s.sltWait e (.store w)
      else
        let on := s.cacheOn e
        let s := if n < 32 then s.sltMeet e a n else s
        let q := s.engReq e
        let seq := s.nextSend (engCluster e)
        s.sltRetire e fun k =>
          let k := if on then k.cacheStore pa (leBytes n v) else k
          { k with posted := k.posted ++ [⟨q, seq, pa, leBytes n v, k.pc, k.npc, k.slot⟩] }

/-- An atomic of R47: 8 aligned bytes of cluster SRAM and nothing else (R44). `f` gives the new value of memory from the old
one; rd takes the old one. -/
def State.sltAmoOp (s : State) (e : Nat) (w : IWord) (f : Word → Word) : State :=
  let k := s.eng e
  let a := (k.rs (fRa w)).toNat
  match s.sltAddr a with
  | .sram o =>
    if a % 8 != 0 then s.sltFault e SFault.misaligned
    else if !s.sramOk e o then s.sltFault e SFault.sramWindow
    else if s.sramBusy e o then s.sltWait e (.sram w)
    else
      let (bs, p) := s.sramRead e o 8
      if p then s.sltLoadFault e a SFault.poison
      else
        let old := w64 (ofLe bs)
        (s.sramWrite e o (leBytes 8 (f old).toNat)).sltRetire e fun k => k.sets (fRd w) old
  | _ => s.sltFault e SFault.misaligned

/-- CPRE's line arrives (R57). -/
def State.sltCpreFill (s : State) (e : Nat) (w : IWord) (flips : List (Fin 2 × Fin 35 × Byte)) : State :=
  let a := sltEa (s.eng e) w
  match s.sltFetch e (a / 64) with
  | (.error c, s) => s.sltFault e c
  | (.ok l, s) =>
    let on := s.cacheOn e
    s.sltRetire e fun k => if on then k.place (ifld w 25 24) (l.upset flips) else k

/-- CPRE (R57): a local address raises LOCAL_RANGE. -/
def State.sltCpreOp (s : State) (e : Nat) (w : IWord) : State :=
  match s.sltAddr (sltEa (s.eng e) w) with
  | .bad c => s.sltFault e c
  | .phys _ => s.sltWait e (.fill w)
  | _ => s.sltFault e SFault.localRange

end Sys2Proof.Machine
end

