-- ==== Sys2Proof/Machine/SltOps.lean ====
section
/-!
DEFINITION. SltOps: what each Silt instruction does (R40, R43, R44, R47 to R59, R489).
-/
namespace Sys2Proof.Machine

/-! ## Key objects as an engine sees them (R40, R49, R155) -/

def attrAlg (a : Nat) : Nat := bitsOf a 4 0
def attrUsage (a : Nat) : Nat := bitsOf a 23 16
def attrTopsoil (a : Nat) : Bool := bitOf a 24
def attrLegacy (a : Nat) : Bool := bitOf a 25
def attrTenant (a : Nat) : Nat := bitsOf a 37 26
def attrShared (a : Nat) : Bool := bitOf a 38
/-- The RSA modulus length in bytes. -/
def attrRsaBytes (a : Nat) : Nat := bitsOf a 47 39 + 256

/-- How many 256-bit parts a key has (R492). -/
def algParts (a : Nat) : Nat :=
  match attrAlg a with
  | 0 => 0
  | 6 => 2 | 7 => 4 | 9 => 2 | 10 => 2 | 11 => 3 | 16 => 3
  | 14 => 4 * ((8 * attrRsaBytes a + 511) / 512)
  | 15 => (8 * attrRsaBytes a + 255) / 256
  | n => if n ≤ 13 then 1 else 0

/-- The bytes of an AES, TDES or HMAC key, of a private scalar or of a coordinate pair. -/
def algBytes (alg : Nat) : Nat :=
  match alg with
  | 1 => 16 | 2 => 24 | 3 => 32 | 4 => 16 | 5 => 24 | 6 => 64 | 7 => 128 | _ => 0

/-- The usage letters a service's keys may carry (R113): V 1, S 2, M 4, E 8, P 16, W 32, X 64, A 128. A custom code is
permitted any. -/
def serviceUsage (code : Nat) : Nat :=
  match code with
  | 0x0101 => 1 | 0x0103 => 1 | 0x0105 => 1 | 0x0107 => 1
  | 0x0102 => 2 | 0x0104 => 2 | 0x0106 => 2 | 0x0108 => 2
  | 0x0201 => 4 | 0x0202 => 4 | 0x0203 => 4
  | 0x0301 => 8 | 0x0302 => 8 | 0x0303 => 8
  | 0x0501 => 16 | 0x0601 => 32 | 0x0602 => 96 | 0x0701 => 128
  | n => if 0x8000 ≤ n then 255 else 0

/-- Hardpan is declared absent in a half, until it is PRESENT again (R152, R153, R491). -/
def State.hpAbsent (s : State) (h : Nat) : Bool :=
  s.rf Reg.HPN_STATUS.state h == 2 || s.rf Reg.HPN_STATUS.state h == 3

/-- The object a handle names, while its number is valid (R104, R154). -/
def State.keyObj (s : State) (handle : Nat) : Option KeyObj :=
  let k := handle % 2 ^ 32
  if k = 0 || s.rf Reg.HPN_STORE_SIZE.size s.sys.primary.val ≤ k || 2 ^ 48 ≤ handle then none
  else SMap.get none s.custody.objs k

/-- The slot of an object reads poisoned (R375). -/
def State.keyPoisoned (s : State) (handle : Nat) : Bool :=
  s.mem.anyPoison (s.rf Reg.HPN_STORE_BASE.base s.sys.primary.val * 4096 + 4096 * (handle % 2 ^ 32)) 4096

/-- The rights a task has to a key of these attributes (R40). -/
def State.keyRights (s : State) (e : Nat) (t : Task) (attr part : Nat) : Bool :=
  (attrTenant attr == t.tenant || attrShared attr) &&
    attrUsage attr &&& serviceUsage t.entry.service != 0 &&
    (s.engWorld e == .hardpan || attrTopsoil attr) && part < algParts attr

/-- The checks of KLD in the order of R40 on what a handle names: the object, or the cause of the fault. -/
def State.keyJudge (s : State) (e : Nat) (t : Task) (handle part : Nat) (obj : Option KeyObj) : Except Nat KeyObj :=
  if s.hpAbsent (engHalf e) then .error SFault.hpGone
  else match obj with
    | none => .error SFault.keyRefused
    | some o =>
      if attrAlg o.attr = 0 || !s.keyRights e t o.attr part then .error SFault.keyRefused
      else if handle / 2 ^ 32 != 0 && handle / 2 ^ 32 != o.version then .error SFault.keyOld
      else .ok o

def State.keyCheck (s : State) (e : Nat) (t : Task) (handle part : Nat) : Except Nat KeyObj :=
  s.keyJudge e t handle part (s.keyObj handle)

/-- A part of a key image as a register value (R492). -/
def keyPart (image : List Byte) (part : Nat) : Wide := BitVec.ofNat 256 (ofLe ((image.drop (32 * part)).take 32))

/-- The version that tags of an object match in a cluster: while a broadcast promotion is applied, each cluster has its own
(R176). -/
def State.tagVersion (s : State) (cluster k version : Nat) : Nat :=
  match s.custody.cuts.find? fun c => c.obj == k with
  | some c => if c.clusters.contains cluster then c.old else c.new
  | none => version

/-- The object as a KLD finds it that an engine of a cluster issues: where the cluster has applied a promotion and the custody unit
has not yet, the request reaches the unit after it (R176). -/
def State.keyFound (s : State) (cluster handle : Nat) : Option KeyObj :=
  (s.keyObj handle).map fun o =>
    match s.custody.cuts.find? fun c => c.obj == handle % 2 ^ 32 with
    | some c => if c.custody && !c.clusters.contains cluster then { o with version := c.new, image := o.staged.getD o.image } else o
    | none => o

/-- KLD (R40): a matching tag skips the transfer, else the engine waits for it. -/
def State.sltKld (s : State) (e : Nat) (w : IWord) : State :=
  let k := s.eng e
  match k.task with
  | none => s
  | some t =>
    let h := (k.rs (fSa w)).toNat
    match s.keyJudge e t h (fPart w) (s.keyFound (engCluster e) h) with
    | .error c => s.sltFault e c
    | .ok o =>
      let v := s.tagVersion (engCluster e) (h % 2 ^ 32) o.version
      if (k.rk (fKd w)).tag = some ⟨h, v, t.tenant, o.attr⟩ then s.sltRetire e id
      else s.sltWait e (.key w o)

/-- What a transfer brings: the version and material that the request found, under the attributes the object has now; nothing once
the object was destroyed (R156). -/
def State.keyBrought (s : State) (handle : Nat) (o : KeyObj) : Option KeyObj :=
  if attrAlg o.attr = 0 then none else (s.keyObj handle).map fun c => { o with attr := c.attr }

/-- The transfer arrives: the checks hold at that moment too, and the register and its tag are filled (R40). -/
def State.sltKeyReply (s : State) (e : Nat) (w : IWord) (found : KeyObj) : State :=
  let k := s.eng e
  match k.task with
  | none => s
  | some t =>
    let h := (k.rs (fSa w)).toNat
    match s.keyJudge e t h (fPart w) (s.keyBrought h found) with
    | .error c => s.sltFault e c
    | .ok o =>
      if s.keyPoisoned h then s.sltFault e SFault.poison
      else s.sltRetire e fun k => k.setk (fKd w) ⟨keyPart o.image (fPart w), some ⟨h, o.version, t.tenant, o.attr⟩⟩

/-! ## Key registers as operands (R49) -/

/-- A register's value when its tag is set and its algorithm is one the unit allows. -/
def Engine.keyFor (k : Engine) (r : Nat) (allowed : Nat → Bool) : Option (Wide × Nat) :=
  match (k.rk r).tag with
  | none => none
  | some t => if allowed (attrAlg t.attr) then some ((k.rk r).val, attrAlg t.attr) else none

/-- Operand b of the multiplier: kb when ksel = 1, else wb. -/
def Engine.mulB (k : Engine) (w : IWord) : Option Nat :=
  if fKsel w then (k.keyFor (fKb w) fun a => 8 ≤ a && a ≤ 16).map fun p => p.1.toNat else some (k.rw (fWb w)).toNat

/-- `n` registers from `r`, each usable by the unit, as bytes in order (R489). -/
def Engine.keyBytes (k : Engine) (r : Nat) (allowed : Nat → Bool) : Nat → Option (List Nat)
  | 0 => some []
  | n + 1 =>
    match k.keyFor (r % 32) allowed, k.keyBytes (r + 1) allowed n with
    | some (v, _), some l => some (Crypto.bytesLe 32 v.toNat ++ l)
    | _, _ => none

/-- The bytes of a wide register, byte 0 first (R489). -/
def Engine.wBytes (k : Engine) (r : Nat) : List Nat := Crypto.bytesLe 32 (k.rw r).toNat

def wOfBytes (l : List Nat) : Wide := BitVec.ofNat 256 (Crypto.natLe l)

/-! ## Register instructions -/

/-- rd ← ra op rb. -/
def sltRR (f : Word → Word → Word) (w : IWord) (k : Engine) : Engine := k.sets (fRd w) (f (k.rs (fRa w)) (k.rs (fRb w)))

/-- rd ← ra op imm. -/
def sltRI (f : Word → Word) (w : IWord) (k : Engine) : Engine := k.sets (fRd w) (f (k.rs (fRa w)))

def sltClz (x : Nat) : Nat → Nat
  | 0 => 0
  | n + 1 => if x.testBit n then 0 else 1 + sltClz x n

def sltPopc (x : Nat) : Nat → Nat
  | 0 => 0
  | n + 1 => b2n (x.testBit n) + sltPopc x n

/-- A shift by a 6-bit amount: SLL, SRL, SRA, ROR. -/
def shift64 (kind : Nat) (x : Word) (n : Nat) : Word :=
  match kind with
  | 0 => x <<< n
  | 1 => x >>> n
  | 2 => x.sshiftRight n
  | _ => x.rotateRight n

def wImm (w : IWord) : Word := wInt (sext 18 (fImm w))
def wZimm (w : IWord) : Word := w64 (fImm w)

/-- wd ← wa + wb + c, cf ← carry. -/
def wAddC (w : IWord) (c : Nat) (k : Engine) : Engine :=
  let n := (k.rw (fWa w)).toNat + (k.rw (fWb w)).toNat + c
  { k.setw (fWd w) (BitVec.ofNat 256 n) with cf := decide (2 ^ 256 ≤ n) }

/-- wd ← wa − wb − c, cf ← borrow. -/
def wSubC (w : IWord) (c : Nat) (k : Engine) : Engine :=
  let a := (k.rw (fWa w)).toNat
  let b := (k.rw (fWb w)).toNat + c
  { k.setw (fWd w) (BitVec.ofNat 256 (a + 2 ^ 257 - b)) with cf := decide (a < b) }

def wBin (f : Wide → Wide → Wide) (w : IWord) (k : Engine) : Engine :=
  k.setw (fWd w) (f (k.rw (fWa w)) (k.rw (fWb w)))

/-- {cf, wd} ← {wa, cf} shifted left one bit. -/
def wShl1 (w : IWord) (k : Engine) : Engine :=
  let a := k.rw (fWa w)
  { k.setw (fWd w) (a <<< 1 ||| BitVec.ofNat 256 (b2n k.cf)) with cf := a.toNat.testBit 255 }

/-- {wd, cf} ← {cf, wa} shifted right one bit. -/
def wShr1 (w : IWord) (k : Engine) : Engine :=
  let a := k.rw (fWa w)
  { k.setw (fWd w) (a >>> 1 ||| BitVec.ofNat 256 (b2n k.cf * 2 ^ 255)) with cf := a.toNat.testBit 0 }

/-- x^(2^n) mod m by squaring. -/
def sqMod (m x : Nat) : Nat → Nat
  | 0 => x
  | n + 1 => sqMod m (x * x % m) n

/-- a · b · 2^-256 mod m for odd m (R47). -/
def montMul (a b m : Nat) : Nat := a * b % m * sqMod m ((m + 1) / 2 % m) 8 % m

/-- An AES key of the operand: its bytes, or none for KEY_EMPTY (R47, R49). -/
def Engine.aesKey (k : Engine) (w : IWord) : Option (List Nat) :=
  if fKsel w then
    (k.keyFor (fKb w) fun a => 1 ≤ a && a ≤ 3 && (fSub w == 0 || fSub w == a)).map fun p =>
      (Crypto.bytesLe 32 p.1.toNat).take (algBytes p.2)
  else some ((k.wBytes (fWb w)).take (algBytes (fSub w)))

/-- The words of a SHA-2 state in a register pair or register (R489). -/
def shaState (width : Nat) (n : Nat) : List Nat := (List.range 8).map fun i => n / 2 ^ (width * i) % 2 ^ width

def shaPack (width : Nat) (l : List Nat) : Nat := l.foldr (fun h n => h + 2 ^ width * n) 0

/-- SHA-256 compression of state wd with a block. -/
def sha256Op (blk : List Nat) (w : IWord) (k : Engine) : Engine :=
  let st := shaState 32 (k.rw (fWd w)).toNat
  k.setw (fWd w) (BitVec.ofNat 256 (shaPack 32 (Crypto.sha256P.compress st (Crypto.sha256P.words blk))))

/-- SHA-512 compression of the state in {w1, w0} with a block. -/
def sha512Op (blk : List Nat) (k : Engine) : Engine :=
  let st := shaState 64 ((k.rw 0).toNat + 2 ^ 256 * (k.rw 1).toNat)
  let n := shaPack 64 (Crypto.sha512P.compress st (Crypto.sha512P.words blk))
  (k.setw 0 (BitVec.ofNat 256 n)).setw 1 (BitVec.ofNat 256 (n / 2 ^ 256))

/-- The pad of SHA256K and SHA512K. -/
def hmacPad (w : IWord) : Nat := if fSub w = 0 then 0x36 else 0x5C

/-- Keccak-f[1600] on w0 to w6; w6[255:64] is kept (R489). -/
def keccakOp (k : Engine) : Engine :=
  let lanes := (List.range 25).map fun i => (k.rw (i / 4)).toNat / 2 ^ (64 * (i % 4)) % 2 ^ 64
  let out := Crypto.keccakF lanes
  let wide := fun r => shaPack 64 ((out.drop (4 * r)).take 4)
  let k := (List.range 6).foldl (fun k r => k.setw r (BitVec.ofNat 256 (wide r))) k
  k.setw 6 (BitVec.ofNat 256 ((k.rw 6).toNat / 2 ^ 64 * 2 ^ 64 + Crypto.at0 out 24))

/-- Lane `n` of a wide register replaced. -/
def setLane (x : Wide) (n : Nat) (v : Word) : Wide :=
  let lo := 2 ^ (64 * n)
  BitVec.ofNat 256 (x.toNat - x.toNat / lo % 2 ^ 64 * lo + v.toNat * lo)

/-- The condition of Bcc. -/
def sltBccHolds (cond : Nat) (a b : Word) : Bool :=
  match cond with
  | 0 => a == b
  | 1 => a != b
  | 2 => a.slt b
  | 3 => !a.slt b
  | 4 => a.ult b
  | 5 => !a.ult b
  | 6 => a &&& b != 0
  | _ => a &&& b == 0

/-- The condition of BZcc. -/
def sltBzccHolds (cond : Nat) (a : Word) : Bool :=
  match cond with
  | 0 => a == 0
  | 1 => a != 0
  | 2 => a.slt 0
  | 3 => !a.slt 0
  | 4 => (0 : Word).slt a
  | _ => !(0 : Word).slt a

/-! ## Control transfers (R50 to R52) -/

/-- A branch: the slot comes next, then the target or the instruction after the slot. A transfer in a slot that executes
raises DCTI_SLOT. -/
def State.sltBranch (s : State) (e : Nat) (take : Bool) (target : Nat) (annul link : Bool) : State :=
  let k := s.eng e
  if k.slot then s.sltFault e SFault.dctiSlot
  else
    (s.updEng e fun k =>
      let k := if link then k.sets 15 (w64 (k.pc + 8)) else k
      { k with pc := k.npc, npc := if take then target else (k.npc + 4) % 2 ^ 64, slot := true, annul := annul }).sltBoundary e

/-- The branch's own address + 4 · offset. -/
def sltTarget (k : Engine) (n off : Nat) : Nat := (w64 k.pc + wInt (4 * sext n off)).toNat

/-- DONE (R47, R64, R65). -/
def State.sltDone (s : State) (e : Nat) (w : IWord) : State :=
  let k := s.eng e
  if k.slot then s.sltFault e SFault.dctiSlot
  else
    let st := (k.rs (fRa w)).toNat % 256
    if 0x0D < st then s.sltFault e SFault.badStatus
    else s.sltEnd e st (k.rs (fRb w)).toNat

/-- FENCE (R47). -/
def State.sltFence (s : State) (e : Nat) (w : IWord) : State :=
  if (s.eng e).posted.isEmpty then s.sltRetire e id else s.sltWait e (.fence w)

/-- RDTL (R171): one 96-bit sample of the cluster's replica. -/
def State.sltRdtl (s : State) (e : Nat) (w : IWord) : State :=
  let v := strataBits (s.replica (clusterStop (engCluster e)))
  s.sltRetire e fun k => { k.sets (fRd w) (w64 v) with rdth := v / 2 ^ 64 }

/-- BRK (R47): a halt at the next boundary when invasive debug is enabled for the pool's world, else BREAK. -/
def State.sltBrk (s : State) (e : Nat) : State :=
  if s.debugOf (engHalf e) (s.engWorld e) true then (s.updEng e Engine.advance).sltHalt e else s.sltFault e SFault.break_

/-- CLOCK and CUNLOCK (R56). -/
def Engine.clockOp (w : IWord) (k : Engine) : Engine :=
  let m := k.locks ||| ifld w 3 0
  if m = 15 then k.sets (fRd w) 1 else { k.sets (fRd w) 0 with locks := m }

def Engine.cunlockOp (w : IWord) (k : Engine) : Engine := { k with locks := k.locks &&& (15 - ifld w 3 0) }

/-- CINVL (R56): the line at ra, in whichever way. -/
def Engine.cinvlOp (w : IWord) (k : Engine) : Engine :=
  let line := (k.rs (fRa w)).toNat / 64
  match k.findWay line with
  | some way => k.setLine (line % 64) way none
  | none => k

/-- A key operand that is absent raises KEY_EMPTY. -/
def State.sltKeyed {α : Type} (s : State) (e : Nat) (x : Option α) (f : α → Engine → Engine) : State :=
  match x with
  | none => s.sltFault e SFault.keyEmpty
  | some a => s.sltRetire e (f a)

/-- A multiplier instruction with the modulus latch: KEY_EMPTY, then MODULUS (log entry 20), else `f b m`. -/
def State.sltModular (s : State) (e : Nat) (w : IWord) (f : Nat → Nat → State) : State :=
  match (s.eng e).mulB w, (s.eng e).modulus with
  | none, _ => s.sltFault e SFault.keyEmpty
  | some _, none => s.sltFault e SFault.modulus
  | some b, some (m, _) => f b m.toNat

/-- MADD and MSUB: operands that are not below m give an unspecified result, a free value. -/
def State.sltModAdd (s : State) (e : Nat) (w : IWord) (sub : Bool) : State :=
  s.sltModular e w fun b m =>
    let a := ((s.eng e).rw (fWa w)).toNat
    if a < m && b < m then
      s.sltRetire e fun k => k.setw (fWd w) (BitVec.ofNat 256 ((if sub then a + m - b else a + b) % m))
    else
      let (v, s) := s.drawFree
      s.sltRetire e fun k => k.setw (fWd w) (BitVec.ofNat 256 v)

/-- MSETM (R47, R49): the latch takes an odd value and the task's tenant. -/
def State.sltMsetm (s : State) (e : Nat) (w : IWord) : State :=
  let k := s.eng e
  let v := if fKsel w then k.mulB w else some (k.rw (fWa w)).toNat
  match v with
  | none => s.sltFault e SFault.keyEmpty
  | some m =>
    if m % 2 = 0 then s.sltFault e SFault.modulus
    else s.sltRetire e fun k =>
      { k with modulus := some (BitVec.ofNat 256 m, match k.task with | some t => t.tenant | none => 0) }

/-- TDES with the keying option of the key's attributes. -/
def Engine.tdesKey (k : Engine) (w : IWord) : Option (List Nat) :=
  (k.keyFor (fKb w) fun a => a == 4 || a == 5).map fun p => (Crypto.bytesLe 32 p.1.toNat).take (algBytes p.2)

/-- GMUL in the byte order of R489. -/
def gmulOp (w : IWord) (k : Engine) : Engine :=
  let blk := fun r => Crypto.natBe ((k.wBytes r).take 16)
  k.setw (fWd w) (wOfBytes (Crypto.bytesBe 16 (Crypto.gf128 (blk (fWa w)) (blk (fWb w)))))

/-- WCSEL: wx ← wz when bit sy[7:0] of kb is 1. -/
def State.sltWcsel (s : State) (e : Nat) (w : IWord) : State :=
  s.sltKeyed e ((s.eng e).keyFor (fXkb w) fun _ => true) fun p k =>
    if p.1.toNat.testBit ((k.rs (fY w)).toNat % 256) then k.setw (fX w) (k.rw (fZ w)) else k

/-- What an instruction does at an engine whose pc is at it. -/
def State.sltBody (s : State) (e : Nat) (w : IWord) : SOp → State
  | .add => s.sltRetire e (sltRR (· + ·) w)
  | .sub => s.sltRetire e (sltRR (· - ·) w)
  | .and => s.sltRetire e (sltRR (· &&& ·) w)
  | .or => s.sltRetire e (sltRR (· ||| ·) w)
  | .xor => s.sltRetire e (sltRR (· ^^^ ·) w)
  | .andn => s.sltRetire e (sltRR (fun a b => a &&& ~~~b) w)
  | .sll => s.sltRetire e (sltRR (fun a b => shift64 0 a (b.toNat % 64)) w)
  | .srl => s.sltRetire e (sltRR (fun a b => shift64 1 a (b.toNat % 64)) w)
  | .sra => s.sltRetire e (sltRR (fun a b => shift64 2 a (b.toNat % 64)) w)
  | .ror => s.sltRetire e (sltRR (fun a b => shift64 3 a (b.toNat % 64)) w)
  | .slt => s.sltRetire e (sltRR (fun a b => w64 (b2n (a.slt b))) w)
  | .sltu => s.sltRetire e (sltRR (fun a b => w64 (b2n (a.ult b))) w)
  | .mul => s.sltRetire e (sltRR (· * ·) w)
  | .mulhu => s.sltRetire e (sltRR (fun a b => w64 (a.toNat * b.toNat / 2 ^ 64)) w)
  | .clz => s.sltRetire e (sltRI (fun a => w64 (sltClz a.toNat 64)) w)
  | .popc => s.sltRetire e (sltRI (fun a => w64 (sltPopc a.toNat 64)) w)
  | .bswap => s.sltRetire e (sltRI (fun a => w64 (ofBe (leBytes 8 a.toNat))) w)
  | .addi => s.sltRetire e (sltRI (· + wImm w) w)
  | .andi => s.sltRetire e (sltRI (· &&& wZimm w) w)
  | .ori => s.sltRetire e (sltRI (· ||| wZimm w) w)
  | .xori => s.sltRetire e (sltRI (· ^^^ wZimm w) w)
  | .shi => s.sltRetire e (sltRI (fun a => shift64 (ifld w 7 6) a (ifld w 5 0)) w)
  | .movz => s.sltRetire e fun k => k.sets (fRd w) (w64 (ifld w 15 0 * 2 ^ (16 * ifld w 21 20)))
  | .movk => s.sltRetire e fun k =>
      let p := 2 ^ (16 * ifld w 21 20)
      let old := (k.rs (fRd w)).toNat
      k.sets (fRd w) (w64 (old - old / p % 65536 * p + ifld w 15 0 * p))
  | .ld => s.sltLoadOp e w 8 fun k v => k.sets (fRd w) (w64 v)
  | .lw => s.sltLoadOp e w 4 fun k v => k.sets (fRd w) (w64 v)
  | .lh => s.sltLoadOp e w 2 fun k v => k.sets (fRd w) (w64 v)
  | .lb => s.sltLoadOp e w 1 fun k v => k.sets (fRd w) (w64 v)
  | .sd => s.sltStoreOp e w 8 ((s.eng e).rs (fRd w)).toNat
  | .sw => s.sltStoreOp e w 4 ((s.eng e).rs (fRd w)).toNat
  | .sh => s.sltStoreOp e w 2 ((s.eng e).rs (fRd w)).toNat
  | .sb => s.sltStoreOp e w 1 ((s.eng e).rs (fRd w)).toNat
  | .wld => s.sltLoadOp e w 32 fun k v => k.setw (fWd w) (BitVec.ofNat 256 v)
  | .wst => s.sltStoreOp e w 32 ((s.eng e).rw (fWd w)).toNat
  | .cpre => s.sltCpreOp e w
  | .clock => s.sltRetire e (Engine.clockOp w)
  | .cunlock => s.sltRetire e (Engine.cunlockOp w)
  | .cinv => s.sltRetire e Engine.invalidateUnlocked
  | .cinvl => s.sltRetire e (Engine.cinvlOp w)
  | .amoadd => s.sltAmoOp e w fun old => old + (s.eng e).rs (fRb w)
  | .amoswap => s.sltAmoOp e w fun _ => (s.eng e).rs (fRb w)
  | .amocas => s.sltAmoOp e w fun old => if old = (s.eng e).rs (fRd w) then (s.eng e).rs (fRb w) else old
  | .bcc =>
    let k := s.eng e
    let t := sltBccHolds (ifld w 24 22) (k.rs (fRa w)) (k.rs (fRb w))
    s.sltBranch e t (sltTarget k 14 (ifld w 13 0)) (bitOf w.toNat 25 && !t) false
  | .bzcc =>
    let k := s.eng e
    let t := sltBzccHolds (ifld w 24 22) (k.rs (fRa w))
    s.sltBranch e t (sltTarget k 14 (ifld w 13 0)) (bitOf w.toNat 25 && !t) false
  | .j => s.sltBranch e true (sltTarget (s.eng e) 24 (ifld w 23 0)) (bitOf w.toNat 25) (bitOf w.toNat 24)
  | .jr => s.sltBranch e true ((s.eng e).rs (ifld w 23 20)).toNat (bitOf w.toNat 25) (bitOf w.toNat 24)
  | .done => s.sltDone e w
  | .nop => s.sltRetire e id
  | .fence => s.sltFence e w
  | .rdtl => s.sltRdtl e w
  | .rdth => s.sltRetire e fun k => k.sets (fRd w) (w64 k.rdth)
  | .brk => s.sltBrk e
  | .getcf => s.sltRetire e fun k => k.sets (fRd w) (w64 (b2n k.cf))
  | .setcf => s.sltRetire e fun k => { k with cf := (k.rs (fRa w)).toNat.testBit 0 }
  | .wadd => s.sltRetire e (wAddC w 0)
  | .waddc => s.sltRetire e fun k => wAddC w (b2n k.cf) k
  | .wsub => s.sltRetire e (wSubC w 0)
  | .wsubb => s.sltRetire e fun k => wSubC w (b2n k.cf) k
  | .wand => s.sltRetire e (wBin (· &&& ·) w)
  | .wor => s.sltRetire e (wBin (· ||| ·) w)
  | .wxor => s.sltRetire e (wBin (· ^^^ ·) w)
  | .wmov => s.sltRetire e fun k => k.setw (fWd w) (k.rw (fWa w))
  | .wshl1 => s.sltRetire e (wShl1 w)
  | .wshr1 => s.sltRetire e (wShr1 w)
  | .wzero => s.sltRetire e fun k => k.setw (fWd w) 0
  | .mullo => s.sltKeyed e ((s.eng e).mulB w) fun b k => k.setw (fWd w) (BitVec.ofNat 256 ((k.rw (fWa w)).toNat * b))
  | .mulhi => s.sltKeyed e ((s.eng e).mulB w) fun b k =>
      k.setw (fWd w) (BitVec.ofNat 256 ((k.rw (fWa w)).toNat * b / 2 ^ 256))
  | .mmul => s.sltModular e w fun b m => s.sltRetire e fun k =>
      k.setw (fWd w) (BitVec.ofNat 256 (montMul (k.rw (fWa w)).toNat b m))
  | .madd => s.sltModAdd e w false
  | .msub => s.sltModAdd e w true
  | .msetm => s.sltMsetm e w
  | .aese => s.sltKeyed e ((s.eng e).aesKey w) fun key k =>
      k.setw (fWd w) (wOfBytes (Crypto.aesEnc key ((k.wBytes (fWa w)).take 16)))
  | .aesd => s.sltKeyed e ((s.eng e).aesKey w) fun key k =>
      k.setw (fWd w) (wOfBytes (Crypto.aesDec key ((k.wBytes (fWa w)).take 16)))
  | .tdese => s.sltKeyed e ((s.eng e).tdesKey w) fun key k =>
      k.setw (fWd w) (wOfBytes (Crypto.tdesEnc key ((k.wBytes (fWa w)).take 8)))
  | .tdesd => s.sltKeyed e ((s.eng e).tdesKey w) fun key k =>
      k.setw (fWd w) (wOfBytes (Crypto.tdesDec key ((k.wBytes (fWa w)).take 8)))
  | .gmul => s.sltRetire e (gmulOp w)
  | .sha256c => s.sltRetire e fun k => sha256Op (k.wBytes (fWa w) ++ k.wBytes (fWa w + 1)) w k
  | .sha512c => s.sltRetire e fun k => sha512Op ((List.range 4).flatMap fun i => k.wBytes (4 + i)) k
  | .sha256k => s.sltKeyed e ((s.eng e).keyBytes (fKb w) (· == 6) 2) fun b k =>
      sha256Op (b.map (· ^^^ hmacPad w)) w k
  | .sha512k => s.sltKeyed e ((s.eng e).keyBytes (fKb w) (· == 7) 4) fun b k => sha512Op (b.map (· ^^^ hmacPad w)) k
  | .keccak => s.sltRetire e keccakOp
  | .wins => s.sltRetire e fun k => k.setw (fX w) (setLane (k.rw (fX w)) (fLane w) (k.rs (fY w)))
  | .wext => s.sltRetire e fun k => k.sets (fX w) (w64 ((k.rw (fY w)).toNat / 2 ^ (64 * fLane w)))
  | .wceq => s.sltRetire e fun k => k.sets (fX w) (w64 (b2n (k.rw (fY w) == k.rw (fZ w))))
  | .wcsel => s.sltWcsel e w
  | .wbit => s.sltRetire e fun k =>
      k.sets (fX w) (w64 (b2n ((k.rw (fY w)).toNat.testBit ((k.rs (fZ w)).toNat % 256))))
  | .kld => s.sltKld e w
  | .kzero => s.sltRetire e fun k => k.setk (fKd w) KeyReg.empty
  | .kzall => s.sltRetire e Engine.zeroKeys

/-- The word at pc as IRAM holds it. -/
def Engine.fetchWord (k : Engine) : IWord := BitVec.ofNat 32 (ofLe (peekList k.iramAt k.pc 4))

/-- An annulled slot changes nothing but the place (R51). -/
def Engine.skipAnnulled (k : Engine) : Engine := if k.annul then k.advance else k

/-- Execute the word at pc: PC_RANGE outside IRAM (R52), ILLEGAL for a word of R46. -/
def State.sltExec (s : State) (e : Nat) (w : IWord) : State :=
  let s := s.updEng e Engine.skipAnnulled
  if 0x2000 ≤ (s.eng e).pc || (s.eng e).pc % 4 != 0 then s.sltFault e SFault.pcRange
  else match SOp.of w with
    | none => s.sltFault e SFault.illegal
    | some o => s.sltBody e w o

/-- The engine may issue an instruction. -/
def State.sltReady (s : State) (e : Nat) : Bool := (s.eng e).run == .run && (s.eng e).stall == .none && s.clusterUp (engCluster e)

/-- The command of instruction `o` with the word fetched: a word that spells another instruction has no effect under this
row (log entry 7). -/
def sltInstr (o : SOp) (e : EngineId) (w : IWord) (s : State) : Out3 :=
  if !s.sltReady e.val || (SOp.of w != none && SOp.of w != some o) then .next s else .next (s.sltExec e.val w)

/-- Run a waiting instruction again. -/
def State.sltAgain (s : State) (e : Nat) (w : IWord) : State :=
  match SOp.of w with
  | none => s
  | some o => (s.sltWait e .none).sltBody e w o

/-- The line an engine waits for arrives (R54). -/
def State.sltFill (s : State) (e : Nat) (w : IWord) (flips : List (Fin 2 × Fin 35 × Byte)) : State :=
  let s := s.sltWait e .none
  match SOp.of w with
  | some .ld => s.sltLoadFill e w flips 8 fun k v => k.sets (fRd w) (w64 v)
  | some .lw => s.sltLoadFill e w flips 4 fun k v => k.sets (fRd w) (w64 v)
  | some .lh => s.sltLoadFill e w flips 2 fun k v => k.sets (fRd w) (w64 v)
  | some .lb => s.sltLoadFill e w flips 1 fun k v => k.sets (fRd w) (w64 v)
  | some .wld => s.sltLoadFill e w flips 32 fun k v => k.setw (fWd w) (BitVec.ofNat 256 v)
  | some .cpre => s.sltCpreFill e w flips
  | _ => s

end Sys2Proof.Machine
end

