-- ==== Sys2Proof/Machine/DspCore.lean ====
section
/-!
DEFINITION. DspCore: what Dispatch, the clusters and the Collector share: records (R88, R106), routing (R79, R80), the
start of a task (R41, R42, R128), deques (R81, R82) and tenant interfaces' counts (R75, R300, R301).
-/
namespace Sys2Proof.Machine

def State.dspOf (s : State) (h : Nat) : Dsp := SMap.get Dsp.empty s.dsp h
def State.updDsp (s : State) (h : Nat) (f : Dsp → Dsp) : State := { s with dsp := SMap.upd Dsp.empty s.dsp h f }
def State.cltOf (s : State) (h : Nat) : Clt := SMap.get Clt.empty s.clt h
def State.updClt (s : State) (h : Nat) (f : Clt → Clt) : State := { s with clt := SMap.upd Clt.empty s.clt h f }
def Clt.lane (c : Clt) (k : Nat) : List Rec := SMap.get [] c.lanes k
def Clt.setLane (c : Clt) (k : Nat) (l : List Rec) : Clt := { c with lanes := SMap.set [] c.lanes k l }

/-! ## Records (R88) -/

/-- The credits a kind of source holds in a lane: own cluster 72, the other half's cluster 4, Dispatch 4. -/
def laneFull (l : List Rec) (r : Rec) : Bool :=
  if r.dispatch then 4 ≤ (l.filter fun x => x.dispatch).length
  else if r.remote then 4 ≤ (l.filter fun x => !x.dispatch && x.remote).length
  else 72 ≤ (l.filter fun x => !x.dispatch && !x.remote).length

/-- Insert Dispatch's waiting records while they hold credits; each takes its stamp then. -/
def State.dspInsertAll (s : State) (h : Nat) : State :=
  if !s.blkOn Cls.clt h then s
  else
    let stamp := strataBits (s.replica (tStop h))
    let c := s.cltOf h
    let (c, left) := (s.dspOf h).recs.foldl (fun (st : Clt × List Rec) r =>
      let k := r.ti % 8
      if laneFull (st.1.lane k) r then (st.1, st.2 ++ [r])
      else (st.1.setLane k (st.1.lane k ++ [{ r with stamp := stamp }]), st.2)) (c, [])
    { s with clt := SMap.set Clt.empty s.clt h c }.updDsp h fun d => { d with recs := left }

/-- Dispatch makes a record for a TI (R78, R107). -/
def State.dspMake (s : State) (r : Rec) : State :=
  let h := s.tiHome r.ti
  (s.updDsp h fun d => { d with recs := d.recs ++ [r] }).dspInsertAll h

/-! ## Tenant interfaces (R75, R297, R300, R301) -/

/-- The ring's size, or 0. -/
def State.ringSize (s : State) (ti : Nat) : Nat := 2 ^ s.rf Reg.TIF_RING.log2_size ti

/-- Entries accepted and not consumed: the ring is full when they fill it (R95, R300). -/
def State.ringFilled (s : State) (ti : Nat) : Nat :=
  ((s.ti ti).nextSeq + 2 ^ 32 - s.rf Reg.TIF_RING_STATE.head ti) % 2 ^ 32

def State.ringFull (s : State) (ti : Nat) : Bool := s.ringSize ti ≤ s.ringFilled ti

def State.outstanding (s : State) (ti : Nat) : Nat := s.rf Reg.TIF_STATUS.outstanding ti

/-- Release an outstanding descriptor and its ring reservation. -/
def State.tiRelease (s : State) (ti : Nat) : State :=
  s.setf Reg.TIF_STATUS.outstanding ti (s.outstanding ti - 1)

/-- The room of R75: under the queue-depth quota and in the ring. -/
def State.tiRoom (s : State) (ti : Nat) : Nat :=
  let depth := max 1 (s.rf Reg.TIF_QUOTA.depth ti)
  min (depth - s.outstanding ti) (s.ringSize ti - s.ringFilled ti - s.outstanding ti)

/-- The world of the TI's events: Hardpan for priv = 1, else Topsoil (R98). -/
def State.tiEvTo (s : State) (ti : Nat) : EvTo := EvTo.ofWorld (s.tiWorld ti)

/-- The slots of a queue (R299). -/
def State.sqSize (s : State) (ti q : Nat) : Nat := 2 ^ s.rf Reg.TIF_SQ.log2_size ti q

/-- The address of a slot. -/
def State.slotAddr (s : State) (ti q i : Nat) : Nat := s.rf Reg.TIF_SQ.base ti q * 4096 + 128 * i

/-- Entries from the fetch index to the tail. -/
def State.sqPending (s : State) (ti q : Nat) : Nat :=
  let n := s.sqSize ti q
  (s.rf Reg.TIF_SQ_STATE.tail ti q + n - SMap.get 0 (s.ti ti).fetch q % n) % n

/-- The shadow line (R301). -/
def State.shadowLine (s : State) (ti : Nat) : List Byte :=
  ((List.range 16).flatMap fun q => leBytes 2 (s.rf Reg.TIF_SQ_STATE.fetch ti q)) ++
    leBytes 4 (s.rf Reg.TIF_RING_STATE.tail ti) ++ leBytes 2 (s.tiGen ti) ++
    [BitVec.ofNat 8 (s.rf Reg.TIF_STATUS.stalled ti + 2 * s.rf Reg.TIF_STATUS.resetting ti)] ++ List.replicate 25 0

/-- Rewrite the shadow line after a value it reports changed; a refused write puts the TI in FAULT (R301, R303). -/
def State.shadow (s : State) (ti : Nat) : State :=
  if !s.rb Reg.TIF_SHADOW.enable ti || (s.ti ti).failed || !(s.blkState Cls.tif ti == 2 || s.blkState Cls.tif ti == 3) then s
  else match s.writeMem (s.tiReq ti) (s.rf Reg.TIF_SHADOW.addr ti * 64) (s.shadowLine ti) with
    | (.data _ _, s) => s
    | (_, s) => s.blockFault Cls.tif ti Status.ownership

/-- Count a stale descriptor or record of a TI. -/
def State.tiStale (s : State) (ti : Nat) : State := s.addf Reg.TIF_COUNT.stale ti

/-- An entry of an old generation is dropped (R78, R82). The half whose DSP_COUNT counts one that an engine of the other half pops
is not stated: it is the TI's home half (DESIGN CHOICE, log entry 235). -/
def State.dropStale (s : State) (ti : Nat) : State := (s.addf Reg.DSP_COUNT.stale (s.tiHome ti)).tiStale ti

/-! ## Pools and clusters (R79 to R81) -/

/-- The members of a pool in a cluster, in engine order; with `all`, those leaving too. -/
def State.clusterMembers (s : State) (c pool : Nat) (all : Bool := false) : List Nat :=
  ((List.range 64).map fun i => 64 * c + i).filter fun e =>
    s.isMember e && s.poolOf e == pool && (all || !s.leaving e)

/-- The list L of R79. -/
def State.clusterList (s : State) (h pool : Nat) : List Nat :=
  ((List.range 8).map fun k => 8 * h + k).filter fun c => s.clusterUp c && !(s.clusterMembers c pool).isEmpty

def State.poolMembers (s : State) (h pool : Nat) : List Nat :=
  ((List.range 8).map fun k => 8 * h + k).flatMap fun c => s.clusterMembers c pool

/-- The hash f of R79 of an affinity key. -/
def affinity (a : Nat) : Nat :=
  let x := a / 2 ^ 32 % 2 ^ 32 ^^^ a % 2 ^ 32
  x / 2 ^ 16 ^^^ x % 2 ^ 16

def Entry.affinityKey (e : Entry) (tenant : Nat) : Nat :=
  if e.fld 0x08 8 != 0 then e.fld 0x08 8 else tenant * 16 + e.queue

/-- The spill level of R80. -/
def State.spillLevel (s : State) (h : Nat) : Nat :=
  let v := s.rf Reg.DSP_ROUTE_CTL.spill_level h
  if v = 0 || 512 < v then 512 else v

def Cluster.injList (c : Cluster) (pool : Nat) : List Entry := SMap.get [] c.inj pool
def Cluster.injCount (c : Cluster) : Nat := c.inj.foldl (fun n p => n + p.2.length) 0
def Cluster.injPut (c : Cluster) (pool : Nat) (es : List Entry) : Cluster :=
  { c with inj := SMap.set [] c.inj pool (c.injList pool ++ es) }

/-- The cluster has room for an entry of the pool. -/
def State.clusterRoom (s : State) (h c pool : Nat) : Bool :=
  ((s.cluster c).injList pool).length < s.spillLevel h && (s.cluster c).injCount < 512

/-- Put the entry into the first cluster of L from its hash that has room (R79, R80). -/
def State.routeIn (s : State) (h pool : Nat) (e : Entry) : Option State :=
  let l := s.clusterList h pool
  let n := l.length
  let i := affinity (e.affinityKey (s.rf Reg.TIF_CFG.tenant e.ti)) % n
  match ((List.range n).map fun j => l.getD ((i + j) % n) 0).find? fun c => s.clusterRoom h c pool with
  | none => none
  | some c => some (s.updCluster c fun k => k.injPut pool [e])

/-- Reserve the pool's links: cross-routing is allowed to the linked pool (R80). -/
def State.crossPool (s : State) (h pool : Nat) : Option Nat :=
  if s.rb Reg.DSP_POOL_LINK.link_valid h pool && s.rb Reg.DSP_POOL_LINK.cross_route h pool && s.sys.lostHalf.isNone then
    some (s.rf Reg.DSP_POOL_LINK.peer_pool h pool)
  else none

/-! ## Tasks in the other half (R416) -/

/-- The entries of TIs homed in half `h` that stand in the other half, or on their way into it. -/
def State.remoteEntries (s : State) (h : Nat) : List Entry :=
  let o := 1 - h
  let mine := fun (e : Entry) => s.tiHome e.ti == h
  (s.clusters.filter fun c => c.1 / 8 == o).flatMap (fun c => c.2.inj.flatMap fun p => p.2.filter mine) ++
    (s.engines.filter fun k => engHalf k.1 == o).flatMap (fun k =>
      k.2.deque.filter mine ++ (match k.2.task with | some t => if mine t.entry then [t.entry] else [] | none => [])) ++
    ((s.dspOf o).held ++ (s.dspOf o).arriving).filterMap (fun x => if mine x.1 then some x.1 else none) ++
    s.steals.filterMap (fun m => match m with
      | .reply t _ _ (some e) _ => if mine e && engHalf t == o then some e else none
      | _ => none)

/-- The records of such tasks that the home's Collector has not accepted: in the engines' latches of the other half, or in a
lane. -/
def State.remoteRecs (s : State) (h : Nat) : List Rec :=
  (s.engines.filter fun k => engHalf k.1 == 1 - h).flatMap (fun k => k.2.latch.filter fun r => s.tiHome r.ti == h) ++
    (s.cltOf h).lanes.flatMap fun l => l.2.filter fun r => r.remote && !r.dispatch

/-- Dispatch's table of tasks in the other half is full. -/
def State.remoteFull (s : State) (h : Nat) : Bool := 2048 ≤ (s.remoteEntries h).length + (s.remoteRecs h).length

/-- Route a descriptor that passed validation: behind those held for its pool, into a cluster, over the bridge, or held
(R80). Entries for a Hardpan pool end with HP_ABSENT once Hardpan is declared absent (R99), and one of a TI in a squashing
reset ends with SQUASHED (R96, R306). A descriptor crosses the bridge once. -/
def State.route (s : State) (h pool : Nat) (e : Entry) : State :=
  let hold := fun (s : State) => s.updDsp h fun d => { d with held := d.held ++ [(e, pool)] }
  if s.rb Reg.TIF_STATUS.resetting e.ti && e.gen == s.tiGen e.ti && (e.timed || !(s.ti e.ti).draining) then
    s.dspMake (e.dspRec Status.squashed 0xFFFF)
  else if s.poolWorld h pool = .hardpan && s.hpAbsent h then s.dspMake (e.dspRec Status.hpAbsent 0xFFFF)
  else if (s.dspOf h).held.any fun x => x.2 == pool then hold s
  else if (s.clusterList h pool).isEmpty then
    match if s.tiHome e.ti = h then s.crossPool h pool else none with
    | some p => if s.remoteFull h then hold s else s.updDsp (1 - h) fun d => { d with arriving := d.arriving ++ [(e, p)] }
    | none => s.dspMake (e.dspRec Status.badService 0xFFFF)
  else match s.routeIn h pool e with
    | some s => s
    | none => hold s

/-! ## The start of a task (R41, R42, R128) -/

/-- A FANOUT copy starts (R175 step 4). -/
def State.fanStarted (s : State) (e : Entry) (late : Bool) : State :=
  let n := e.index - 0xFC0
  let f := SMap.get Fan.empty s.fans n
  if e.queue != 15 || e.index < 0xFC0 || f.toStart = 0 then s
  else
    let s := { s with fans := SMap.set Fan.empty s.fans n { f with toStart := f.toStart - 1 } }
    let s := if late then s.addf Reg.STR_CMP_CTL.late_copies 0 n else s
    if f.toStart = 1 && f.deferred.isEmpty then
      s.raise 0x084 (ownerEvTo (s.rf Reg.PRT_CLAIM.owner_actor 0 n)) s.sys.primary.val n
    else s

/-- The entry address of a service in an image. -/
def Image.entryOf (i : Image) (code : Nat) : Option Nat := (i.services.find? fun p => p.1 == code).map Prod.snd

/-- The task of `e` starts on an engine (R41, R42); an image without its service ends it with BAD_SERVICE (R128). -/
def State.startTask (s : State) (eng : Nat) (e : Entry) (late : Bool) : State :=
  let tenant := s.rf Reg.TIF_CFG.tenant e.ti
  let s := s.updEng eng fun k =>
    { k.invalidateUnlocked with
      s := [(1, w64 0x8000000001000000)], w := [], cf := false, slot := false, annul := false, posted := [],
      k := k.k.filter fun p => match p.2.tag with | some t => t.tenant == tenant | none => false,
      modulus := match k.modulus with | some (m, t) => if t = tenant then some (m, t) else none | none => none,
      task := some ⟨e, tenant, s.tiHome e.ti, late⟩, run := .run, stall := .none, storeFault := none, stepping := false,
      steal := .local 0 }
  let s := s.updEng eng fun k => (k.sets 2 (w64 tenant)).sets 3 (w64 e.service)
  let s := (s.setf Reg.SLT_RUN.tenant eng tenant).setf Reg.SLT_RUN.service eng e.service
  let s := s.fanStarted e late
  match match (s.eng eng).iram with | some i => i.entryOf e.service | none => none with
  | none => s.sltStop eng Status.badService 0
  | some a => (s.updEng eng fun k => { k with pc := a, npc := a + 4 }).sltBoundary eng

/-- An engine takes an entry (R82, R87): it starts, waits for its launch time, or is dropped when its generation is old. -/
def State.takeEntry (s : State) (eng : Nat) (e : Entry) : State :=
  if e.gen != s.tiGen e.ti then s.dropStale e.ti
  else match e.due with
    | none => s.startTask eng e false
    | some t =>
      if s.replica (clusterStop (engCluster eng)) < t then
        s.updEng eng fun k => { k with run := .wait, steal := .local 0,
                                       task := some ⟨e, s.rf Reg.TIF_CFG.tenant e.ti, s.tiHome e.ti, false⟩ }
      else s.startTask eng e true

/-! ## Deques (R81, R82) -/

/-- Strata time has reached the entry's launch time less the lead (R82). -/
def State.entryDue (s : State) (eng : Nat) (e : Entry) : Bool :=
  match e.due with
  | none => false
  | some t => t ≤ s.replica (clusterStop (engCluster eng)) + s.rf Reg.DSP_LAUNCH_CTL.lead (engHalf eng) * 65536

/-- Timed entries a deque may hold. -/
def State.maxTimed (s : State) (h : Nat) : Nat :=
  let v := s.rf Reg.DSP_LAUNCH_CTL.max_timed h
  if v = 0 then 1 else min 16 v

def Engine.timedCount (k : Engine) : Nat := (k.deque.filter Entry.timed).length
def Engine.untimed (k : Engine) : List Entry := k.deque.filter fun e => !e.timed

/-- The deque has room for the entry. -/
def State.dequeRoom (s : State) (eng : Nat) (e : Entry) : Bool :=
  (s.eng eng).deque.length < 32 && (!e.timed || (s.eng eng).timedCount < s.maxTimed (engHalf eng))

/-- Put an entry at the newest end of a deque; a search for work starts over (R83). -/
def State.dequePut (s : State) (eng : Nat) (e : Entry) : State :=
  s.updEng eng fun k => { k with deque := k.deque ++ [e], steal := .local 0 }

/-- The member with the fewest deque entries; ties go to the lowest engine number after `last` (R81). -/
def State.leastLoaded (s : State) (es : List Nat) (last : Nat) : Option Nat :=
  let rot := (es.filter fun e => last < e % 64 + 1) ++ es.filter fun e => !(last < e % 64 + 1)
  rot.foldl (fun best e =>
    match best with
    | none => some e
    | some b => if (s.eng e).deque.length < (s.eng b).deque.length then some e else some b) none

/-- The clusters of L other than `c`, from the one after it. -/
def State.nextClusters (s : State) (h c pool : Nat) : List Nat :=
  (s.clusterList h pool).filter (c < ·) ++ (s.clusterList h pool).filter (· < c)

/-- Put an entry that lost its place in a cluster into the deque of the pool's member there that has the fewest entries and room
for it (R66, R81, R82, R98, R99). Where members are left and none has room, it waits in the cluster's list; with no members, or a
full injection queue, it goes to the next cluster of L with a free entry, and Dispatch holds it while there is none. None: L has
no other cluster. -/
def State.placeIn (s : State) (h c pool : Nat) (e : Entry) : Option State :=
  let members := s.clusterMembers c pool
  let others := s.nextClusters h c pool
  match s.leastLoaded (members.filter fun m => s.dequeRoom m e) 0 with
  | some m => some (s.dequePut m e)
  | none =>
    match ((if members.isEmpty then [] else [c]) ++ others).find? fun n => (s.cluster n).injCount < 512 with
    | some n => some (s.updCluster n fun k => k.injPut pool [e])
    | none =>
      if members.isEmpty && others.isEmpty then none
      else some (s.updDsp h fun d => { d with held := d.held ++ [(e, pool)] })

/-- Remove the first entry that satisfies `p`. -/
def dropFirst {α : Type} (p : α → Bool) : List α → List α
  | [] => []
  | x :: xs => if p x then xs else x :: dropFirst p xs

/-- Remove the last entry that satisfies `p`. -/
def dropLast {α : Type} (p : α → Bool) (l : List α) : List α := (dropFirst p l.reverse).reverse

/-- The image slot bound to a pool in a cluster holds an image (R372), and the binding is in force. -/
def State.poolRuns (s : State) (c pool : Nat) : Bool :=
  s.rb Reg.SVC_POOL_IMG.bound c pool && s.rb Reg.SVC_IMG.valid c (s.rf Reg.SVC_POOL_IMG.slot c pool)

/-- The engine is free and may take work of its pool. -/
def State.engFree (s : State) (e : Nat) : Bool :=
  let k := s.eng e
  s.sys.mode.serves && k.run == .idle && k.task.isNone && !k.stale && s.isMember e && s.blkState Cls.slt e != 4 &&
    s.clusterUp (engCluster e) && s.poolRuns (engCluster e) (s.poolOf e)

/-- The actor of a core's or Tilth's command as a register writer. -/
def Requester.isT (q : Requester) : Bool := q.actor == .t

end Sys2Proof.Machine
end

