-- ==== Sys2Proof/Machine/SltEvents.lean ====
section
/-!
DEFINITION. SltEvents: what happens to a Silt engine from outside its program: memory and key replies, failure, debug, pools and
SRAM windows (R40, R54, R59 to R72).
-/
namespace Sys2Proof.Machine

/-! ## Replies -/

/-- KEY_LOAD_REPLY (R40). -/
def execKeyLoadReply (e : EngineId) (s : State) : Out3 :=
  match (s.eng e.val).stall with
  | .key w o => .next ((s.sltWait e.val .none).sltKeyReply e.val w o)
  | _ => .next s

/-- ENGINE_LINE_FILL (R54 to R57). `flips` are the symbol errors that come upon the line while the cache holds it (R59). -/
def execEngineLineFill (f : LineFill) (s : State) : Out3 :=
  match (s.eng f.engine.val).stall with
  | .fill w => .next (s.sltFill f.engine.val w f.flips)
  | _ => .next s

/-- What a performed or refused store lets the engine do next (R54, R64, R65). -/
def State.sltAfterAck (s : State) (e : Nat) : State :=
  let k := s.eng e
  match k.stall with
  | .store w => s.sltAgain e w
  | .fence _ => if k.posted.isEmpty then s.sltRetire e id else s
  | .done _ _ => s.sltTryEnd e
  | .ending _ _ => s.sltTryEnd e
  | .none => s.sltBoundary e
  | _ => s

/-- One posted store reaches its home: it is written, or its refusal is kept for the next boundary (R23, R64). -/
def State.sltPerform (s : State) (e : Nat) (p : Posted) : State :=
  let keep := fun (s : State) (cause : Nat) => s.updEng e fun k =>
    { k with storeFault := match k.storeFault with
        | some f => some f
        | none => some ⟨cause, causeStatus cause, p.epc, p.enpc, p.inSlot⟩ }
  match s.writeMem p.q p.pa p.bytes with
  | (.unmapped, s) => keep s SFault.unmapped
  | (.refused, s) => keep s SFault.potDenied
  | (.data _ _, s) => s

/-- STORE_ACKNOWLEDGE of the engine's `i`-th posted store. Stores of one engine to one line are performed in order (R273), and
those of a cluster to one home slice in the order sent (R28). -/
def execStoreAcknowledge (e : EngineId) (i : Fin 8) (s : State) : Out3 :=
  let k := s.eng e.val
  match k.posted[i.val]? with
  | none => .next s
  | some p =>
    if s.sendWaits e.val p then .next s
    else
      let s := s.sltPerform e.val p
      let s := s.updEng e.val fun k => { k with posted := k.posted.eraseIdx i.val }
      .next (s.sltAfterAck e.val)

/-! ## Watchdog and failure -/

/-- WATCHDOG: the task has run past SLT_TASK_LIMIT (R64, R71), DONE's wait included. The time is taken as having passed; a limit
of 0 disables. -/
def execWatchdog (e : EngineId) (s : State) : Out3 :=
  let k := s.eng e.val
  let limit := match k.limitOld with | some v => v | none => s.rf Reg.SLT_TASK_LIMIT.limit e.val
  let ending := match k.stall with | .ending _ _ => true | _ => false
  if k.run != .run || limit = 0 || ending then .next s else .next (s.sltFault e.val SFault.watchdog)

/-- Place entries again; those for which L has no cluster take the cross-route or end with BAD_SERVICE (R66, R99). -/
def State.rehome (s : State) (h c pool : Nat) : List Entry → State
  | [] => s
  | e :: es => ((s.placeIn h c pool e).getD (s.route h pool e)).rehome h c pool es

/-- When the last member of a pool leaves a cluster, the pool's injection list moves on (R99). -/
def State.drainList (s : State) (h c pool : Nat) : State :=
  if !(s.clusterMembers c pool).isEmpty then s
  else
    let es := (s.cluster c).injList pool
    (s.updCluster c fun k => { k with inj := SMap.set [] k.inj pool [] }).rehome h c pool es

/-- The task of a lost engine, whose requester was `q`: reported ENGINE_LOST, its output buffer free (R111), or reissued once (R98).
DSP_COUNT.reissued of the TI's home half counts one
that ran in the other half, which R98 leaves open (DESIGN CHOICE, log entry 235). -/
def State.reissue (s : State) (q : Requester) (eng : Nat) (pool : Nat) (t : Task) : State :=
  let h := engHalf eng
  let c := engCluster eng
  let en := t.entry
  let home := s.tiHome en.ti
  let lost := fun (s : State) =>
    (((s.scramble q en.outAddr en.outLen)).dspMake { en.dspRec Status.engineLost eng with
      reissued := en.reissue, late := t.late, remote := t.home != h }).raise 0x045 (s.tiEvTo en.ti) home en.ti
  if en.reissue || en.noReissue then lost s
  else
    let again := { en with reissue := true }
    let counted := fun (s : State) => (s.addf Reg.DSP_COUNT.reissued home).raise 0x042 (s.tiEvTo en.ti) home en.ti
    match s.placeIn h c pool again with
    | some s => counted s
    | none => lost s

/-- An engine no longer waits for a reload; the last of its cluster raises EV 0x050 (R127). -/
def State.unstale (s : State) (e : Nat) : State :=
  if !(s.eng e).stale then s
  else
    let c := engCluster e
    let s := s.updEng e fun k => { k with stale := false }
    if s.reloadCount c = 0 then s.raise 0x050 (EvTo.ofActor (s.cluster c).reloadBy) (c / 8) c else s

/-- An engine is lost (R66, R70) and listed in OD 0x0C50: `source` is the error source that RAS records, or 0 for none. SLT_FAULT
names faults of instructions: an engine lost without a task records none (DESIGN CHOICE, log entry 245). -/
def State.engineLost (s : State) (e source : Nat) : State :=
  let k := s.eng e
  let h := engHalf e
  let pool := s.poolOf e
  let member := s.isMember e
  let world := s.engEvTo e
  let q := s.engReq e
  let s := if k.task.isSome then s.sltRecordFault e SFault.hwLost Status.engineLost k.pc k.npc k.slot else s
  let s := s.updEng e fun k =>
    { k.zeroKeys with run := .lost, task := none, stall := .none, deque := [], capture := none, stepping := false }
  let s := (s.setf Reg.SLT_POOL.member e 0).setf Reg.SLT_POOL.leaving e 0
  let s := s.setOdStored 0x0C50 (engCluster e + 1) (s.od 0x0C50 (engCluster e + 1) ||| 2 ^ (e % 64))
  let s := if source = 0 then s else
    s.logError h { s.mkRec 2 source Status.engineLost q.stop.toNat 0 e 0xFFFF with
      flags := 0, hardpan := q.world = .hardpan }
  let s := (s.blockFault Cls.slt e Status.engineLost).raise 0x031 world h e
  let s := s.unstale e
  let s := if member then (s.rehome h (engCluster e) pool k.deque).drainList h (engCluster e) pool else s
  match k.task with
  | some t => s.reissue q e pool t
  | none => s

/-- HW_LOST (R64, R66): an uncorrectable IRAM error (0x32), a parity error (0x16), a hang (0), else an internal check failure. A
hang is 65,536 ec without a retired instruction, taken as having passed: it needs a running engine that waits for nothing (R71). -/
def execHwLost (e : EngineId) (source : BitVec 8) (s : State) : Out3 :=
  let k := s.eng e.val
  if k.run = .lost || (source = 0 && !(k.run = .run && k.stall = .none)) then .next s
  else .next (s.engineLost e.val (if source.toNat = 0x32 || source.toNat = 0x16 then source.toNat else 0))

/-! ## Debug (R71) -/

/-- The write is a T or H write, and invasive debug is enabled for the world of the engine's pool. -/
def State.debugWrite (s : State) (q : Requester) (e : Nat) : Bool :=
  Reg.SLT_DEBUG.halt.admits q.actor && s.debugOf (engHalf e) (s.engWorld e) true

/-- SLT_DEBUG.halt. -/
def State.sltHaltSet (s : State) (q : Requester) (e : Nat) : State :=
  if s.debugWrite q e then (s.setf Reg.SLT_DEBUG.halt e 1).sltBoundary e else s

/-- SLT_DEBUG_HALT. -/
def execSltDebugHalt (q : Requester) (e : EngineId) (s : State) : Out3 :=
  .next (s.writeReg q Cls.slt e.val 0x130 1 fun s => s.sltHaltSet q e.val)

/-- Run one instruction, or one annulled slot, from HALT and halt again. -/
def State.sltStepOne (s : State) (e : Nat) : State :=
  let k := s.eng e
  let s := s.updEng e fun k => { k with run := .run, stepping := true }
  match k.storeFault with
  | some _ => s.sltBoundary e
  | none => if k.annul then (s.updEng e Engine.advance).sltBoundary e else s.sltExec e k.fetchWord

/-- SLT_DEBUG.step. -/
def State.sltStepSet (s : State) (q : Requester) (e : Nat) : State :=
  if s.debugWrite q e && (s.eng e).run == .halt then s.sltStepOne e else s

/-- SLT_DEBUG_STEP. -/
def execSltDebugStep (q : Requester) (e : EngineId) (s : State) : Out3 :=
  .next (s.writeReg q Cls.slt e.val 0x130 2 fun s => s.sltStepSet q e.val)

/-- SLT_DEBUG.resume. -/
def State.sltResumeSet (s : State) (q : Requester) (e : Nat) : State :=
  if s.debugWrite q e && (s.eng e).run == .halt then
    ((s.setf Reg.SLT_DEBUG.halt e 0).updEng e fun k => { k with run := .run, stepping := false }).sltBoundary e
  else s

/-- SLT_DEBUG_RESUME. -/
def execSltDebugResume (q : Requester) (e : EngineId) (s : State) : Out3 :=
  .next (s.writeReg q Cls.slt e.val 0x130 4 fun s => s.sltResumeSet q e.val)

/-! ## Engine registers (R72) -/

/-- SLT_CACHE.invalidate: at once between tasks, else when the task ends. -/
def State.sltInvalidate (s : State) (a : Actor) (e : Nat) : State :=
  if Reg.SLT_CACHE.invalidate.admits a then
    s.updEng e fun k =>
      if k.task.isNone then k.invalidateUnlocked
      else if k.unlockDue then { k with invalidateAfter := true } else { k with invalidateDue := true }
  else s

/-- SLT_CACHE_INVALIDATE. -/
def execSltCacheInvalidate (q : Requester) (e : EngineId) (s : State) : Out3 :=
  .next (s.writeReg q Cls.slt e.val 0x120 (s.rf Reg.SLT_CACHE.enable e.val + 2) fun s => s.sltInvalidate q.actor e.val)

/-- SLT_CACHE.unlock_all. -/
def State.sltUnlock (s : State) (a : Actor) (e : Nat) : State :=
  if Reg.SLT_CACHE.unlock_all.admits a then
    s.updEng e fun k => if k.task.isSome then { k with unlockDue := true } else { k with locks := 0 }
  else s

/-- SLT_CACHE_UNLOCK_ALL. -/
def execSltCacheUnlockAll (q : Requester) (e : EngineId) (s : State) : Out3 :=
  .next (s.writeReg q Cls.slt e.val 0x120 (s.rf Reg.SLT_CACHE.enable e.val + 4) fun s => s.sltUnlock q.actor e.val)

/-- SLT_FAULT_READ. -/
def execSltFaultRead (q : Requester) (e : EngineId) (s : State) : Out3 :=
  .next (s.readCmd q Cls.slt e.val Reg.SLT_FAULT.reg 0 id)

/-- SLT_COUNT_READ. -/
def execSltCountRead (q : Requester) (e : EngineId) (s : State) : Out3 :=
  .next (s.readCmd q Cls.slt e.val Reg.SLT_COUNT.reg 0 id)

/-! ## SRAM windows (R61, R63) -/

/-- A pool is a Topsoil pool: its world bit says so, whether or not it is valid, since R63 names no valid bit where R68 does
(DESIGN CHOICE, log entry 246). -/
def State.topsoilPool (s : State) (h p : Nat) : Bool := s.rf Reg.HPN_POOL.world h p == 0

/-- The effect of a write of SVC_SRAM_WIN. -/
def State.sramAssign (s : State) (a : Actor) (c w v : Nat) : State :=
  let h := c / 8
  let as := Reg.SVC_SRAM_WIN.assigned.of v
  let p := Reg.SVC_SRAM_WIN.pool.of v
  let was := s.rf Reg.SVC_SRAM_WIN.assigned c w
  let wasP := s.rf Reg.SVC_SRAM_WIN.pool c w
  if !Reg.SVC_SRAM_WIN.assigned.admits a then s
  else if a = .t && ((was = 1 && !s.topsoilPool h wasP) || (as = 1 && !s.topsoilPool h p)) then
    s.setf Reg.SVC_SRAM_WIN.denied c 1 w
  else
    let s := ((s.setf Reg.SVC_SRAM_WIN.assigned c as w).setf Reg.SVC_SRAM_WIN.pool c p w).setf
      Reg.SVC_SRAM_WIN.denied c 0 w
    if as = was && (p = wasP || as = 0) then s else s.setf Reg.SVC_SRAM_WIN.zeroing c 1 w

/-- SRAM_WINDOW_ASSIGN. -/
def execSramWindowAssign (q : Requester) (c : ClusterId) (w : Fin 32) (v : Word) (s : State) : Out3 :=
  .next (s.writeReg q Cls.svc c.val (0x800 + 8 * w.val) v.toNat fun s => s.sramAssign q.actor c.val w.val v.toNat)

/-- SRAM_ZEROING_DONE: the window is zero and the accesses that waited proceed. -/
def execSramZeroingDone (c : ClusterId) (w : Fin 32) (s : State) : Out3 :=
  if !s.rb Reg.SVC_SRAM_WIN.zeroing c.val w.val then .next s
  else
    let s := s.setf Reg.SVC_SRAM_WIN.zeroing c.val 0 w.val
    let s := s.updCluster c.val fun k =>
      { k with sram := k.sram.filter fun p => p.1 / 65536 != w.val,
               sramPoison := k.sramPoison.filter fun p => p.1 / 2048 != w.val }
    .next ((List.range 64).foldl (fun s i =>
      let e := 64 * c.val + i
      match (s.eng e).stall with
      | .sram x => s.sltAgain e x
      | _ => s) s)

/-! ## Pools (R67 to R70) -/

/-- An engine is leaving the pool. -/
def State.anyLeaving (s : State) (h p : Nat) : Bool :=
  (List.range 512).any fun i => s.leaving (512 * h + i) && s.poolOf (512 * h + i) == p && s.isMember (512 * h + i)

/-- HPN_POOL is written (R67). -/
def State.hpnPoolSet (s : State) (a : Actor) (h p v : Nat) : State :=
  if !Reg.HPN_POOL.valid.admits a then s
  else
    let nv := Reg.HPN_POOL.valid.of v
    let nw := Reg.HPN_POOL.world.of v
    let same := nv = s.rf Reg.HPN_POOL.valid h p && nw = s.rf Reg.HPN_POOL.world h p
    if !same && (s.memberCount h p != 0 || s.anyLeaving h p) then s.setf Reg.HPN_POOL.busy h 1 p
    else ((s.setf Reg.HPN_POOL.valid h nv p).setf Reg.HPN_POOL.world h nw p).setf Reg.HPN_POOL.busy h 0 p

/-- HPN_POOL_WRITE. -/
def execHpnPoolWrite (q : Requester) (h : Half) (p : Fin 32) (v : Word) (s : State) : Out3 :=
  .next (s.writeReg q Cls.hpn h.val (0x4000 + 8 * p.val) v.toNat fun s => s.hpnPoolSet q.actor h.val p.val v.toNat)

/-- The target of an engine, {target_member, target_pool}; a block that is not ON is asked to be in no pool (R70), and so is
every engine of a cluster whose SVC block stops (R472). -/
def State.poolTarget (s : State) (e : Nat) : Bool × Nat :=
  if s.blkOn Cls.slt e && s.blkState Cls.svc (engCluster e) != 3 then
    (s.rb Reg.SLT_POOL.target_member e, s.rf Reg.SLT_POOL.target_pool e)
  else (false, s.poolOf e)

/-- {member, cur_pool}. -/
def State.poolNow (s : State) (e : Nat) : Bool × Nat := (s.isMember e, s.poolOf e)

/-- Step 1 and the moves of step 2 (R69): entries waiting for a launch time go to the cluster's peers. -/
def State.leaveBegin (s : State) (e : Nat) : State :=
  let s := s.setf Reg.SLT_POOL.leaving e 1
  if !s.isMember e then s
  else
    let h := engHalf e
    let c := engCluster e
    let pool := s.poolOf e
    let s := if (s.clusterMembers c pool).isEmpty then s
      else
        let k := s.eng e
        let waiting := (match k.run, k.task with | .wait, some t => [t.entry] | _, _ => []) ++ k.deque.filter Entry.timed
        let s := s.updEng e fun k =>
          let k := { k with deque := k.untimed }
          if k.run = .wait then { k with run := .idle, task := none } else k
        s.rehome h c pool waiting
    s.drainList h c pool

/-- A move starts, is cancelled, or, once captured, waits for its end (R69, R70). -/
def State.moveCheck (s : State) (e : Nat) : State :=
  let k := s.eng e
  if k.capture.isSome || k.run = .lost then s
  else if s.poolTarget e = s.poolNow e then
    if s.leaving e then (s.setf Reg.SLT_POOL.leaving e 0).updEng e fun k => { k with steal := .local 0 } else s
  else if s.leaving e then s
  else s.leaveBegin e

/-- The effect of a write of SLT_POOL on a block that is ON (R68, R72). -/
def State.poolWrite (s : State) (a : Actor) (e v : Nat) : State :=
  let h := engHalf e
  let tp := Reg.SLT_POOL.target_pool.of v
  let tm := Reg.SLT_POOL.target_member.of v
  let okT := (!s.isMember e || s.topsoilPool h (s.poolOf e)) &&
    (tm = 0 || (s.rb Reg.HPN_POOL.valid h tp && s.topsoilPool h tp))
  if !Reg.SLT_POOL.target_pool.admits a then s
  else if a = .t && !okT then s.setf Reg.SLT_POOL.denied e 1
  else if a = .h && tm = 1 && !s.rb Reg.HPN_POOL.valid h tp then s
  else
    let s := (s.setf Reg.SLT_POOL.target_pool e tp).setf Reg.SLT_POOL.target_member e tm
    let s := if a = .t then s.setf Reg.SLT_POOL.denied e 0 else s
    if s.blkOn Cls.slt e then s.moveCheck e else s

/-- SLT_POOL_WRITE. -/
def execSltPoolWrite (q : Requester) (e : EngineId) (v : Word) (s : State) : Out3 :=
  .next (s.writeReg q Cls.slt e.val 0x108 v.toNat fun s => s.poolWrite q.actor e.val v.toNat)

/-- POOL_LEAVE_CAPTURE (R69 steps 3 and 4): deque empty and no task; in SEAL the move waits (R70). -/
def execPoolLeaveCapture (e : EngineId) (s : State) : Out3 :=
  let k := s.eng e.val
  if !s.leaving e.val || k.capture.isSome || !k.deque.isEmpty || k.task.isSome || k.run = .lost || s.sys.mode = .seal then .next s
  else
    let t := s.poolTarget e.val
    .next (s.updEng e.val fun k =>
      { k.zeroKeys with s := [], w := [], cf := false, cache := [], locks := 0, capture := some t,
                        invalidateDue := false, unlockDue := false, invalidateAfter := false })

/-- The image bound to a pool in a cluster. -/
def State.boundImage (s : State) (c p : Nat) : Option Image :=
  if s.rb Reg.SVC_POOL_IMG.bound c p then SMap.get none (s.cluster c).images (s.rf Reg.SVC_POOL_IMG.slot c p) else none

/-- POOL_IMAGE_COPY_DONE (R69 steps 5 and 6): cur_pool and member take the captured target; in SEAL the move waits (R70). A target
that differs by then starts a fresh move, in STOPPING too, where it is no pool. -/
def execPoolImageCopyDone (e : EngineId) (s : State) : Out3 :=
  match (s.eng e.val).capture with
  | none => .next s
  | some (m, p) =>
    if s.sys.mode = .seal then .next s
    else
      let h := engHalf e.val
      let left := s.engEvTo e.val
      let s := (s.setf Reg.SLT_POOL.cur_pool e.val p).setf Reg.SLT_POOL.member e.val (b2n m)
      let img := if m then s.boundImage (engCluster e.val) p else none
      let s := s.updEng e.val fun k =>
        { k with run := if m then .idle else .detached, iram := match img with | some i => some i | none => k.iram }
      let s := s.setf Reg.SLT_POOL.leaving e.val 0
      let s := (s.unstale e.val).updEng e.val fun k => { k with capture := none, steal := .local 0 }
      let s := s.raise 0x030 (if m then EvTo.ofWorld (s.poolWorld h p) else left) h e.val
      .next (if s.blkOn Cls.slt e.val || s.blkState Cls.slt e.val = 3 then s.moveCheck e.val else s)

end Sys2Proof.Machine
end

