-- ==== Sys2Proof/Machine/CryptoAsym.lean ====
section
/-!
DEFINITION. CryptoAsym: what the catalogue services of R112 compute beyond the block ciphers and hashes: HMAC (FIPS 198-1),
CMAC and GCM (SP 800-38B, -38D), CBC (SP 800-38A), ECDSA (FIPS 186-5, RFC 6979), Ed25519 (RFC 8032) and RSA (RFC 8017).
-/
namespace Sys2Proof.Machine.Crypto

/-! ## Modes -/

def padTo (n : Nat) (l : List Nat) : List Nat := l ++ List.replicate (n - l.length) 0

/-- A hash as the services use it: its function, block length and digest length. -/
structure Hash where
  fn : List Nat → List Nat
  block : Nat
  len : Nat

def hSha256 : Hash := ⟨sha256, 64, 32⟩
def hSha384 : Hash := ⟨sha384, 128, 48⟩
def hSha512 : Hash := ⟨sha512, 128, 64⟩

/-- HMAC under a key of at most one block. -/
def hmac (h : Hash) (key msg : List Nat) : List Nat :=
  let k0 := padTo h.block key
  h.fn (k0.map (· ^^^ 0x5C) ++ h.fn (k0.map (· ^^^ 0x36) ++ msg))

/-- Doubling of a CMAC subkey. -/
def cmacDouble (bs : Nat) (l : List Nat) : List Nat :=
  let n := natBe l
  let d := n * 2 % 2 ^ (8 * bs)
  bytesBe bs (if n.testBit (8 * bs - 1) then d ^^^ (if bs = 16 then 0x87 else 0x1B) else d)

/-- CMAC of a cipher with blocks of `bs` bytes. -/
def cmac (enc : List Nat → List Nat) (bs : Nat) (msg : List Nat) : List Nat :=
  let k1 := cmacDouble bs (enc (List.replicate bs 0))
  let whole := msg.length != 0 && msg.length % bs == 0
  let last := msg.length - (if whole then bs else msg.length % bs)
  let tail := msg.drop last
  let fin := if whole then xorList tail k1 else xorList (padTo bs (tail ++ [0x80])) (cmacDouble bs k1)
  enc (xorList ((blocks bs (msg.take last)).foldl (fun c b => enc (xorList c b)) (List.replicate bs 0)) fin)

def cbcEnc (enc : List Nat → List Nat) (bs : Nat) (iv msg : List Nat) : List Nat :=
  ((blocks bs msg).foldl (fun (st : List Nat × List (List Nat)) b =>
    let c := enc (xorList st.1 b)
    (c, c :: st.2)) (iv, [])).2.reverse.flatten

def cbcDec (dec : List Nat → List Nat) (bs : Nat) (iv msg : List Nat) : List Nat :=
  ((blocks bs msg).foldl (fun (st : List Nat × List (List Nat)) b =>
    (b, xorList st.1 (dec b) :: st.2)) (iv, [])).2.reverse.flatten

/-- The counter mode of GCM from counter 2. -/
def gcmCtr (key iv msg : List Nat) : List Nat :=
  ((blocks 16 msg).foldl (fun (st : Nat × List (List Nat)) b =>
    (st.1 + 1, xorList b (aesEnc key (iv ++ bytesBe 4 st.1)) :: st.2)) (2, [])).2.reverse.flatten

def gcmBlocks (l : List Nat) : List (List Nat) := (blocks 16 l).map (padTo 16)

/-- The full tag of GCM over additional data and ciphertext. -/
def gcmTag (key iv aad ct : List Nat) : List Nat :=
  let h := natBe (aesEnc key (List.replicate 16 0))
  let lens := bytesBe 8 (8 * aad.length) ++ bytesBe 8 (8 * ct.length)
  let y := (gcmBlocks aad ++ gcmBlocks ct ++ [lens]).foldl (fun y b => gf128 (y ^^^ natBe b) h) 0
  xorList (bytesBe 16 y) (aesEnc key (iv ++ [0, 0, 0, 1]))

/-- ISO 9797-1 MAC algorithm 3 with padding method 2 under a two-key TDES key (R122). -/
def retailMac (key msg : List Nat) : List Nat :=
  let kl := key.take 8
  let kr := (key.drop 8).take 8
  let m := msg ++ [0x80]
  let m := padTo ((m.length + 7) / 8 * 8) m
  let c := (blocks 8 m).foldl (fun c b => desEnc kl (xorList c b)) (List.replicate 8 0)
  desEnc kl (desDec kr c)

/-! ## Modular arithmetic -/

/-- b^e mod m, from the lowest of `n` bits of `e`. -/
def powModFuel (m : Nat) : Nat → Nat → Nat → Nat → Nat
  | 0, _, _, acc => acc
  | n + 1, b, e, acc => powModFuel m n (b * b % m) (e / 2) (if e % 2 = 1 then acc * b % m else acc)

def powMod (b e m : Nat) : Nat := powModFuel m (Nat.log2 e + 1) (b % m) e (1 % m)

/-- The inverse modulo a prime. -/
def invMod (a p : Nat) : Nat := powMod a (p - 2) p

def subMod (a b p : Nat) : Nat := (a % p + p - b % p) % p

/-! ## Short Weierstrass curves with a = -3 -/

structure Curve where
  p : Nat
  b : Nat
  n : Nat
  gx : Nat
  gy : Nat
  size : Nat
  hash : Hash

def p256 : Curve where
  p := 2 ^ 256 - 2 ^ 224 + 2 ^ 192 + 2 ^ 96 - 1
  b := 0x5ac635d8aa3a93e7b3ebbd55769886bc651d06b0cc53b0f63bce3c3e27d2604b
  n := 0xffffffff00000000ffffffffffffffffbce6faada7179e84f3b9cac2fc632551
  gx := 0x6b17d1f2e12c4247f8bce6e563a440f277037d812deb33a0f4a13945d898c296
  gy := 0x4fe342e2fe1a7f9b8ee7eb4a7c0f9e162bce33576b315ececbb6406837bf51f5
  size := 32
  hash := hSha256

def p384 : Curve where
  p := 2 ^ 384 - 2 ^ 128 - 2 ^ 96 + 2 ^ 32 - 1
  b := 0xb3312fa7e23ee7e4988e056be3f82d19181d9c6efe8141120314088f5013875ac656398d8a2ed19d2a85c8edd3ec2aef
  n := 0xffffffffffffffffffffffffffffffffffffffffffffffffc7634d81f4372ddf581a0db248b0a77aecec196accc52973
  gx := 0xaa87ca22be8b05378eb1c71ef320ad746e1d3b628ba79b9859f741e082542a385502f25dbf55296c3a545e3872760ab7
  gy := 0x3617de4a96262c6f5d9e98bf9292dc29f8f41dbd289a147ce9da3113b5f0b8c00a60b1ce1d7e819d7a431d7c90ea0e5f
  size := 48
  hash := hSha384

def Curve.onCurve (c : Curve) (x y : Nat) : Bool :=
  x < c.p && y < c.p && y * y % c.p == subMod (x * x % c.p * x + c.b) (3 * x) c.p

/-- A point; none is the point at infinity. -/
abbrev Pt := Option (Nat × Nat)

def Curve.add (c : Curve) : Pt → Pt → Pt
  | none, q => q
  | p, none => p
  | some (x1, y1), some (x2, y2) =>
    let p := c.p
    if x1 = x2 && (y1 + y2) % p == 0 then none
    else
      let l := if x1 = x2 then subMod (3 * x1 * x1) 3 p * invMod (2 * y1 % p) p % p
        else subMod y2 y1 p * invMod (subMod x2 x1 p) p % p
      let x3 := subMod (l * l) (x1 + x2) p
      some (x3, subMod (l * subMod x1 x3 p) y1 p)

/-- Doubling and adding from the lowest of `n` bits of `k`. -/
def Curve.mulFuel (c : Curve) : Nat → Nat → Pt → Pt → Pt
  | 0, _, _, acc => acc
  | n + 1, k, q, acc => c.mulFuel n (k / 2) (c.add q q) (if k % 2 = 1 then c.add acc q else acc)

def Curve.mul (c : Curve) (k : Nat) (q : Pt) : Pt := c.mulFuel (Nat.log2 k + 1) k q none

/-- ECDSA verification of r ‖ s over a digest of the order's length. -/
def Curve.verify (c : Curve) (qx qy : Nat) (digest sig : List Nat) : Bool :=
  let r := natBe (sig.take c.size)
  let t := natBe (sig.drop c.size)
  if sig.length != 2 * c.size || r = 0 || c.n ≤ r || t = 0 || c.n ≤ t then false
  else
    let w := invMod t c.n
    match c.add (c.mul (natBe digest * w % c.n) (some (c.gx, c.gy))) (c.mul (r * w % c.n) (some (qx, qy))) with
    | none => false
    | some (x, _) => x % c.n == r

/-- The candidates of RFC 6979 from state (K, V), and the signature of the first that serves. -/
def Curve.signFrom (c : Curve) (d e : Nat) : Nat → List Nat → List Nat → List Nat
  | 0, _, _ => []
  | fuel + 1, k, v =>
    let v := hmac c.hash k v
    let cand := natBe v
    let r := match c.mul cand (some (c.gx, c.gy)) with | some (x, _) => x % c.n | none => 0
    let t := invMod cand c.n * ((e + r * d) % c.n) % c.n
    if 1 ≤ cand && cand < c.n && r != 0 && t != 0 then bytesBe c.size r ++ bytesBe c.size t
    else
      let k := hmac c.hash k (v ++ [0])
      c.signFrom d e fuel k (hmac c.hash k v)

/-- ECDSA with the nonce of RFC 6979; the digest has the order's length. -/
def Curve.sign (c : Curve) (d : Nat) (digest : List Nat) : List Nat :=
  let seed := bytesBe c.size d ++ bytesBe c.size (natBe digest % c.n)
  let v := List.replicate c.size 1
  let k := hmac c.hash (List.replicate c.size 0) (v ++ [0] ++ seed)
  let v := hmac c.hash k v
  let k := hmac c.hash k (v ++ [1] ++ seed)
  let v := hmac c.hash k v
  c.signFrom d (natBe digest) 1000 k v

/-! ## Ed25519 -/

def edP : Nat := 2 ^ 255 - 19
def edL : Nat := 2 ^ 252 + 27742317777372353535851937790883648493
def edD : Nat := subMod 0 (121665 * invMod 121666 edP) edP

/-- The sum of two points (affine). -/
def edAdd (a b : Nat × Nat) : Nat × Nat :=
  let t := edD * a.1 % edP * b.1 % edP * (a.2 * b.2 % edP) % edP
  ((a.1 * b.2 + b.1 * a.2) * invMod (1 + t) edP % edP, (a.2 * b.2 + a.1 * b.1) * invMod (subMod 1 t edP) edP % edP)

def edMulFuel : Nat → Nat → Nat × Nat → Nat × Nat → Nat × Nat
  | 0, _, _, acc => acc
  | n + 1, k, q, acc => edMulFuel n (k / 2) (edAdd q q) (if k % 2 = 1 then edAdd acc q else acc)

def edMul (k : Nat) (q : Nat × Nat) : Nat × Nat := edMulFuel (Nat.log2 k + 1) k q (0, 1)

/-- The x of a y and a sign bit, if there is one (RFC 8032, 5.1.3). -/
def edX (y sign : Nat) : Option Nat :=
  if edP ≤ y then none
  else
    let u := subMod (y * y) 1 edP
    let v := (edD * (y * y % edP) + 1) % edP
    let x := u * powMod v 3 edP % edP * powMod (u * powMod v 7 edP) ((edP - 5) / 8) edP % edP
    let vx := v * (x * x % edP) % edP
    let x := if vx = u then some x
      else if (vx + u) % edP = 0 then some (x * powMod 2 ((edP - 1) / 4) edP % edP) else none
    match x with
    | none => none
    | some x => if x = 0 && sign = 1 then none else some (if x % 2 = sign then x else (edP - x) % edP)

def edBase : Nat × Nat :=
  let y := 4 * invMod 5 edP % edP
  ((edX y 0).getD 0, y)

def edEncode (q : Nat × Nat) : List Nat := bytesLe 32 (q.2 + q.1 % 2 * 2 ^ 255)

def edDecode (l : List Nat) : Option (Nat × Nat) :=
  let n := natLe l
  let y := n % 2 ^ 255
  (edX y (n / 2 ^ 255)).map fun x => (x, y)

/-- The secret scalar and prefix of a private key. -/
def edSecret (key : List Nat) : Nat × List Nat :=
  let h := sha512 key
  let a := natLe (h.take 32)
  (a % 2 ^ 254 / 8 * 8 + 2 ^ 254, h.drop 32)

def edSign (key msg : List Nat) : List Nat :=
  let (a, pre) := edSecret key
  let pub := edEncode (edMul a edBase)
  let r := natLe (sha512 (pre ++ msg)) % edL
  let rr := edEncode (edMul r edBase)
  let k := natLe (sha512 (rr ++ pub ++ msg)) % edL
  rr ++ bytesLe 32 ((r + k * a) % edL)

/-- The group equation [8][S]B = [8]R + [8][k]A of RFC 8032, 5.1.7. -/
def edVerify (pub : List Nat) (a : Nat × Nat) (msg sig : List Nat) : Bool :=
  let s := natLe (sig.drop 32)
  match edDecode (sig.take 32) with
  | none => false
  | some r =>
    if sig.length != 64 || edL ≤ s then false
    else
      let k := natLe (sha512 (sig.take 32 ++ pub ++ msg)) % edL
      edMul (8 * s) edBase == edAdd (edMul 8 r) (edMul (8 * k) a)

/-! ## RSA -/

/-- The DER prefix of DigestInfo for SHA-256, SHA-384 and SHA-512 (RFC 8017, 9.2). -/
def digestInfo (h : Hash) : List Nat :=
  let id := if h.len = 32 then 1 else if h.len = 48 then 2 else 3
  [0x30, 0x11 + h.len, 0x30, 0x0D, 0x06, 0x09, 0x60, 0x86, 0x48, 0x01, 0x65, 0x03, 0x04, 0x02, id, 0x05, 0x00, 0x04, h.len]

/-- EMSA-PKCS1-v1_5 of a digest for a modulus of `k` bytes. -/
def pkcs1 (h : Hash) (k : Nat) (digest : List Nat) : List Nat :=
  let t := digestInfo h ++ digest
  [0, 1] ++ List.replicate (k - 3 - t.length) 0xFF ++ [0] ++ t

/-- MGF1: `n` bytes. -/
def mgf1 (h : Hash) (seed : List Nat) (n : Nat) : List Nat :=
  ((List.range ((n + h.len - 1) / h.len)).flatMap fun i => h.fn (seed ++ bytesBe 4 i)).take n

/-- Clear the highest bit of the first byte: emBits is one less than the modulus length. -/
def dropTop (l : List Nat) : List Nat := match l with | [] => [] | b :: bs => b % 128 :: bs

/-- EMSA-PSS of a digest with a salt for a modulus of `k` bytes. -/
def pssEncode (h : Hash) (k : Nat) (digest salt : List Nat) : List Nat :=
  let hh := h.fn (List.replicate 8 0 ++ digest ++ salt)
  let db := List.replicate (k - salt.length - h.len - 2) 0 ++ [1] ++ salt
  dropTop (xorList db (mgf1 h hh db.length)) ++ hh ++ [0xBC]

/-- EMSA-PSS verification with the salt length given. -/
def pssVerify (h : Hash) (k : Nat) (digest em : List Nat) (sLen : Nat) : Bool :=
  let dbLen := k - h.len - 1
  let masked := em.take dbLen
  let hh := (em.drop dbLen).take h.len
  let db := dropTop (xorList masked (mgf1 h hh dbLen))
  let salt := db.drop (dbLen - sLen)
  at0 em (k - 1) == 0xBC && at0 em 0 < 128 && (db.take (dbLen - sLen)) == List.replicate (dbLen - sLen - 1) 0 ++ [1] &&
    h.fn (List.replicate 8 0 ++ digest ++ salt) == hh

/-- An RSA private operation with the CRT (R114): s with its check s^65537 mod n = m. -/
def rsaCrt (p q dp dq m : Nat) : Nat × Bool :=
  let m1 := powMod m dp p
  let m2 := powMod m dq q
  let h := invMod q p * subMod m1 m2 p % p
  let t := m2 + h * q
  (t, powMod t 65537 (p * q) == m)

end Sys2Proof.Machine.Crypto
end

