-- ==== Sys2Proof/Machine/DspFetch.lean ====
section
/-!
DEFINITION. DspFetch: Dispatch from the doorbell to the deque (R73 to R82, R102, R113).
-/
namespace Sys2Proof.Machine

/-! ## Doorbells (R74, R293, R307) -/

/-- Mark a refused action or doorbell of a TI. -/
def State.tiLast (s : State) (ti st : Nat) : State := s.setf Reg.TIF_STATUS.last_status ti st

/-- Set or clear TIF_STATUS.denied (R295). -/
def State.tiDenied (s : State) (ti : Nat) (b : Bool) : State := s.setf Reg.TIF_STATUS.denied ti (b2n b)

/-- The requester may write the doorbell page's registers: every Topsoil requester that the POT admits writes as T and one in
Hardpan world as H (R293), and Tilth writes as H on the Tilth TI alone (R427). -/
def State.mayRing (s : State) (w : Requester) (ti : Nat) : Bool := w.actor != .m || ti == s.sys.tilthTi

/-- The effect of a doorbell with tail `t`. -/
def State.doorbell (s : State) (w : Requester) (ti q t : Nat) : State :=
  if s.sys.mode = .seal || !s.mayRing w ti then s
  else if !s.blkOn Cls.tif ti || s.rb Reg.TIF_STATUS.resetting ti then
    (s.addf Reg.TIF_COUNT.bad_doorbell ti).tiLast ti Status.tiReset
  else if !s.rb Reg.TIF_SQ.enable ti q || s.sqSize ti q ≤ t then
    let h := s.tiHome ti
    ((s.addf Reg.DSP_COUNT.bad_doorbell h).addf Reg.TIF_COUNT.bad_doorbell ti).raise 0x043 (s.tiEvTo ti) h ti
  else (s.setf Reg.TIF_SQ_STATE.tail ti t q).tiDenied ti false

/-- DOORBELL: a write of TIF_DB. A Topsoil requester acts as T there and one in Hardpan world as H (R293). -/
def execDoorbell (q : Requester) (ti : TiId) (n : Fin 16) (v : Word) (s : State) : Out3 :=
  .next (s.withAccess q .write Cls.tif ti.val (0x1000 + 8 * n.val) fun s =>
    s.doorbell q ti.val n.val (Reg.TIF_DB.tail.of v.toNat))

/-! ## Fetch (R75, R77, R97) -/

/-- Varve's log space does not hold the half's fetching back (R183). -/
def State.logRoom (s : State) (h : Nat) : Bool := !s.rb Reg.VRV_STATUS.paused h

/-- Dispatch of a half may fetch. -/
def State.fetchAllowed (s : State) (h : Nat) : Bool :=
  s.sys.mode.serves && !s.holding && s.blkOn Cls.dsp h && s.blkOn Cls.clt h &&
    !s.rb Reg.DSP_FETCH_CTL.pause h && s.logRoom h

/-- The entry that memory shows in a queue slot. -/
def State.sqEntry (s : State) (ti q i : Nat) : Entry := ⟨ti, q, i, peekList s.peek (s.slotAddr ti q i) 128, false⟩

/-- Dispatch of the TI's half holds a descriptor for the pool that the slot names, so that the slot is not fetched (R80). -/
def State.sqHeld (s : State) (ti q i : Nat) : Bool :=
  !(s.dspOf (s.tiHome ti)).held.isEmpty &&
    ((s.dspOf (s.tiHome ti)).held.any fun x => x.2 == (s.sqEntry ti q i).pool)

/-- The slots of a queue that Dispatch may fetch next, at most `n`: none from the first whose pool is held on (R80). -/
def State.sqNext (s : State) (ti q n : Nat) : List Nat :=
  let size := s.sqSize ti q
  let first := SMap.get 0 (s.ti ti).fetch q % size
  ((List.range (min n (s.sqPending ti q))).map fun i => (first + i) % size).takeWhile fun i => !s.sqHeld ti q i

/-- A queue from which Dispatch may fetch. -/
def State.sqReady (s : State) (ti q : Nat) : Bool :=
  s.rb Reg.TIF_SQ.enable ti q && s.rf Reg.TIF_SQ_STATE.status ti q == 0 && !(s.sqNext ti q 1).isEmpty

/-- The next queue of a TI in rotation after the one served last. -/
def State.nextQueue (s : State) (ti : Nat) : Option Nat :=
  ((List.range 16).map fun i => ((s.ti ti).lastQueue + 1 + i) % 16).find? fun q => s.sqReady ti q

/-- A TI may be fetched from. -/
def State.tiFetchable (s : State) (h ti : Nat) : Bool :=
  s.tiHome ti == h && s.blkOn Cls.tif ti && !s.rb Reg.TIF_STATUS.stalled ti && !s.rb Reg.TIF_STATUS.resetting ti &&
    s.tiRoom ti != 0 && (s.nextQueue ti).isSome

/-- The least common multiple of the weights 1 to 255, so that shares are whole numbers. -/
def weightUnit : Nat := (List.range 255).foldl (fun l i => Nat.lcm l (i + 1)) 1

/-- The TI whose share fetched is least; one that had nothing to fetch resumes at the share served last. Ties go to the lowest
number (DESIGN CHOICE, log entry 24). -/
def State.pickTi (s : State) (h : Nat) : Option (Nat × Nat) :=
  let base := (s.dspOf h).base
  (s.tiList.filter (s.tiFetchable h)).foldl (fun best n =>
    let v := max base (s.ti n).served
    match best with
    | none => some (n, v)
    | some (b, bv) => if v < bv then some (n, v) else some (b, bv)) none

/-- DESCRIPTOR_FETCH. -/
def execDescriptorFetch (h : Half) (s : State) : Out3 :=
  if !s.fetchAllowed h.val then .next s
  else match s.pickTi h.val with
    | none => .next s
    | some (ti, share) =>
      match s.nextQueue ti with
      | none => .next s
      | some q =>
        let b := s.rf Reg.DSP_FETCH_CTL.burst h.val
        let burst := if 1 ≤ b && b ≤ 4 then b else 4
        let slots := s.sqNext ti q (min burst (s.tiRoom ti))
        let n := slots.length
        let size := s.sqSize ti q
        let first := SMap.get 0 (s.ti ti).fetch q % size
        let reads := slots.map fun i => Fetch.mk ti q i (s.tiGen ti)
        let weight := max 1 (s.rf Reg.TIF_QUOTA.weight ti)
        let s := s.updTi ti fun t => { t with fetch := SMap.set 0 t.fetch q ((first + n) % size), lastQueue := q,
                                              served := share + n * (weightUnit / weight) }
        let s := s.setf Reg.TIF_STATUS.outstanding ti (s.outstanding ti + n)
        .next (s.updDsp h.val fun d => { d with reads := d.reads ++ reads, base := share })

/-! ## Validation (R78, R102, R113) -/

/-- A range of lengths. -/
structure LenRow where
  lo : Nat
  hi : Nat
deriving DecidableEq, Repr

def mib : Nat := 2 ^ 20
def LenRow.has (r : LenRow) (n : Nat) : Bool := r.lo ≤ n && n ≤ r.hi

/-- The rules of a service's row in R113: whether each key is required, may be 0, or must be 0, and the length ranges; `auxNoKey` is
the range of aux_len when key1 = 0. -/
structure SvcRow where
  key1 : Option Bool
  key2 : Option Bool
  inLen : LenRow
  aux : List LenRow
  auxNoKey : List LenRow
  out : List LenRow

/-- R112 and R113. `some true` is a required key, `some false` an optional one. -/
def svcRow (code : Nat) : Option SvcRow :=
  let zero : LenRow := ⟨0, 0⟩
  let msg : LenRow := ⟨1, mib⟩
  let up := fun n => LenRow.mk n (16 * mib)
  match code with
  | 0x0101 => some ⟨some false, none, msg, [⟨64, 64⟩], [⟨128, 128⟩], [zero]⟩
  | 0x0102 => some ⟨some true, none, msg, [zero], [zero], [up 64]⟩
  | 0x0103 => some ⟨some false, none, msg, [⟨96, 96⟩], [⟨192, 192⟩], [zero]⟩
  | 0x0104 => some ⟨some true, none, msg, [zero], [zero], [up 96]⟩
  | 0x0105 => some ⟨some false, none, ⟨0, mib⟩, [⟨64, 64⟩], [⟨96, 96⟩], [zero]⟩
  | 0x0106 => some ⟨some true, none, ⟨0, mib⟩, [zero], [zero], [up 64]⟩
  | 0x0107 => some ⟨some false, none, msg, [⟨256, 512⟩], [⟨512, 1024⟩], [zero]⟩
  | 0x0108 => some ⟨some true, none, msg, [zero], [zero], [up 256]⟩
  | 0x0201 => some ⟨some true, none, ⟨0, mib⟩, [zero], [zero], [zero, up 16]⟩
  | 0x0202 => some ⟨some true, none, ⟨0, mib⟩, [zero], [zero], [zero, up 16]⟩
  | 0x0203 => some ⟨some true, none, ⟨0, mib⟩, [zero], [zero], [zero, up 8]⟩
  | 0x0301 => some ⟨some true, none, ⟨0, 16 * mib⟩, [⟨0, 65536⟩], [⟨0, 65536⟩], [⟨0, 16 * mib⟩]⟩
  | 0x0302 => some ⟨some true, none, up 16, [zero], [zero], [⟨0, 16 * mib⟩]⟩
  | 0x0303 => some ⟨some true, none, up 8, [zero], [zero], [⟨0, 16 * mib⟩]⟩
  | 0x0401 => some ⟨none, none, ⟨0, 16 * mib⟩, [zero], [zero], [up 28]⟩
  | 0x0501 => some ⟨some true, some true, zero, [zero], [zero], [up 8]⟩
  | 0x0601 => some ⟨some true, some true, ⟨16, 4096⟩, [zero], [zero], [zero]⟩
  | 0x0602 => some ⟨some true, some true, ⟨16, 256⟩, [zero], [zero], [⟨64, 4096⟩]⟩
  | 0x0701 => some ⟨some true, none, zero, [⟨1, 256⟩], [⟨1, 256⟩], [zero]⟩
  | 0x0801 => some ⟨none, none, ⟨20, 8192⟩, [⟨528, 65536⟩], [⟨528, 65536⟩], [up 20]⟩
  | _ => none


/-- A key field obeys its row. -/
def keyOk (row : Option Bool) (key : Nat) : Bool :=
  match row with | none => key == 0 | some true => key != 0 | some false => true

/-- A buffer's length and address are both 0 or both not 0. -/
def bufOk (len addr : Nat) : Bool := (len == 0) == (addr == 0)

/-- The lengths of a row; in_len bounds out_len for the CBC services. -/
def SvcRow.lengthsOk (r : SvcRow) (e : Entry) : Bool :=
  r.inLen.has e.inLen && (if e.key1 = 0 then r.auxNoKey else r.aux).any (·.has e.auxLen) &&
    r.out.any (·.has e.outLen) &&
    (if e.service = 0x0302 || e.service = 0x0303 then e.inLen ≤ e.outLen else true)

/-- The items of R102 in their order: the status of the first that fails, or OK. -/
def Entry.check4 (e : Entry) (od : Bool) : Nat :=
  if bitsOf (e.fld 4 1) 7 5 != 0 || bitsOf (e.fld 5 1) 7 3 != 0 then Status.badDesc
  else if !e.timed && e.launch != 0 then Status.badDesc
  else if 2 ^ 52 ≤ e.inAddr || 2 ^ 52 ≤ e.auxAddr || 2 ^ 52 ≤ e.outAddr then Status.badDesc
  else if !bufOk e.inLen e.inAddr || !bufOk e.auxLen e.auxAddr || !bufOk e.outLen e.outAddr then Status.badDesc
  else if 2 ^ 48 ≤ e.key1 || 2 ^ 48 ≤ e.key2 then Status.badDesc
  else if od && e.service != 0x0F01 then Status.badDesc
  else if od || 0x8000 ≤ e.service then
    if 16 * mib < e.inLen || 16 * mib < e.auxLen || 16 * mib < e.outLen then Status.length else Status.ok
  else match svcRow e.service with
    | none => Status.badDesc
    | some r =>
      if !keyOk r.key1 e.key1 || !keyOk r.key2 e.key2 then Status.badDesc
      else if !r.lengthsOk e then Status.length else Status.ok

/-- The buffers a task reads or writes, with the access they need. An address above 52 bits names no page; check 4 refuses
it (log entry 25). -/
def Entry.buffers (e : Entry) : List (Nat × Nat × Acc) :=
  [(e.inAddr, e.inLen, Acc.read), (e.auxAddr, e.auxLen, Acc.read), (e.outAddr, e.outLen, Acc.write)].filter
    fun b => b.1 < 2 ^ 52

/-- A page admits an access as the POT entry says, without a refusal being recorded; an unmapped page admits none. -/
def State.pageAdmits (s : State) (q : Requester) (acc : Acc) (a : Nat) : Bool :=
  (s.potIndex a).isSome && (s.potCheck q acc a).ok

/-- Check 3 of R78. -/
def State.buffersOwned (s : State) (e : Entry) : Bool :=
  e.buffers.all fun b => (pagesOf b.1 b.2.1).all fun p => s.pageAdmits (s.tiReq e.ti) b.2.2 p

/-- The pool's image bound in the first cluster of L holds the service (R78 check 6, R128). -/
def State.poolServes (s : State) (h p code : Nat) : Bool :=
  match s.clusterList h p with
  | [] => false
  | c :: _ => match s.boundImage c p with | some i => (i.entryOf code).isSome | none => false

/-- Checks 2 to 7 of R78: the status of the first that fails, or OK. -/
def State.validate (s : State) (e : Entry) : Nat :=
  let h := s.tiHome e.ti
  let p := e.pool
  let tilth := s.rf Reg.TIF_CFG.priv e.ti == 2
  let c4 := e.check4 tilth
  let horizon := s.rf Reg.DSP_LAUNCH_CTL.horizon h
  let late := match strataOf e.launch with
    | none => true
    | some t => horizon != 0 && s.replica (tStop h) + horizon * 1000000 * 65536 < t
  let served := if (s.clusterList h p).isEmpty then
      (match s.crossPool h p with | some x => s.poolServes (1 - h) x e.service | none => false)
    else s.poolServes h p e.service
  if !tilth && !(s.rf Reg.TIF_POOLS.mask e.ti).testBit p then Status.quota
  else if !s.buffersOwned e then Status.ownership
  else if c4 != 0 then c4
  else if tilth then Status.ok
  else if e.timed && late then Status.badDesc
  else if !s.rb Reg.HPN_POOL.valid h p || !served then Status.badService
  else if s.poolWorld h p = .hardpan && s.hpAbsent h then Status.hpAbsent
  else Status.ok

/-- Stop a queue at an entry (R77, R303): later reads of the queue are dropped and the fetch index returns to the entry. -/
def State.stopQueue (s : State) (h ti q index st : Nat) : State :=
  let gone := (s.dspOf h).reads.filter fun r => r.ti == ti && r.queue == q
  let s := s.updDsp h fun d => { d with reads := d.reads.filter fun r => !(r.ti == ti && r.queue == q) }
  let s := s.setf Reg.TIF_STATUS.outstanding ti (s.outstanding ti - gone.length - 1)
  let s := s.updTi ti fun t => { t with fetch := SMap.set 0 t.fetch q index }
  (s.setf Reg.TIF_SQ_STATE.status ti st q).raise 0x044 (s.tiEvTo ti) h ti

/-- A descriptor that has been read: validated, and routed, passed to Tilth, or answered with a record (R78, R427). -/
def State.admitEntry (s : State) (h : Nat) (e : Entry) : State :=
  if e.gen != s.tiGen e.ti then (s.dropStale e.ti).tiRelease e.ti
  else
    let st := s.validate e
    if st != 0 then
      (if st = Status.quota then s.addf Reg.TIF_COUNT.quota e.ti else s).dspMake (e.dspRec st 0xFFFF)
    else if s.rf Reg.TIF_CFG.priv e.ti == 2 then s.updDsp h fun d => { d with tilth := d.tilth ++ [e] }
    else s.route h e.pool e

/-- DESCRIPTOR_VALIDATE: the oldest read of the half returns. -/
def execDescriptorValidate (h : Half) (s : State) : Out3 :=
  match (s.dspOf h.val).reads with
  | [] => .next s
  | r :: rest =>
    let s := s.updDsp h.val fun d => { d with reads := rest }
    if r.life != s.tiGen r.ti then .next (s.dropStale r.ti)
    else
      match s.readMem (s.tiReq r.ti) .read (s.slotAddr r.ti r.queue r.index) 128 with
      | (.data bs false, s) =>
        let next := (r.index + 1) % s.sqSize r.ti r.queue
        let s := (s.setf Reg.TIF_SQ_STATE.fetch r.ti next r.queue).shadow r.ti
        .next (s.admitEntry h.val ⟨r.ti, r.queue, r.index, bs, false⟩)
      | (.data _ true, s) => .next (s.stopQueue h.val r.ti r.queue r.index Status.poisoned)
      | (_, s) => .next (s.stopQueue h.val r.ti r.queue r.index Status.ownership)

/-! ## Routing and deques (R80 to R82) -/

/-- HELD_DESCRIPTOR_ROUTE: the oldest descriptor held for a pool is routed when a cluster has room. -/
def execHeldDescriptorRoute (h : Half) (p : Fin 32) (s : State) : Out3 :=
  match (s.dspOf h.val).held.find? fun x => x.2 == p.val with
  | none => .next s
  | some (e, _) =>
    let take := fun (s : State) => s.updDsp h.val fun d => { d with held := dropFirst (fun x => x == (e, p.val)) d.held }
    if (s.clusterList h.val p.val).isEmpty then
      let rest := (s.dspOf h.val).held
      let s := (s.updDsp h.val fun d => { d with held := [] }).route h.val p.val e
      .next (s.updDsp h.val fun d => { d with held := dropFirst (fun x => x == (e, p.val)) rest ++ d.held })
    else match s.routeIn h.val p.val e with
      | none => .next s
      | some s => .next (take s)

/-- CROSS_ROUTE_ARRIVAL: the oldest descriptor on its way to the half is placed in the linked pool. -/
def execCrossRouteArrival (h : Half) (s : State) : Out3 :=
  match (s.dspOf h.val).arriving with
  | [] => .next s
  | (e, p) :: rest => .next ((s.updDsp h.val fun d => { d with arriving := rest }).route h.val p e)

/-- INJECTION_TO_DEQUE: the oldest entry of a pool's list goes to the least loaded member with room (R81, R82). -/
def execInjectionToDeque (c : ClusterId) (p : Fin 32) (s : State) : Out3 :=
  match (s.cluster c.val).injList p.val with
  | [] => .next s
  | e :: rest =>
    let members := s.clusterMembers c.val p.val
    let open_ := members.filter fun m => !e.timed || (s.eng m).timedCount < s.maxTimed (c.val / 8)
    match s.leastLoaded open_ (SMap.get 0 (s.cluster c.val).lastPick p.val) with
    | none => .next s
    | some m =>
      if 32 ≤ (s.eng m).deque.length then .next s
      else
        let s := s.updCluster c.val fun k =>
          { k with inj := SMap.set [] k.inj p.val rest, lastPick := SMap.set 0 k.lastPick p.val (m % 64 + 1) }
        .next (s.dequePut m e)

/-- The oldest due timed entry of an engine's deque. -/
def State.dueEntry (s : State) (e : Nat) : Option Entry := (s.eng e).deque.find? fun x => s.entryDue e x

/-- Pop the oldest due timed entry. -/
def State.popDue (s : State) (e : Nat) (x : Entry) : State :=
  (s.updEng e fun k => { k with deque := dropFirst (fun y => y == x) k.deque }).takeEntry e x

/-- TIMED_ENTRY_DUE: a free engine takes its oldest due timed entry; a busy one keeps it in its deque. -/
def execTimedEntryDue (e : EngineId) (s : State) : Out3 :=
  if !s.engFree e.val then .next s
  else match s.dueEntry e.val with
    | none => .next s
    | some x => .next (s.popDue e.val x)

/-- TASK_POP (R82): the oldest due timed entry, else the newest untimed one. -/
def execTaskPop (e : EngineId) (s : State) : Out3 :=
  if !s.engFree e.val then .next s
  else match s.dueEntry e.val with
    | some x => .next (s.popDue e.val x)
    | none =>
      match (s.eng e.val).untimed.getLast? with
      | none => .next s
      | some x =>
        .next ((s.updEng e.val fun k => { k with deque := dropLast (fun y => y == x) k.deque }).takeEntry e.val x)

/-- The task of an engine in WAIT whose launch time the cluster's replica has reached, in a mode that serves. -/
def State.launchDue (s : State) (e : Nat) : Option Task :=
  let k := s.eng e
  k.task.filter fun t => k.run == .wait && s.sys.mode.serves &&
    t.entry.due.any fun d => d ≤ s.replica (clusterStop (engCluster e))

/-- LAUNCH (R87). -/
def execLaunch (e : EngineId) (s : State) : Out3 :=
  match s.launchDue e.val with
  | some t => .next (s.startTask e.val t.entry t.late)
  | none => .next s

/-- DSP_POOL_LINK is written (R86). -/
def State.poolLinkSet (s : State) (a : Actor) (h p v : Nat) : State :=
  if !Reg.DSP_POOL_LINK.link_valid.admits a then s
  else if a = .t && !(s.rb Reg.HPN_POOL.valid h p && s.topsoilPool h p) then s.setf Reg.DSP_POOL_LINK.denied h 1 p
  else (s.storeReg a h p v allOnes Reg.DSP_POOL_LINK.reg.fields).setf Reg.DSP_POOL_LINK.denied h 0 p

/-- DSP_POOL_LINK_WRITE. -/
def execDspPoolLinkWrite (q : Requester) (h : Half) (p : Fin 32) (v : Word) (s : State) : Out3 :=
  .next (s.writeReg q Cls.dsp h.val (0x200 + 8 * p.val) v.toNat fun s => s.poolLinkSet q.actor h.val p.val v.toNat)

/-- DSP_COUNT_READ. -/
def execDspCountRead (q : Requester) (h : Half) (s : State) : Out3 :=
  .next (s.readCmd q Cls.dsp h.val Reg.DSP_COUNT.reg 0 id)

/-- DSP_STEAL_COUNT_READ. -/
def execDspStealCountRead (q : Requester) (h : Half) (s : State) : Out3 :=
  .next (s.readCmd q Cls.dsp h.val Reg.DSP_STEAL_COUNT.reg 0 id)

end Sys2Proof.Machine
end

