-- ==== Sys2Proof/Machine/DspSteal.lean ====
section
/-!
DEFINITION. DspSteal: work stealing (R83 to R85, R99).
-/
namespace Sys2Proof.Machine

/-- A steal message of the engine is on its way. -/
def StealMsg.thief : StealMsg → Nat
  | .request t _ _ _ => t
  | .reply t _ _ _ _ => t

/-- The path of a message: whether it is a request, and its source and destination clusters. Requests and replies are of different
classes; of one path they arrive in the order sent (R18, R20, R28). -/
def StealMsg.path : StealMsg → Bool × Nat × Nat
  | .request t c _ _ => (true, engCluster t, c)
  | .reply t c _ _ _ => (false, c, engCluster t)

/-- The message is the oldest of its path. -/
def State.stealArrives (s : State) (m : StealMsg) : Bool := (s.steals.find? fun o => o.path == m.path) == some m

def State.stealing (s : State) (e : Nat) : Bool := s.steals.any fun m => m.thief == e

/-- The other members of the engine's pool in its cluster. -/
def State.stealOthers (s : State) (e : Nat) : List Nat :=
  (s.clusterMembers (engCluster e) (s.poolOf e) true).filter (· != e)

/-- The other clusters of L, from the one after the engine's own. -/
def State.stealClusters (s : State) (e : Nat) : List Nat :=
  let l := s.clusterList (engHalf e) (s.poolOf e)
  l.filter (engCluster e < ·) ++ l.filter (· < engCluster e)

/-- The linked pool from which an engine may steal across the halves (R85). -/
def State.crossSteal (s : State) (h p : Nat) : Option Nat :=
  let x := s.rf Reg.DSP_POOL_LINK.peer_pool h p
  if s.rb Reg.DSP_STEAL_CTL.cross_half 0 && s.rb Reg.DSP_STEAL_CTL.cross_half 1 && s.rb Reg.DSP_POOL_LINK.link_valid h p &&
      s.rb Reg.DSP_POOL_LINK.link_valid (1 - h) x && s.rf Reg.DSP_POOL_LINK.peer_pool (1 - h) x == p &&
      s.rb Reg.DSP_POOL_LINK.steal_out h p && s.poolWorld h p == s.poolWorld (1 - h) x && s.sys.lostHalf.isNone then
    some x
  else none

/-- The stage an engine is in, past those that are skipped (R83, R84). -/
def State.stealStage (s : State) (e : Nat) : StealStage :=
  let h := engHalf e
  let clusters : Nat → StealStage := fun t =>
    if t < s.rf Reg.DSP_STEAL_CTL.remote_tries h && !(s.stealClusters e).isEmpty then .cluster t
    else if (s.crossSteal h (s.poolOf e)).isSome then .half else .backoff
  match (s.eng e).steal with
  | .local n =>
    if n < s.rf Reg.DSP_STEAL_CTL.local_tries h && !(s.stealOthers e).isEmpty then .local n else clusters 0
  | .cluster t => clusters t
  | .half => if (s.crossSteal h (s.poolOf e)).isSome then .half else .backoff
  | .backoff => .backoff

/-- The oldest untimed entry of an engine, taken. -/
def State.takeOldest (s : State) (v : Nat) : Option (Entry × State) :=
  match (s.eng v).untimed with
  | [] => none
  | x :: _ => some (x, s.updEng v fun k => { k with deque := dropFirst (fun y => !y.timed) k.deque })

/-- The member with the most untimed entries, the lowest number on a tie. -/
def State.mostUntimed (s : State) (es : List Nat) : Option Nat :=
  es.foldl (fun best e =>
    match best with
    | none => some e
    | some b => if (s.eng b).untimed.length < (s.eng e).untimed.length then some e else some b) none

/-- The local victim (R84), with the LFSR or the rotation moved on. Each engine has a rotation of its own, which starts at its
first peer and goes on across rounds (DESIGN CHOICE, log entry 236). -/
def State.localVictim (s : State) (e : Nat) (others : List Nat) : Option Nat × State :=
  let h := engHalf e
  let c := engCluster e % 8
  match s.rf Reg.DSP_STEAL_CTL.victim_mode h with
  | 1 => (s.mostUntimed others, s)
  | 2 => (others[(s.eng e).rotor % others.length]?, s.updEng e fun k => { k with rotor := k.rotor + 1 })
  | _ =>
    let v := s.rf Reg.DSP_STEAL_LFSR.value h c
    (others[v % 256 % others.length]?, s.setf Reg.DSP_STEAL_LFSR.value h (lfsrStep v) c)

/-- The engine's search moves to the back-off, which may be of no length. -/
def State.stealBackoff (s : State) (e : Nat) : State :=
  s.updEng e fun k => { k with steal := if s.rf Reg.DSP_STEAL_CTL.backoff (engHalf e) = 0 then .local 0 else .backoff }

/-- The engine has nothing to pop and may search for work. -/
def State.mayStealNow (s : State) (e : Nat) : Bool :=
  s.engFree e && !s.leaving e && !s.stealing e && (s.eng e).untimed.isEmpty && (s.dueEntry e).isNone

/-- STEAL_ATTEMPT: one attempt of the engine's stage. -/
def execStealAttempt (e : EngineId) (s : State) : Out3 :=
  let eng := e.val
  let h := engHalf eng
  if !s.mayStealNow eng then .next s
  else match s.stealStage eng with
    | .local n =>
      let (v, s) := s.localVictim eng (s.stealOthers eng)
      match v.bind s.takeOldest with
      | some (x, s) => .next ((s.addf Reg.DSP_STEAL_COUNT.local h).takeEntry eng x)
      | none => .next (s.updEng eng fun k => { k with steal := .local (n + 1) })
    | .cluster t =>
      let l := s.stealClusters eng
      let c := l.getD (t % l.length) 0
      .next { s.updEng eng fun k => { k with steal := .cluster (t + 1) } with
        steals := s.steals ++ [.request eng c (s.poolOf eng) false] }
    | .half =>
      match s.crossSteal h (s.poolOf eng) with
      | none => .next (s.stealBackoff eng)
      | some x =>
        match s.clusterList (1 - h) x with
        | [] => .next (s.stealBackoff eng)
        | l =>
          let (r, s) := s.drawFree
          let s := s.stealBackoff eng
          .next { s with steals := s.steals ++ [.request eng (l.getD (r % l.length) 0) x true] }
    | .backoff => .next (s.stealBackoff eng)

/-- STEAL_REQUEST: the thief's request arrives at its cluster, which answers from its member with the most untimed
entries, or empty. A request behind another of its path waits for it. -/
def execStealRequest (e : EngineId) (s : State) : Out3 :=
  match s.steals.find? fun m => match m with | .request t _ _ _ => t == e.val | _ => false with
  | some (.request _ c pool half) =>
    if !s.stealArrives (.request e.val c pool half) then .next s
    else
    let rest := dropFirst (fun m => m == .request e.val c pool half) s.steals
    let min_ := max 1 (s.rf Reg.DSP_STEAL_CTL.min_victim (c / 8))
    let mine := s.poolOf e.val
    let victim := (s.mostUntimed (s.clusterMembers c pool true)).filter fun v => min_ ≤ (s.eng v).untimed.length && !(half && s.remoteFull (c / 8))
    match victim.bind s.takeOldest with
    | some (x, s) => .next { s with steals := rest ++ [.reply e.val c mine (some x) half] }
    | none => .next { s with steals := rest ++ [.reply e.val c mine none half] }
  | _ => .next s

/-- STEAL_REPLY: the reply arrives; a stolen task starts on the thief at once. A thief that has found work meanwhile, or has a due
timed entry to pop first (R87), keeps the entry in its deque, and one whose deque is full or that has left its pool leaves it to
the pool (log entry 26). -/
def execStealReply (e : EngineId) (s : State) : Out3 :=
  let eng := e.val
  let h := engHalf eng
  match s.steals.find? fun m => match m with | .reply t _ _ _ _ => t == eng | _ => false with
  | some (.reply _ from_ pool x half) =>
    if !s.stealArrives (.reply eng from_ pool x half) then .next s
    else
    let s := { s with steals := dropFirst (fun m => m == .reply eng from_ pool x half) s.steals }
    match x with
    | none => .next s
    | some x =>
      let s := if half then s.addf Reg.DSP_STEAL_COUNT.half h else s.addf Reg.DSP_STEAL_COUNT.cluster h
      if s.engFree eng && s.poolOf eng == pool && (s.dueEntry eng).isNone then .next (s.takeEntry eng x)
      else if s.isMember eng && s.poolOf eng == pool && !s.leaving eng && s.dequeRoom eng x then .next (s.dequePut eng x)
      else .next (s.rehome h (engCluster eng) pool [x])
  | _ => .next s

/-- STEAL_BACKOFF_END. -/
def execStealBackoffEnd (e : EngineId) (s : State) : Out3 :=
  match (s.eng e.val).steal with
  | .backoff => .next (s.updEng e.val fun k => { k with steal := .local 0 })
  | _ => .next s

end Sys2Proof.Machine
end

