-- ==== Sys2Proof/Machine/Collector.lean ====
section
/-!
DEFINITION. Collector: completion records from the output latch to the ring (R88 to R95, R97, R300, R303, R324).
-/
namespace Sys2Proof.Machine

/-! ## Release (R88, R97) -/

/-- RECORD_RELEASE: the oldest record of an engine's output latch takes a credit of its home lane and its stamp, and a place in
the latch comes free. -/
def execRecordRelease (e : EngineId) (s : State) : Out3 :=
  match (s.eng e.val).latch with
  | [] => .next s
  | r :: rest =>
    let h := s.tiHome r.ti
    let k := engCluster e.val % 8
    let l := (s.cltOf h).lane k
    if s.sys.lostHalf.any (fun x => x.val == h) then
      .next ((s.updEng e.val fun k => { k with latch := rest }).sltTryEnd e.val)
    else if !s.blkOn Cls.clt h || laneFull l r then .next s
    else
      let r := { r with stamp := strataBits (s.replica (clusterStop (engCluster e.val))) }
      let s := s.updClt h fun c => c.setLane k (l ++ [r])
      .next ((s.updEng e.val fun k => { k with latch := rest }).sltTryEnd e.val)

/-! ## Acceptance (R90, R91) -/

/-- The lanes in the order R90 considers them: those refused in the round before, then the others, each group in rotation from
P. -/
def Clt.order (c : Clt) : List Nat :=
  let rot := (List.range 8).map fun i => (c.p + i) % 8
  rot.filter (c.refused.contains ·) ++ rot.filter (!c.refused.contains ·)

/-- The lane whose head is accepted next in this round, if one is. -/
def Clt.pick (c : Clt) : Option Nat :=
  if 4 ≤ c.taken then none else c.order.find? fun k => !c.seen.contains k && !(c.lane k).isEmpty

/-- The next round: the heads not accepted were refused, and P moves on by one lane. -/
def Clt.nextRound (c : Clt) : Clt :=
  { c with refused := (List.range 8).filter fun k => !c.seen.contains k && !(c.lane k).isEmpty,
           seen := [], taken := 0, p := (c.p + 1) % 8 }

/-- The record's bytes (R106, R107). -/
def Rec.bytes (r : Rec) (seq : Nat) : List Byte :=
  leBytes 4 seq ++ leBytes 2 r.gen ++ leBytes 1 r.status ++
    leBytes 1 (b2n r.late + 2 * b2n r.reissued + 4 * b2n r.ledger + 8 * b2n r.dispatch + 16 * b2n r.remote) ++
    leBytes 8 r.result ++ leBytes 12 r.stamp ++ leBytes 2 r.engine ++ leBytes 2 r.slot

/-- The record that Dispatch writes in place of one whose body arrived poisoned (R375). -/
def Rec.poisoned (r : Rec) : Rec :=
  { r with status := Status.poisoned, result := 0, dispatch := true, engine := 0xFFFF, poison := false }

def State.vrv (s : State) (h : Nat) : Vrv := SMap.get Vrv.empty s.ledger.halves h
def State.updVrv (s : State) (h : Nat) (f : Vrv → Vrv) : State :=
  { s with ledger := { s.ledger with halves := SMap.upd Vrv.empty s.ledger.halves h f } }

/-- The signing task of a checkpoint ends when its record is accepted (R184). -/
def State.noteSign (s : State) (r : Rec) : State :=
  { s with ledger := { s.ledger with signs := s.ledger.signs.map fun g =>
      if g.ti = r.ti && g.gen = r.gen && r.slot = 0xF000 + g.slot && g.status.isNone
      then { g with status := some r.status } else g } }

/-- The delay of CLT_LANE.max_delay in whole mesh cycles of the half. -/
def State.meshDelay (s : State) (h : Nat) (r : Rec) : Nat :=
  let now := s.replica (tStop h)
  let past := match strataOf r.stamp with | some t => now - t | none => 0
  if SMap.get false s.sys.meshSlow h then past * 3 / (2 * 65536) else past * 2 / 65536

/-- A record leaves its lane and is numbered and written, or discarded (R91, R93, R94, R303). -/
def State.acceptRec (s : State) (h : Nat) (r : Rec) : State :=
  let st := s.blkState Cls.tif r.ti
  if r.gen != s.tiGen r.ti then (s.addf Reg.CLT_COUNT.stale h).tiStale r.ti
  else if (st != 2 && st != 3) || (s.ti r.ti).failed then (s.tiRelease r.ti).tiStale r.ti
  else
    let r := if r.poison then r.poisoned else r
    let seq := (s.ti r.ti).nextSeq
    let bs := r.bytes seq
    let a := s.rf Reg.TIF_RING.base r.ti * 4096 + 32 * (seq % s.ringSize r.ti)
    match s.writeMem (s.tiReq r.ti) a bs with
    | (.data _ _, s) =>
      let s := ((s.updTi r.ti fun t => { t with nextSeq := (seq + 1) % 2 ^ 32 }).tiRelease r.ti).addf
        Reg.CLT_COUNT.accepted h
      let s := if r.ledger then s.updVrv h fun v => { v with copies := v.copies ++ [⟨r.ti, r.gen, bs⟩] } else s
      s.noteSign r
    | (_, s) => ((s.tiRelease r.ti).tiStale r.ti).blockFault Cls.tif r.ti Status.ownership

/-- The head of lane `k` is accepted. -/
def State.acceptHead (s : State) (h k : Nat) : State :=
  match (s.cltOf h).lane k with
  | [] => s
  | r :: rest =>
    let s := s.updClt h fun c => { c.setLane k rest with seen := k :: c.seen, taken := c.taken + 1 }
    let s := s.addf Reg.CLT_LANE.records h k
    let s := s.setf Reg.CLT_LANE.max_delay h
      (max (s.rf Reg.CLT_LANE.max_delay h k) (min 0xFFFF (s.meshDelay h r))) k
    (s.acceptRec h r).dspInsertAll h

/-- RECORD_ACCEPT: the Collector of a half that is ON accepts the next head of its round (R90). A round is one mc; it ends when four
heads are taken or none is left to consider. -/
def execRecordAccept (h : Half) (s : State) : Out3 :=
  if !s.blkOn Cls.clt h.val then .next s
  else
    let c := s.cltOf h.val
    match c.pick with
    | some k => .next (s.acceptHead h.val k)
    | none =>
      let s := s.updClt h.val Clt.nextRound
      match (s.cltOf h.val).pick with
      | some k => .next (s.acceptHead h.val k)
      | none => .next s

/-! ## The tail (R93, R300, R301, R324) -/

/-- The TI's event when the published tail advances (R324). -/
def State.ringAdvance (s : State) (ti : Nat) : State :=
  let h := s.tiHome ti
  let id := s.rf Reg.TIF_EVENT.intr_id ti
  if id < 0x400 || 0xFFE < id then s.addf Reg.EVH_STAT.bad_raise h
  else if s.rb Reg.TIF_EVENT.queue_mode ti then
    if SMap.get false s.evh.tiqEntry ti then s
    else
      let old := s.rf Reg.EVH_TIQ_PTR.tail h ti
      match s.tiQueuePut ti id (s.rf Reg.TIF_RING_STATE.tail ti % 4096) with
      | (s, none) =>
        if s.rf Reg.EVH_TIQ_PTR.tail h ti == old then s
        else { s with evh := { s.evh with tiqEntry := SMap.set false s.evh.tiqEntry ti true } }
      | (s, some (q, a, e)) => s.queueEvent q a e
  else s.raiseId h id ti 0

/-- TAIL_PUBLISH: the records below `tail` are acknowledged by their homes, and the tail moves there. -/
def execTailPublish (ti : TiId) (tail : BitVec 32) (s : State) : Out3 :=
  let old := s.rf Reg.TIF_RING_STATE.tail ti.val
  let ahead := (tail.toNat + 2 ^ 32 - old) % 2 ^ 32
  if ahead = 0 || ((s.ti ti.val).nextSeq + 2 ^ 32 - old) % 2 ^ 32 < ahead then .next s
  else .next (((s.setf Reg.TIF_RING_STATE.tail ti.val tail.toNat).shadow ti.val).ringAdvance ti.val)

/-- RING_STALL (R95): the ring, full for 1 ms, stalls its TI. -/
def execRingStall (ti : TiId) (s : State) : Out3 :=
  if !s.blkOn Cls.tif ti.val || s.rb Reg.TIF_STATUS.stalled ti.val || !s.ringFull ti.val then .next s
  else
    .next (((s.setf Reg.TIF_STATUS.stalled ti.val 1).shadow ti.val).raise 0x040 (s.tiEvTo ti.val) (s.tiHome ti.val) ti.val)

/-- CLT_LANE_READ. -/
def execCltLaneRead (q : Requester) (h : Half) (k : Fin 8) (s : State) : Out3 :=
  .next (s.readCmd q Cls.clt h.val Reg.CLT_LANE.reg k.val id)

/-- CLT_COUNT_READ. -/
def execCltCountRead (q : Requester) (h : Half) (s : State) : Out3 :=
  .next (s.readCmd q Cls.clt h.val Reg.CLT_COUNT.reg 0 id)

end Sys2Proof.Machine
end

