-- ==== Sys2Proof/Machine/Tenant.lean ====
section
/-!
DEFINITION. Tenant: the commands of the tenant interfaces (chapter "Tenant interfaces", R293 to R310).
-/
namespace Sys2Proof.Machine

/-! ## Rights -/

/-- The actor whose rights a writer has on a TIF block: Tilth has those of H on the Tilth TI (R427). -/
def State.tifActor (s : State) (q : Requester) (ti : Nat) : Actor :=
  if q.actor = .m && ti = s.sys.tilthTi then .h else q.actor

/-- The TI event world of an actor (R310). -/
def Ti.world (t : Ti) : EvTo := EvTo.ofActor t.enabler

/-! ## Resets (R96, R297, R305, R306) -/

/-- The generation after `g` (R297). -/
def nextGen (g : Nat) : Nat := if 0xFFFF ≤ g then 1 else g + 1

/-- The step of R305. -/
def State.tiResetStep (s : State) (ti : Nat) : State :=
  let s := s.setf Reg.TIF_GEN.gen ti (nextGen (s.tiGen ti))
  let s := s.setf Reg.TIF_STATUS.outstanding ti 0
  let s := (List.range 16).foldl (fun s q =>
    let s := (s.setf Reg.TIF_SQ_STATE.fetch ti 0 q).setf Reg.TIF_SQ_STATE.tail ti 0 q
    if s.rf Reg.TIF_SQ_STATE.status ti q = Status.queueFull then s else s.setf Reg.TIF_SQ_STATE.status ti 0 q) s
  let s := ((s.setf Reg.TIF_RING_STATE.tail ti 0).setf Reg.TIF_RING_STATE.head ti 0).setf Reg.TIF_STATUS.stalled ti 0
  let s := s.setf Reg.TIF_STATUS.resetting ti 0
  (s.updTi ti fun t => { t with fetch := [], nextSeq := 0, draining := false }).shadow ti

/-- The entries of a list that a test takes, and the rest. -/
def takeOut {α : Type} (p : α → Bool) (l : List α) : List α × List α := (l.filter p, l.filter fun x => !p x)

/-- Every queued entry of the device that `hit` takes is removed: from injection lists, from deques, from Dispatch's held and
arriving descriptors, and from the fan-out copies that wait for a deque. `hit` is given the half and the pool whose list or deque
holds the entry, which need not be those of its home. -/
def State.removeQueued (s : State) (hit : Nat → Nat → Entry → Bool) : List Entry × State :=
  let own := s.poolOf
  let gone := s.clusters.flatMap (fun c => c.2.inj.flatMap fun p => p.2.filter (hit (c.1 / 8) p.1)) ++
    s.engines.flatMap (fun k => k.2.deque.filter (hit (engHalf k.1) (own k.1))) ++
    s.dsp.flatMap (fun d => (d.2.held.filter fun x => hit d.1 x.2 x.1).map Prod.fst) ++
    s.dsp.flatMap (fun d => (d.2.arriving.filter fun x => hit d.1 x.2 x.1).map Prod.fst) ++
    s.fans.flatMap (fun f => match f.2.entry with
      | some e => if f.2.placed then (f.2.deferred.filter fun m => hit (engHalf m) (own m) e).map fun _ => e else []
      | none => [])
  let s := (SMap.keys s.clusters).foldl (fun s c => s.updCluster c fun k =>
    { k with inj := (SMap.keys k.inj).foldl (fun m p => SMap.upd [] m p fun l => l.filter fun e => !hit (c / 8) p e) k.inj }) s
  let s := (SMap.keys s.engines).foldl (fun s e => s.updEng e fun k =>
    { k with deque := k.deque.filter fun x => !hit (engHalf e) (own e) x }) s
  let s := (SMap.keys s.dsp).foldl (fun s h => s.updDsp h fun d =>
    { d with held := d.held.filter (fun x => !hit h x.2 x.1), arriving := d.arriving.filter (fun x => !hit h x.2 x.1) }) s
  let clear := fun (f : Fan) => match f.entry with
    | some e => if f.placed then { f with deferred := f.deferred.filter fun m => !hit (engHalf m) (own m) e } else f
    | none => f
  (gone, { s with fans := (SMap.keys s.fans).foldl (fun m n => SMap.upd Fan.empty m n clear) s.fans })

/-- Fan-outs of a TI that have placed nothing lose their reservations (R175). -/
def State.dropFans (s : State) (ti : Nat) : State :=
  (SMap.keys s.fans).foldl (fun s n =>
    let f := SMap.get Fan.empty s.fans n
    match f.entry with
    | some e =>
      if f.placed || e.ti != ti then s
      else
        let s := { s with fans := SMap.set Fan.empty s.fans n Fan.empty }
        (s.setf Reg.TIF_STATUS.outstanding ti (s.outstanding ti - f.reserved)).setf
          Reg.STR_CMP_CTL.last_status 0 Status.tiReset n
    | none => s) s

/-- Queued entries of the TI end with SQUASHED; a drain squashes the timed ones (R96, R306). -/
def State.squash (s : State) (ti : Nat) (timedOnly : Bool) : State :=
  let g := s.tiGen ti
  let (gone, s) := s.removeQueued fun _ _ e => e.ti == ti && e.gen == g && (e.timed || !timedOnly)
  (gone.foldl (fun s e => s.dspMake (e.dspRec Status.squashed 0xFFFF)) s).dropFans ti

/-- A privileged reset begins (R306). -/
def State.privReset (s : State) (ti : Nat) : State :=
  let drain := s.rb Reg.TIF_GEN.drain ti
  let s := (s.setf Reg.TIF_STATUS.resetting ti 1).updTi ti fun t => { t with draining := drain }
  (s.shadow ti).squash ti drain

/-- The effect of reset_go. -/
def State.tiResetGo (s : State) (ti : Nat) : State :=
  if s.rb Reg.TIF_STATUS.resetting ti || !s.blkOn Cls.tif ti then s.tiLast ti Status.busy
  else if s.rf Reg.TIF_CFG.priv ti = 0 then (s.tiResetStep ti).dropFans ti
  else s.privReset ti

/-- TIF_GEN is written: drain, and with `go` a reset. -/
def State.tifGen (s : State) (q : Requester) (ti v : Nat) (go : Bool) : State :=
  if !Reg.TIF_GEN.reset_go.admits (s.tifActor q ti) then s
  else
    let s := (s.setf Reg.TIF_GEN.drain ti (Reg.TIF_GEN.drain.of v)).tiDenied ti false
    if go then s.tiResetGo ti else s

/-- TI_RESET_GO: a write of TIF_GEN with reset_go = 1; the same word writes drain. -/
def execTiResetGo (q : Requester) (ti : TiId) (v : Word) (s : State) : Out3 :=
  .next (s.withAccess q .write Cls.tif ti.val 0x130 fun s => s.tifGen q ti.val v.toNat true)

/-- PRIVILEGED_RESET_DONE: the outstanding count is 0. -/
def execPrivilegedResetDone (ti : TiId) (s : State) : Out3 :=
  if !s.rb Reg.TIF_STATUS.resetting ti.val || s.outstanding ti.val != 0 then .next s
  else .next ((s.tiResetStep ti.val).raise 0x046 (s.tiEvTo ti.val) (s.tiHome ti.val) ti.val)

/-- DRAIN_TIMEOUT: 1,000 ms have passed; what remains is squashed. -/
def execDrainTimeout (ti : TiId) (s : State) : Out3 :=
  if !s.rb Reg.TIF_STATUS.resetting ti.val || !(s.ti ti.val).draining then .next s
  else .next ((s.updTi ti.val fun t => { t with draining := false }).squash ti.val false)

/-! ## Creation (R296, R297, R310) -/

/-- A page's POT entry, as the walker reads it, admits the access (R296). -/
def State.walkAdmits (s : State) (q : Requester) (acc : Acc) (a : Nat) : Bool :=
  match s.potIndex a with
  | none => false
  | some (t, i) =>
    let h := (s.checkerOf q a).1
    if s.rf Reg.POT_CTL.armed h == 0 || (t == 1 && s.rf Reg.POT_CXL_PAGES.pages h ≤ i) then (potJudge q acc none).ok
    else
      let (e, bad) := s.potWalk h t i
      (potJudge q acc (if bad || potInvalid t e then none else some e)).ok

/-- Every page of a range admits the access. -/
def State.rangeAdmits (s : State) (q : Requester) (acc : Acc) (a n : Nat) : Bool :=
  (pagesOf a n).all (s.walkAdmits q acc)

/-- The enabled queues of a TI. -/
def State.enabledQueues (s : State) (ti : Nat) : List Nat := (List.range 16).filter fun q => s.rb Reg.TIF_SQ.enable ti q

/-- The pages of a queue admit reads. -/
def State.queuePagesOk (s : State) (ti q : Nat) : Bool :=
  s.rangeAdmits (s.tiReq ti) .read (s.slotAddr ti q 0) (128 * s.sqSize ti q)

/-- Another live TI of the device is a Tilth TI. -/
def State.otherTilthTi (s : State) (ti : Nat) : Bool :=
  s.tiList.any fun n => n != ti && s.rf Reg.TIF_CFG.priv n == 2 && (s.tiLive 0 n || s.tiLive 1 n)

/-- The checks of R296: the status of the first that fails, or OK. -/
def State.tiChecks (s : State) (ti : Nat) : Nat :=
  let h := s.tiHome ti
  let priv := s.rf Reg.TIF_CFG.priv ti
  let ring := s.rf Reg.TIF_RING.log2_size ti
  let qs := s.enabledQueues ti
  let shadowOn := s.rb Reg.TIF_SHADOW.enable ti
  let shadowAt := s.rf Reg.TIF_SHADOW.addr ti * 64
  if priv != 0 && (8 < s.viewf Reg.DSP_TI_COUNT.privileged h 0 || (priv == 2 && s.otherTilthTi ti)) then Status.denied
  else if ring < 7 || 16 < ring || (qs.any fun q => s.rf Reg.TIF_SQ.log2_size ti q < 5 || 12 < s.rf Reg.TIF_SQ.log2_size ti q)
      || (shadowOn && shadowAt == 0) then Status.badDesc
  else if 8192 < s.viewf Reg.DSP_TI_COUNT.queues h 0 then Status.queueFull
  else if !s.rangeAdmits (s.tiReq ti) .write (s.rf Reg.TIF_RING.base ti * 4096) (32 * 2 ^ ring)
      || (shadowOn && !s.rangeAdmits (s.tiReq ti) .write shadowAt 64) || !qs.all (s.queuePagesOk ti) then Status.ownership
  else Status.ok

/-- The TI enters STARTING: its generation advances, its new life begins empty, and it is live (R297, R309, R310). -/
def State.tiStart (s : State) (ti : Nat) : State :=
  let k := blkKey Cls.tif ti
  let s := (s.setf Reg.PFX_STATE.state k 1).setf Reg.PFX_STATE.generation k (s.rf Reg.PFX_STATE.generation k + 1)
  let s := (s.updTi ti fun t => { t with made := true, failed := false }).tiResetStep ti
  let s := s.raise 0x047 (s.ti ti).world (s.tiHome ti) ti
  let st := s.tiChecks ti
  if st = Status.ok then s else s.blockFault Cls.tif ti st

/-- The actor may write the enable of a TIF block (R30, R427). -/
def tifEnableOk (a : Actor) : Bool := a == .t || a == .v || a == .h

/-- TIF_CTL.enable is written 1 (R31). -/
def State.tifEnable (s : State) (a : Actor) (ti : Nat) (q : Requester) : State :=
  if !tifEnableOk a then s
  else
    let k := blkKey Cls.tif ti
    if s.blkState Cls.tif ti = 4 then s
    else
    let s := (s.setf Reg.PFX_CTL.enable k 1).tiDenied ti false
    let s := s.updTi ti fun t => { t with enabler := q.actor }
    match s.blkState Cls.tif ti with
    | 0 => s.tiStart ti
    | 3 => s.setf Reg.PFX_STATE.restart_pending k 1
    | _ => s

/-- TI_CREATE. -/
def execTiCreate (q : Requester) (ti : TiId) (s : State) : Out3 :=
  .next (s.withAccess q .write Cls.tif ti.val 0x8 fun s => s.tifEnable (s.tifActor q ti.val) ti.val q)

/-! ## Removal (R298) -/

/-- TIF_CTL.enable is written 0: step 1 of R298 from ON; from STARTING or FAULT the TI only stops. -/
def State.tifDisable (s : State) (a : Actor) (ti : Nat) (q : Requester) : State :=
  if !tifEnableOk a then s
  else
    let k := blkKey Cls.tif ti
    let s := (s.setf Reg.PFX_CTL.enable k 0).tiDenied ti false
    let s := s.updTi ti fun t => { t with enabler := q.actor }
    match s.blkState Cls.tif ti with
    | 1 => s.setf Reg.PFX_STATE.state k 3
    | 2 =>
      let s := (s.releaseClaims Cls.tif ti).setf Reg.PFX_STATE.state k 3
      if s.rf Reg.TIF_CFG.priv ti = 0 then (s.tiResetStep ti).dropFans ti
      else if s.rb Reg.TIF_STATUS.resetting ti then s
      else s.privReset ti
    | 3 => s.setf Reg.PFX_STATE.restart_pending k 0
    | 4 => s.setf Reg.PFX_STATE.state k 3
    | _ => s

/-- TI_REMOVE. -/
def execTiRemove (q : Requester) (ti : TiId) (s : State) : Out3 :=
  .next (s.withAccess q .write Cls.tif ti.val 0x8 fun s => s.tifDisable (s.tifActor q ti.val) ti.val q)

/-- The removal of a TI may end: its reset has completed and no old task is left (R298). -/
def State.tiStopOk (s : State) (ti : Nat) : Bool :=
  s.blkState Cls.tif ti == 3 && !s.rb Reg.TIF_STATUS.resetting ti && s.oldTasks ti == 0

/-- The TI reaches OFF; an enable accepted meanwhile starts it again (R31). -/
def State.tiOff (s : State) (ti : Nat) : State :=
  let k := blkKey Cls.tif ti
  let s := (s.setf Reg.PFX_STATE.state k 0).raise 0x047 (s.ti ti).world (s.tiHome ti) ti
  if s.rb Reg.PFX_STATE.restart_pending k then
    ({ s with viaRestart := SMap.set false s.viaRestart k true }.setf Reg.PFX_STATE.restart_pending k 0).tiStart ti
  else s

/-- TI_REMOVE_DONE. -/
def execTiRemoveDone (ti : TiId) (s : State) : Out3 :=
  if s.tiStopOk ti.val then .next (s.tiOff ti.val) else .next s

/-! ## Configuration (R295, R302, R303) -/

/-- Write a TIF register's fields with a writer's rights. -/
def State.tifStore (s : State) (a : Actor) (ti j v : Nat) (fs : List Fld) : State := s.storeReg a ti j v allOnes fs

/-- T may not change what quota_lock covers. -/
def State.quotaLocked (s : State) (a : Actor) (ti : Nat) : Bool := a == .t && s.rb Reg.TIF_CFG.quota_lock ti

/-- The priv that a write leaves: H writes 0 or 1, M writes 0 or 2 (TIF_CFG). -/
def State.privAfter (s : State) (q : Requester) (ti v : Nat) : Nat :=
  let p := Reg.TIF_CFG.priv.of v
  if (q.actor = .h && p ≤ 1) || (q.actor = .m && (p = 0 || p = 2)) then p else s.rf Reg.TIF_CFG.priv ti

/-- TIF_CFG is written on a block that is OFF. -/
def State.tifCfg (s : State) (q : Requester) (a : Actor) (ti v : Nat) : State :=
  let p := s.privAfter q ti v
  let fs := [Reg.TIF_CFG.home, Reg.TIF_CFG.quota_lock] ++ (if s.quotaLocked a ti then [] else [Reg.TIF_CFG.tenant])
  (s.tifStore a ti 0 v fs).setf Reg.TIF_CFG.priv ti p

/-- The three frozen registers of R295. -/
inductive TifFrozen where
  | cfg | ring | shadow
deriving DecidableEq, Repr

def TifFrozen.off : TifFrozen → Nat
  | .cfg => 0x100 | .ring => 0x108 | .shadow => 0x110

/-- The actor may write some field of a frozen register (R10): Tilth TIF_CFG.priv alone. -/
def TifFrozen.admits (r : TifFrozen) (a : Actor) : Bool :=
  a == .t || a == .v || a == .h || (a == .m && r == .cfg)

/-- A write of a frozen register. -/
def State.tifFrozen (s : State) (q : Requester) (ti v : Nat) (r : TifFrozen) : State :=
  let a := s.tifActor q ti
  if !r.admits a then s
  else if s.blkState Cls.tif ti != 0 then s.tiDenied ti true
  else
    let s := s.tiDenied ti false
    match r with
    | .cfg => s.tifCfg q a ti v
    | .ring => s.tifStore a ti 0 v Reg.TIF_RING.reg.fields
    | .shadow => s.tifStore a ti 0 v Reg.TIF_SHADOW.reg.fields

/-- The frozen register a number 0 to 2 names. -/
def TifFrozen.ofFin (r : Fin 3) : TifFrozen := match r.val with | 0 => .cfg | 1 => .ring | _ => .shadow

/-- TIF_CONFIG_WRITE: `r` is 0 for TIF_CFG, 1 for TIF_RING and 2 for TIF_SHADOW. -/
def execTifConfigWrite (q : Requester) (ti : TiId) (r : Fin 3) (v : Word) (s : State) : Out3 :=
  let f := TifFrozen.ofFin r
  .next (s.withAccess q .write Cls.tif ti.val f.off fun s => s.tifFrozen q ti.val v.toNat f)

/-- A queue has just been enabled: the limit and the page check of R302. -/
def State.sqEnabled (s : State) (ti n : Nat) : State :=
  let h := s.tiHome ti
  if s.tiLive h ti && 8192 < s.viewf Reg.DSP_TI_COUNT.queues h 0 then
    (s.setf Reg.TIF_SQ.enable ti 0 n).setf Reg.TIF_SQ_STATE.status ti Status.queueFull n
  else
    let s := if s.rf Reg.TIF_SQ_STATE.status ti n = Status.queueFull then s.setf Reg.TIF_SQ_STATE.status ti 0 n else s
    if s.blkOn Cls.tif ti && !s.queuePagesOk ti n then
      (s.setf Reg.TIF_SQ_STATE.status ti Status.ownership n).raise 0x044 (s.tiEvTo ti) h ti
    else s

/-- TIF_SQ is written (R295, R302). -/
def State.tifSq (s : State) (a : Actor) (ti n v : Nat) : State :=
  if !Reg.TIF_SQ.enable.admits a then s
  else
    let en := Reg.TIF_SQ.enable.of v
    if s.rb Reg.TIF_SQ.enable ti n then
      let differs := Reg.TIF_SQ.log2_size.of v != s.rf Reg.TIF_SQ.log2_size ti n ||
        Reg.TIF_SQ.base.of v != s.rf Reg.TIF_SQ.base ti n
      (s.setf Reg.TIF_SQ.enable ti en n).tiDenied ti differs
    else
      let s := (s.tifStore a ti n v Reg.TIF_SQ.reg.fields).tiDenied ti false
      if en = 1 then s.sqEnabled ti n else s

/-- TIF_SQ_WRITE. -/
def execTifSqWrite (q : Requester) (ti : TiId) (n : Fin 16) (v : Word) (s : State) : Out3 :=
  .next (s.withAccess q .write Cls.tif ti.val (0x200 + 8 * n.val) fun s =>
    s.tifSq (s.tifActor q ti.val) ti.val n.val v.toNat)

/-- A queue is restarted (R303). -/
def State.queueRestart (s : State) (q : Requester) (ti n : Nat) : State :=
  let st := s.rf Reg.TIF_SQ_STATE.status ti n
  if !Reg.TIF_SQ_STATE.restart.admits (s.tifActor q ti) then s
  else
    let s := s.tiDenied ti false
    if st = Status.ownership || st = Status.poisoned then s.setf Reg.TIF_SQ_STATE.status ti 0 n else s

/-- QUEUE_RESTART. -/
def execQueueRestart (q : Requester) (ti : TiId) (n : Fin 16) (s : State) : Out3 :=
  .next (s.withAccess q .write Cls.tif ti.val (0x280 + 8 * n.val) fun s => s.queueRestart q ti.val n.val)

/-- The ring's head is written (R95, R300). -/
def State.ringHead (s : State) (q : Requester) (ti v : Nat) : State :=
  let head := s.rf Reg.TIF_RING_STATE.head ti
  if !s.mayRing q ti then s
  else if !headOk head (s.rf Reg.TIF_RING_STATE.tail ti) v then s.addf Reg.TIF_COUNT.bad_doorbell ti
  else
    let s := (s.setf Reg.TIF_RING_STATE.head ti v).tiDenied ti false
    if v != head && s.rb Reg.TIF_STATUS.stalled ti then
      ((s.setf Reg.TIF_STATUS.stalled ti 0).shadow ti).raise 0x041 (s.tiEvTo ti) (s.tiHome ti) ti
    else s

/-- TIF_RING_HEAD_WRITE: the register stands on the doorbell page, where every requester that the POT admits writes as T
or H (R293). -/
def execTifRingHeadWrite (q : Requester) (ti : TiId) (v : Word) (s : State) : Out3 :=
  .next (s.withAccess q .write Cls.tif ti.val 0x1080 fun s => s.ringHead q ti.val (v.toNat % 2 ^ 32))

/-- TIF_COUNT_READ. -/
def execTifCountRead (q : Requester) (ti : TiId) (s : State) : Out3 :=
  .next (s.readCmd q Cls.tif ti.val Reg.TIF_COUNT.reg 0 id)

end Sys2Proof.Machine
end

