-- ==== Sys2Proof/Machine/Svc.lean ====
section
/-!
DEFINITION. Svc: loading and binding service images (R125 to R128).
-/
namespace Sys2Proof.Machine

/-- A core's or Tilth's access to memory as the SVC loader makes it for the writer of go. -/
def loaderReq (a : Actor) (c : Nat) : Requester :=
  let st := BitVec.ofNat 9 (clusterStop c)
  if a = .h then ⟨.hardpanWorld, .h, .hardpan, 0, halfOf (c / 8), st⟩
  else ⟨.topsoilCore, .t, .topsoil, 0, halfOf (c / 8), st⟩

/-- The pool of a cluster is bound to the slot. -/
def State.boundTo (s : State) (c p slot : Nat) : Bool :=
  s.rb Reg.SVC_POOL_IMG.bound c p && s.rf Reg.SVC_POOL_IMG.slot c p == slot

/-- Topsoil may load into the slot (R126). -/
def State.slotForT (s : State) (c slot : Nat) : Bool :=
  (match SMap.get none (s.cluster c).images slot with | none => true | some i => i.world == 0) &&
    !(List.range 32).any fun p => s.boundTo c p slot && !s.topsoilPool (c / 8) p

/-- Mark every member of the pools that `p` names stale; with none left to reload EV 0x050 follows at once (R127). -/
def State.markStale (s : State) (a : Actor) (c : Nat) (p : Nat → Bool) : State :=
  let s := s.updCluster c fun k => { k with reloadBy := a }
  let s := (List.range 64).foldl (fun s i =>
    let e := 64 * c + i
    if s.isMember e && p (s.poolOf e) then s.updEng e fun k => { k with stale := true } else s) s
  if s.reloadCount c = 0 then s.raise 0x050 (EvTo.ofActor a) (c / 8) c else s

/-- SVC_LOAD is written with go = 1 (R127 step 1). -/
def State.svcLoadGo (s : State) (a : Actor) (c v : Nat) : State :=
  let slot := Reg.SVC_LOAD.slot.of v
  if !Reg.SVC_LOAD.go.admits a then s
  else if (s.cluster c).load.isSome then s.setf Reg.SVC_LOAD.last_status c Status.busy
  else if a = .t && !s.slotForT c slot then s.setf Reg.SVC_LOAD.last_status c Status.denied
  else
    (s.setf Reg.SVC_LOAD.slot c slot).updCluster c fun k =>
      { k with load := some ⟨slot, s.rf Reg.SVC_LOAD_ADDR.addr c * 64, a⟩ }

/-- SVC_LOAD_GO. -/
def execSvcLoadGo (q : Requester) (c : ClusterId) (v : Word) (s : State) : Out3 :=
  .next (s.writeReg q Cls.svc c.val 0x140 v.toNat fun s => s.svcLoadGo q.actor c.val v.toNat)

/-- Read part of an image (R127 step 2): its bytes, or the status of the failure. Topsoil's source pages must be
Topsoil-owned (R126). -/
def State.loadBytes (s : State) (a : Actor) (c addr n : Nat) : Except Nat (List Byte) × State :=
  let q := loaderReq a c
  match s.readMem q .read addr n with
  | (.data bs false, s) =>
    if a = .t && (pagesOf addr n).any fun p => (s.potCheck q .read p).owner != 0 then (.error Status.denied, s)
    else (.ok bs, s)
  | (.data _ true, s) => (.error Status.poisoned, s)
  | (_, s) => (.error Status.ownership, s)

/-- A field of a header. -/
def hdrFld (h : List Byte) (off n : Nat) : Nat := ofLe ((h.drop off).take n)

/-- The service table's entries. -/
def hdrTable (h : List Byte) : List (Nat × Nat) :=
  (List.range 64).map fun i => (hdrFld h (0x20 + 4 * i) 2, hdrFld h (0x22 + 4 * i) 2)

def allZero (bs : List Byte) : Bool := bs.all (· == 0)

/-- No code appears twice. -/
def distinctCodes (l : List (Nat × Nat)) : Bool :=
  (List.range l.length).all fun i => !((l.drop (i + 1)).any fun p => p.1 == (l.getD i (0, 0)).1)

/-- The checks of R127 step 3 and the layout of R125: the image, or the status of the failure. A Topsoil load of an image of
another world is a refused action of R126. -/
def checkImage (a : Actor) (h body : List Byte) : Except Nat Image :=
  let world := hdrFld h 0xC 1
  let count := hdrFld h 0xD 1
  let len := hdrFld h 0xE 2
  let table := hdrTable h
  let svcs := table.take count
  let magic : List Byte := [0x47, 0x57, 0x53, 0x49, 0x4C, 0x54, 0x30, 0x31]
  if h.take 8 != magic || 2 < world || count = 0 || 64 < count || len % 4 != 0 || len < 4 || 8192 < len
      || !allZero ((h.drop 0x10).take 16) || !allZero ((h.drop 0x150).take 0xB0)
      || (svcs.any fun p => len ≤ p.2 || p.2 % 4 != 0) || ((table.drop count).any fun p => p != (0, 0))
      || !distinctCodes svcs || (Crypto.sha384 (body.map BitVec.toNat)) != ((h.drop 0x120).take 48).map BitVec.toNat
      || (world = 0 && svcs.any fun p => 1 ≤ p.1 && p.1 ≤ 0x7FFF) then .error Status.format
  else if a = .t && world != 0 then .error Status.denied
  else .ok ⟨hdrFld h 0x8 4, world, svcs, body⟩

/-- Steps 2 and 3 of R127. -/
def State.stageImage (s : State) (a : Actor) (c addr : Nat) : Except Nat Image × State :=
  match s.loadBytes a c addr 512 with
  | (.error st, s) => (.error st, s)
  | (.ok h, s) =>
    match s.loadBytes a c (addr + 512) (min 8192 (hdrFld h 0xE 2)) with
    | (.error st, s) => (.error st, s)
    | (.ok body, s) => (checkImage a h body, s)

/-- Step 4 of R127. -/
def State.installImage (s : State) (a : Actor) (c slot : Nat) (i : Image) : State :=
  let s := s.updCluster c fun k => { k with images := SMap.set none k.images slot (some i) }
  let s := (s.setf Reg.SVC_IMG.valid c 1 slot).setf Reg.SVC_IMG.world c i.world slot
  let s := (s.setf Reg.SVC_IMG.services c i.services.length slot).setf Reg.SVC_IMG.body_len c i.body.length slot
  let s := s.setf Reg.SVC_IMG.version c i.version slot
  s.markStale a c fun p => s.boundTo c p slot

/-- SVC_LOAD_STAGED: steps 2 to 4 of the load in progress. -/
def execSvcLoadStaged (c : ClusterId) (s : State) : Out3 :=
  match (s.cluster c.val).load with
  | none => .next s
  | some l =>
    let s := s.updCluster c.val fun k => { k with load := none }
    match s.stageImage l.actor c.val l.addr with
    | (.error st, s) =>
      .next ((s.setf Reg.SVC_LOAD.last_status c.val st).raise 0x051 (EvTo.ofActor l.actor) (c.val / 8) c.val)
    | (.ok i, s) => .next ((s.setf Reg.SVC_LOAD.last_status c.val 0).installImage l.actor c.val l.slot i)

/-- IRAM_RELOAD: a stale engine between tasks takes its pool's image (R127 step 5). -/
def execIramReload (e : EngineId) (s : State) : Out3 :=
  let k := s.eng e.val
  if !k.stale || k.task.isSome then .next s
  else
    let s := match s.boundImage (engCluster e.val) (s.poolOf e.val) with
      | some i => s.updEng e.val fun k => { k with iram := some i }
      | none => s
    .next (s.unstale e.val)

/-- The binding of a pool to a slot is permitted (R126). -/
def State.bindOk (s : State) (a : Actor) (c p v : Nat) : Bool :=
  let h := c / 8
  let img := SMap.get none (s.cluster c).images (Reg.SVC_POOL_IMG.slot.of v)
  (a != .t || s.topsoilPool h p) &&
    (Reg.SVC_POOL_IMG.bound.of v == 0 ||
      match img with
      | none => false
      | some i => i.world == 2 || (if a = .t then i.world == 0 else i.world == s.rf Reg.HPN_POOL.world h p))

/-- SVC_POOL_IMG is written. A binding that comes into force or changes its slot marks the pool's members stale. -/
def State.svcPoolImg (s : State) (a : Actor) (c p v : Nat) : State :=
  if !Reg.SVC_POOL_IMG.slot.admits a then s
  else if !s.bindOk a c p v then s.setf Reg.SVC_POOL_IMG.denied c 1 p
  else
    let slot := Reg.SVC_POOL_IMG.slot.of v
    let on := Reg.SVC_POOL_IMG.bound.of v
    let changed := on = 1 && !s.boundTo c p slot
    let s := ((s.setf Reg.SVC_POOL_IMG.slot c slot p).setf Reg.SVC_POOL_IMG.bound c on p).setf Reg.SVC_POOL_IMG.denied c 0 p
    if changed then s.markStale a c (· == p) else s

/-- SVC_POOL_IMG_WRITE. -/
def execSvcPoolImgWrite (q : Requester) (c : ClusterId) (p : Fin 32) (v : Word) (s : State) : Out3 :=
  .next (s.writeReg q Cls.svc c.val (0x200 + 8 * p.val) v.toNat fun s => s.svcPoolImg q.actor c.val p.val v.toNat)

end Sys2Proof.Machine
end

