-- ==== Sys2Proof/Machine/SvcPin.lean ====
section
/-!
DEFINITION. SvcPin: what the PIN, EMV, key-block and ISO 8583 services compute (R118 to R124). The layouts that R118, R120 and
R122 take from ISO 9564-1, ANSI X9.143 and EMV Book 2 without restating them are PRESUMED (log entry 27).
-/
namespace Sys2Proof.Machine.Crypto

/-! ## Nibbles -/

def nibs (l : List Nat) : List Nat := l.flatMap fun b => [b / 16, b % 16]

def packNibs : List Nat → List Nat
  | a :: b :: l => (a * 16 + b) :: packNibs l
  | _ => []

/-- The PAN of an inline operand: a count of 12 to 19 and packed BCD padded with 0xF (R118). -/
def panOf (count : Nat) (bcd : List Nat) : Option (List Nat) :=
  let n := nibs bcd
  if count < 12 || 19 < count || (n.take count).any (9 < ·) || (n.drop count).any (· != 0xF) then none
  else some (n.take count)

/-! ## PIN blocks (ISO 9564-1, R118, R119) -/

/-- The PAN block of formats 0 and 3: four zeros and the 12 rightmost digits without the check digit. -/
def panBlock8 (pan : List Nat) : List Nat :=
  let body := pan.dropLast
  let body := body.drop (body.length - 12)
  packNibs (List.replicate (16 - body.length) 0 ++ body)

/-- The PAN block of format 4: the length less 12, the digits and zeros. -/
def panBlock16 (pan : List Nat) : List Nat := packNibs (padTo 32 ((pan.length - 12) :: pan))

/-- The fill rule of a format. -/
def fillOk (fmt : Nat) (n : Nat) : Bool :=
  match fmt with | 0 => n == 0xF | 3 => 0xA ≤ n | 4 => n == 0xA | _ => true

/-- The PIN of a decrypted block: control field, length, digits and fill are checked (R119). -/
def pinOf (fmt : Nat) (field : List Nat) : Option (List Nat) :=
  let n := nibs (field.take 8)
  let len := at0 n 1
  let pin := (n.drop 2).take len
  if at0 n 0 != fmt || len < 4 || 12 < len || pin.any (9 < ·) || !((n.drop (2 + len)).all (fillOk fmt)) then none
  else some pin

/-- Decipher a PIN block. -/
def pinIn (fmt : Nat) (key blk : List Nat) (pan : List Nat) : List Nat :=
  match fmt with
  | 4 => aesDec key (xorList (aesDec key (blk.take 16)) (panBlock16 pan))
  | 1 => tdesDec key (blk.take 8)
  | _ => xorList (tdesDec key (blk.take 8)) (panBlock8 pan)

/-- Form and encipher a PIN block with the fill of R119. -/
def pinOut (fmt : Nat) (key pin pan seed : List Nat) : List Nat :=
  let n := 14 - pin.length
  let s := nibs seed
  let fill := match fmt with
    | 0 => List.replicate n 0xF
    | 1 => s.take n
    | 3 => (s.take n).map fun x => 0xA + x % 6
    | _ => List.replicate n 0xA
  let field := packNibs ([fmt, pin.length] ++ pin ++ fill)
  match fmt with
  | 4 => aesEnc key (xorList (aesEnc key (field ++ seed.take 8)) (panBlock16 pan))
  | 1 => tdesEnc key field
  | _ => tdesEnc key (xorList field (panBlock8 pan))

/-! ## EMV (EMV Book 2, R122) -/

/-- A byte with odd parity in its lowest bit. -/
def oddParity (b : Nat) : Nat :=
  let ones := ((List.range 7).filter fun i => b.testBit (i + 1)).length
  b / 2 * 2 + (if ones % 2 = 0 then 1 else 0)

/-- The rightmost `n` nibbles of a PAN with its sequence number, padded with zeros on the left. -/
def panSeq (n : Nat) (pan : List Nat) (psn : Nat) : List Nat :=
  let l := pan ++ nibs [psn]
  packNibs (List.replicate (n - l.length) 0 ++ l.drop (l.length - n))

/-- The card master key by option A (TDES) or the AES derivation. -/
def emvMaster (aes : Bool) (imk pan : List Nat) (psn : Nat) : List Nat :=
  if aes then
    let y := panSeq 32 pan psn
    if imk.length = 16 then aesEnc imk y
    else (aesEnc imk y ++ aesEnc imk (y.map (· ^^^ 0xFF))).take imk.length
  else
    let y := panSeq 16 pan psn
    (tdesEnc imk y ++ tdesEnc imk (y.map (· ^^^ 0xFF))).map oddParity

/-- The common session key of an ATC. -/
def emvSession (aes : Bool) (mk atc : List Nat) : List Nat :=
  if aes then
    if mk.length = 16 then aesEnc mk (padTo 16 atc)
    else (aesEnc mk (padTo 16 (atc ++ [0xF0])) ++ aesEnc mk (padTo 16 (atc ++ [0x0F]))).take mk.length
  else tdesEnc mk (padTo 8 (atc ++ [0xF0])) ++ tdesEnc mk (padTo 8 (atc ++ [0x0F]))

/-- The MAC of a session key. -/
def emvMac (aes : Bool) (sk msg : List Nat) : List Nat :=
  if aes then (cmac (aesEnc sk) 16 msg).take 8 else retailMac sk msg

/-- The response cryptogram of method 1. -/
def arpc1 (aes : Bool) (sk arqc arc : List Nat) : List Nat :=
  let y := xorList arqc (padTo 8 arc)
  if aes then (aesEnc sk (padTo 16 y)).take 8 else tdesEnc sk y

/-- The response cryptogram of method 2. -/
def arpc2 (aes : Bool) (sk arqc csu prop : List Nat) : List Nat := (emvMac aes sk (arqc ++ csu ++ prop)).take 4

/-! ## Key blocks (ANSI X9.143, R120, R121) -/

def asciiDigit (b : Nat) : Option Nat := if 0x30 ≤ b && b ≤ 0x39 then some (b - 0x30) else none

def asciiHex (b : Nat) : Option Nat :=
  if 0x30 ≤ b && b ≤ 0x39 then some (b - 0x30)
  else if 0x41 ≤ b && b ≤ 0x46 then some (b - 0x37)
  else if 0x61 ≤ b && b ≤ 0x66 then some (b - 0x57) else none

/-- The number that characters spell in a base. -/
def spell (base : Nat) (digit : Nat → Option Nat) (l : List Nat) : Option Nat :=
  l.foldl (fun n b => match n, digit b with | some n, some d => some (n * base + d) | _, _ => none) (some 0)

def hexDigit (n : Nat) : Nat := if n < 10 then 0x30 + n else 0x37 + n
def toHex (l : List Nat) : List Nat := (nibs l).map hexDigit

/-- The bytes that hexadecimal characters spell. -/
def ofHex (l : List Nat) : Option (List Nat) :=
  if l.length % 2 = 1 || (l.any fun b => (asciiHex b).isNone) then none
  else some (packNibs (l.map fun b => (asciiHex b).getD 0))

/-- Optional blocks: ID and data of each, with the length of all of them. -/
def optBlocks : Nat → List Nat → Option (List (List Nat × List Nat) × Nat)
  | 0, _ => some ([], 0)
  | n + 1, l =>
    match spell 16 asciiHex ((l.drop 2).take 2) with
    | none => none
    | some short =>
      let ext := if short = 0 then spell 16 asciiHex ((l.drop 4).take 2) else some 0
      match ext with
      | none => none
      | some w =>
        let len := if short = 0 then spell 16 asciiHex ((l.drop 6).take w) else some short
        let head := if short = 0 then 6 + w else 4
        match len with
        | none => none
        | some len =>
          if len < head || l.length < len then none
          else match optBlocks n (l.drop len) with
            | none => none
            | some (bs, used) => some ((l.take 2, (l.take len).drop head) :: bs, len + used)

/-- A key block's header: its 16 bytes, its optional blocks and its whole length. -/
structure KbHeader where
  fixed : List Nat
  opts : List (List Nat × List Nat)
  len : Nat

/-- Parse a header whose length characters are `want`; its length is a multiple of the cipher's block. -/
def kbHeader (bs : Nat) (l : List Nat) (want : Nat) : Option KbHeader :=
  if l.length < 16 || spell 10 asciiDigit ((l.drop 1).take 4) != some want then none
  else match spell 10 asciiDigit ((l.drop 12).take 2) with
    | none => none
    | some n =>
      match optBlocks n (l.drop 16) with
      | none => none
      | some (opts, used) => if (16 + used) % bs != 0 then none else some ⟨l.take 16, opts, 16 + used⟩

/-- The derived encryption (usage 0) or MAC (usage 1) key of a protection key. -/
def kbDerive (aes : Bool) (kbpk : List Nat) (usage : Nat) : List Nat :=
  let n := kbpk.length
  let bs := if aes then 16 else 8
  let enc := if aes then aesEnc kbpk else tdesEnc kbpk
  let alg := if aes then n / 8 else if n = 16 then 0 else 1
  ((List.range ((n + bs - 1) / bs)).flatMap fun i =>
    cmac enc bs ([i + 1] ++ bytesBe 2 usage ++ [0] ++ bytesBe 2 alg ++ bytesBe 2 (8 * n))).take n

/-- The MAC of a key block, over its header and its payload in clear. -/
def kbMac (aes : Bool) (kbpk head payload : List Nat) : List Nat :=
  let k := kbDerive aes kbpk 1
  cmac (if aes then aesEnc k else tdesEnc k) (if aes then 16 else 8) (head ++ payload)

/-- A payload: the key's length in bits, the key and padding. -/
def kbPayload (bs : Nat) (key seed : List Nat) : List Nat :=
  let p := bytesBe 2 (8 * key.length) ++ key
  p ++ seed.take ((bs - p.length % bs) % bs)

/-- What R120 does with a block. -/
inductive KbIn where
  | format | unsupported | verifyFail
  | ok (usage alg mode export_ : List Nat) (hmac : List Nat) (key : List Nat)

/-- Unwrap a key block under a protection key (R120). -/
def kbUnwrap (aes : Bool) (kbpk blk : List Nat) : KbIn :=
  let bs := if aes then 16 else 8
  let ver := at0 blk 0
  if ver != (if aes then 0x44 else 0x42) then .unsupported
  else match kbHeader bs blk blk.length with
    | none => .format
    | some h =>
      let body := blk.drop h.len
      match ofHex body with
      | none => .format
      | some raw =>
        let ct := raw.take (raw.length - bs)
        let mac := raw.drop (raw.length - bs)
        if raw.length < 2 * bs || ct.length % bs != 0 || !([0x45, 0x4E, 0x53].contains (at0 blk 11)) then .format
        else
          let ke := kbDerive aes kbpk 0
          let pt := cbcDec (if aes then aesDec ke else tdesDec ke) bs mac ct
          if kbMac aes kbpk (blk.take h.len) pt != mac then .verifyFail
          else
            let bits := natBe (pt.take 2)
            if bits % 8 != 0 || pt.length < 2 + bits / 8 then .format
            else .ok ((h.fixed.drop 5).take 2) ((h.fixed.drop 7).take 1) ((h.fixed.drop 8).take 1)
              ((h.fixed.drop 11).take 1) (((h.opts.find? fun o => o.1 == [0x48, 0x4D]).map (·.2)).getD [])
              ((pt.drop 2).take (bits / 8))

/-- Wrap a key under a protection key with a parsed header template (R121). -/
def kbWrap (aes : Bool) (kbpk template key seed : List Nat) : List Nat :=
  let bs := if aes then 16 else 8
  let pt := kbPayload bs key seed
  let total := template.length + 2 * pt.length + 2 * bs
  let head := template.take 1 ++ [hexDigit (total / 1000 % 10), hexDigit (total / 100 % 10), hexDigit (total / 10 % 10),
    hexDigit (total % 10)] ++ template.drop 5
  let mac := kbMac aes kbpk head pt
  let ke := kbDerive aes kbpk 0
  head ++ toHex (cbcEnc (if aes then aesEnc ke else tdesEnc ke) bs mac pt) ++ toHex mac

/-- The algorithm and material of an imported key: its letter and length, and for HMAC the hash of its HM block. -/
def kbAlg (alg hmac key : List Nat) : Option (Nat × List Nat) :=
  match alg, key.length with
  | [0x41], 16 => some (1, key)
  | [0x41], 24 => some (2, key)
  | [0x41], 32 => some (3, key)
  | [0x54], 16 => some (4, key)
  | [0x54], 24 => some (5, key)
  | [0x48], n =>
    if hmac = [0x32, 0x31] then some (6, if 64 < n then sha256 key else key)
    else if hmac = [0x32, 0x32] then some (7, if 128 < n then sha384 key else key)
    else none
  | _, _ => none

/-- The attribute algorithm of an RSA or ECC key block, its rsa_bytes and the image of R492. X9.143's coding of that material is
opaque (log entry 258); what it gives is taken where the custody unit can represent it. -/
def kbAsym (alg key : List Nat) : Option (Nat × Nat × List Nat) :=
  if alg != [0x45] && alg != [0x52] then none
  else match Config.kbMaterial (at0 alg 0) key with
    | none => none
    | some (a, n, img) =>
      if (if alg == [0x45] then 8 ≤ a && a ≤ 13 else a == 14 || a == 15) && n ≤ 256 then some (a, n, img) else none

/-- A key pair's usage for a signature: S for a private key, V for a public one. -/
def kbSign (priv : Bool) (mode : Nat) : Option Nat :=
  if priv then (if mode = 0x4E || mode = 0x53 then some 2 else none)
  else if mode = 0x4E || mode = 0x56 then some 1 else none

/-- The usage bit of a header's key usage with its mode of use; none where the custody unit has no such attribute. `sign` gives it
for the key usages of a signature key pair, S0 to S2. -/
def kbUsage (sign : Option Nat) (usage mode : List Nat) : Option Nat :=
  let m := at0 mode 0
  let any := m == 0x4E
  match usage with
  | [0x53, 0x30] => sign
  | [0x53, 0x31] => sign
  | [0x53, 0x32] => sign
  | [0x44, 0x30] => if any || m == 0x42 then some 8 else none
  | [0x50, 0x30] => if any || m == 0x42 then some 16 else none
  | [0x4B, 0x30] => if any || m == 0x42 then some 32 else none
  | [0x4B, 0x31] => if any || m == 0x42 then some 32 else none
  | [0x45, 0x30] => if any || m == 0x58 then some 128 else none
  | [0x4D, 0x33] => if any || m == 0x43 then some 4 else none
  | [0x4D, 0x36] => if any || m == 0x43 then some 4 else none
  | [0x4D, 0x37] => if any || m == 0x43 then some 4 else none
  | _ => none

/-! ## ISO 8583 (R123, R124) -/

/-- A field's value: decimal digits of a numeric field, or bytes. -/
inductive IsoVal where
  | digits (l : List Nat)
  | bytes (l : List Nat)
deriving DecidableEq, Repr

/-- The digits of a number, most significant first. -/
def decDigits (k n : Nat) : List Nat := ((List.range k).map fun i => n / 10 ^ i % 10).reverse

/-- A field definition: its encoding and maximum. -/
structure IsoDef where
  enc : Nat
  max : Nat
deriving DecidableEq, Repr

/-- The definitions of a table from an offset. -/
def isoDef (table : List Nat) (off f : Nat) : IsoDef :=
  let v := natLe ((table.drop (off + 2 * (f - 1))).take 2)
  ⟨v % 16, v / 16⟩

/-- The BCD number in bytes. -/
def bcdNum (l : List Nat) : Option Nat := spell 10 (fun d => if d ≤ 9 then some d else none) (nibs l)

/-- Read one field: its value and what follows; none for FORMAT. -/
def isoRead (d : IsoDef) (l : List Nat) : Option (IsoVal × List Nat) :=
  let var := fun (head : Nat) (len : Option Nat) =>
    match len with
    | none => none
    | some n => if d.max < n || l.length < head + n then none
                else some (IsoVal.bytes ((l.drop head).take n), l.drop (head + n))
  match d.enc with
  | 1 =>
    let k := (d.max + 1) / 2
    let ds := nibs (l.take k)
    if l.length < k || ds.any (9 < ·) then none else some (.digits (ds.drop (2 * k - d.max)), l.drop k)
  | 2 => if l.length < d.max then none else some (.bytes (l.take d.max), l.drop d.max)
  | 3 => if l.length < 2 then none else var 2 (spell 10 asciiDigit (l.take 2))
  | 4 => if l.length < 3 then none else var 3 (spell 10 asciiDigit (l.take 3))
  | 5 => if l.length < 1 then none else var 1 (bcdNum (l.take 1))
  | 6 => if l.length < 2 then none else var 2 (bcdNum (l.take 2))
  | _ => none

/-- Read the fields listed, in order. -/
def isoFields (table : List Nat) : List Nat → List Nat → Option (List (Nat × IsoVal))
  | [], _ => some []
  | f :: fs, l =>
    match isoRead (isoDef table 0x10 f) l with
    | none => none
    | some (v, rest) => (isoFields table fs rest).map fun vs => (f, v) :: vs

/-- The fields a bitmap names, from field `base`. -/
def bitmapFields (base : Nat) (l : List Nat) : List Nat :=
  (List.range 64).filterMap fun i => if (at0 l (i / 8)).testBit (7 - i % 8) then some (base + i) else none

/-- Parse a message: its MTI and fields (R123). -/
def isoParse (table msg : List Nat) : Option (List Nat × List (Nat × IsoVal)) :=
  let p := bitmapFields 1 ((msg.drop 4).take 8)
  let two := p.contains 1
  let head := if two then 20 else 12
  if msg.length < head then none
  else
    let s := if two then bitmapFields 65 ((msg.drop 12).take 8) else []
    (isoFields table (p.filter (· != 1) ++ s) (msg.drop head)).map fun fs => (msg.take 4, fs)

/-- Encode a value as a destination field; `cut` truncates it (R124). -/
def isoWrite (f : Nat) (d : IsoDef) (cut : Bool) (v : IsoVal) : Option (List Nat) :=
  if d.enc = 1 then
    let ds := match v with
      | .digits l => some l
      | .bytes l => if l.any fun b => (asciiDigit b).isNone then none else some (l.map (· - 0x30))
    match ds with
    | none => none
    | some l =>
      let l := if cut then l.take d.max else l
      if d.max < l.length then none
      else
        let k := (d.max + 1) / 2 * 2
        some (packNibs (List.replicate (k - l.length) 0 ++ l))
  else
    let bs := match v with | .digits l => l.map (· + 0x30) | .bytes l => l
    let bs := if cut then bs.take d.max else bs
    let n := bs.length
    if d.max < n then none
    else match d.enc with
      | 2 => some (bs ++ (List.range (d.max - n)).map fun i => Config.remapFill f (n + i) % 256)
      | 3 => if 99 < n then none else some ((decDigits 2 n).map (· + 0x30) ++ bs)
      | 4 => if 999 < n then none else some ((decDigits 3 n).map (· + 0x30) ++ bs)
      | 5 => if 99 < n then none else some (packNibs (decDigits 2 n) ++ bs)
      | 6 => if 9999 < n then none else some (packNibs (decDigits 4 n) ++ bs)
      | _ => none

/-- Entry `i` of a constant pool. -/
def poolEntry : Nat → List Nat → Option (List Nat)
  | _, [] => none
  | 0, n :: l => if l.length < n then none else some (l.take n)
  | i + 1, n :: l => if l.length < n then none else poolEntry i (l.drop n)

/-- Put a destination field in place of an earlier one. -/
def putField (out : List (Nat × List Nat)) (dst : Nat) (v : List Nat) : List (Nat × List Nat) :=
  out.filter (·.1 < dst) ++ (dst, v) :: out.filter (dst < ·.1)

/-- Apply a rule (R124). A rule that names an absent source field has no effect, CONST included; one whose `src` is no field number
names none. A destination that is no field of the message ends with FORMAT (log entry 259). -/
def isoRule (table pool : List Nat) (fields : List (Nat × IsoVal)) (r : Nat) (out : List (Nat × List Nat)) :
    Option (List (Nat × List Nat)) :=
  let src := r % 256
  let dst := r / 256 % 256
  let op := r / 65536 % 256
  let d := isoDef table 0x110 dst
  let place := fun (cut : Bool) (v : IsoVal) => (isoWrite dst d cut v).map (putField out dst)
  let found := fields.find? (·.1 == src)
  let bad := decide (dst < 2) || decide (128 < dst)
  match op, found with
  | 1, _ =>
    match poolEntry (r / 16777216 % 256) pool with
    | none => none
    | some c =>
      if found.isNone && 1 ≤ src && src ≤ 128 then some out
      else if bad then none else place false (.bytes c)
  | _, none => some out
  | 0, some (_, v) => if bad then none else place false v
  | 2, some (_, v) => if bad then none else place true v
  | 3, some _ => some (out.filter (·.1 != dst))
  | _, some _ => none

/-- Apply rules in table order. -/
def isoRules (table pool : List Nat) (fields : List (Nat × IsoVal)) :
    List Nat → List (Nat × List Nat) → Option (List (Nat × List Nat))
  | [], out => some out
  | r :: rs, out =>
    match isoRule table pool fields r out with
    | none => none
    | some out => isoRules table pool fields rs out

/-- The bitmap of the fields from `base`. -/
def bitmapOf (base : Nat) (fs : List Nat) : List Nat :=
  (List.range 8).map fun i => (List.range 8).foldl (fun n j => n + (if fs.contains (base + 8 * i + j) then 2 ^ (7 - j) else 0)) 0

/-- ISO8583_REMAP: the message rewritten, or none for FORMAT. -/
def isoRemap (table msg : List Nat) : Option (List Nat) :=
  let count := natLe ((table.drop 4).take 2)
  let clen := natLe ((table.drop 6).take 2)
  if table.take 4 != [0x47, 0x57, 0x52, 0x4D] || 128 < count || table.length != 0x210 + 4 * count + clen then none
  else
    match isoParse table msg with
    | none => none
    | some (mti, fields) =>
      let rules := (List.range count).map fun i => natLe ((table.drop (0x210 + 4 * i)).take 4)
      match isoRules table (table.drop (0x210 + 4 * count)) fields rules [] with
      | none => none
      | some out =>
        let fs := out.map Prod.fst
        let two := fs.any (64 < ·)
        some (mti ++ bitmapOf 1 (if two then 1 :: fs.filter (· ≤ 64) else fs) ++ (if two then bitmapOf 65 fs else []) ++
          out.flatMap Prod.snd)

end Sys2Proof.Machine.Crypto
end

