-- ==== Sys2Proof/Machine/Services.lean ====
section
/-!
DEFINITION. Services: the catalogue services (R108 to R124). A command runs the whole program of the task from its first
instruction to its DONE. The order of the checks whose order the spec does not give is: param, lengths, keys, buffers,
contents (DESIGN CHOICE, log entry 28).
-/
namespace Sys2Proof.Machine
open Crypto

/-! ## The frame of a service -/

def Entry.paramBit (d : Entry) (i : Nat) : Bool := d.param.testBit i
/-- Inline bytes by their offset in the descriptor. -/
def Entry.inline (d : Entry) (off n : Nat) : List Nat := d.inls off n

def natBytes (l : List Byte) : List Nat := l.map BitVec.toNat
def toBytes (l : List Nat) : List Byte := l.map (BitVec.ofNat 8)

/-- Run `f` on the task of an engine that stands before the first instruction of service `code`. -/
def State.svcCmd (s : State) (e : EngineId) (code : Nat) (f : Task → State → State) : Out3 :=
  let k := s.eng e.val
  match k.task, k.iram with
  | some t, some i =>
    if s.sltReady e.val && t.entry.service == code && i.entryOf code == some k.pc then .next (f t s) else .next s
  | _, _ => .next s

/-- DONE with a status and no output. -/
def State.svcEnd (s : State) (e st : Nat) : State := s.sltEnd e st 0

/-- Load a key (R40): a refusal is KLD's fault; a key without the usage or of another kind ends with KEY_DENIED. -/
def State.svcKey (s : State) (e : Nat) (t : Task) (handle letter : Nat) (fit : Nat → Bool) (f : KeyObj → State) : State :=
  match s.keyCheck e t handle 0 with
  | .error c => s.sltFault e c
  | .ok o =>
    if s.keyPoisoned handle then s.sltFault e SFault.poison
    else if attrUsage o.attr &&& letter == 0 || !fit o.attr then s.svcEnd e Status.keyDenied else f o

/-- A key's algorithm is one of these. -/
def algIn (l : List Nat) (attr : Nat) : Bool := l.contains (attrAlg attr)

/-- `n` bytes of a key's image from an offset (R492). -/
def KeyObj.bytes (o : KeyObj) (off n : Nat) : List Nat := padTo n (natBytes ((o.image.drop off).take n))
def KeyObj.num (o : KeyObj) (off n : Nat) : Nat := natLe (o.bytes off n)
/-- The key of a cipher or MAC. -/
def KeyObj.secret (o : KeyObj) : List Nat := o.bytes 0 (algBytes (attrAlg o.attr))

/-- The pages of a buffer lie in memory and not in device space. -/
def State.noDevice (s : State) (a n : Nat) : Bool :=
  (pagesOf a n).all fun p => match s.region p with | .pcie _ => false | .drs => false | _ => true

/-- Read a buffer with the task's rights (R43, R64). -/
def State.svcRead (s : State) (e a n : Nat) (f : List Nat → State → State) : State :=
  if n = 0 then f [] s
  else if !s.noDevice a n then s.sltFault e SFault.deviceSpace
  else match s.readMem (s.engReq e) .read a n with
    | (.data bs false, s) => f (natBytes bs) s
    | (.data _ true, s) => (s.sltConsume e a).sltFault e SFault.poison
    | (.unmapped, s) => s.sltFault e SFault.unmapped
    | (.refused, s) => s.sltFault e SFault.potDenied

/-- Read `in`, then `aux`. -/
def State.svcBufs (s : State) (e : Nat) (t : Task) (f : List Nat → List Nat → State → State) : State :=
  s.svcRead e t.entry.inAddr t.entry.inLen fun inb s => s.svcRead e t.entry.auxAddr t.entry.auxLen fun aux s => f inb aux s

/-- Write the output at the start of `out` and end with OK and the number of bytes written (R111, R112). -/
def State.svcOut (s : State) (e : Nat) (t : Task) (out : List Nat) : State :=
  if out.isEmpty then s.sltEnd e Status.ok 0
  else
    let a := t.entry.outAddr
    if !s.noDevice a out.length then s.sltFault e SFault.deviceSpace
    else match s.writeMem (s.engReq e) a (toBytes out) with
      | (.data _ _, s) => s.sltEnd e Status.ok out.length
      | (.unmapped, s) => s.sltFault e SFault.unmapped
      | (.refused, s) => s.sltFault e SFault.potDenied

/-- OK, or VERIFY_FAIL. -/
def State.svcVerdict (s : State) (e : Nat) (ok : Bool) : State := s.svcEnd e (if ok then Status.ok else Status.verifyFail)

/-! ## Signatures (R114) -/

/-- The digest of the input: itself when param[0] = 1. -/
def digestOf (t : Task) (h : Hash) (inb : List Nat) : List Nat := if t.entry.paramBit 0 then inb else h.fn inb

/-- With param[0] = 1 the input has the digest's length. -/
def digestLenOk (t : Task) (h : Hash) : Bool := !t.entry.paramBit 0 || t.entry.inLen == h.len

/-- ECDSA verification with key1, or with the point in aux. -/
def State.svcEcdsaVerify (s : State) (e : Nat) (c : Curve) (algs : List Nat) (t : Task) : State :=
  let n := c.size
  let check := fun (qx qy : Nat) (inb aux : List Nat) (s : State) =>
    if !c.onCurve qx qy then s.svcEnd e Status.format
    else s.svcVerdict e (c.verify qx qy (digestOf t c.hash inb) (aux.take (2 * n)))
  if !digestLenOk t c.hash then s.svcEnd e Status.length
  else if t.entry.key1 = 0 then
    s.svcBufs e t fun inb aux s => check (natBe ((aux.drop (2 * n)).take n)) (natBe (aux.drop (3 * n))) inb aux s
  else s.svcKey e t t.entry.key1 1 (algIn algs) fun o =>
    s.svcBufs e t fun inb aux s => check (o.num 0 n) (o.num n n) inb aux s

/-- ECDSA signing; a scalar outside [1, n − 1] does not fit the service. -/
def State.svcEcdsaSign (s : State) (e : Nat) (c : Curve) (alg : Nat) (t : Task) : State :=
  if !digestLenOk t c.hash then s.svcEnd e Status.length
  else s.svcKey e t t.entry.key1 2 (algIn [alg]) fun o =>
    let d := o.num 0 c.size
    if d = 0 || c.n ≤ d then s.svcEnd e Status.keyDenied
    else s.svcBufs e t fun inb _ s => s.svcOut e t (c.sign d (digestOf t c.hash inb))

def execEcdsaP256Verify (e : EngineId) (s : State) : Out3 :=
  s.svcCmd e 0x0101 fun t s => s.svcEcdsaVerify e.val p256 [9] t
def execEcdsaP256Sign (e : EngineId) (s : State) : Out3 :=
  s.svcCmd e 0x0102 fun t s => s.svcEcdsaSign e.val p256 8 t
def execEcdsaP384Verify (e : EngineId) (s : State) : Out3 :=
  s.svcCmd e 0x0103 fun t s => s.svcEcdsaVerify e.val p384 [11, 16] t
def execEcdsaP384Sign (e : EngineId) (s : State) : Out3 :=
  s.svcCmd e 0x0104 fun t s => s.svcEcdsaSign e.val p384 10 t

/-- Ed25519 verification. -/
def State.svcEdVerify (s : State) (e : Nat) (t : Task) : State :=
  let check := fun (pub inb aux : List Nat) (s : State) =>
    match edDecode pub with
    | none => s.svcEnd e Status.format
    | some a => s.svcVerdict e (edVerify pub a inb (aux.take 64))
  if t.entry.param != 0 then s.svcEnd e Status.badDesc
  else if t.entry.key1 = 0 then s.svcBufs e t fun inb aux s => check (aux.drop 64) inb aux s
  else s.svcKey e t t.entry.key1 1 (algIn [13]) fun o => s.svcBufs e t fun inb aux s => check (o.bytes 0 32) inb aux s

def execEd25519Verify (e : EngineId) (s : State) : Out3 := s.svcCmd e 0x0105 fun t s => s.svcEdVerify e.val t

def execEd25519Sign (e : EngineId) (s : State) : Out3 := s.svcCmd e 0x0106 fun t s =>
  if t.entry.param != 0 then s.svcEnd e.val Status.badDesc
  else s.svcKey e.val t t.entry.key1 2 (algIn [12]) fun o =>
    s.svcBufs e.val t fun inb _ s => s.svcOut e.val t (edSign (o.bytes 0 32) inb)

/-- The hash that param[3:2] names. -/
def rsaHash (t : Task) : Option Hash :=
  match bitsOf t.entry.param 3 2 with | 0 => some hSha256 | 1 => some hSha384 | 2 => some hSha512 | _ => none

/-- A modulus of `k` bytes is odd and has its highest bit set. -/
def modulusBits (n k : Nat) : Bool := 2 ^ (8 * k - 1) ≤ n && n < 2 ^ (8 * k)

/-- What an RSA signature encodes is right for a digest. -/
def rsaEncodes (t : Task) (h : Hash) (k : Nat) (digest em : List Nat) : Bool :=
  if t.entry.paramBit 1 then pssVerify h k digest em (t.entry.inl 0x48) else em == pkcs1 h k digest

/-- Verify an RSA signature under a modulus of `k` bytes. An aux of another length than the modulus holds a malformed signature:
VERIFY_FAIL (DEDUCED, log entry 255). -/
def State.svcRsaCheck (s : State) (e : Nat) (t : Task) (h : Hash) (n k : Nat) (inb sig : List Nat) : State :=
  if !modulusBits n k then s.svcEnd e Status.keyDenied
  else if n % 2 = 0 then s.svcEnd e Status.format
  else
    let m := natBe sig
    s.svcVerdict e (sig.length == k && m < n && rsaEncodes t h k (digestOf t h inb) (bytesBe k (powMod m 65537 n)))

/-- The checks of an RSA service before its key: the hash, the salt length and the digest's length. -/
def State.svcRsaPre (s : State) (e : Nat) (t : Task) (f : Hash → State) : State :=
  match rsaHash t with
  | none => s.svcEnd e Status.badDesc
  | some h =>
    if t.entry.paramBit 1 && h.len < t.entry.inl 0x48 then s.svcEnd e Status.badDesc
    else if !digestLenOk t h then s.svcEnd e Status.length
    else f h

def execRsaVerify (e : EngineId) (s : State) : Out3 := s.svcCmd e 0x0107 fun t s =>
  s.svcRsaPre e.val t fun h =>
    if t.entry.key1 = 0 then
      if t.entry.auxLen % 2 = 1 then s.svcEnd e.val Status.length
      else
        let k := t.entry.auxLen / 2
        s.svcBufs e.val t fun inb aux s => s.svcRsaCheck e.val t h (natBe (aux.drop k)) k inb (aux.take k)
    else s.svcKey e.val t t.entry.key1 1 (algIn [15]) fun o =>
      let k := attrRsaBytes o.attr
      s.svcBufs e.val t fun inb aux s => s.svcRsaCheck e.val t h (o.num 0 k) k inb aux

/-- The salt of a PSS signature: inline 0x49 onwards; what lies past the descriptor is free (log entry 29). -/
def pssSalt (t : Task) : List Nat :=
  (List.range (t.entry.inl 0x48)).map fun i =>
    if 0x49 + i < 128 then t.entry.inl (0x49 + i) else Config.pastDescriptor (0x49 + i) % 256

/-- RSA signing (R114). A result that its own check rejects is not released; the status then is a free choice among
those a service may end with (log entry 29). -/
def State.svcRsaSign (s : State) (e : Nat) (t : Task) (h : Hash) (o : KeyObj) : State :=
  let k := attrRsaBytes o.attr
  let g := (8 * k + 511) / 512 * 32
  let p := o.num 0 g
  let q := o.num g g
  if t.entry.outLen < k then s.svcEnd e Status.length
  else if !modulusBits (p * q) k then s.svcEnd e Status.keyDenied
  else s.svcBufs e t fun inb _ s =>
    let digest := digestOf t h inb
    let em := if t.entry.paramBit 1 then pssEncode h k digest (pssSalt t) else pkcs1 h k digest
    let (sig, good) := rsaCrt p q (o.num (2 * g) g) (o.num (3 * g) g) (natBe em)
    if good then s.svcOut e t (bytesBe k sig)
    else
      let (v, s) := s.drawFree
      s.svcEnd e ([Status.verifyFail, Status.badDesc, Status.keyDenied, Status.length, Status.format,
        Status.unsupported].getD (v % 6) Status.verifyFail)

def execRsaSign (e : EngineId) (s : State) : Out3 := s.svcCmd e 0x0108 fun t s =>
  s.svcRsaPre e.val t fun h => s.svcKey e.val t t.entry.key1 2 (algIn [14]) fun o => s.svcRsaSign e.val t h o

/-! ## MACs, ciphers and hashes (R115 to R117) -/

/-- A MAC service: the algorithms of its keys, its full and shortest tag lengths and the MAC. -/
def State.svcMac (s : State) (e : Nat) (algs : List Nat) (full low : Nat) (mac : List Nat → List Nat → List Nat)
    (t : Task) : State :=
  let p := bitsOf t.entry.param 15 8
  let n := if p = 0 then full else p
  let verify := t.entry.paramBit 0
  if n < low || full < n then s.svcEnd e Status.badDesc
  else if (if verify then t.entry.outLen != 0 else t.entry.outLen < n) then s.svcEnd e Status.length
  else s.svcKey e t t.entry.key1 4 (algIn algs) fun o =>
    s.svcBufs e t fun inb _ s =>
      let tag := (mac o.secret inb).take n
      if verify then s.svcVerdict e (tag == t.entry.inline 0x48 n) else s.svcOut e t tag

def execHmacSha256 (e : EngineId) (s : State) : Out3 :=
  s.svcCmd e 0x0201 fun t s => s.svcMac e.val [6] 32 16 (hmac hSha256) t
def execHmacSha384 (e : EngineId) (s : State) : Out3 :=
  s.svcCmd e 0x0202 fun t s => s.svcMac e.val [7] 48 24 (hmac hSha384) t
def execAesCmac (e : EngineId) (s : State) : Out3 :=
  s.svcCmd e 0x0203 fun t s => s.svcMac e.val [1, 2, 3] 16 8 (fun k m => cmac (aesEnc k) 16 m) t

/-- AES_GCM (R116). -/
def State.svcGcm (s : State) (e : Nat) (t : Task) : State :=
  let p := bitsOf t.entry.param 15 8
  let n := if p = 0 then 16 else p
  let dec := t.entry.paramBit 0
  let iv := t.entry.inline 0x48 12
  let need := if dec then t.entry.inLen - n else t.entry.inLen + n
  if n < 12 || 16 < n then s.svcEnd e Status.badDesc
  else if (dec && t.entry.inLen < n) || t.entry.outLen < need then s.svcEnd e Status.length
  else s.svcKey e t t.entry.key1 8 (algIn [1, 2, 3]) fun o =>
    s.svcBufs e t fun inb aux s =>
      let k := o.secret
      if dec then
        let ct := inb.take (inb.length - n)
        if (gcmTag k iv aux ct).take n == inb.drop (inb.length - n) then s.svcOut e t (gcmCtr k iv ct)
        else s.svcEnd e Status.verifyFail
      else
        let ct := gcmCtr k iv inb
        s.svcOut e t (ct ++ (gcmTag k iv aux ct).take n)

def execAesGcm (e : EngineId) (s : State) : Out3 := s.svcCmd e 0x0301 fun t s => s.svcGcm e.val t

/-- A CBC service with blocks of `bs` bytes. -/
def State.svcCbc (s : State) (e : Nat) (bs : Nat) (fit : Nat → Bool) (enc dec : List Nat → List Nat → List Nat)
    (t : Task) : State :=
  let iv := t.entry.inline 0x48 bs
  if t.entry.inLen % bs != 0 then s.svcEnd e Status.length
  else s.svcKey e t t.entry.key1 8 fit fun o =>
    s.svcBufs e t fun inb _ s =>
      s.svcOut e t (if t.entry.paramBit 0 then cbcDec (dec o.secret) bs iv inb else cbcEnc (enc o.secret) bs iv inb)

def execAesCbc (e : EngineId) (s : State) : Out3 :=
  s.svcCmd e 0x0302 fun t s => s.svcCbc e.val 16 (algIn [1, 2, 3]) aesEnc aesDec t
def execTdesCbc (e : EngineId) (s : State) : Out3 :=
  s.svcCmd e 0x0303 fun t s => s.svcCbc e.val 8 (fun a => algIn [4, 5] a && attrLegacy a) tdesEnc tdesDec t

/-- The digest that param[3:0] of HASH selects, with its length. -/
def hashOf (n : Nat) : Option ((List Nat → List Nat) × Nat) :=
  match n with
  | 0 => some (sha224, 28) | 1 => some (sha256, 32) | 2 => some (sha384, 48) | 3 => some (sha512, 64)
  | 4 => some (sha3_256, 32) | 5 => some (sha3_384, 48) | 6 => some (sha3_512, 64)
  | _ => none

def execHash (e : EngineId) (s : State) : Out3 := s.svcCmd e 0x0401 fun t s =>
  match hashOf (t.entry.param % 16) with
  | none => s.svcEnd e.val Status.badDesc
  | some (f, n) =>
    if t.entry.outLen < n then s.svcEnd e.val Status.length
    else s.svcBufs e.val t fun inb _ s => s.svcOut e.val t (f inb)

/-! ## PIN_TRANSLATE (R118, R119) -/

def pinFormat (n : Nat) : Bool := n == 0 || n == 1 || n == 3 || n == 4
def pinAlgs (fmt : Nat) : List Nat := if fmt = 4 then [1, 2, 3] else [4, 5]

def State.svcPin (s : State) (e : Nat) (t : Task) : State :=
  let src := t.entry.param % 16
  let dst := t.entry.param / 16 % 16
  let pan := if src = 1 && dst = 1 then some [] else panOf (t.entry.inl 0x58) (t.entry.inline 0x59 10)
  if !pinFormat src || !pinFormat dst then s.svcEnd e Status.badDesc
  else if dst = 4 && t.entry.outLen < 16 then s.svcEnd e Status.length
  else s.svcKey e t t.entry.key1 16 (algIn (pinAlgs src)) fun k1 =>
    s.svcKey e t t.entry.key2 16 (algIn (pinAlgs dst)) fun k2 =>
      if dst = 1 && src != 1 then s.svcEnd e Status.format
      else match pan with
        | none => s.svcEnd e Status.format
        | some pan =>
          match pinOf src (pinIn src k1.secret (t.entry.inline 0x48 16) pan) with
          | none => s.svcEnd e Status.format
          | some pin => s.svcOut e t (pinOut dst k2.secret pin pan (t.entry.inline 0x68 16))

def execPinTranslate (e : EngineId) (s : State) : Out3 := s.svcCmd e 0x0501 fun t s => s.svcPin e.val t

/-! ## Key blocks (R120, R121) -/

/-- The unit writes an object's 4 KiB slot at HPN_STORE_BASE + 4096·k anew, in Hardpan world at the primary's H stop (R154). How it
seals an object is not given: the bytes are free (log entry 80). -/
def State.sealSlot (s : State) (k : Nat) : State :=
  let h := s.sys.primary
  let (r, s) := s.drawFree
  (s.writeMem (hwReq h (hStop h.val)) (s.rf Reg.HPN_STORE_BASE.base h.val * 4096 + 4096 * k)
    ((List.range 4096).map (Config.slotByte r))).2

/-- Put an object in key custody, or take it out. -/
def State.setObj (s : State) (k : Nat) (o : Option KeyObj) : State :=
  { s with custody := { s.custody with objs := SMap.set none s.custody.objs k o } }.sealSlot k

/-- A protection key of the catalogue: AES for version D, TDES for version B. -/
def kbAes (o : KeyObj) : Bool := attrAlg o.attr ≤ 3

/-- The reserved and still empty object that key2 names for the task's tenant. -/
def State.kbTarget (s : State) (t : Task) : Option KeyObj :=
  match s.keyObj t.entry.key2 with
  | some o =>
    if attrAlg o.attr = 0 && attrTenant o.attr = t.tenant && t.entry.key2 / 2 ^ 32 = 0 then some o else none
  | none => none

def State.svcImport (s : State) (e : Nat) (t : Task) : State :=
  s.svcKey e t t.entry.key1 32 (algIn [1, 2, 3, 4, 5]) fun o =>
    s.svcBufs e t fun inb _ s =>
      match kbUnwrap (kbAes o) o.secret inb with
      | .format => s.svcEnd e Status.format
      | .unsupported => s.svcEnd e Status.unsupported
      | .verifyFail => s.svcEnd e Status.verifyFail
      | .ok usage alg mode ex hm key =>
        let asym := kbAsym alg key
        let sign := asym.bind fun x => kbSign (x.1 % 2 == 0) (at0 mode 0)
        match kbUsage sign usage mode, (match asym with | some x => some x | none => (kbAlg alg hm key).map fun x => (x.1, 0, x.2)) with
        | some u, some (a, n, mat) =>
          if asym.isSome != sign.isSome || (asym.isSome && at0 usage 0 != 0x53) then s.svcEnd e Status.unsupported else
          match s.kbTarget t with
          | none => s.svcEnd e Status.keyDenied
          | some r =>
            let flags := Config.importFlags (natBe (inb.take 16)) % 4
            let x := if ex == [0x4E] then 0 else 64
            let attr := a + (u + x) * 2 ^ 16 + flags * 2 ^ 24 + attrTenant r.attr * 2 ^ 26 + n * 2 ^ 39
            let image := toBytes (padTo (32 * algParts attr) mat)
            (s.setObj (t.entry.key2 % 2 ^ 32) (some ⟨attr, 1, image, none⟩)).sltEnd e Status.ok
              (t.entry.key2 % 2 ^ 32 + 2 ^ 32)
        | _, _ => s.svcEnd e Status.unsupported

def execKeyblockImport (e : EngineId) (s : State) : Out3 := s.svcCmd e 0x0601 fun t s => s.svcImport e.val t

/-- The key data of a block that carries this object: an RSA or ECC key's is X9.143's (log entry 258). -/
def KeyObj.blockData (o : KeyObj) : List Nat :=
  if attrAlg o.attr ≤ 7 then o.secret else (Config.kbData o.attr (natBytes o.image)).map (· % 256)

/-- KEYBLOCK_EXPORT. A template of another version than key1's algorithm or with a length field that is not zeros is malformed:
FORMAT (DESIGN CHOICE, log entry 256). -/
def State.svcExport (s : State) (e : Nat) (t : Task) : State :=
  s.svcKey e t t.entry.key1 32 (algIn [1, 2, 3, 4, 5]) fun k1 =>
    s.svcKey e t t.entry.key2 64 (fun _ => true) fun k2 =>
      s.svcBufs e t fun inb _ s =>
        let aes := kbAes k1
        let bs := if aes then 16 else 8
        match kbHeader bs inb 0 with
        | none => s.svcEnd e Status.format
        | some h =>
          if h.len != inb.length || at0 inb 0 != (if aes then 0x44 else 0x42) then s.svcEnd e Status.format
          else
            let out := kbWrap aes k1.secret inb k2.blockData (t.entry.inline 0x48 16)
            if t.entry.outLen < out.length then s.svcEnd e Status.length else s.svcOut e t out

def execKeyblockExport (e : EngineId) (s : State) : Out3 := s.svcCmd e 0x0602 fun t s => s.svcExport e.val t

/-! ## EMV_ARQC (R122) -/

/-- EMV_ARQC. A malformed PAN ends with FORMAT, as in R118, and a proprietary data length above 8 with BAD_DESC: R122 gives no
status for them (DESIGN CHOICE, log entry 257). -/
def State.svcArqc (s : State) (e : Nat) (t : Task) : State :=
  let aes := t.entry.paramBit 0
  let sel := bitsOf t.entry.param 5 4
  let prop := t.entry.inl 0x64
  if sel = 3 then s.svcEnd e Status.badDesc
  else if sel = 2 && 8 < prop then s.svcEnd e Status.badDesc
  else s.svcKey e t t.entry.key1 128 (algIn (if aes then [1, 2, 3] else [4, 5])) fun o =>
    match panOf (t.entry.inl 0x48) (t.entry.inline 0x49 10) with
    | none => s.svcEnd e Status.format
    | some pan =>
      s.svcBufs e t fun _ aux s =>
        let sk := emvSession aes (emvMaster aes o.secret pan (t.entry.inl 0x53)) (t.entry.inline 0x54 2)
        let arqc := t.entry.inline 0x56 8
        if emvMac aes sk aux != arqc then s.svcEnd e Status.verifyFail
        else
          let arpc := match sel with
            | 1 => arpc1 aes sk arqc (t.entry.inline 0x5E 2)
            | 2 => arpc2 aes sk arqc (t.entry.inline 0x60 4) (t.entry.inline 0x65 prop)
            | _ => []
          s.sltEnd e Status.ok (natLe arpc)

def execEmvArqc (e : EngineId) (s : State) : Out3 := s.svcCmd e 0x0701 fun t s => s.svcArqc e.val t

/-! ## ISO8583_REMAP (R123, R124) -/

def execIso8583Remap (e : EngineId) (s : State) : Out3 := s.svcCmd e 0x0801 fun t s =>
  s.svcBufs e.val t fun inb aux s =>
    match isoRemap aux inb with
    | none => s.svcEnd e.val Status.format
    | some out => if t.entry.outLen < out.length then s.svcEnd e.val Status.length else s.svcOut e.val t out

end Sys2Proof.Machine
end

