-- ==== Sys2Proof/Machine/Claims.lean ====
section
/-!
DEFINITION. Claims: claiming and releasing an entry of the resource claim table (R34 to R37).
-/
namespace Sys2Proof.Machine

/-- Reservations of a fan-out for copies that no deque has are released, and the copies are given up (R175). -/
def State.fanCancel (s : State) (n : Nat) : State :=
  let f := SMap.get Fan.empty s.fans n
  match f.entry with
  | none => { s with fans := SMap.set Fan.empty s.fans n Fan.empty }
  | some e =>
    if f.placed then
      let gone := f.deferred.length
      let s := s.setf Reg.TIF_STATUS.outstanding e.ti (s.outstanding e.ti - gone)
      { s with fans := SMap.set Fan.empty s.fans n { f with deferred := [], toStart := f.toStart - gone } }
    else
      let s := s.setf Reg.TIF_STATUS.outstanding e.ti (s.outstanding e.ti - f.reserved)
      { s with fans := SMap.set Fan.empty s.fans n Fan.empty }

/-- The loser of an entry is told: claims_lost counts, and EV 0x020 or 0x021 goes to its world in the half of its block
(R34, R35). -/
def State.claimLost (s : State) (n ev a cls inst : Nat) : State :=
  (s.addf Reg.PRT_CLAIM.claims_lost 0 n).raise ev (ownerEvTo a) (s.blkHalf cls inst) n

/-- A Hardpan claim may take the entry from its owner (R35). -/
def State.claimPreempts (s : State) (n : Nat) (a : Actor) : Bool :=
  a == .h && s.rb Reg.PRT_CLAIM.preemptible 0 n && s.rf Reg.PRT_CLAIM.owner_actor 0 n < 2

/-- A claim of entry `n` for a feature of a block, and whether it was won. A comparator's enable serves every claimant, so the
loser of one leaves it to its owner. -/
def State.claimTry (s : State) (n : Nat) (a : Actor) (cls inst : Nat) : Bool × State :=
  if !s.claimHeld n then (true, s.claimTake n a cls inst)
  else if s.claimOwned n a cls inst then (true, s)
  else if s.claimPreempts n a then
    let s := s.claimLost n 0x021 (s.rf Reg.PRT_CLAIM.owner_actor 0 n) (s.rf Reg.PRT_CLAIM.owner_class 0 n)
      (s.rf Reg.PRT_CLAIM.owner_instance 0 n)
    let s := s.claimClear n Status.conflict
    let s := if n < 64 then s.fanCancel n else s
    (true, s.claimTake n a cls inst)
  else
    let s := s.claimLost n 0x020 a.code cls inst
    (false, if n < 64 then s.setf Reg.STR_CMP_CTL.last_status 0 Status.conflict n
      else if 66 ≤ n then s.setf Reg.KAO_SLOT.status ((n - 66) / 32) Status.conflict ((n - 66) % 32)
      else s)

/-- The owner gives up its entry: its feature's enable clears and the entry is free. -/
def State.claimDrop (s : State) (n : Nat) : State :=
  let s := if n < 64 then s.fanCancel n else s
  let s := { s with custody := { s.custody with promotes := s.custody.promotes.filter fun p => p.2.2 != n } }
  (s.claimClear n 0).claimFree n

end Sys2Proof.Machine
end

