-- ==== Sys2Proof/Machine/Strata.lean ====
section
/-!
DEFINITION. Strata: the time base, its discipline and the comparators (R159 to R175).
-/
namespace Sys2Proof.Machine

/-! ## The tick (R161) -/

def nsPerSecond : Nat := 1000000000
def strataMs : Nat := 65536 * 1000000

/-- One tick of the time clock: 2^16 units and the rate correction, accumulated in the 24-bit sub-fraction. -/
def Strata.advance (t : Strata) : Strata :=
  let v : Int := (t.time * 2 ^ 24 + t.sub : Nat) + 2 ^ 40 + t.rate
  { t with time := v.toNat / 2 ^ 24, sub := v.toNat % 2 ^ 24, tick := t.tick + 1 }

def State.strataTick (s : State) : State := { s with strata := s.strata.advance }

/-! ## Scheduled changes (R163, R168) -/

def StrataChange.tick : StrataChange → Nat
  | .rate t _ => t | .step t _ => t | .set t _ => t

/-- The tick of a change accepted now. -/
def State.dueTick (s : State) : Nat := s.strata.tick + 128

def State.schedule (s : State) (c : StrataChange) : State :=
  { s with strata := { s.strata with changes := s.strata.changes ++ [c] } }

/-- The STR instance that acts: the primary's. -/
def State.strP (s : State) : Nat := s.sys.primary.val

/-- A launch time crossed forward gives its waiting task the late flag (R168). -/
def Engine.crossed (k : Engine) (old new : Nat) : Engine :=
  match k.run, k.task with
  | .wait, some t =>
    match t.entry.due with
    | some d => if old < d && d < new then { k with task := some { t with late := true } } else k
    | none => k
  | _, _ => k

/-- A step or set is applied: the new value, epoch and EV 0x082 (R168). -/
def State.setTime (s : State) (v : Nat) : State :=
  let old := s.strata.time
  let s := { s with strata := { s.strata with time := v }, engines := s.engines.map fun (p : Nat × Engine) => (p.1, p.2.crossed old v) }
  let s := s.setf Reg.STR_STATUS.epoch s.strP (s.rf Reg.STR_STATUS.epoch s.strP + 1)
  s.raise 0x082 .both s.strP 0

/-- Apply a change. A step below 0 stops at 0. -/
def State.applyChange (s : State) : StrataChange → State
  | .rate _ r => { s with strata := { s.strata with rate := r } }
  | .step _ d => s.setTime ((s.strata.time : Int) + d).toNat
  | .set _ v => s.setTime v

/-- The tick of the oldest change has come. -/
def State.changeDue (s : State) : Bool := s.strata.changes.head?.any fun c => c.tick ≤ s.strata.tick

/-- SCHEDULED_CHANGE: the oldest change is applied on its tick, which time does not pass without it (log entry 1). -/
def execScheduledChange (s : State) : Out3 :=
  match s.strata.changes with
  | [] => .next s
  | c :: rest =>
    if s.changeDue then .next ({ s with strata := { s.strata with changes := rest } }.applyChange c) else .next s

/-! ## Discipline (R165 to R167) -/

/-- The source in force; 3 acts as 0. -/
def srcOf (v : Nat) : Nat := if v = 3 then 0 else v
def State.strSource (s : State) : Nat := srcOf (s.rf Reg.STR_CTL.source s.strP)
def State.strState (s : State) : Nat := s.rf Reg.STR_STATUS.state s.strP

/-- Enter a discipline state. -/
def State.strEnter (s : State) (st : Nat) : State := s.setf Reg.STR_STATUS.state s.strP st

/-- Enter LOCKED with EV 0x081. -/
def State.strLock (s : State) : State := (s.strEnter 2).raise 0x081 .both s.strP 0

/-- STR_CTL is written in the primary. -/
def State.strCtl (s : State) (a : Actor) (v : Nat) : State :=
  let old := s.strSource
  let s := s.storeReg a s.strP 0 v allOnes Reg.STR_CTL.reg.fields
  let s := { s with strata := if old = s.strSource then s.strata else { s.strata with goodEdges := 0 } }
  if old = s.strSource then s else s.strEnter (if s.strSource = 0 then 0 else 1)

/-- A write to a discipline register of a half: it acts in the primary's instance alone. -/
def State.strWrite (s : State) (q : Requester) (h off v : Nat) (k : State → State) : State :=
  s.writeReg q Cls.str h off v fun s => if h = s.strP then k s else s

/-- STR_CTL_WRITE. -/
def execStrCtlWrite (q : Requester) (h : Half) (v : Word) (s : State) : Out3 :=
  .next (s.strWrite q h.val 0x100 v.toNat fun s => s.strCtl q.actor v.toNat)

/-- T may write the discipline registers only while t_discipline is 1; a refusal sets denied (R167). -/
def State.strGate (s : State) (a : Actor) (k : State → State) : State :=
  if a = .t && !s.rb Reg.STR_CTL.t_discipline s.strP then s.setf Reg.STR_STATUS.denied s.strP 1
  else if a = .t then k (s.setf Reg.STR_STATUS.denied s.strP 0)
  else if a = .v || a = .io then s
  else k s

/-- A write to STR_RATE or STR_STEP under SOFT: it ends HOLDOVER, and one to STR_RATE meets the lock condition (R165). -/
def State.softWrite (s : State) (rate : Bool) : State :=
  let s := { s with strata := { s.strata with lastSoft := s.strata.tick } }
  if s.strSource != 1 then s
  else if s.strState = 3 || (rate && s.strState = 1) then s.strLock
  else s

/-- The rate of STR_RATE, clamped to 500 ppm. -/
def State.rateOf (s : State) : Int :=
  max (-549755814) (min 549755814 (Reg.STR_RATE.rate.signed (s.rf Reg.STR_RATE.rate s.strP)))

/-- STR_RATE is written. In HOLDOVER under PPS the rate is frozen, and the register alone takes the value (R169). -/
def State.strRate (s : State) (a : Actor) (v : Nat) : State :=
  s.strGate a fun s =>
    let s := s.storeReg a s.strP 0 v allOnes Reg.STR_RATE.reg.fields
    let s := if s.strSource = 2 && s.strState = 3 then s else s.schedule (.rate s.dueTick s.rateOf)
    s.softWrite true

/-- STR_RATE_WRITE. -/
def execStrRateWrite (q : Requester) (h : Half) (v : Word) (s : State) : Out3 :=
  .next (s.strWrite q h.val 0x120 v.toNat fun s => s.strRate q.actor v.toNat)

/-- STR_STEP is written; go schedules the step. -/
def State.strStep (s : State) (a : Actor) (v : Nat) : State :=
  s.strGate a fun s =>
    let s := s.storeReg a s.strP 0 v allOnes Reg.STR_STEP.reg.fields
    let s := if bitOf v 63 then
        s.schedule (.step s.dueTick (Reg.STR_STEP.step.signed (s.rf Reg.STR_STEP.step s.strP)))
      else s
    s.softWrite false

/-- STR_STEP_GO: the write whose bit 63 is 1. -/
def execStrStepGo (q : Requester) (h : Half) (v : Word) (s : State) : Out3 :=
  .next (s.strWrite q h.val 0x128 v.toNat fun s => if bitOf v.toNat 63 then s.strStep q.actor v.toNat else s)

/-- STR_SET_HI is written; go sets the time under R163, or at the next edge under PPS (R160, R166). -/
def State.strSet (s : State) (a : Actor) (v : Nat) : State :=
  s.strGate a fun s =>
    let s := s.storeReg a s.strP 0 v allOnes Reg.STR_SET_HI.reg.fields
    if !bitOf v 63 then s
    else match strataOf (s.rf Reg.STR_SET_HI.sec_hi s.strP * 2 ^ 64 + s.rf Reg.STR_SET_LO.value s.strP) with
      | none => s.setf Reg.STR_STATUS.bad_write s.strP 1
      | some t =>
        let s := s.setf Reg.STR_STATUS.bad_write s.strP 0
        if s.strSource = 2 then { s with strata := { s.strata with setAtEdge := some t } }
        else s.schedule (.set s.dueTick t)

/-- STR_SET_GO: the write whose bit 63 is 1. -/
def execStrSetGo (q : Requester) (h : Half) (v : Word) (s : State) : Out3 :=
  .next (s.strWrite q h.val 0x138 v.toNat fun s => if bitOf v.toNat 63 then s.strSet q.actor v.toNat else s)

/-! ## The 1PPS edge (R166) -/

/-- t.ns wrapped into −500,000,000 to +499,999,999. -/
def wrapNs (t : Nat) : Int :=
  let ns : Int := (t / 65536 % nsPerSecond : Nat)
  if ns < 500000000 then ns else ns - nsPerSecond

/-- A rate of `ppb` parts in 10^9, in 2^-40 ns per ns, rounded toward zero (log entry 30). -/
def ppbRate (ppb : Int) : Int := (ppb * 2 ^ 40).tdiv 1000000000

/-- The edge's offset e. -/
def State.edgeError (s : State) : Int :=
  wrapNs s.strata.time - Reg.STR_PPS.offset_ns.signed (s.rf Reg.STR_PPS.offset_ns s.strP)

/-- The lock condition and the return of the source (R165): three edges in a row within 20 ns. -/
def State.edgeLock (s : State) (e : Int) : State :=
  let s := if s.strState = 3 then { s.strEnter 1 with strata := { s.strata with goodEdges := 0 } } else s
  let n := if e.natAbs ≤ 20 then s.strata.goodEdges + 1 else 0
  let s := { s with strata := { s.strata with goodEdges := n } }
  if s.strState = 1 && 3 ≤ n then s.strLock else s

/-- Each edge under PPS changes base by −e/16 per second; with the 10 MHz input it is 0 (R166). -/
def State.edgeBase (s : State) (e : Int) : State :=
  let base := if s.rb Reg.STR_STATUS.ref10 s.strP then 0 else s.strata.base + (ppbRate (-e)).tdiv 16
  { s with strata := { s.strata with base := base } }

/-- Step or slew by the edge (R166). -/
def State.edgeSteer (s : State) (e : Int) : State :=
  if max 1 (s.rf Reg.STR_PPS.step_thr_ns s.strP) ≤ e.natAbs then s.schedule (.step s.dueTick (-e * 65536))
  else
    let slew : Int := s.rf Reg.STR_PPS.slew_ppb s.strP
    s.schedule (.rate s.dueTick (s.strata.base + ppbRate (max (-slew) (min slew (-e)))))

/-- A set that waits for the edge takes effect: the written second, with offset_ns. -/
def State.edgeSet (s : State) (v : Nat) : State :=
  let off := Reg.STR_PPS.offset_ns.signed (s.rf Reg.STR_PPS.offset_ns s.strP)
  let t : Int := (v / (65536 * nsPerSecond) * (65536 * nsPerSecond) : Nat) + off * 65536
  { s with strata := { s.strata with setAtEdge := none } }.setTime t.toNat

/-- The 1PPS input rises. -/
def State.ppsEdge (s : State) : State :=
  let s := { s with strata := { s.strata with lastEdge := s.strata.tick } }
  let s := s.setf Reg.STR_STATUS.pps s.strP 1
  let e := s.edgeError
  match s.strata.setAtEdge with
  | some v => (if s.strSource = 2 then (s.edgeLock e).edgeBase e else s).edgeSet v
  | none => if s.strSource = 2 then ((s.edgeLock e).edgeBase e).edgeSteer e else s

/-- PPS_EDGE. -/
def execPpsEdge (s : State) : Out3 := .next s.ppsEdge

/-! ## Loss of the source and holdover (R165, R169) -/

/-- The source in force has been silent: hold_timeout seconds under SOFT, 1.5 s under PPS. -/
def State.sourceSilent (s : State) : Bool :=
  let since := fun t => s.strata.tick - t
  match s.strSource with
  | 1 => max 1 (s.rf Reg.STR_CTL.hold_timeout s.strP) * nsPerSecond ≤ since s.strata.lastSoft
  | 2 => 1500000000 ≤ since s.strata.lastEdge
  | _ => false

/-- No edge has come for 1.5 s. -/
def State.edgeGone (s : State) : Bool := 1500000000 ≤ s.strata.tick - s.strata.lastEdge

/-- A loss is due: of the source in LOCKED, or of the edges that STR_STATUS.pps shows. -/
def State.lossDue (s : State) : Bool :=
  (s.strState = 2 && s.sourceSilent) || (s.rb Reg.STR_STATUS.pps s.strP && s.edgeGone)

/-- SOURCE_LOST: LOCKED becomes HOLDOVER with EV 0x080; the rate freezes at base under PPS, where a change still scheduled is
dropped, and at the last STR_RATE under SOFT. Without an edge for 1.5 s, STR_STATUS.pps clears. -/
def execSourceLost (s : State) : Out3 :=
  let s := if s.edgeGone then s.setf Reg.STR_STATUS.pps s.strP 0 else s
  if s.strState != 2 || !s.sourceSilent then .next s
  else
    let s := (s.strEnter 3).setf Reg.STR_STATUS.holdover_s s.strP 0
    let rate := if s.strSource = 2 then s.strata.base else s.rateOf
    let kept := s.strata.changes.filter fun c => match c with | .rate _ _ => s.strSource != 2 | _ => true
    let s := { s with strata := { s.strata with holdStart := s.strata.tick, rate := rate, changes := kept } }
    .next (s.raise 0x080 .both s.strP 0)

/-- A whole second of HOLDOVER has passed that holdover_s has not counted. -/
def State.secondDue (s : State) : Bool :=
  s.strState = 3 && s.strata.holdStart + (s.rf Reg.STR_STATUS.holdover_s s.strP + 1) * nsPerSecond ≤ s.strata.tick

/-- HOLDOVER_SECOND: a whole second since the entry to HOLDOVER has passed. -/
def execHoldoverSecond (s : State) : Out3 :=
  if s.secondDue then .next (s.addf Reg.STR_STATUS.holdover_s s.strP) else .next s

/-- REF10M_CHANGE: the 10 MHz input appears or disappears; the value and the state stay (R169). While it is present the time
clock comes from it and base is 0 (R166). -/
def execRef10mChange (present : Bool) (s : State) : Out3 :=
  let s := s.setf Reg.STR_STATUS.ref10 s.strP (b2n present)
  .next (if present then { s with strata := { s.strata with base := 0 } } else s)

/-- STRATA_BROADCAST: the replica at a stop of half `h` has been found to differ from the master by `drift` units of 2^-16 ns.
Beyond the bound of R164 it is reloaded, sync_errors of its half counts and EV 0x085 is raised. -/
def execStrataBroadcast (h : Half) (drift : Word) (s : State) : Out3 :=
  let bound := if s.sys.trimmed then 65536 else 4 * 65536
  if drift.toInt.natAbs ≤ bound then .next s
  else .next ((s.addf Reg.STR_STATUS.sync_errors h.val).raise 0x085 .both h.val 0)

/-- STR_STATUS_READ. -/
def execStrStatusRead (q : Requester) (h : Half) (s : State) : Out3 :=
  .next (s.readCmd q Cls.str h.val Reg.STR_STATUS.reg 0 id)

/-! ## Comparators (R173, R174) -/

/-- The actor owns comparator `n`. -/
def State.cmpOwner (s : State) (n : Nat) (a : Actor) : Bool :=
  s.claimHeld n && s.rf Reg.PRT_CLAIM.owner_class 0 n == Cls.str && s.rf Reg.PRT_CLAIM.owner_actor 0 n == a.code

def State.cmpStatus (s : State) (n st : Nat) : State := s.setf Reg.STR_CMP_CTL.last_status 0 st n
def State.cmpDenied (s : State) (n : Nat) (b : Bool) : State := s.setf Reg.STR_CMP_CTL.denied 0 (b2n b) n

/-- The comparator's time as written. -/
def State.cmpTime (s : State) (n : Nat) : Nat :=
  s.rf Reg.STR_CMP_TIME_HI.value 0 n * 2 ^ 64 + s.rf Reg.STR_CMP_TIME_LO.value 0 n

def State.setCmpTime (s : State) (n v : Nat) : State :=
  (s.setf Reg.STR_CMP_TIME_LO.value 0 (v % 2 ^ 64) n).setf Reg.STR_CMP_TIME_HI.value 0 (v / 2 ^ 64) n

/-- The comparator is armed at a valid time; late when the time has passed. -/
def State.cmpGo (s : State) (n t : Nat) : State :=
  let s := (s.setf Reg.STR_CMP_CTL.armed 0 1 n).cmpStatus n Status.ok
  let s := { s with strata := { s.strata with armed := SMap.set 0 s.strata.armed n (s.strata.tick + 1) } }
  s.setf Reg.STR_CMP_CTL.late 0 (b2n (t ≤ s.strata.time)) n

/-- A PROMOTE_AT waits on the comparator. -/
def State.cmpPromotes (s : State) (n : Nat) : Bool := s.custody.promotes.any fun p => p.2.2 == n

/-- The TI that a FANOUT names. -/
def State.cmpTi (s : State) (n : Nat) : Nat := s.rf Reg.STR_CMP_ARG.arg 0 n / 2 ^ 52

/-- The owner arms (R174, R175, R183, R307). -/
def State.cmpArm (s : State) (n : Nat) : State :=
  let act := s.rf Reg.STR_CMP_CTL.action 0 n
  if s.rb Reg.STR_CMP_CTL.armed 0 n then s.cmpStatus n Status.busy
  else match strataOf (s.cmpTime n) with
    | none => s.cmpStatus n Status.badDesc
    | some t =>
      if act = 0 then s.cmpGo n t
      else if act = 1 then
        let ti := s.cmpTi n
        if !s.blkOn Cls.tif ti || s.rb Reg.TIF_STATUS.resetting ti then s.cmpStatus n Status.tiReset
        else if !s.logRoom (s.tiHome ti) then s.cmpStatus n Status.queueFull
        else
          let s := (s.setf Reg.STR_CMP_CTL.copies 0 0 n).setf Reg.STR_CMP_CTL.late_copies 0 0 n
          ({ s with fans := SMap.set Fan.empty s.fans n Fan.empty }).cmpGo n t
      else if act = 2 && s.cmpPromotes n then s.cmpGo n t
      else s.cmpStatus n Status.badDesc

/-- The owner disarms: an epoch action that has placed nothing gives its reservations back. -/
def State.cmpDisarm (s : State) (n : Nat) : State :=
  let s := s.setf Reg.STR_CMP_CTL.armed 0 0 n
  if (SMap.get Fan.empty s.fans n).placed then s else s.fanCancel n

/-- The write of a non-owner would have changed some field of STR_CMP_CTL other than enable. -/
def State.cmpChanges (s : State) (n v : Nat) : Bool :=
  Reg.STR_CMP_CTL.action.of v != s.rf Reg.STR_CMP_CTL.action 0 n ||
    Reg.STR_CMP_CTL.both_halves.of v != s.rf Reg.STR_CMP_CTL.both_halves 0 n ||
    Reg.STR_CMP_CTL.lead_us.of v != s.rf Reg.STR_CMP_CTL.lead_us 0 n ||
    Reg.STR_CMP_CTL.arm.of v == 1 || Reg.STR_CMP_CTL.disarm.of v == 1 ||
    (Reg.STR_CMP_CTL.fired.of v == 1 && s.rb Reg.STR_CMP_CTL.fired 0 n)

/-- STR_CMP_CTL is written (R173): by its owner, or as a claim. A write of action 2 is ignored (R174). -/
def State.cmpCtl (s : State) (a : Actor) (n v : Nat) : State :=
  if !Reg.STR_CMP_CTL.enable.admits a then s
  else if s.cmpOwner n a then
    let s := s.cmpDenied n false
    if Reg.STR_CMP_CTL.enable.of v = 0 then s.claimDrop n
    else
      let fs := [Reg.STR_CMP_CTL.fired, Reg.STR_CMP_CTL.both_halves, Reg.STR_CMP_CTL.lead_us] ++
        (if Reg.STR_CMP_CTL.action.of v = 2 then [] else [Reg.STR_CMP_CTL.action])
      let s := s.storeReg a 0 n v allOnes fs
      let s := if Reg.STR_CMP_CTL.disarm.of v = 1 then s.cmpDisarm n else s
      if Reg.STR_CMP_CTL.arm.of v = 1 then s.cmpArm n else s
  else if Reg.STR_CMP_CTL.enable.of v = 1 then
    let s := s.cmpDenied n (s.cmpChanges n v)
    match s.claimTry n a Cls.str s.strP with
    | (true, s) => s.setf Reg.STR_CMP_CTL.enable 0 1 n
    | (false, s) => s
  else s.cmpDenied n true

/-- A write of the comparator's TIME or ARG (R173, R174). -/
def State.cmpValue (s : State) (a : Actor) (n v : Nat) (f : Fld) : State :=
  if !f.admits a then s
  else if !s.cmpOwner n a then s.cmpDenied n true
  else if s.rb Reg.STR_CMP_CTL.armed 0 n then (s.cmpDenied n false).cmpStatus n Status.busy
  else (s.cmpDenied n false).setf f 0 v n

/-- A write to a comparator's register: the bank is the primary's (R173). -/
def State.cmpWrite (s : State) (q : Requester) (n off v : Nat) (k : State → State) : State :=
  s.writeReg q Cls.str s.strP (off + 32 * n) v k

/-- CMP_ARM: a write of STR_CMP_CTL with arm = 1. -/
def execCmpArm (q : Requester) (n : Fin 64) (v : Word) (s : State) : Out3 :=
  .next (s.cmpWrite q n.val 0x1010 (v.toNat ||| 2) fun s => s.cmpCtl q.actor n.val (v.toNat ||| 2))

/-- CMP_DISARM: a write of STR_CMP_CTL with disarm = 1. -/
def execCmpDisarm (q : Requester) (n : Fin 64) (v : Word) (s : State) : Out3 :=
  .next (s.cmpWrite q n.val 0x1010 (v.toNat ||| 4) fun s => s.cmpCtl q.actor n.val (v.toNat ||| 4))

/-- The first time after `now` of a periodic comparator (R168, R174). -/
def rearmAt (t period now : Nat) : Nat := if now < t + period then t + period else t + period * ((now - t) / period + 1)

/-- An armed comparator fires now: the master's value has reached its time, and a tick has passed since it was armed (R174). -/
def State.cmpDue (s : State) (n : Nat) : Bool :=
  s.rb Reg.STR_CMP_CTL.armed 0 n && SMap.get 0 s.strata.armed n ≤ s.strata.tick &&
    (strataOf (s.cmpTime n)).any fun t => t ≤ s.strata.time

/-- CMP_FIRE: the master's value has reached an armed comparator's time, which time does not pass without it (log entry 1). -/
def execCmpFire (n : Fin 64) (s : State) : Out3 :=
  match strataOf (s.cmpTime n.val) with
  | none => .next s
  | some t =>
    if !s.cmpDue n.val then .next s
    else
      let s := s.setf Reg.STR_CMP_CTL.fired 0 1 n.val
      let off := fun (s : State) => s.setf Reg.STR_CMP_CTL.armed 0 0 n.val
      if s.rf Reg.STR_CMP_CTL.action 0 n.val = 0 then
        let s := s.raise 0x083 (ownerEvTo (s.rf Reg.PRT_CLAIM.owner_actor 0 n.val)) s.strP n.val
        let p := s.rf Reg.STR_CMP_ARG.arg 0 n.val % 2 ^ 32
        if p = 0 then .next (off s)
        else .next (s.setCmpTime n.val (strataBits (rearmAt t (max 1000 p * 65536) s.strata.time)))
      else .next (off s)

/-! ## Epoch actions (R175) -/

/-- The arm of a FANOUT fails after all. -/
def State.fanFail (s : State) (n st : Nat) : State := (s.setf Reg.STR_CMP_CTL.armed 0 0 n).cmpStatus n st

/-- The engines that a template's copies go to: the pool's members in the home half, and those of the linked pool when
both_halves is 1 and R85 holds for it, in ascending engine order. -/
def State.fanEngines (s : State) (n : Nat) (e : Entry) : List Nat :=
  let h := s.tiHome e.ti
  let own := s.poolMembers h e.pool
  let x := s.rf Reg.DSP_POOL_LINK.peer_pool h e.pool
  let other := if s.rb Reg.STR_CMP_CTL.both_halves 0 n && s.crossSteal (1 - h) x == some e.pool then
    s.poolMembers (1 - h) x else []
  if h = 0 then own ++ other else other ++ own

/-- The template's own checks and those of R78, and the number of copies. -/
def State.fanCheck (s : State) (n t : Nat) (e : Entry) : Nat × Nat :=
  let m := (s.fanEngines n e).length
  if s.rb Reg.TIF_STATUS.resetting e.ti || !s.blkOn Cls.tif e.ti then (Status.tiReset, m)
  else if e.gen != s.tiGen e.ti then (Status.staleGen, m)
  else if !e.timed || strataOf e.launch != some t then (Status.badDesc, m)
  else
    let st := s.validate e
    if st != 0 then (st, m) else if s.tiRoom e.ti < m then (Status.queueFull, m) else (Status.ok, m)

/-- FANOUT_VALIDATE: step 1 of R175. -/
def execFanoutValidate (n : Fin 64) (s : State) : Out3 :=
  let f := SMap.get Fan.empty s.fans n.val
  if !s.rb Reg.STR_CMP_CTL.armed 0 n.val || s.rf Reg.STR_CMP_CTL.action 0 n.val != 1 || f.entry.isSome ||
      s.sys.mode = .seal then .next s
  else match strataOf (s.cmpTime n.val) with
    | none => .next s
    | some t =>
      let ti := s.cmpTi n.val
      match s.readMem (s.tiReq ti) .read (s.rf Reg.STR_CMP_ARG.arg 0 n.val / 128 % 2 ^ 45 * 128) 128 with
      | (.data _ true, s) => .next (s.fanFail n.val Status.poisoned)
      | (.data bs false, s) =>
        let e : Entry := ⟨ti, 15, 0xFC0 + n.val, bs, false⟩
        let (st, m) := s.fanCheck n.val t e
        if st != 0 then .next (s.fanFail n.val st)
        else
          let s := s.setf Reg.TIF_STATUS.outstanding ti (s.outstanding ti + m)
          .next { s with fans := SMap.set Fan.empty s.fans n.val ⟨m, some e, false, 0, []⟩ }
      | (_, s) => .next (s.fanFail n.val Status.ownership)

/-- Put a copy into each engine's deque, or leave it for the engine. -/
def State.fanPut (s : State) (e : Entry) : List Nat → State × List Nat
  | [] => (s, [])
  | m :: ms =>
    if s.dequeRoom m e then (s.dequePut m e).fanPut e ms
    else let (s, left) := s.fanPut e ms; (s, m :: left)

/-- The copies of an epoch action are to be placed now: T − lead_us has come. -/
def State.fanDue (s : State) (n : Nat) : Bool :=
  let f := SMap.get Fan.empty s.fans n
  let lead := max 2 (s.rf Reg.STR_CMP_CTL.lead_us 0 n) * 1000 * 65536
  !f.placed && (f.entry.bind Entry.due).any fun t => t ≤ s.strata.time + lead

/-- FANOUT_PLACE: step 2 of R175, at T − lead_us. -/
def execFanoutPlace (n : Fin 64) (s : State) : Out3 :=
  let f := SMap.get Fan.empty s.fans n.val
  match f.entry with
  | none => .next s
  | some e =>
    match e.due with
    | none => .next s
    | some _ =>
      if !s.fanDue n.val then .next s
      else if e.gen != s.tiGen e.ti then .next ((s.fanCancel n.val).cmpStatus n.val Status.tiReset)
      else
        let es := (s.fanEngines n.val e).take f.reserved
        let (s, left) := s.fanPut e es
        let s := s.setf Reg.TIF_STATUS.outstanding e.ti (s.outstanding e.ti - (f.reserved - es.length))
        let s := s.setf Reg.STR_CMP_CTL.copies 0 (es.length - left.length) n.val
        .next { s with fans := SMap.set Fan.empty s.fans n.val ⟨0, some e, true, es.length, left⟩ }

/-- FANOUT_DEFERRED_PLACE: the first waiting copy whose engine's deque has room is placed; one of an old generation is
dropped (R82). -/
def execFanoutDeferredPlace (n : Fin 64) (s : State) : Out3 :=
  let f := SMap.get Fan.empty s.fans n.val
  match f.entry with
  | none => .next s
  | some e =>
    match f.deferred.find? fun m => s.dequeRoom m e with
    | none => .next s
    | some m =>
      let f := { f with deferred := dropFirst (· == m) f.deferred }
      if e.gen != s.tiGen e.ti then
        .next ({ s with fans := SMap.set Fan.empty s.fans n.val { f with toStart := f.toStart - 1 } }.dropStale e.ti)
      else
        let s := { s with fans := SMap.set Fan.empty s.fans n.val f }
        .next ((s.dequePut m e).addf Reg.STR_CMP_CTL.copies 0 n.val)

end Sys2Proof.Machine
end

