-- ==== Sys2Proof/Machine/Custody.lean ====
section
/-!
DEFINITION. Custody: the key custody unit's commands (R140, R154 to R156, R176, R492, R493).
-/
namespace Sys2Proof.Machine

/-! ## Objects -/

/-- An attribute word that a command may carry (R155). -/
def attrOk (a : Nat) : Bool := bitsOf a 15 5 == 0 && bitsOf a 63 48 == 0 && bitsOf a 47 39 ≤ 256 && attrAlg a ≤ 16

/-- The random source makes keys of this algorithm (R493). -/
def algRandom (alg : Nat) : Bool := (1 ≤ alg && alg ≤ 8) || alg == 10 || alg == 12 || alg == 14

/-- The version after `v` (R154). -/
def nextVersion (v : Nat) : Nat := if v = 0xFFFF then 1 else v + 1

def State.custodyObj (s : State) (k : Nat) : Option KeyObj := SMap.get none s.custody.objs k

/-- The object numbers not in use. -/
def State.freeObjs (s : State) : List Nat :=
  (List.range (s.rf Reg.HPN_STORE_SIZE.size s.strP)).filter fun k => k != 0 && (s.custodyObj k).isNone

/-- A free object number; which one is a free value. -/
def State.pickObj (s : State) : Option (Nat × State) :=
  match s.freeObjs with
  | [] => none
  | l => let (r, s) := s.drawFree; some (l.getD (r % l.length) 0, s)

/-- Key-register copies of an object are zeroed in every engine (R41). -/
def State.zeroCopies (s : State) (k : Nat) : State :=
  let keep := fun (p : Nat × KeyReg) => match p.2.tag with | some t => t.handle % 2 ^ 32 != k | none => true
  (SMap.keys s.engines).foldl (fun s e => s.updEng e fun x => { x with k := x.k.filter keep }) s

/-! ## The random source (R493) -/

/-- Odd parity in a byte. -/
def oddParity (b : Byte) : Byte :=
  let ones := ((List.range 8).filter fun i => b.getLsbD i).length
  if ones % 2 = 0 then b ^^^ 1#8 else b

def padBytes (n : Nat) (l : List Byte) : List Byte := l ++ List.replicate (n - l.length) 0

/-- d with 65537·d = 1 mod m. -/
def rsaExponent (m : Nat) : Nat :=
  let k := 65537 - Crypto.invMod (m % 65537) 65537
  (1 + k * m) / 65537

/-- A prime number. -/
def isPrime (n : Nat) : Bool := 2 ≤ n && (List.range n).all fun d => d < 2 || n % d != 0

/-- Two numbers make an RSA key of this modulus length for the exponent 65,537: distinct primes that fit their groups (R492), of which
neither less one shares a factor with the exponent. -/
def rsaFit (bits p q : Nat) : Bool :=
  isPrime p && isPrime q && p != q && 2 ^ (bits - 1) ≤ p * q && p * q < 2 ^ bits &&
    p < 2 ^ (256 * ((bits + 511) / 512)) && q < 2 ^ (256 * ((bits + 511) / 512)) && (p - 1) % 65537 != 0 && (q - 1) % 65537 != 0

/-- The image of an RSA private key of these primes (R492). -/
def rsaImage (attr p q : Nat) : List Byte :=
  let group := 32 * ((8 * attrRsaBytes attr + 511) / 512)
  [p, q, rsaExponent (p - 1), rsaExponent (q - 1)].flatMap fun x => leBytes group x

/-- Draw material for an attribute word. -/
def State.randomImage (s : State) (attr : Nat) : List Byte × State :=
  let size := 32 * algParts attr
  let bytes := fun n (f : Byte → Byte) => let (l, s) := s.drawRandom n; (padBytes size (l.map f), s)
  let scalar := fun n => let (r, s) := s.drawFree; (leBytes size (r % (n - 1) + 1), s)
  match attrAlg attr with
  | 1 => bytes 16 id | 2 => bytes 24 id | 3 => bytes 32 id
  | 4 => bytes 16 oddParity | 5 => bytes 24 oddParity
  | 6 => bytes 32 id | 7 => bytes 48 id
  | 8 => scalar Crypto.p256.n | 10 => scalar Crypto.p384.n
  | 12 => bytes 32 id
  | 14 =>
    let (r, s) := s.drawFree
    let (p, q) := Config.rsaPrimes (8 * attrRsaBytes attr) r
    (rsaImage attr p q, s)
  | _ => ([], s)

/-! ## Source and destination pages (R156) -/

/-- The page counts as Hardpan-owned: the entry in the table in memory is valid with owner Hardpan, and the POT is armed. -/
def State.hardpanPage (s : State) (a : Nat) : Bool :=
  let h := s.strP
  s.rb Reg.POT_CTL.armed h &&
    match s.potIndex a with
    | none => false
    | some (t, i) =>
      let (e, bad) := s.potWalk h t i
      !bad && !potInvalid t e && !(t == 1 && s.rf Reg.POT_CXL_PAGES.pages h ≤ i) && bitsOf e 2 1 == 1

def State.hardpanPages (s : State) (a n : Nat) : Bool := (pagesOf a n).all s.hardpanPage

/-- The unit's accesses: Hardpan world at the primary's H stop (R132). -/
def State.custodyReq (s : State) : Requester := hwReq s.sys.primary (hStop s.strP)

/-- Read plaintext from Hardpan-owned pages: the bytes, or the status. -/
def State.custodyRead (s : State) (a n : Nat) : Except Nat (List Byte) × State :=
  if !s.hardpanPages a n then (.error Status.ownership, s)
  else match s.readMem s.custodyReq .read a n with
    | (.data bs false, s) => (.ok bs, s)
    | (.data _ true, s) => (.error Status.poisoned, s)
    | (.unmapped, s) => (.error Status.badAddress, s)
    | (.refused, s) => (.error Status.ownership, s)

/-! ## The command register -/

def State.keyArg (s : State) (i : Nat) : Nat := s.rf Reg.HPN_KEY_ARG.arg s.strP i
def State.keyResult (s : State) (v : Nat) : State := s.setf Reg.HPN_KEY_ARG.arg s.strP v 0
def State.keyStatus (s : State) (st : Nat) : State := s.setf Reg.HPN_KEY_CMD.last_status s.strP st

/-- The object that a handle in an argument names, when it is there, of the filledness asked for, and of the version the handle
gives. -/
def State.argObj (s : State) (i : Nat) (filled : Option Bool) : Option (Nat × KeyObj) :=
  let h := s.keyArg i
  match s.keyObj h with
  | none => none
  | some o =>
    if (filled.any fun f => (attrAlg o.attr != 0) != f) || (h / 2 ^ 32 != 0 && h / 2 ^ 32 != o.version) then none
    else some (h % 2 ^ 32, o)

/-- Run `f` on a filled object whose slot is not poisoned (R156, R375). -/
def State.onFilled (s : State) (f : Nat → KeyObj → State → State) : State :=
  match s.argObj 0 (some true) with
  | none => s.keyStatus Status.keyDenied
  | some (k, o) => if s.keyPoisoned (s.keyArg 0) then s.keyStatus Status.poisoned else f k o s

/-- The generation of an RSA key begins: busy until it ends. -/
def State.beginRsa (s : State) (g : Generation) : State :=
  { s with custody := { s.custody with generating := some g } }.setf Reg.HPN_KEY_CMD.busy s.strP 1

/-- Put a new object with random material at a free number. -/
def State.createObj (s : State) (attr : Nat) : State :=
  let (img, s) := s.randomImage attr
  match s.pickObj with
  | none => s.keyStatus Status.storeFull
  | some (k, s) =>
    ((s.setObj k (some ⟨attr, 1, img, none⟩)).keyResult (2 ^ 32 + k)).keyStatus Status.ok

def State.keyCreate (s : State) : State :=
  let attr := s.keyArg 0
  if !attrOk attr || !algRandom (attrAlg attr) then s.keyStatus Status.keyDenied
  else if s.freeObjs.isEmpty then s.keyStatus Status.storeFull
  else if attrAlg attr = 14 then s.beginRsa (.create attr)
  else s.createObj attr

def State.keyReserve (s : State) : State :=
  match s.pickObj with
  | none => s.keyStatus Status.storeFull
  | some (k, s) =>
    let attr := s.keyArg 0 % 4096 * 2 ^ 26
    ((s.setObj k (some ⟨attr, 0, [], none⟩)).keyResult k).keyStatus Status.ok

def State.keyInstall (s : State) : State :=
  let attr := s.keyArg 1
  match s.argObj 0 (some false) with
  | none => s.keyStatus Status.keyDenied
  | some (k, _) =>
    if !attrOk attr || attrAlg attr = 0 then s.keyStatus Status.keyDenied
    else match s.custodyRead (s.keyArg 2) (32 * algParts attr) with
      | (.error st, s) => s.keyStatus st
      | (.ok bs, s) => (s.setObj k (some ⟨attr, 1, bs, none⟩)).keyStatus Status.ok

/-- Set an object's staged version. -/
def State.stageObj (s : State) (k : Nat) (o : KeyObj) (img : List Byte) : State :=
  (s.setObj k (some { o with staged := some img })).keyStatus Status.ok

def State.keyStage (s : State) : State :=
  s.onFilled fun k o s =>
    if s.keyArg 1 = 0 then
      if !algRandom (attrAlg o.attr) then s.keyStatus Status.keyDenied
      else if attrAlg o.attr = 14 then s.beginRsa (.stage k)
      else let (img, s) := s.randomImage o.attr; s.stageObj k o img
    else match s.custodyRead (s.keyArg 1) (32 * algParts o.attr) with
      | (.error st, s) => s.keyStatus st
      | (.ok bs, s) => s.stageObj k o bs

/-- The staged version becomes current; the old material is gone. -/
def State.promoteObj (s : State) (k : Nat) : State :=
  match s.custodyObj k with
  | some o =>
    match o.staged with
    | some img => s.setObj k (some ⟨o.attr, nextVersion o.version, img, none⟩)
    | none => s
  | none => s

def State.keyPromote (s : State) : State :=
  s.onFilled fun k o s =>
    if o.staged.isNone then s.keyStatus Status.keyDenied else (s.promoteObj k).keyStatus Status.ok

/-- PROMOTE_AT (R176): the comparator must be H's and not armed. -/
def State.keyPromoteAt (s : State) : State :=
  s.onFilled fun k o s =>
    let n := s.keyArg 3
    if o.staged.isNone then s.keyStatus Status.keyDenied
    else if 64 ≤ n || !s.cmpOwner n .h || s.rb Reg.STR_CMP_CTL.armed 0 n then s.keyStatus Status.conflict
    else match strataOf (s.keyArg 1 + s.keyArg 2 % 2 ^ 32 * 2 ^ 64) with
      | none => s.keyStatus Status.badDesc
      | some t =>
        let s := (s.setf Reg.STR_CMP_CTL.action 0 2 n).setCmpTime n (strataBits t)
        let old := s.custody.promotes.filter fun p => p.2.2 != n
        (({ s with custody := { s.custody with promotes := old ++ [(k, t, n)] } }).cmpGo n t).keyStatus Status.ok

/-- A transfer of a destroyed object brings nothing (R156). -/
def Engine.dropTransfer (x : Engine) (k : Nat) : Engine :=
  match x.stall with
  | .key w o => if (x.rs (fSa w)).toNat % 2 ^ 32 = k then { x with stall := .key w { o with attr := 0 } } else x
  | _ => x

/-- DESTROY: the number becomes free, and nothing waits for its object any more. -/
def State.keyDestroy (s : State) : State :=
  match s.argObj 0 none with
  | none => s.keyStatus Status.keyDenied
  | some (k, _) =>
    let s := (s.setObj k none).zeroCopies k
    let s := (SMap.keys s.engines).foldl (fun s e => s.updEng e (·.dropTransfer k)) s
    { s with custody := { s.custody with promotes := s.custody.promotes.filter fun p => p.1 != k,
                                         cuts := s.custody.cuts.filter fun c => c.obj != k } }.keyStatus Status.ok

def State.keyNarrow (s : State) : State :=
  s.onFilled fun k o s =>
    let gone := attrUsage o.attr &&& bitsOf (s.keyArg 1) 23 16
    ((s.setObj k (some { o with attr := o.attr - gone * 2 ^ 16 })).zeroCopies k).keyStatus Status.ok

/-- WRAP: the bytes are free values, and the unit knows them again. -/
def State.keyWrap (s : State) : State :=
  s.onFilled fun _ o s =>
    let a := s.keyArg 1
    let n := Config.wrapLength o.image.length % 65536 + 1
    if !s.hardpanPages a n then s.keyStatus Status.ownership
    else
      let (r, s) := s.drawFree
      let bs := (List.range n).map (Config.wrapByte r)
      match s.writeMem s.custodyReq a bs with
      | (.data _ _, s) =>
        { s with custody := { s.custody with wraps := s.custody.wraps ++ [(bs, o)] } }.keyStatus Status.ok
      | (.unmapped, s) => s.keyStatus Status.badAddress
      | (.refused, s) => s.keyStatus Status.ownership

/-- The object that the bytes at an address stand for: one wrapped in this run, or one of an earlier boot. -/
def State.unwrapAt (s : State) (a : Nat) : Option (KeyObj × Nat) :=
  match s.custody.wraps.find? fun p => peekList s.peek a p.1.length == p.1 with
  | some (bs, o) => some (o, bs.length)
  | none =>
    match Config.unwrapEarlier (peekList s.peek a 65536) with
    | some (attr, version, img) =>
      if attrOk attr && attrAlg attr != 0 && version != 0 && version < 65536 && img.length == 32 * algParts attr then
        some (⟨attr, version, img, none⟩, Config.wrapLength img.length % 65536 + 1)
      else none
    | none => none

def State.keyUnwrap (s : State) : State :=
  let a := s.keyArg 0
  if !s.hardpanPages a 1 then s.keyStatus Status.ownership
  else match s.unwrapAt a with
    | none => s.keyStatus Status.keyDenied
    | some (o, n) =>
      match s.custodyRead a n with
      | (.error st, s) => s.keyStatus st
      | (.ok _, s) =>
        match s.pickObj with
        | none => s.keyStatus Status.storeFull
        | some (k, s) => ((s.setObj k (some o)).keyResult (o.version * 2 ^ 32 + k)).keyStatus Status.ok

/-- Fill a memory key slot from the random source, or clear it (R140). -/
def State.mekSet (s : State) (slot : Nat) (fill : Bool) : State :=
  let s := { s with keyLost := (List.range 16).foldl (fun m c => SMap.set false m (c * 2048 + slot) false) s.keyLost }
  if fill then
    { s with keyGen := s.keyGen + 1, keySlots := SMap.set 0 s.keySlots slot (s.keyGen + 1) }
  else { s with keySlots := SMap.set 0 s.keySlots slot 0 }

def State.keyMek (s : State) (fill : Bool) : State :=
  let slot := s.keyArg 0
  if slot = 1025 || 1028 ≤ slot then s.keyStatus Status.denied else (s.mekSet slot fill).keyStatus Status.ok

/-- HPN_KEY_CMD is written (R156). -/
def State.keyCmd (s : State) (a : Actor) (h v : Nat) : State :=
  if a != .h || h != s.strP then s
  else
    let op := Reg.HPN_KEY_CMD.op.of v
    if Reg.HPN_KEY_CMD.go.of v = 0 then s.setf Reg.HPN_KEY_CMD.op h op
    else if s.rb Reg.HPN_KEY_CMD.busy h then s.keyStatus Status.busy
    else
      let s := s.setf Reg.HPN_KEY_CMD.op h op
      if s.sys.mode = .seal then s.keyStatus Status.sealed
      else match op with
        | 0x01 => s.keyCreate
        | 0x02 => s.keyReserve
        | 0x03 => s.keyInstall
        | 0x04 => s.keyStage
        | 0x05 => s.keyPromote
        | 0x06 => s.keyPromoteAt
        | 0x07 => s.keyDestroy
        | 0x08 => s.keyNarrow
        | 0x09 => s.keyWrap
        | 0x0A => s.keyUnwrap
        | 0x0B => s.keyMek true
        | 0x0C => s.keyMek false
        | _ => s.keyStatus Status.unsupported

/-- A write of HPN_KEY_CMD that starts the command `op`. -/
def State.keyGo (s : State) (q : Requester) (h : Half) (op : Nat) : Out3 :=
  .next (s.writeReg q Cls.hpn h.val 0x300 (256 + op) fun s => s.keyCmd q.actor h.val (256 + op))

/-- CREATE. -/
def execCreate (q : Requester) (h : Half) (s : State) : Out3 := s.keyGo q h 0x01
/-- RESERVE. -/
def execReserve (q : Requester) (h : Half) (s : State) : Out3 := s.keyGo q h 0x02
/-- INSTALL. -/
def execInstall (q : Requester) (h : Half) (s : State) : Out3 := s.keyGo q h 0x03
/-- STAGE. -/
def execStage (q : Requester) (h : Half) (s : State) : Out3 := s.keyGo q h 0x04
/-- PROMOTE. -/
def execPromote (q : Requester) (h : Half) (s : State) : Out3 := s.keyGo q h 0x05
/-- PROMOTE_AT. -/
def execPromoteAt (q : Requester) (h : Half) (s : State) : Out3 := s.keyGo q h 0x06
/-- DESTROY. -/
def execDestroy (q : Requester) (h : Half) (s : State) : Out3 := s.keyGo q h 0x07
/-- NARROW. -/
def execNarrow (q : Requester) (h : Half) (s : State) : Out3 := s.keyGo q h 0x08
/-- WRAP. -/
def execWrap (q : Requester) (h : Half) (s : State) : Out3 := s.keyGo q h 0x09
/-- UNWRAP. -/
def execUnwrap (q : Requester) (h : Half) (s : State) : Out3 := s.keyGo q h 0x0A
/-- MEK_GEN. -/
def execMekGen (q : Requester) (h : Half) (s : State) : Out3 := s.keyGo q h 0x0B
/-- MEK_CLEAR. -/
def execMekClear (q : Requester) (h : Half) (s : State) : Out3 := s.keyGo q h 0x0C

/-- The attribute word that a generation in progress is for. -/
def State.generationAttr (s : State) : Generation → Option Nat
  | .create attr => some attr
  | .stage k => (s.custodyObj k).map KeyObj.attr

/-- The next draw gives an RSA key for an attribute word. -/
def State.rsaDrawn (s : State) (attr : Nat) : Bool :=
  let n := 8 * attrRsaBytes attr
  let (p, q) := Config.rsaPrimes n (Config.freeNat s.freeCtr)
  rsaFit n p q

/-- RANDOM_GENERATION_DONE: the RSA key is there, and busy returns to 0 (R493). A draw that gives no key of the length asked for is
no end: the generation takes the next draw and goes on. -/
def execRandomGenerationDone (s : State) : Out3 :=
  match s.custody.generating with
  | none => .next s
  | some g =>
    if (s.generationAttr g).any fun a => !s.rsaDrawn a then .next s.drawFree.2
    else
    let s := { s with custody := { s.custody with generating := none } }.setf Reg.HPN_KEY_CMD.busy s.strP 0
    match g with
    | .create attr => .next (s.createObj attr)
    | .stage k =>
      match s.custodyObj k with
      | none => .next (s.keyStatus Status.keyDenied)
      | some o => let (img, s) := s.randomImage o.attr; .next (s.stageObj k o img)

/-! ## Promotion at a time (R176) -/

/-- The promotion that comparator `n` holds armed is to be broadcast now. -/
def State.promoteDue (s : State) (n : Nat) : Bool :=
  s.rb Reg.STR_CMP_CTL.armed 0 n &&
    (s.custody.promotes.find? fun p => p.2.2 == n).any fun p => p.2.1 ≤ s.strata.time + 200 * 65536

/-- PROMOTE_BROADCAST: at T − 200 ns the master sends the object, its new version and T to the custody unit and the clusters. -/
def execPromoteBroadcast (n : Fin 64) (s : State) : Out3 :=
  match s.custody.promotes.find? fun p => p.2.2 == n.val with
  | none => .next s
  | some (k, t, _) =>
    if !s.promoteDue n.val then .next s
    else
      let left := s.custody.promotes.filter fun p => p.2.2 != n.val
      match s.custodyObj k with
      | none => .next { s with custody := { s.custody with promotes := left } }
      | some o =>
        let cut : PromoCut := ⟨k, o.version, nextVersion o.version, t, true, List.range 16⟩
        .next { s with custody := { s.custody with promotes := left, cuts := s.custody.cuts ++ [cut] } }

/-- Unit `u` (16: the custody unit) has applied a promotion. -/
def PromoCut.applied (c : PromoCut) (u : Nat) : PromoCut :=
  if u = 16 then { c with custody := false } else { c with clusters := c.clusters.filter (· != u) }

/-- The oldest promotion that unit `u` has not applied and whose time its replica has reached; 16 is the custody unit. -/
def State.applyDue (s : State) (u : Nat) : Option PromoCut :=
  s.custody.cuts.find? fun c => (if u = 16 then c.custody else c.clusters.contains u) &&
    c.time ≤ s.replica (if u = 16 then hStop s.strP else clusterStop u)

/-- PROMOTE_APPLY: cluster `u`, or the custody unit for 16, applies the oldest promotion whose time its replica has reached. -/
def execPromoteApply (u : Fin 17) (s : State) : Out3 :=
  match s.applyDue u.val with
  | none => .next s
  | some c =>
    let s := if u.val = 16 then s.promoteObj c.obj else s
    let cuts := (s.custody.cuts.map fun x => if x == c then x.applied u.val else x).filter
      fun x => x.custody || !x.clusters.isEmpty
    .next { s with custody := { s.custody with cuts := cuts } }

end Sys2Proof.Machine
end

