-- ==== Sys2Proof/Machine/Varve.lean ====
section
/-!
DEFINITION. Varve: the ledger (R177 to R185).
-/
namespace Sys2Proof.Machine

/-- SHA-384 of bytes. -/
def sha384Bytes (m : List Byte) : List Byte := (Crypto.sha384 (m.map BitVec.toNat)).map (BitVec.ofNat 8)

/-! ## Identity (R182) -/

/-- The 16 bytes of the device serial. -/
def serialBytes : List Byte := (List.range 16).map Config.serialByte

/-- The boot count of OD 0x0100.05. -/
def State.bootCount (s : State) : Nat := s.od 0x0100 5

/-! ## Logs (R183) -/

/-- The entries of a log whose log2 field is limited to a range. -/
def logSize (v lo hi : Nat) : Nat := 2 ^ max lo (min hi v)

def State.batchLog (s : State) (h : Nat) : Nat := logSize (s.rf Reg.VRV_LOG.log2_entries h) 18 24
def State.leafLog (s : State) (h : Nat) : Nat := logSize (s.rf Reg.VRV_LEAF.log2_entries h) 18 27
def State.ckptLog (s : State) (h : Nat) : Nat := logSize (s.rf Reg.VRV_CKPT_LOG.log2_entries h) 8 16

/-- The halves that the device still has. -/
def State.liveHalves (s : State) : List Nat := [0, 1].filter fun h => s.sys.lostHalf.all fun x => x.val != h

/-- The reserve in force, in entries. -/
def State.logReserve (s : State) : Nat :=
  let e := s.liveHalves.foldl (fun m h => min m (s.leafLog h)) (s.batchLog s.strP)
  min (max 112 (s.rf Reg.VRV_CTL.reserve s.strP)) ((e / 2 - 4096) / 1024) * 1024

/-- The fewest free entries of the batch log and the leaf logs. -/
def State.logFree (s : State) : Nat :=
  let p := s.strP
  s.liveHalves.foldl (fun m h =>
      min m (s.leafLog h - (s.rf Reg.VRV_NEXT_LEAF.value h - s.rf Reg.VRV_CONS_LEAF.value h)))
    (s.batchLog p - (s.rf Reg.VRV_NEXT_POS.value p - s.rf Reg.VRV_CONS_POS.value p))

/-- A Varve is in FAULT: the logs do not advance. -/
def State.vrvFault (s : State) : Bool := s.liveHalves.any fun h => s.blkState Cls.vrv h == 4

/-- Stop or resume the fetching of both halves with EV 0x088 or EV 0x089. -/
def State.logCheck (s : State) : State :=
  let set := fun (s : State) v => (s.setf Reg.VRV_STATUS.paused 0 v).setf Reg.VRV_STATUS.paused 1 v
  if s.rb Reg.VRV_STATUS.paused s.strP then
    if !s.vrvFault && s.logReserve + 4096 ≤ s.logFree then (set s 0).raise 0x089 .both s.strP 0 else s
  else if s.vrvFault || s.logFree < s.logReserve then (set s 1).raise 0x088 .both s.strP 0
  else s

/-- Varve of a half writes memory in Hardpan world; a write that is refused puts it in FAULT with OWNERSHIP. -/
def State.varveWrite (s : State) (h a : Nat) (bs : List Byte) : Bool × State :=
  match s.writeMem (hwReq (halfOf h) (hStop h)) a bs with
  | (.data _ _, s) => (true, s)
  | (_, s) => (false, (s.blockFault Cls.vrv h Status.ownership).logCheck)

/-! ## Leaves and batches (R177 to R179) -/

/-- The leaf hash. -/
def LedgerCopy.leaf (c : LedgerCopy) : List Byte := sha384Bytes (0#8 :: leBytes 2 c.ti ++ c.bytes)

/-- The largest power of two below `n` (`n` above 1). -/
def splitAt : Nat → Nat → Nat
  | 0, _ => 1
  | fuel + 1, n => if n ≤ 2 ^ (fuel + 1) then splitAt fuel n else 2 ^ (fuel + 1)

/-- The Merkle Tree Hash of RFC 9162 over leaf hashes. -/
def merkleRoot : Nat → List (List Byte) → List Byte
  | 0, l => l.headD []
  | fuel + 1, l =>
    if l.length ≤ 1 then l.headD []
    else
      let k := splitAt 8 l.length
      sha384Bytes (1#8 :: merkleRoot fuel (l.take k) ++ merkleRoot fuel (l.drop k))

/-- Close the open batch of a half with a flag; the non-primary sends it and a watermark (R180, R181). -/
def State.closeBatch (s : State) (h flag : Nat) : State :=
  let v := s.vrv h
  match v.opened with
  | none => s
  | some o =>
    let now := s.replica (hStop h)
    let flags := flag + (if s.strState = 2 then 0 else 4)
    let b : Batch := ⟨h, v.nextBatch, flags, o.leaves.length, s.rf Reg.STR_STATUS.epoch s.strP, o.first, o.time, now,
      merkleRoot 9 o.leaves⟩
    let v := { v with opened := none, nextBatch := v.nextBatch + 1 }
    let v := if h = s.strP then { v with queue := v.queue ++ [b] }
      else { v with outbox := v.outbox ++ [.batch b, .mark now] }
    (s.updVrv h fun _ => v).addf Reg.VRV_STATUS.batches h

/-- 1,000 ticks have passed since the batch opened. -/
def State.batchOld (s : State) (h : Nat) : Bool := (s.vrv h).opened.any fun o => o.tick + 1000 ≤ s.strata.tick

/-- Add a leaf to the batch of a half, opening one when there is none; the 256th closes it. A batch whose time is over takes none
(R178). -/
def State.addLeaf (s : State) (h : Nat) (leaf : List Byte) : State :=
  let s := if s.batchOld h then s.closeBatch h 2 else s
  let n := s.rf Reg.VRV_NEXT_LEAF.value h
  let o := match (s.vrv h).opened with
    | some o => { o with leaves := o.leaves ++ [leaf] }
    | none => OpenBatch.mk n (s.replica (hStop h)) s.strata.tick [leaf]
  let s := (s.updVrv h fun v => { v with opened := some o }).setf Reg.VRV_NEXT_LEAF.value h (n + 1)
  if 256 ≤ o.leaves.length then s.closeBatch h 1 else s

/-- LEDGER_COPY: the oldest copy of a half is hashed and indexed; copies wait while Varve is not ON. -/
def execLedgerCopy (h : Half) (s : State) : Out3 :=
  match (s.vrv h.val).copies with
  | [] => .next s
  | c :: rest =>
    if !s.blkOn Cls.vrv h.val then .next s
    else
      let a := s.rf Reg.VRV_LEAF.base h.val * 4096 + 8 * (s.rf Reg.VRV_NEXT_LEAF.value h.val % s.leafLog h.val)
      match s.varveWrite h.val a (c.bytes.take 4 ++ leBytes 2 c.ti ++ leBytes 2 c.gen) with
      | (false, s) => .next s
      | (true, s) => .next ((s.updVrv h.val fun v => { v with copies := rest }).addLeaf h.val c.leaf).logCheck

/-- A batch is to be closed by time. -/
def State.batchDue (s : State) (h : Nat) : Bool := s.batchOld h && s.blkOn Cls.vrv h

/-- BATCH_TIME_CLOSE: 1,000 ticks after it opened, the batch closes. -/
def execBatchTimeClose (h : Half) (s : State) : Out3 :=
  .next (if s.batchDue h.val then s.closeBatch h.val 2 else s)

/-! ## The merge (R180 to R182) -/

/-- The other half, while the device has it. -/
def State.secondary (s : State) : Option Nat := if s.sys.lostHalf.isSome then none else some (1 - s.strP)

/-- WATERMARK: the non-primary Varve, ON, sends its replica value. -/
def execWatermark (s : State) : Out3 :=
  match s.secondary with
  | none => .next s
  | some h =>
    if !s.blkOn Cls.vrv h then .next s
    else
      let w := s.replica (hStop h)
      .next (s.updVrv h fun v =>
        if v.outbox.isEmpty then { v with mark := some w } else { v with outbox := v.outbox ++ [.mark w] })

/-- The messages of the LDG class arrive: a batch, and the watermarks behind it. -/
def Vrv.arrive : Vrv → List LdgMsg → Vrv
  | v, .mark w :: rest => Vrv.arrive { v with mark := some w } rest
  | v, rest => { v with outbox := rest }

/-- BATCH_RECEIVE: the primary receives the other half's next batch. -/
def execBatchReceive (s : State) : Out3 :=
  match s.secondary with
  | none => .next s
  | some h => .next (s.updVrv h fun v =>
      match v.outbox with
      | .batch b :: rest => Vrv.arrive { v with queue := v.queue ++ [b] } rest
      | rest => Vrv.arrive v rest)

/-- The batch record's bytes 0x00 to 0x9F at position `j`. -/
def Batch.head (b : Batch) (j : Nat) (prev : List Byte) : List Byte :=
  leBytes 8 j ++ leBytes 8 b.number ++ leBytes 1 b.half ++ leBytes 1 b.flags ++ leBytes 2 b.count ++
    leBytes 2 b.epoch ++ leBytes 2 0 ++ leBytes 8 b.first ++ leBytes 12 (strataBits b.opened) ++
    leBytes 12 (strataBits b.closed) ++ leBytes 8 0 ++ b.root ++ prev

/-- The chain value before position `j` (R182). -/
def State.prevChain (s : State) (j : Nat) : List Byte :=
  if j = 0 then sha384Bytes (3#8 :: serialBytes ++ leBytes 8 s.bootCount) else s.ledger.chain

/-- Give a batch the next position of the chain and write its record; false when the write is refused. -/
def State.commitBatch (s : State) (b : Batch) : Bool × State :=
  let p := s.strP
  let j := s.rf Reg.VRV_NEXT_POS.value p
  let head := b.head j (s.prevChain j)
  let chain := sha384Bytes (2#8 :: head)
  let a := s.rf Reg.VRV_LOG.base p * 4096 + 256 * (j % s.batchLog p)
  match s.varveWrite p a (head ++ chain ++ List.replicate 48 0) with
  | (false, s) => (false, s)
  | (true, s) =>
    (true, ({ s with ledger := { s.ledger with chain := chain } }.setf Reg.VRV_NEXT_POS.value p (j + 1)).logCheck)

/-- The head of half `h`'s queue may merge (R181): the other queue's head closed later, or at the same stamp and `h` is 0, or
the other queue is empty and its watermark has passed. The lost half of HUSK is not waited for (R182). -/
def State.mayMerge (s : State) (h : Nat) (b : Batch) : Bool :=
  if s.sys.lostHalf.isSome then h == s.strP
  else match (s.vrv (1 - h)).queue with
    | o :: _ => b.closed < o.closed || (b.closed == o.closed && h == 0)
    | [] =>
      let w := if 1 - h = s.strP then some (s.replica (hStop (1 - h))) else (s.vrv (1 - h)).mark
      match w with | some w => b.closed ≤ w | none => false

/-- The half whose queue head merges next. -/
def State.mergePick (s : State) : Option (Nat × Batch) :=
  [0, 1].findSome? fun h => match (s.vrv h).queue with
    | b :: _ => if s.mayMerge h b then some (h, b) else none
    | [] => none

/-- BATCH_MERGE. -/
def execBatchMerge (s : State) : Out3 :=
  if !s.blkOn Cls.vrv s.strP then .next s
  else match s.mergePick with
    | none => .next s
    | some (h, b) =>
      match s.commitBatch b with
      | (false, s) => .next s
      | (true, s) => .next (s.updVrv h fun v => { v with queue := v.queue.drop 1 })

/-- The HUSK marker (R182): its batch number and first leaf are not stated, and are free values. -/
def State.huskMarker (s : State) (lost : Nat) : State :=
  let (n, s) := s.drawFree
  let (f, s) := s.drawFree
  let now := s.replica (hStop s.strP)
  let s := s.updVrv lost fun v => { v with queue := [], outbox := [], mark := none }
  let b : Batch := ⟨lost, n % 2 ^ 64, 8, 0, s.rf Reg.STR_STATUS.epoch s.strP, f % 2 ^ 64, now, now, List.replicate 48 0⟩
  let s := match s.commitBatch b with
    | (true, s) => s.setf Reg.VRV_STATUS.husk s.strP 1
    | (false, s) => s
  s.raise 0x08B .both s.strP 0

/-! ## Checkpoints (R184) -/

/-- The checkpoint's 256 bytes with no signature and status 0. -/
def State.ckptBytes (s : State) (number boundary pos : Nat) : List Byte :=
  let flags := (if s.strState = 2 then 0 else 1) + (if s.sys.mode = .husk then 2 else 0)
  [0x47#8, 0x57#8, 0x43#8, 0x4B#8] ++ leBytes 2 1 ++ leBytes 1 0 ++ leBytes 1 flags ++ leBytes 8 number ++ serialBytes ++
    leBytes 8 s.bootCount ++ leBytes 12 (strataBits boundary) ++ leBytes 2 (s.rf Reg.STR_STATUS.epoch s.strP) ++
    leBytes 2 0 ++ leBytes 8 pos ++ s.ledger.chain ++ List.replicate 144 0

/-- The descriptor of the signing task over the checkpoint at `a` (R101, R184). -/
def ckptDesc (gen pool key a : Nat) : List Byte :=
  leBytes 2 0x0104 ++ leBytes 2 gen ++ leBytes 1 pool ++ leBytes 3 0 ++ leBytes 8 key ++ leBytes 8 0 ++ leBytes 12 0 ++
    leBytes 4 0x80 ++ leBytes 8 a ++ leBytes 8 0 ++ leBytes 4 0 ++ leBytes 4 96 ++ leBytes 8 (a + 0x80) ++
    List.replicate 56 0

/-- Submit the signing task through queue 15 of VRV_CKPT_CTL.ti, ringing its doorbell as H (R304). -/
def State.ckptSubmit (s : State) (a : Nat) : State :=
  let p := s.strP
  let ti := s.rf Reg.VRV_CKPT_CTL.ti p
  let gen := s.tiGen ti
  let slot := s.rf Reg.TIF_SQ_STATE.tail ti 15
  match s.varveWrite p (s.slotAddr ti 15 slot)
      (ckptDesc gen (s.rf Reg.VRV_CKPT_CTL.pool p) (s.rf Reg.VRV_CKPT_KEY.handle p) a) with
  | (false, s) => s
  | (true, s) =>
    let s := { s with ledger := { s.ledger with signs := s.ledger.signs ++ [Sign.mk ti gen slot a (s.rf Reg.VRV_NEXT_POS.value p - 1) s.ledger.chain none] } }
    s.doorbell (hwReq (halfOf p) (hStop p)) ti 15 ((slot + 1) % s.sqSize ti 15)

/-- The last millisecond boundary of the master. -/
def State.boundaryAt (s : State) : Nat := s.strata.time / strataMs * strataMs

/-- The master has reached a millisecond boundary that has not been counted; the one it starts at is none. -/
def State.boundaryDue (s : State) : Bool := s.ledger.boundary.getD 0 != s.boundaryAt

/-- CHECKPOINT: the master is at a millisecond boundary, which time does not pass without it (log entry 1). Boundaries are counted
from 1 whether or not a checkpoint is formed. -/
def execCheckpoint (s : State) : Out3 :=
  let p := s.strP
  let b := s.boundaryAt
  if !s.boundaryDue then .next s
  else
    let number := s.ledger.ckptNo + 1
    let s := { s with ledger := { s.ledger with ckptNo := number, boundary := some b } }
    let next := s.rf Reg.VRV_NEXT_POS.value p
    if !s.blkOn Cls.vrv p || !s.rb Reg.VRV_CTL.ckpt_en p || !s.hpPresent p || next = 0 then .next s
    else
      let a := s.rf Reg.VRV_CKPT_LOG.base p * 4096 + 256 * (number % s.ckptLog p)
      match s.varveWrite p a (s.ckptBytes number b (next - 1)) with
      | (false, s) => .next s
      | (true, s) => .next (s.ckptSubmit a)

/-- CHECKPOINT_SIGN_DONE: the oldest signing task that has ended; its status goes to 0xE0 of its checkpoint. -/
def execCheckpointSignDone (s : State) : Out3 :=
  match s.ledger.signs.find? fun g => g.status.isSome with
  | none => .next s
  | some g =>
    let st := g.status.getD 0
    let s := { s with ledger := { s.ledger with signs := dropFirst (· == g) s.ledger.signs } }
    let (_, s) := s.varveWrite s.strP (g.addr + 0xE0) (leBytes 1 st)
    if st = Status.ok then .next { s with ledger := { s.ledger with signed := some (g.pos, g.chain) } }
    else .next ((s.addf Reg.VRV_STATUS.ckpt_fail s.strP).raise 0x08A .both s.strP 0)

/-! ## The archiver (R183) -/

/-- A consumer position is written: one below the current value or above the next is ignored. -/
def State.consWrite (s : State) (a : Actor) (h v : Nat) (cons next : Fld) : State :=
  if !cons.admits a || v < s.rf cons h || s.rf next h < v then s else (s.setf cons h v).logCheck

/-- VRV_CONS_WRITE: `leaf` chooses VRV_CONS_LEAF, else VRV_CONS_POS. -/
def execVrvConsWrite (q : Requester) (h : Half) (leaf : Bool) (v : Word) (s : State) : Out3 :=
  .next (s.withAccess q .write Cls.vrv h.val (if leaf then 0x138 else 0x130) fun s =>
    if leaf then s.consWrite q.actor h.val v.toNat Reg.VRV_CONS_LEAF.value Reg.VRV_NEXT_LEAF.value
    else s.consWrite q.actor h.val v.toNat Reg.VRV_CONS_POS.value Reg.VRV_NEXT_POS.value)

/-- VRV_STATUS_READ. -/
def execVrvStatusRead (q : Requester) (h : Half) (s : State) : Out3 :=
  .next (s.readCmd q Cls.vrv h.val Reg.VRV_STATUS.reg 0 id)

end Sys2Proof.Machine
end

