-- ==== Sys2Proof/Machine/PwrCore.lean ====
section
/-!
DEFINITION. PwrCore: power and clock domains going down and up, and Hardpan's holds on them (R147 to R150, R396).
-/
namespace Sys2Proof.Machine

/-! ## Domains (R147) -/

/-- The world of an actor code for events (R34). -/
def actorTo (code : Nat) : EvTo := ownerEvTo code

/-- The domain is a Hardpan core's, which hardware holds. -/
def State.hwHeld (s : State) (h d : Nat) : Bool := d < 136 && s.coreIsHardpan (domCore h d)

/-- An engine without power loses its key registers, modulus latch, cache and locks (R396). -/
def Engine.powerOff (k : Engine) : Engine := { k.zeroKeys with cache := [], locks := 0 }

/-- An engine with power again reloads its IRAM (R397). -/
def State.enginePowerOn (s : State) (e : Nat) : State :=
  match if s.isMember e && !(s.eng e).stale then s.boundImage (engCluster e) (s.poolOf e) else none with
  | some i => s.updEng e fun k => { k with iram := some i }
  | none => s

/-- The domain's state as PWR_DOM keeps it for all but core domains. -/
def State.setDom (s : State) (h d v : Nat) : State := s.setf Reg.PWR_DOM.state h v d

/-- The state of a cluster's engines changes. -/
def State.clusterPower (s : State) (c v : Nat) : State :=
  let s := s.setDom (c / 8) (136 + c % 8) v
  if v = 2 || v = 3 then (clusterEngines c).foldl (fun s e => if s.eng e = Engine.empty then s else s.updEng e Engine.powerOff) s
  else if v = 0 then (clusterEngines c).foldl State.enginePowerOn s
  else s

/-- A core without power keeps nothing. -/
def State.corePowerOff (s : State) (c : Nat) : State := (s.coreReset c).updCore c fun k => { k with run := .off }

/-- A slumber takes effect: the core's caches are written back and invalidated (R247). -/
def State.coreSlumber (s : State) (c : Nat) : State :=
  (s.coreDrain c).updCore c fun k => { k.flushRealms [0, 1, 2] with run := .slumber, tlb := [], dvfsPending := false }

/-- A request takes effect on a domain: `want` 1 gates it, 2 powers it off. -/
def State.domDown (s : State) (h d want : Nat) : State :=
  if d < 136 then
    let c := domCore h d
    if want = 2 then s.corePowerOff c
    else s.updCore c fun k => if k.run = .running then { k with run := .doze } else k
  else if 136 ≤ d && d < 144 then s.clusterPower (8 * h + (d - 136)) want
  else s.setDom h d want

/-- A domain runs again. A core that was off is in core reset; one that dozes or slumbers of its own accord is left to its
wake sources. -/
def State.domUp (s : State) (h d : Nat) : State :=
  if d < 136 then s.updCore (domCore h d) fun k => if k.run = .off then { k with run := .reset } else k
  else if 136 ≤ d && d < 144 then s.clusterPower (8 * h + (d - 136)) 0
  else s.setDom h d 0

/-! ## Holds (R148, R149) -/

def State.held (s : State) (h d : Nat) : Bool := s.rb Reg.PWR_HOLD.hold h d

/-- Latch a gate (1) or power-off (2) request on a held domain. -/
def State.latchReq (s : State) (h d want : Nat) : State :=
  (s.setf (if want = 2 then Reg.PWR_HOLD.pend_off else Reg.PWR_HOLD.pend_gate) h 1 d).setf
    Reg.PWR_HOLD.last_status h Status.pendingHeld d

/-- The latched requests of a domain are dropped. -/
def State.clearPend (s : State) (h d : Nat) : State :=
  let s := (s.setf Reg.PWR_HOLD.pend_gate h 0 d).setf Reg.PWR_HOLD.pend_off h 0 d
  let s := (s.setf Reg.PWR_HOLD.pend_scale h 0 d).setf Reg.PWR_HOLD.pend_mhz h 0 d
  if d < 136 then s.updCore (domCore h d) fun k => { k with dvfsPending := false } else s

/-- A newly held domain is brought up to a running state at or above its floor, and what held it down is latched. -/
def State.raiseHeld (s : State) (h d : Nat) : State :=
  if d < 136 then
    let c := domCore h d
    let k := s.core c
    let s := match k.run with
      | .off => (s.domUp h d).latchReq h d 2
      | .slumber => ((s.updCore c fun k => { k with run := .doze, dvfsPending := true }).latchReq h d 2)
      | _ => s
    if k.granted < s.rf Reg.PWR_HOLD.floor_mhz h d then s.regrant c true else s
  else if d = 144 then
    -- the mesh of the half runs at 2,000 or 1,500 MHz
    if SMap.get false s.sys.meshSlow h && 1500 < s.rf Reg.PWR_HOLD.floor_mhz h d then
      let s := { s with pwr := { s.pwr with meshPower := SMap.set false s.pwr.meshPower h false } }
      ((s.setf Reg.PWR_HOLD.pend_scale h 1 d).setf Reg.PWR_HOLD.pend_mhz h 1500 d).setMesh
    else s
  else
    match s.domState h d with
    | 0 => s
    | st => (s.domUp h d).latchReq h d (if st = 1 then 1 else 2)

/-- PWR_HOLD is written: Hardpan cores' domains stay held. -/
def State.pwrHold (s : State) (a : Actor) (h d v : Nat) : State :=
  if !Reg.PWR_HOLD.hold.admits a then s
  else
    let s := s.storeReg a h d v allOnes [Reg.PWR_HOLD.floor_mhz, Reg.PWR_HOLD.lost]
    let hold := s.hwHeld h d || Reg.PWR_HOLD.hold.of v == 1
    let s := s.setf Reg.PWR_HOLD.hold h (b2n hold) d
    if hold then s.raiseHeld h d else s

/-- PWR_HOLD_WRITE. -/
def execPwrHoldWrite (q : Requester) (h : Half) (d : Fin 159) (v : Word) (s : State) : Out3 :=
  .next (s.writeReg q Cls.pwr h.val (0x2000 + 8 * d.val) v.toNat fun s => s.pwrHold q.actor h.val d.val v.toNat)

/-- The domain has a latched request. -/
def State.hasPend (s : State) (h d : Nat) : Bool :=
  s.rb Reg.PWR_HOLD.pend_gate h d || s.rb Reg.PWR_HOLD.pend_off h d || s.rb Reg.PWR_HOLD.pend_scale h d

/-- The requests of a domain no longer held take effect: a power-off supersedes a gate, and a scale request applies when the
domain stays on. A core that latched its slumber and still dozes slumbers. -/
def State.applyLatched (s : State) (h d : Nat) : State :=
  let off := s.rb Reg.PWR_HOLD.pend_off h d
  let gate := s.rb Reg.PWR_HOLD.pend_gate h d
  let scale := s.rb Reg.PWR_HOLD.pend_scale h d
  let s := s.clearPend h d
  let s :=
    if off then
      if d < 136 && !s.rb Reg.PWR_DOM.off h d then
        if (s.core (domCore h d)).run = .doze then s.coreSlumber (domCore h d) else s
      else s.domDown h d 2
    else
      let s := if gate then s.domDown h d 1 else s
      if scale && d < 136 then s.regrant (domCore h d) true else if scale then s.setMesh else s
  s.raise 0x072 .topsoil h d

/-- LATCHED_REQUEST_APPLY. -/
def execLatchedRequestApply (h : Half) (d : Fin 159) (s : State) : Out3 :=
  if s.held h.val d.val || !s.hasPend h.val d.val then .next s else .next (s.applyLatched h.val d.val)

/-- Every hold but those of Hardpan cores is cleared, and latched requests apply (R153 step 2). -/
def State.clearHolds (s : State) : State :=
  [0, 1].foldl (fun s h => (List.range 159).foldl (fun s d =>
    if !s.held h d || s.hwHeld h d then s
    else
      let s := s.setf Reg.PWR_HOLD.hold h 0 d
      if s.hasPend h d then s.applyLatched h d else s) s) s

end Sys2Proof.Machine
end

