-- ==== Sys2Proof/Machine/Hardpan.lean ====
section
/-!
DEFINITION. Hardpan: the walker and invalidations of the POT, forced unwinds, physical losses of power, Hardpan's absence and
restart, SEAL and the debug enables (R131, R134 to R138, R144, R146, R150 to R153, R157, R158, R491).
-/
namespace Sys2Proof.Machine

/-! ## The POT (R134 to R137) -/

/-- POT_ARM: a write of POT_CTL. -/
def execPotArm (q : Requester) (h : Half) (v : Word) (s : State) : Out3 :=
  .next (s.writeReg q Cls.pot h.val 0x100 v.toNat fun s => s.storeReg q.actor h.val 0 v.toNat allOnes Reg.POT_CTL.reg.fields)

/-- What a POT cache keeps for an invalid entry. -/
def potMarker : Nat := 2 ^ 32

/-- Fill a checker's cache with the entry `idx` of a table, as the walker of half `h` reads it. -/
def State.potFill (s : State) (h checker table idx : Nat) : State :=
  let (e, bad) := s.potWalk h table idx
  let e := if bad || potInvalid table e then potMarker else e
  { s with potCache := SMap.upd [] s.potCache checker fun m => SMap.set 0 m (table * 2 ^ 40 + idx) (w64 e) }

/-- The indices of the table that one 64-byte line holds. -/
def potLine (table idx : Nat) : List Nat := if table = 3 then [idx] else (List.range 8).map fun k => idx / 8 * 8 + k

/-- POT_WALK: the walk for a requester's access returns, and the checker's cache takes the line's entries. -/
def execPotWalk (q : Requester) (a : Word) (s : State) : Out3 :=
  match s.potIndex a.toNat with
  | none => .next s
  | some (t, i) =>
    let (h, c) := s.checkerOf q a.toNat
    if !s.rb Reg.POT_CTL.armed h then .next s
    else .next ((potLine t i).foldl (fun s k => s.potFill h c t k) s)

/-- POT_INVAL is written (R137). -/
def State.potInval (s : State) (a : Actor) (h v : Nat) : State :=
  if !Reg.POT_INVAL.go.admits a then s
  else if Reg.POT_INVAL.go.of v = 1 && s.rb Reg.POT_INVAL.busy h then
    s.setf Reg.POT_INVAL.last_status h Status.busy
  else
    let s := s.storeReg a h 0 v allOnes
      [Reg.POT_INVAL.count, Reg.POT_INVAL.table, Reg.POT_INVAL.flush, Reg.POT_INVAL.all]
    if Reg.POT_INVAL.go.of v = 1 then s.setf Reg.POT_INVAL.busy h 1 else s

/-- POT_INVAL_GO: the write whose go is 1. -/
def execPotInvalGo (q : Requester) (h : Half) (v : Word) (s : State) : Out3 :=
  .next (s.writeReg q Cls.pot h.val 0x148 (v.toNat ||| 2 ^ 32) fun s => s.potInval q.actor h.val (v.toNat ||| 2 ^ 32))

/-- The range that an invalidation of half `h` names holds the entry. In table 3 index j names port 4·half + j. -/
def State.invalHits (s : State) (h table idx : Nat) : Bool :=
  let first := s.rf Reg.POT_INVAL_ADDR.index h + (if table = 3 then 4 * h else 0)
  let last := first + max 1 (s.rf Reg.POT_INVAL.count h)
  s.rb Reg.POT_INVAL.all h ||
    (s.rf Reg.POT_INVAL.table h == table && first ≤ idx && idx < (if table = 3 then min last (4 * h + 4) else last))

/-- Lines of the range leave every core's caches and every engine cache; a locked way keeps its lock. -/
def State.invalFlush (s : State) (h : Nat) : State :=
  let hit := fun line => match s.potIndex (line * 64) with | some (t, i) => s.invalHits h t i | none => false
  let s1 := (SMap.keys s.coh.lines).foldl (fun x line => if hit line then x.dropLine line else x) s
  let drop := fun (c : Option CacheLine) => match c with | some l => if hit l.line then none else some l | none => none
  (SMap.keys s1.engines).foldl (fun x e => x.updEng e fun k =>
    { k with cache := (SMap.keys k.cache).foldl (fun m w => SMap.upd none m w drop) k.cache }) s1

/-- POT_INVAL_DONE: no cache of either half holds an entry of the range, nor an IOTU of the half one that table 3 covers
(R137, R437). -/
def execPotInvalDone (h : Half) (s : State) : Out3 :=
  if !s.rb Reg.POT_INVAL.busy h.val then .next s
  else
    let keep := fun (p : Nat × Word) => !s.invalHits h.val (p.1 / 2 ^ 40) (p.1 % 2 ^ 40)
    let cache := (SMap.keys s.potCache).foldl (fun m c => SMap.upd [] m c fun x => x.filter keep) s.potCache
    let s := if s.rb Reg.POT_INVAL.flush h.val then s.invalFlush h.val else s
    let iotu := s.prt.iotu.filter fun p => p.1 / 4 != h.val || !s.invalHits h.val 3 p.1
    let s := { s with potCache := cache, prt := { s.prt with iotu := iotu } }
    .next ((s.setf Reg.POT_INVAL.busy h.val 0).setf Reg.POT_INVAL.last_status h.val Status.ok)

/-- POT_FAULT_READ. -/
def execPotFaultRead (q : Requester) (h : Half) (s : State) : Out3 :=
  .next (s.readCmd q Cls.pot h.val Reg.POT_FAULT.reg 0 fun s =>
    { s with sys := { s.sys with potSpent := SMap.set false s.sys.potSpent h.val false } })

/-! ## Forced unwind (R144) -/

/-- FORCED_UNWIND_TIMEOUT: a Topsoil core's stay in Hardpan world has lasted stub_limit. -/
def execForcedUnwindTimeout (c : CoreId) (s : State) : Out3 :=
  if (s.core c.val).hard && !s.coreIsHardpan c.val then .next (s.updCore c.val (Core.unwind · Status.timeout)) else .next s

/-- FORCED_UNWIND_ABSENT: 2 µs after Hardpan left PRESENT the core is still in the stub. -/
def execForcedUnwindAbsent (c : CoreId) (s : State) : Out3 :=
  let k := s.core c.val
  if k.hard && k.inStub && !s.coreIsHardpan c.val && !s.hpPresent (coreHalf c.val) then
    .next (s.updCore c.val (Core.unwind · Status.hpAbsent))
  else .next s

/-! ## Hardpan's cores -/

def State.hpnBoth (s : State) (f : Fld) (v : Nat) : State := (s.setf f 0 v).setf f 1 v

/-- The Hardpan cores are put in core reset (R153, R472). -/
def State.resetHardpanCores (s : State) : State :=
  s.hardpanCores.foldl (fun s l => s.coreReset (s.physOf l)) s

/-- The clock of a core after reset (R248). -/
def State.resetMhz (s : State) : Nat := if s.sys.trimmed then 2600 else 2400

/-- A core in core reset starts (R466): at M on Hardpan cores, at V on Topsoil cores. Tilth grants anew where a limit in force
lies below the reset clock. -/
def State.startCore (s : State) (p pc : Nat) : State :=
  if (s.core p).run != .reset then s
  else
    let f := s.resetMhz
    let s := s.updCore p fun k =>
      { k.toReset (s.coreIsHardpan p) with run := .running, pc := w64 (pc / 4 * 4), curMhz := f, granted := f }
    if (s.dvfsGrant p).1 < f then s.regrant p true else s

/-- The Hardpan core whose boot ROM takes the image: the highest reserved logical ID of the primary (R464). -/
def State.bootCore (s : State) : Nat := s.physOf (128 * s.strP + 127)

/-- Where the verified image starts is not given: a free value. -/
def State.startHardpan (s : State) : State := let (r, s) := s.drawFree; s.startCore s.bootCore (r % 2 ^ 52)

/-! ## SEAL (R158) -/

/-- An engine in SEAL: its task and queued entries are dropped and its keys zeroized. -/
def Engine.sealed (k : Engine) : Engine :=
  { k.zeroKeys with task := none, deque := [], posted := [], stall := .none, stepping := false, storeFault := none,
                    run := if k.run = .detached || k.run = .lost then k.run else .idle }

/-- SEAL with a cause of HPN_TAMPER.first_cause. -/
def State.sealNow (s : State) (cause : Nat) : State :=
  if s.rb Reg.HPN_TAMPER.latch 0 || s.sys.mode = .off || s.sys.mode = .watch then s
  else
    let s := ((s.noteSignals).hpnBoth Reg.HPN_TAMPER.latch 1).hpnBoth Reg.HPN_TAMPER.first_cause cause
    let s := { s with tlt := { s.tlt with vaonArm := s.rf Reg.HPN_TAMPER.arm 0 } }
    let s := (SMap.keys s.engines).foldl (fun s e => s.updEng e Engine.sealed) s
    let s := (SMap.keys s.clusters).foldl (fun s c => s.updCluster c fun k => { k with inj := [] }) s
    let s := (SMap.keys s.dsp).foldl (fun s h => s.updDsp h fun d =>
      { d with reads := [], held := [], arriving := [], tilth := [] }) s
    let s := { s with steals := [], fans := [], custody := Custody.empty, keySlots := [] }
    let s := (s.resetHardpanCores.hpnBoth Reg.HPN_STATUS.state 4).setf Reg.HPN_KEY_CMD.busy s.strP 0
    let s := [Reg.HPN_DEBUG.t_noninv, Reg.HPN_DEBUG.t_inv, Reg.HPN_DEBUG.h_noninv, Reg.HPN_DEBUG.h_inv].foldl
      (fun s f => s.hpnBoth f 0) s
    (s.toMode .seal 0x13).raise 0x079 .topsoil s.strP 0

/-- TAMPER_AUX holds its claim (R37). -/
def State.tamperAux (s : State) : Bool := s.claimHeld 64 && s.rf Reg.PRT_CLAIM.owner_actor 0 64 == 2

/-- TAMPER_AUX's readings count: it has held its land for 10 µs (R454). -/
def State.tamperAuxReads (s : State) : Bool := s.tamperAux && s.prt.landFrom + 10000 ≤ s.strata.tick

/-- TAMPER_TRIP: loop `l` reads bad for the debounce time; loop 4 is TAMPER_AUX. In WATCH an armed loop sets the seal latch
and wakes the device (R398). -/
def execTamperTrip (l : Fin 5) (s : State) : Out3 :=
  if s.sys.mode = .watch then
    if l.val < 4 && s.tlt.vaonArm.testBit l.val then
      let s := (s.hpnBoth Reg.HPN_TAMPER.latch 1).hpnBoth Reg.HPN_TAMPER.first_cause (l.val + 1)
      .next ((s.toMode .root 0x03).hpnBoth Reg.PWR_WATCH.wake_cause 2)
    else .next s
  else if s.sys.mode = .off then .next s
  else if l.val = 4 && !s.tamperAuxReads then .next s
  else if (s.rf Reg.HPN_TAMPER.arm 0).testBit l.val then .next (s.sealNow (l.val + 1))
  else
    let t := s.rf Reg.HPN_TAMPER.tripped 0 ||| 2 ^ l.val
    .next ((s.hpnBoth Reg.HPN_TAMPER.tripped t).raise 0x078 .both s.strP l.val)

/-- HPN_TAMPER is written: both halves hold the value. -/
def State.tamperWrite (s : State) (a : Actor) (v : Nat) : State :=
  let fs := [Reg.HPN_TAMPER.arm, Reg.HPN_TAMPER.tripped, Reg.HPN_TAMPER.debounce]
  let s := (s.storeReg a 0 0 v allOnes fs).storeReg a 1 0 v allOnes fs
  if Reg.HPN_TAMPER.seal_now.admits a && Reg.HPN_TAMPER.seal_now.of v = 1 then s.sealNow 6 else s

/-- SEAL_NOW: a write of HPN_TAMPER with seal_now = 1. -/
def execSealNow (q : Requester) (h : Half) (v : Word) (s : State) : Out3 :=
  .next (s.writeReg q Cls.hpn h.val 0x150 (v.toNat ||| 2 ^ 32) fun s => s.tamperWrite q.actor (v.toNat ||| 2 ^ 32))

/-! ## Physical loss of power (R150) -/

/-- The key material of a domain is zeroized. The custody cache of domain 156 holds copies of objects alone. -/
def State.zeroizeDomain (s : State) (h d : Nat) : State :=
  if 136 ≤ d && d < 144 then
    (clusterEngines (8 * h + (d - 136))).foldl (fun s e =>
      if s.eng e = Engine.empty then s else s.updEng e Engine.zeroKeys) s
  else if 145 ≤ d && d < 153 then s.loseKeyTable (8 * h + (d - 145))
  else s

/-- A VCORE rail feeds a Hardpan core. -/
def State.railFeedsHardpan (s : State) (r : Nat) : Bool :=
  r < 4 && s.hardpanCores.any fun l => coreRail (s.physOf l) == r

/-- DOMAIN_POWER_LOSS: a held domain has lost power; `rail` names the rail that fell, or 14 when its power switch opened. -/
def execDomainPowerLoss (h : Half) (d : Fin 159) (rail : Fin 15) (s : State) : Out3 :=
  if !s.held h.val d.val then .next s
  else
    let s := (s.zeroizeDomain h.val d.val).domDown h.val d.val 2
    let s := (s.setf Reg.PWR_HOLD.lost h.val 1 d.val).raise 0x073 .hardpan h.val d.val
    .next (if rail.val = 11 || s.railFeedsHardpan rail.val then s.sealNow 7 else s)

/-! ## Absence and restart (R152, R153, R491) -/

/-- Hardpan is PRESENT. With its first heartbeat after ROOT Tilth writes the VAON-held record, also where boots failed before; one
that is there stays as it is (R151). -/
def State.hardpanThere (s : State) : State :=
  let s := ({ s with sys := { s.sys with vaonRecord := true } }.storeSoon (.boot true)).2
  ((s.hpnBoth Reg.HPN_STATUS.state 1).hpnBoth Reg.HPN_RESTART.fails 0).raiseBoth 0x071 .topsoil 0

/-- HPN_HEARTBEAT is written: a changed value in the primary is a heartbeat, and the first after a boot or restart makes
Hardpan PRESENT. -/
def State.heartbeat (s : State) (a : Actor) (h v : Nat) : State :=
  if !Reg.HPN_HEARTBEAT.count.admits a then s
  else
    let old := s.rf Reg.HPN_HEARTBEAT.count h
    let s := s.setf Reg.HPN_HEARTBEAT.count h (Reg.HPN_HEARTBEAT.count.of v)
    let st := s.rf Reg.HPN_STATUS.state h
    if h = s.strP && old != s.rf Reg.HPN_HEARTBEAT.count h && (st = 0 || st = 3) then s.hardpanThere else s

/-- HEARTBEAT. -/
def execHeartbeat (q : Requester) (h : Half) (v : Word) (s : State) : Out3 :=
  .next (s.writeReg q Cls.hpn h.val 0x108 v.toNat fun s => s.heartbeat q.actor h.val v.toNat)

/-- HARDPAN_FIRST_HEARTBEAT: the write that makes Hardpan PRESENT. -/
def execHardpanFirstHeartbeat (q : Requester) (h : Half) (v : Word) (s : State) : Out3 :=
  .next (s.writeReg q Cls.hpn h.val 0x108 v.toNat fun s => s.heartbeat q.actor h.val v.toNat)

/-- HARDPAN_ABSENT: no changed value for 1 ms. Queued work of Hardpan pools ends with HP_ABSENT. -/
def execHardpanAbsent (s : State) : Out3 :=
  if !s.hpPresent s.strP then .next s
  else
    let s := ((s.noteSignals).hpnBoth Reg.HPN_STATUS.state 2).raiseBoth 0x070 .topsoil 0
    let (gone, s) := s.removeQueued fun h p _ => s.poolWorld h p == .hardpan
    .next (gone.foldl (fun s e => s.dspMake (e.dspRec Status.hpAbsent 0xFFFF)) s)

/-- Pending and active secure interrupts of the Hardpan cores are cleared. -/
def State.clearSecure (s : State) : State :=
  let mine := fun l => s.isHardpanCore l
  let s1 := (SMap.keys s.evh.pend).foldl (fun x key =>
    if s.keyLevel key = 2 && mine (s.keyTarget key) then x.clearPending key else x) s
  { s1 with evh := { s1.evh with active := s1.evh.active.filter fun a => !(a.level == 2 && mine a.core) } }

/-- Mark every mailbox slot empty. -/
def State.emptyMailboxes (s : State) : State :=
  let h := s.strP
  let bs := (List.range 64).map Config.emptyMailbox
  (List.range 256).foldl (fun s l =>
    (s.writeMem (hwReq (halfOf h) (hStop h)) (s.rf Reg.HPN_CALL_CTL.mbox_base h * 4096 + 64 * l) bs).2) s

/-- A restart begins: steps 1 and 2 of R153. -/
def State.hardpanRestart (s : State) : State :=
  let n := min 0xFF (s.rf Reg.HPN_STATUS.restarts 0 + 1)
  let s := ((s.noteSignals).hpnBoth Reg.HPN_STATUS.state 3).hpnBoth Reg.HPN_STATUS.restarts n
  s.resetHardpanCores.clearSecure.emptyMailboxes.clearHolds

/-- HARDPAN_AUTO_RESTART: 5 ms after the declaration or the return to ABSENT, with auto = 1. -/
def execHardpanAutoRestart (s : State) : Out3 :=
  if s.rf Reg.HPN_STATUS.state s.strP = 2 && s.rb Reg.HPN_RESTART.auto s.strP then .next s.hardpanRestart else .next s

/-- HPN_RESTART is written. -/
def State.restartWrite (s : State) (a : Actor) (h v : Nat) : State :=
  let s := s.storeReg a h 0 v allOnes [Reg.HPN_RESTART.auto]
  if Reg.HPN_RESTART.go.admits a && Reg.HPN_RESTART.go.of v = 1 && s.rf Reg.HPN_STATUS.state h = 2 then s.hardpanRestart
  else s

/-- HPN_RESTART_GO: the write whose go is 1. -/
def execHpnRestartGo (q : Requester) (h : Half) (v : Word) (s : State) : Out3 :=
  .next (s.writeReg q Cls.hpn h.val 0x110 (v.toNat ||| 2) fun s => s.restartWrite q.actor h.val (v.toNat ||| 2))

/-- HARDPAN_IMAGE_VERIFIED: the image read from the store passed its check; the boot core starts its firmware. -/
def execHardpanImageVerified (s : State) : Out3 :=
  let st := s.rf Reg.HPN_STATUS.state s.strP
  if st = 3 || (st = 0 && s.tuning) then .next s.startHardpan else .next s

/-- RESTART_TIMEOUT: 100 ms without the first heartbeat. -/
def execRestartTimeout (s : State) : Out3 :=
  if s.rf Reg.HPN_STATUS.state s.strP != 3 then .next s
  else
    let n := min 3 (s.rf Reg.HPN_RESTART.fails s.strP + 1)
    let s := (s.hpnBoth Reg.HPN_STATUS.state 2).hpnBoth Reg.HPN_RESTART.fails n
    .next (if n = 3 then s.hpnBoth Reg.HPN_RESTART.auto 0 else s)

/-! ## Debug enables (R146) -/

/-- HPN_DEBUG is written: both halves hold the value. Locks freeze their bits, and SEAL all four. -/
def State.hpnDebug (s : State) (a : Actor) (v : Nat) : State :=
  let open_ := s.sys.mode != .seal
  let fs := (if open_ && !s.rb Reg.HPN_DEBUG.t_lock 0 then [Reg.HPN_DEBUG.t_noninv, Reg.HPN_DEBUG.t_inv] else []) ++
    (if open_ && !s.rb Reg.HPN_DEBUG.h_lock 0 then [Reg.HPN_DEBUG.h_noninv, Reg.HPN_DEBUG.h_inv] else []) ++
    [Reg.HPN_DEBUG.t_lock, Reg.HPN_DEBUG.h_lock]
  (s.storeReg a 0 0 v allOnes fs).storeReg a 1 0 v allOnes fs

/-- HPN_DEBUG_WRITE. -/
def execHpnDebugWrite (q : Requester) (h : Half) (v : Word) (s : State) : Out3 :=
  .next (s.writeReg q Cls.hpn h.val 0x140 v.toNat fun s => s.hpnDebug q.actor v.toNat)

end Sys2Proof.Machine
end

