-- ==== Sys2Proof/Machine/Deflate.lean ====
section
/-!
DEFINITION. Deflate: DEFLATE (RFC 1951), gzip's CRC-32 (RFC 1952) and the decoder's partial results, as Kaolin uses them
(R337, R338, R340, R342). What the spec leaves to Kaolin, the candidates of a search and the dynamic codes, is free, and only a
valid choice is taken.
-/
namespace Sys2Proof.Machine

/-! ## Bits and CRC-32 -/

/-- `n` bits of `v`, least significant first. -/
def lsbBits : Nat → Nat → List Bool
  | 0, _ => []
  | n + 1, v => (v % 2 == 1) :: lsbBits n (v / 2)

/-- A Huffman code of `n` bits, most significant first. -/
def msbBits (n v : Nat) : List Bool := (lsbBits n v).reverse

def bitsOfBytes (bs : List Byte) : List Bool := bs.flatMap fun b => lsbBits 8 b.toNat

def natOfBits : List Bool → Nat
  | [] => 0
  | b :: bs => b2n b + 2 * natOfBits bs

/-- Whole bytes of a bit string, and the bits left over. -/
def packBits : Nat → List Bool → List Byte × List Bool
  | 0, bs => ([], bs)
  | n + 1, bs =>
    if bs.length < 8 then ([], bs)
    else
      let (r, rest) := packBits n (bs.drop 8)
      (BitVec.ofNat 8 (natOfBits (bs.take 8)) :: r, rest)

def crcByte : Nat → Nat → Nat
  | 0, c => c
  | n + 1, c => crcByte n (if c % 2 = 1 then (c / 2) ^^^ 0xEDB88320 else c / 2)

/-- CRC-32 continued over more bytes; 0 starts one. -/
def crc32 (c : Nat) (bs : List Byte) : Nat :=
  (bs.foldl (fun x b => crcByte 8 (x ^^^ b.toNat)) (c ^^^ 0xFFFFFFFF)) ^^^ 0xFFFFFFFF

/-! ## Canonical Huffman codes -/

/-- The first code of each length. -/
def firstCode (lens : List Nat) : Nat → Nat
  | 0 => 0
  | n + 1 => 2 * (firstCode lens n + (if n = 0 then 0 else (lens.filter (· == n)).length))

/-- The code of symbol `sym`: its length and value. -/
def codeOf (lens : List Nat) (sym : Nat) : Nat × Nat :=
  let l := lens.getD sym 0
  (l, firstCode lens l + ((lens.take sym).filter (· == l)).length)

/-- The code as length, value and symbol. -/
def codeTable (lens : List Nat) : List (Nat × Nat × Nat) :=
  ((List.range lens.length).filter fun k => lens.getD k 0 != 0).map fun k => let c := codeOf lens k; (c.1, c.2, k)

/-- Kraft's sum in units of 2^-15: 2^15 when the code is complete. -/
def kraft (lens : List Nat) : Nat := (lens.map fun l => if l = 0 then 0 else 2 ^ (15 - l)).sum

/-! ## Tables of RFC 1951 -/

def lengthTable : List (Nat × Nat) :=
  [(3, 0), (4, 0), (5, 0), (6, 0), (7, 0), (8, 0), (9, 0), (10, 0), (11, 1), (13, 1), (15, 1), (17, 1), (19, 2), (23, 2),
   (27, 2), (31, 2), (35, 3), (43, 3), (51, 3), (59, 3), (67, 4), (83, 4), (99, 4), (115, 4), (131, 5), (163, 5), (195, 5),
   (227, 5), (258, 0)]

def distTable : List (Nat × Nat) :=
  [(1, 0), (2, 0), (3, 0), (4, 0), (5, 1), (7, 1), (9, 2), (13, 2), (17, 3), (25, 3), (33, 4), (49, 4), (65, 5), (97, 5),
   (129, 6), (193, 6), (257, 7), (385, 7), (513, 8), (769, 8), (1025, 9), (1537, 9), (2049, 10), (3073, 10), (4097, 11),
   (6145, 11), (8193, 12), (12289, 12), (16385, 13), (24577, 13)]

def clOrder : List Nat := [16, 17, 18, 0, 8, 7, 9, 6, 10, 5, 11, 4, 12, 3, 13, 2, 14, 1, 15]

def fixedLit : List Nat :=
  List.replicate 144 8 ++ List.replicate 112 9 ++ List.replicate 24 7 ++ List.replicate 8 8

def fixedDist : List Nat := List.replicate 30 5

/-- The last row of a table whose base is at most `v`. -/
def rowFor (t : List (Nat × Nat)) (v : Nat) : Nat := (t.filter fun r => r.1 ≤ v).length - 1

/-! ## Decoding -/

/-- Where a decoder stands. -/
inductive InflStat where
  | middle | boundary | final | error (detail : Nat)
deriving DecidableEq, Repr

/-- What has been decoded: the output with the newest byte first, history included, the bits left, and where it stands. -/
structure Infl where
  out : List Byte
  rest : List Bool
  stat : InflStat
deriving DecidableEq, Repr

/-- Take `n` bits as a number. -/
def takeBits (n : Nat) (bs : List Bool) : Option (Nat × List Bool) :=
  if bs.length < n then none else some (natOfBits (bs.take n), bs.drop n)

/-- Decode one symbol: none when the input ends; `some none` for a code that names nothing. -/
def decodeSym (t : List (Nat × Nat × Nat)) : Nat → Nat → Nat → List Bool → Option (Option (Nat × List Bool))
  | 0, _, _, _ => some none
  | _ + 1, _, _, [] => none
  | n + 1, len, code, b :: bs =>
    let c := 2 * code + b2n b
    match t.find? fun r => r.1 == len + 1 && r.2.1 == c with
    | some r => some (some (r.2.2, bs))
    | none => decodeSym t n (len + 1) c bs

def symAt (t : List (Nat × Nat × Nat)) (bs : List Bool) : Option (Option (Nat × List Bool)) := decodeSym t 15 0 0 bs

/-- Repeat bytes at a distance. -/
def copyMatch (dist : Nat) : Nat → List Byte → List Byte
  | 0, out => out
  | n + 1, out => copyMatch dist n (out.getD (dist - 1) 0 :: out)

/-- The symbols of a block: each round takes at least one bit. -/
def inflSyms (lit dist : List (Nat × Nat × Nat)) : Nat → List Byte → List Bool → Infl
  | 0, out, bs => ⟨out, bs, .middle⟩
  | fuel + 1, out, bs =>
    match symAt lit bs with
    | none => ⟨out, bs, .middle⟩
    | some none => ⟨out, bs, .error 0x02⟩
    | some (some (sym, r)) =>
      if sym < 256 then inflSyms lit dist fuel (BitVec.ofNat 8 sym :: out) r
      else if sym = 256 then ⟨out, r, .boundary⟩
      else if 285 < sym then ⟨out, bs, .error 0x02⟩
      else
        let (base, ext) := lengthTable.getD (sym - 257) (3, 0)
        match takeBits ext r with
        | none => ⟨out, bs, .middle⟩
        | some (x, r) =>
          match symAt dist r with
          | none => ⟨out, bs, .middle⟩
          | some none => ⟨out, bs, .error 0x02⟩
          | some (some (ds, r)) =>
            if 29 < ds then ⟨out, bs, .error 0x02⟩
            else
              let (db, de) := distTable.getD ds (1, 0)
              match takeBits de r with
              | none => ⟨out, bs, .middle⟩
              | some (y, r) =>
                if out.length < db + y then ⟨out, bs, .error 0x03⟩
                else inflSyms lit dist fuel (copyMatch (db + y) (base + x) out) r

/-- Code lengths of a dynamic block, run-length coded. `none` when the input ends, `some none` when they are invalid. -/
def readLens (t : List (Nat × Nat × Nat)) : Nat → Nat → List Nat → List Bool → Option (Option (List Nat × List Bool))
  | 0, _, _, _ => some none
  | fuel + 1, want, acc, bs =>
    if acc.length = want then some (some (acc, bs))
    else if want < acc.length then some none
    else match symAt t bs with
      | none => none
      | some none => some none
      | some (some (sym, r)) =>
        if sym < 16 then readLens t fuel want (acc ++ [sym]) r
        else
          let (base, ext) := if sym = 16 then (3, 2) else if sym = 17 then (3, 3) else (11, 7)
          match takeBits ext r with
          | none => none
          | some (x, r) =>
            if sym = 16 && acc.isEmpty then some none
            else
              let v := if sym = 16 then acc.getLastD 0 else 0
              readLens t fuel want (acc ++ List.replicate (base + x) v) r

/-- The lengths are usable: not over-subscribed. -/
def lensOk (l : List Nat) : Bool := kraft l ≤ 2 ^ 15

/-- The header of a dynamic block: both code tables. -/
def dynTables (bs : List Bool) : Option (Option (List (Nat × Nat × Nat) × List (Nat × Nat × Nat) × List Bool)) :=
  match takeBits 14 bs with
  | none => none
  | some (v, r) =>
    let hlit := v % 32 + 257
    let hdist := v / 32 % 32 + 1
    let hclen := v / 1024 + 4
    match takeBits (3 * hclen) r with
    | none => none
    | some (c, r) =>
      let cl := (List.range 19).map fun s =>
        match clOrder.findIdx? (· == s) with
        | some i => if i < hclen then c / 8 ^ i % 8 else 0
        | none => 0
      if 286 < hlit || 30 < hdist || !lensOk cl then some none
      else match readLens (codeTable cl) 400 (hlit + hdist) [] r with
        | none => none
        | some none => some none
        | some (some (ls, r)) =>
          let lit := ls.take hlit
          let dst := ls.drop hlit
          if !lensOk lit || !lensOk dst || lit.getD 256 0 = 0 then some none
          else some (some (codeTable lit, codeTable dst, r))

/-- A stored block behind its three header bits; `used` is the number of bits of the whole input before `bs`. -/
def inflStored (used : Nat) (out : List Byte) (bs : List Bool) : Infl :=
  let r := bs.drop ((8 - used % 8) % 8)
  match takeBits 32 r with
  | none => ⟨out, bs, .middle⟩
  | some (v, r) =>
    let len := v % 65536
    if v / 65536 != 65535 - len then ⟨out, bs, .error 0x04⟩
    else
      let bytes := (packBits (min len (r.length / 8)) r).1
      if bytes.length < len then ⟨bytes.reverse ++ out, bs, .middle⟩
      else ⟨bytes.reverse ++ out, r.drop (8 * len), .boundary⟩

/-- Blocks until the final one or the end of the input. `total` is the number of bits of the whole input. -/
def inflBlocks (total : Nat) : Nat → List Byte → List Bool → Infl
  | 0, out, bs => ⟨out, bs, .middle⟩
  | fuel + 1, out, bs =>
    if bs.isEmpty then ⟨out, bs, .boundary⟩
    else match takeBits 3 bs with
      | none => ⟨out, bs, .middle⟩
      | some (v, r) =>
        let x : Infl := match v / 2 with
          | 0 => inflStored (total - r.length) out r
          | 1 => inflSyms (codeTable fixedLit) (codeTable fixedDist) (r.length + 1) out r
          | 2 => match dynTables r with
            | none => ⟨out, bs, .middle⟩
            | some none => ⟨out, bs, .error 0x02⟩
            | some (some (l, d, r)) => inflSyms l d (r.length + 1) out r
          | _ => ⟨out, bs, .error 0x01⟩
        match x.stat with
        | .boundary => if v % 2 = 1 then { x with stat := .final } else inflBlocks total fuel x.out x.rest
        | _ => x

/-- Decode from the first bit of `bs`, with a history. -/
def inflate (hist : List Byte) (bs : List Bool) : Infl := inflBlocks bs.length (bs.length + 1) hist bs

/-! ## Encoding (R337) -/

/-- Candidates compared at each position, by level (R340). -/
def levelCandidates : Nat → Nat
  | 1 => 2 | 2 => 4 | 3 => 8 | 4 => 16 | 5 => 32 | 6 => 64 | 7 => 128 | 8 => 512 | _ => 4096

/-- How many bytes of `u` equal the start of `v`. -/
def commonLen : List Byte → List Byte → Nat
  | b :: u, c :: v => if b = c then commonLen u v + 1 else 0
  | _, _ => 0

/-- The length of the match at a distance: at most 258, within the unit and the history (R337). -/
def matchLen (hist u : List Byte) (dist : Nat) : Nat :=
  if dist = 0 || 32768 < dist || hist.length < dist then 0
  else commonLen (u.take 258) ((copyMatch dist (min 258 u.length) hist).take (min 258 u.length)).reverse

/-- The longest match among the candidates in the order compared, the first of equal ones; a match of 258 bytes ends the search.
Length 0 is no match. -/
def longest (hist u : List Byte) : List Nat → Nat × Nat → Nat × Nat
  | [], best => best
  | d :: ds, best =>
    let n := matchLen hist u d
    if n = 258 then (n, d) else longest hist u ds (if best.1 < n then (n, d) else best)

/-- What the search at a position finds (R340): a match of at least 3 bytes, or length 0. -/
def searchAt (hist u : List Byte) (level : Nat) : Nat × Nat :=
  let m := longest hist u ((Config.lzCandidates hist u level).take (levelCandidates level)) (0, 0)
  if m.1 < 3 then (0, 0) else m

/-- The items of a unit (R340): the match found, or a literal; at levels with lazy matching also a literal where the next position
finds a longer match. Each is a length and a distance, and distance 0 is a literal. -/
def itemsFrom (level : Nat) : Nat → List Byte → List Byte → List (Nat × Nat)
  | _, _, [] => []
  | 0, _, _ => []
  | fuel + 1, hist, b :: u =>
    let m := searchAt hist (b :: u) level
    if m.1 = 0 || (4 ≤ level && m.1 < (searchAt (b :: hist) u level).1) then
      (1, 0) :: itemsFrom level fuel (b :: hist) u
    else m :: itemsFrom level fuel (((b :: u).take m.1).reverse ++ hist) (u.drop (m.1 - 1))

def itemsOf (hist u : List Byte) (level : Nat) : List (Nat × Nat) := itemsFrom level u.length hist u

/-- The symbols of the items: literal or length symbol with its extra bits, then distance symbol with its own. -/
def itemBits (lit dst : List Nat) : List Byte → List (Nat × Nat) → List Bool
  | _, [] => let c := codeOf lit 256; msbBits c.1 c.2
  | u, (len, dist) :: ts =>
    if dist = 0 then
      let c := codeOf lit (u.headD 0).toNat
      msbBits c.1 c.2 ++ itemBits lit dst (u.drop 1) ts
    else
      let i := rowFor lengthTable len
      let j := rowFor distTable dist
      let c := codeOf lit (257 + i)
      let d := codeOf dst j
      msbBits c.1 c.2 ++ lsbBits (lengthTable.getD i (3, 0)).2 (len - (lengthTable.getD i (3, 0)).1) ++
        msbBits d.1 d.2 ++ lsbBits (distTable.getD j (1, 0)).2 (dist - (distTable.getD j (1, 0)).1) ++
        itemBits lit dst (u.drop len) ts

/-- Every symbol of the items has a code. -/
def itemsCoded (lit dst : List Nat) : List Byte → List (Nat × Nat) → Bool
  | _, [] => lit.getD 256 0 != 0
  | u, (len, dist) :: ts =>
    if dist = 0 then lit.getD (u.headD 0).toNat 0 != 0 && itemsCoded lit dst (u.drop 1) ts
    else lit.getD (257 + rowFor lengthTable len) 0 != 0 && dst.getD (rowFor distTable dist) 0 != 0 &&
      itemsCoded lit dst (u.drop len) ts

/-- What a run-length coding of code lengths expands to. -/
def expandRuns : List Nat → List (Nat × Nat) → List Nat
  | acc, [] => acc
  | acc, (sym, x) :: ts =>
    expandRuns (acc ++
      if sym < 16 then [sym]
      else if sym = 16 then List.replicate (3 + x % 4) (acc.getLastD 0)
      else if sym = 17 then List.replicate (3 + x % 8) 0
      else List.replicate (11 + x % 128) 0) ts

/-- The bits of a dynamic block after BFINAL, when the free choice of codes is valid. -/
def dynBits (u : List Byte) (items : List (Nat × Nat)) : Option (List Bool) :=
  let (lit, dst) := Config.dynLengths items
  let (runs, cl) := Config.dynHeader (lit ++ dst)
  let ok := 257 ≤ lit.length && lit.length ≤ 286 && 1 ≤ dst.length && dst.length ≤ 30 && cl.length == 19 &&
    (lit ++ dst).all (· ≤ 15) && cl.all (· ≤ 7) && kraft lit == 2 ^ 15 && lensOk dst && kraft cl == 2 ^ 15 &&
    itemsCoded lit dst u items && (expandRuns [] runs == lit ++ dst) &&
    runs.all (fun r => r.1 ≤ 18 && cl.getD r.1 0 != 0) && (runs.head?.all fun r => r.1 != 16)
  if !ok then none
  else
    let order := clOrder.map fun s => cl.getD s 0
    let n := max 4 (19 - (order.reverse.takeWhile (· == 0)).length)
    some ([false, true] ++ lsbBits 5 (lit.length - 257) ++ lsbBits 5 (dst.length - 1) ++ lsbBits 4 (n - 4) ++
      ((order.take n).flatMap fun l => lsbBits 3 l) ++
      (runs.flatMap fun r => let c := codeOf cl r.1
        msbBits c.1 c.2 ++ (if r.1 = 16 then lsbBits 2 r.2 else if r.1 = 17 then lsbBits 3 r.2 else if r.1 = 18 then lsbBits 7 r.2 else [])) ++
      itemBits lit dst u items)

/-- A stored block after BFINAL; `used` bits of the output come before it, BFINAL included. -/
def storedBits (used : Nat) (u : List Byte) : List Bool :=
  [false, false] ++ List.replicate ((8 - (used + 2) % 8) % 8) false ++ lsbBits 16 u.length ++ lsbBits 16 (65535 - u.length) ++
    bitsOfBytes u

/-- One unit behind the bits written so far: its bits, and whether it was stored raw. -/
def encodeUnit (hist : List Byte) (level : Nat) (before : List Bool) (u : List Byte) (final : Bool) : List Bool × Bool :=
  let items := itemsOf hist u level
  let fixed := [true, false] ++ itemBits fixedLit fixedDist u items
  let coded := match dynBits u items with
    | some d => if d.length < fixed.length then d else fixed
    | none => fixed
  let raw := storedBits (before.length + 1) u
  if coded.length < raw.length then (before ++ [final] ++ coded, false) else (before ++ [final] ++ raw, true)

/-- The units of 32 KiB of a job. -/
def unitsOf : Nat → List Byte → List (List Byte)
  | 0, _ => []
  | n + 1, bs => if bs.isEmpty then [] else bs.take 32768 :: unitsOf n (bs.drop 32768)

/-- Encode the units of a job: the bits, the history after it, and the byte of the output at which each unit stored raw ends. -/
def encodeUnits (level : Nat) (final : Bool) : List Byte → List Bool → List (List Byte) → List Bool × List Byte × List Nat
  | hist, before, [] => (before, hist, [])
  | hist, before, u :: us =>
    let (bs, raw) := encodeUnit hist level before u (final && us.isEmpty)
    let (r, h, n) := encodeUnits level final ((u.reverse ++ hist).take 32768) bs us
    (r, h, if raw then bs.length / 8 :: n else n)

end Sys2Proof.Machine
end

