-- ==== Sys2Proof/Machine/Kaolin.lean ====
section
/-!
DEFINITION. Kaolin: the commands of the compression units (chapter "Kaolin compression unit", R328 to R344).
-/
namespace Sys2Proof.Machine

def State.kaoOf (s : State) (h : Nat) : Kao := SMap.get Kao.empty s.kao h
def State.updKao (s : State) (h : Nat) (f : Kao → Kao) : State := { s with kao := SMap.upd Kao.empty s.kao h f }
def State.kchan (s : State) (h c : Nat) : KaoChan := SMap.get KaoChan.empty (s.kaoOf h).chans c
def State.updKchan (s : State) (h c : Nat) (f : KaoChan → KaoChan) : State :=
  s.updKao h fun k => { k with chans := SMap.upd KaoChan.empty k.chans c f }

/-- KAO_CHAN_STATE shows whether a job runs and whether a stream is open. -/
def State.kaoShow (s : State) (h c : Nat) : State :=
  let k := s.kchan h c
  (s.setf Reg.KAO_CHAN_STATE.running h (b2n k.job.isSome) c).setf Reg.KAO_CHAN_STATE.open h (b2n k.stream.isSome) c

def State.kaoTi (s : State) (h c : Nat) : Nat := s.rf Reg.KAO_CHAN_BIND.ti h c

/-- The requester of a Kaolin job of a TI (R329). -/
def State.kaoReqOf (s : State) (h ti : Nat) : Requester :=
  ⟨.kaolin, if s.tiWorld ti = .hardpan then .h else .t, s.tiWorld ti, BitVec.ofNat 12 (s.rf Reg.TIF_CFG.tenant ti),
    halfOf h, BitVec.ofNat 9 (tStop h)⟩

/-- A channel accesses memory as the TI it is bound to. -/
def State.kaoReq (s : State) (h c : Nat) : Requester := s.kaoReqOf h (s.kaoTi h c)

/-- A started job accesses memory as the TI its channel was bound to when it started. -/
def State.jobReq (s : State) (h : Nat) (j : KaoJob) : Requester := s.kaoReqOf h j.bind.ti

/-- EV 0x0B0 of a channel, to its TI's world. -/
def State.kaoEvent (s : State) (h c : Nat) : State := s.raise 0x0B0 (s.tiEvTo (s.kaoTi h c)) h c

/-- What a job takes from its channel when it starts. -/
def State.kaoBinding (s : State) (h c : Nat) : KaoBinding :=
  ⟨s.kaoTi h c, s.rf Reg.KAO_CHAN_BIND.gen h c, s.rf Reg.KAO_CHAN_CFG.base h c, s.rf Reg.KAO_CHAN_BIND.intr_id h c⟩

/-- The job's slot field. -/
def jobSlot (d : List Byte) : Nat := (d.getD 4 0).toNat % 32
/-- A flag of the job: 0 first, 1 last, 2 save, 3 restore, 4 notify. -/
def jobFlag (d : List Byte) (i : Nat) : Bool := bitOf (d.getD 3 0).toNat i
def jobLe (d : List Byte) (off n : Nat) : Nat := ofLe ((d.drop off).take n)

/-- The channel holds the slot. -/
def State.slotHeld (s : State) (h c slot : Nat) : Bool :=
  s.rb Reg.KAO_SLOT.enable h slot && s.rf Reg.KAO_SLOT.chan h slot == c

def State.kslot (s : State) (h slot : Nat) : Option KaoStream := SMap.get none (s.kaoOf h).slots slot
def State.setKslot (s : State) (h slot : Nat) (x : Option KaoStream) : State :=
  (s.updKao h fun k => { k with slots := SMap.set none k.slots slot x }).setf Reg.KAO_SLOT.full h (b2n x.isSome) slot

/-! ## Save slots (R336) -/

/-- The claim entry of a slot. -/
def slotEntry (h slot : Nat) : Nat := 66 + 32 * h + slot

/-- A slot is zeroed and its claim entry freed; while the running job names it, when that job ends. -/
def State.slotRelease (s : State) (h slot : Nat) : State :=
  if !s.rb Reg.KAO_SLOT.enable h slot then s
  else
    match (s.kchan h (s.rf Reg.KAO_SLOT.chan h slot)).job with
    | some j =>
      if jobSlot j.desc = slot && (jobFlag j.desc 2 || jobFlag j.desc 3) then
        s.updKao h fun k => { k with releaseDue := SMap.set false k.releaseDue slot true }
      else (s.setKslot h slot none).claimDrop (slotEntry h slot)
    | none => (s.setKslot h slot none).claimDrop (slotEntry h slot)

/-- The slots of a channel, or those whose release was due, are released. -/
def State.slotsRelease (s : State) (h c : Nat) : State :=
  (List.range 32).foldl (fun s n => if s.slotHeld h c n then s.slotRelease h n else s) s

/-- The running job of a channel is over: releases that waited for it happen. -/
def State.slotsDue (s : State) (h c : Nat) : State :=
  (List.range 32).foldl (fun s n =>
    if SMap.get false (s.kaoOf h).releaseDue n && s.slotHeld h c n then
      (s.updKao h fun k => { k with releaseDue := SMap.set false k.releaseDue n false }).slotRelease h n
    else s) s

/-- SLOT_RELEASE: enable of KAO_SLOT is written 0. -/
def execSlotRelease (q : Requester) (h : Half) (slot : Fin 32) (s : State) : Out3 :=
  .next (s.writeReg q Cls.kao h.val (0xC00 + 8 * slot.val) 0 fun s =>
    if Reg.KAO_SLOT.enable.admits q.actor then s.slotRelease h.val slot.val else s)

/-- The writer may use the TI (R328). -/
def State.mayUse (s : State) (a : Actor) (ti : Nat) : Bool :=
  match s.rf Reg.TIF_CFG.priv ti with
  | 0 => a == .t || a == .v || a == .h
  | 1 => a == .h
  | _ => a == .m

/-- KAO_SLOT is written with enable 1 (R336). A claim of a held slot is lost, and `chan` stays its owner's; the owner's own write
with the channel it holds the slot for changes nothing (log entry 253). -/
def State.slotClaim (s : State) (a : Actor) (h slot v : Nat) : State :=
  let c := Reg.KAO_SLOT.chan.of v
  let taken := s.rb Reg.KAO_SLOT.enable h slot
  let n := slotEntry h slot
  if !Reg.KAO_SLOT.enable.admits a || (s.slotHeld h c slot && s.claimOwned n a Cls.kao h) then s
  else
    let s := if taken then s else s.setf Reg.KAO_SLOT.chan h c slot
    let ti := s.kaoTi h c
    let deny := fun (st : Nat) => s.setf Reg.KAO_SLOT.status h st slot
    let held := ((List.range 32).filter fun n =>
      s.rb Reg.KAO_SLOT.enable h n && s.kaoTi h (s.rf Reg.KAO_SLOT.chan h n) == ti).length
    if !s.rb Reg.KAO_CHAN_CFG.enable h c || !s.mayUse a ti then deny Status.denied
    else if min 32 (s.rf Reg.TIF_QUOTA.kao_slots ti) ≤ held then deny Status.quota
    else if taken then (s.claimLost n 0x020 a.code Cls.kao h).setf Reg.KAO_SLOT.status h Status.conflict slot
    else
      let (won, s) := s.claimTry n a Cls.kao h
      if won then (s.setf Reg.KAO_SLOT.enable h 1 slot).setf Reg.KAO_SLOT.status h 0 slot else s

/-! ## Channels (R328, R330) -/

/-- KAO_CHAN_CFG is written with enable 1 while the channel is not bound (R328). -/
def State.kaoBind (s : State) (a : Actor) (h c v : Nat) : State :=
  let s := s.storeReg a h c (v / 2 * 2) allOnes Reg.KAO_CHAN_CFG.reg.fields
  let s := s.setf Reg.KAO_CHAN_STATE.denied h 0 c
  let ti := s.kaoTi h c
  let n := s.rf Reg.KAO_CHAN_CFG.log2_size h c
  let fail := fun (st : Nat) => s.setf Reg.KAO_CHAN_STATE.status h st c
  if n < 5 || 12 < n then fail Status.badDesc
  else if !s.blkOn Cls.tif ti || s.tiHome ti != h then fail Status.tiReset
  else if !s.mayUse a ti then fail Status.denied
  else
    let s := (s.setf Reg.KAO_CHAN_CFG.enable h 1 c).setf Reg.KAO_CHAN_BIND.gen h (s.tiGen ti) c
    let s := ((s.setf Reg.KAO_CHAN_STATE.status h 0 c).setf Reg.KAO_CHAN_STATE.fetch h 0 c).setf Reg.KAO_CHAN_STATE.tail h 0 c
    s.updKchan h c fun k => { k with fetched := [], stopped := false, stream := none }

/-- The channel is unbound: its fetched descriptors and its stream are dropped and its slots released. -/
def State.kaoUnbind (s : State) (h c : Nat) : State :=
  if !s.rb Reg.KAO_CHAN_CFG.enable h c then s
  else
    let s := s.updKchan h c fun k => { k with fetched := [], stopped := false, stream := none }
    let s := (s.slotsRelease h c).setf Reg.KAO_CHAN_CFG.enable h 0 c
    (s.setf Reg.KAO_CHAN_STATE.denied h 0 c).kaoShow h c

/-- KAO_CHAN_CFG is written. -/
def State.kaoCfg (s : State) (a : Actor) (h c v : Nat) : State :=
  if !Reg.KAO_CHAN_CFG.enable.admits a then s
  else if s.rb Reg.KAO_CHAN_CFG.enable h c then
    if v % 2 = 0 then s.kaoUnbind h c else s.setf Reg.KAO_CHAN_STATE.denied h 1 c
  else if v % 2 = 1 then s.kaoBind a h c v
  else (s.storeReg a h c v allOnes Reg.KAO_CHAN_CFG.reg.fields).setf Reg.KAO_CHAN_STATE.denied h 0 c

/-- KAO_CHAN_BIND is written. -/
def State.kaoBindReg (s : State) (a : Actor) (h c v : Nat) : State :=
  if !Reg.KAO_CHAN_BIND.ti.admits a then s
  else if s.rb Reg.KAO_CHAN_CFG.enable h c then s.setf Reg.KAO_CHAN_STATE.denied h 1 c
  else (s.storeReg a h c v allOnes Reg.KAO_CHAN_BIND.reg.fields).setf Reg.KAO_CHAN_STATE.denied h 0 c

/-- CHANNEL_BIND: `v` is the word written to KAO_CHAN_CFG with enable 1. -/
def execChannelBind (q : Requester) (h : Half) (c : Fin 64) (v : Word) (s : State) : Out3 :=
  let w := v.toNat / 2 * 2 + 1
  .next (s.writeReg q Cls.kao h.val (0x400 + 32 * c.val) w fun s => s.kaoCfg q.actor h.val c.val w)

/-- CHANNEL_UNBIND. -/
def execChannelUnbind (q : Requester) (h : Half) (c : Fin 64) (s : State) : Out3 :=
  .next (s.writeReg q Cls.kao h.val (0x400 + 32 * c.val) 0 fun s =>
    if Reg.KAO_CHAN_CFG.enable.admits q.actor then s.kaoUnbind h.val c.val else s)

/-- KAO_CHAN_DB is written (R330). -/
def State.kaoDoorbell (s : State) (a : Actor) (h c v : Nat) : State :=
  let t := v % 4096
  if !Reg.KAO_CHAN_DB.tail.admits a then s
  else if !s.rb Reg.KAO_CHAN_CFG.enable h c || 2 ^ s.rf Reg.KAO_CHAN_CFG.log2_size h c ≤ t then
    s.addf Reg.KAO_STAT.bad_doorbell h
  else s.setf Reg.KAO_CHAN_STATE.tail h t c

def execKaolinDoorbell (q : Requester) (h : Half) (c : Fin 64) (v : Word) (s : State) : Out3 :=
  .next (s.writeReg q Cls.kao h.val (0x10000 + 0x1000 * c.val) v.toNat fun s => s.kaoDoorbell q.actor h.val c.val v.toNat)

/-- KAO_CHAN_STATE is written: restart resumes a stopped channel. -/
def State.kaoRestart (s : State) (a : Actor) (h c v : Nat) : State :=
  if Reg.KAO_CHAN_STATE.restart.admits a && Reg.KAO_CHAN_STATE.restart.of v != 0 && (s.kchan h c).stopped then
    (s.updKchan h c fun k => { k with stopped := false }).setf Reg.KAO_CHAN_STATE.status h 0 c
  else s

def execChannelRestart (q : Requester) (h : Half) (c : Fin 64) (s : State) : Out3 :=
  .next (s.writeReg q Cls.kao h.val (0x410 + 32 * c.val) (2 ^ 40) fun s => s.kaoRestart q.actor h.val c.val (2 ^ 40))

/-- The channel's TI is still the one it was bound to (R344). -/
def State.kaoTiOk (s : State) (h c : Nat) : Bool :=
  let ti := s.kaoTi h c
  s.blkOn Cls.tif ti && s.tiGen ti == s.rf Reg.KAO_CHAN_BIND.gen h c

/-- KAOLIN_FETCH: a channel reads its next descriptor. -/
def State.kaoFetch (s : State) (h c : Nat) : State :=
  let k := s.kchan h c
  let i := s.rf Reg.KAO_CHAN_STATE.fetch h c
  if !s.blkOn Cls.kao h || !s.rb Reg.KAO_CHAN_CFG.enable h c || k.stopped || 4 ≤ k.fetched.length || !s.kaoTiOk h c ||
      s.rb Reg.TIF_STATUS.resetting (s.kaoTi h c) || i == s.rf Reg.KAO_CHAN_STATE.tail h c then s
  else
    let stop := fun (s : State) (st : Nat) =>
      ((s.updKchan h c fun k => { k with stopped := true }).setf Reg.KAO_CHAN_STATE.status h st c).kaoEvent h c
    match s.readMem (s.kaoReq h c) .read (s.rf Reg.KAO_CHAN_CFG.base h c * 4096 + 64 * i) 64 with
    | (.data bs false, s) =>
      (s.updKchan h c fun k => { k with fetched := k.fetched ++ [(i, bs)] }).setf Reg.KAO_CHAN_STATE.fetch h
        ((i + 1) % 2 ^ s.rf Reg.KAO_CHAN_CFG.log2_size h c) c
    | (.data _ true, s) => stop s Status.poisoned
    | (_, s) => stop s Status.ownership

def execKaolinFetch (h : Half) (c : Fin 64) (s : State) : Out3 := .next (s.kaoFetch h.val c.val)

/-! ## Checks (R332, R334) -/

/-- An address field and its length are acceptable. -/
def jobAddrOk (a n : Nat) : Bool := a < 2 ^ 52 && (a == 0) == (n == 0)

/-- R332. -/
def jobBad (d : List Byte) : Bool :=
  let b := fun i => (d.getD i 0).toNat
  let src := jobLe d 0x10 4
  32 ≤ b 3 || 32 ≤ b 4 || 1 < b 0 || 2 < b 1
    || (if b 0 = 0 then b 2 == 0 || 9 < b 2 else b 2 != 0)
    || 2 ^ 24 < src || !jobAddrOk (jobLe d 8 8) src || !jobAddrOk (jobLe d 0x18 8) (jobLe d 0x14 4)
    || 2 ^ 52 ≤ jobLe d 0x20 8 || jobLe d 0x20 8 % 16 != 0

/-- A new stream. -/
def KaoStream.begin (d : List Byte) : KaoStream :=
  ⟨(d.getD 0 0).toNat, (d.getD 1 0).toNat, (d.getD 2 0).toNat, [], 0, 0, 0, false, [], [], 0⟩

/-- The stream has the job's op and format. -/
def KaoStream.fits (x : KaoStream) (d : List Byte) : Bool := x.op == (d.getD 0 0).toNat && x.format == (d.getD 1 0).toNat

/-- The stream that a job starts with, or the status and detail it fails with (R334). -/
def State.jobStream (s : State) (h c : Nat) (d : List Byte) : Except (Nat × Nat) KaoStream :=
  let slot := jobSlot d
  let names := jobFlag d 2 || jobFlag d 3
  if jobBad d then .error (Status.badDesc, 0x20)
  else if names && !s.slotHeld h c slot then .error (Status.denied, 0x22)
  else if jobFlag d 2 && jobFlag d 1 then .error (Status.badDesc, 0x21)
  else match jobFlag d 0, jobFlag d 3, (s.kchan h c).stream with
    | true, false, _ => .ok (KaoStream.begin d)
    | false, false, some x =>
      if x.fits d then .ok { x with level := (d.getD 2 0).toNat } else .error (Status.badDesc, 0x21)
    | false, true, none =>
      match s.kslot h slot with
      | some x => if x.fits d then .ok { x with level := (d.getD 2 0).toNat } else .error (Status.badDesc, 0x21)
      | none => .error (Status.badDesc, 0x21)
    | _, _, _ => .error (Status.badDesc, 0x21)

/-! ## Input and output (R329, R341, R342) -/

/-- Read the input granule by granule until one is refused, unmapped or poisoned: the bytes and what ended them. -/
def State.kaoInput (q : Requester) : Nat → Nat → Nat → State → List Byte × Option Nat × State
  | 0, _, _, s => ([], none, s)
  | fuel + 1, a, n, s =>
    if n = 0 then ([], none, s)
    else
      let k := min n (32 - a % 32)
      match s.readMem q .read a k with
      | (.data bs false, s) =>
        let (r, e, s) := State.kaoInput q fuel (a + k) (n - k) s
        (bs ++ r, e, s)
      | (.data _ true, s) => ([], some Status.poisoned, s)
      | (_, s) => ([], some Status.ownership, s)

/-- Where placing a job's output stands: the status and detail of its failure, the chain entries written into, the bytes
placed, and the buffers reached. -/
structure Placed where
  status : Nat
  detail : Nat
  entries : Nat
  done : Nat
  reached : List (Nat × Nat)
  s : State

/-- Write the output into one buffer. -/
def Placed.buffer (p : Placed) (q : Requester) (a n : Nat) (bs : List Byte) : Placed :=
  let p := { p with reached := p.reached ++ [(a, n)] }
  if bs.isEmpty || n = 0 then p
  else match p.s.writeMem q a (bs.take n) with
    | (.data _ _, s) => { p with s := s, done := p.done + min n bs.length }
    | (_, s) => { p with status := Status.ownership, detail := 0, s := s }

/-- An entry of a chain list: its buffer, and whether the entry is acceptable (R341). -/
def chainEntry (e : List Byte) : (Nat × Nat) × Bool :=
  let a := ofLe (e.take 8)
  let n := ofLe ((e.drop 8).take 4)
  ((a, n), ofLe (e.drop 12) == 0 && a < 2 ^ 52 && !(a == 0 && n != 0))

/-- Output that is left goes into the chain list's entries from entry `i` on. -/
def Placed.chain (q : Requester) (chain : Nat) : Nat → Nat → List Byte → Placed → Placed
  | 0, _, bs, p => if bs.isEmpty then p else { p with status := Status.length, detail := 0x10 }
  | fuel + 1, i, bs, p =>
    if bs.isEmpty || p.status != 0 then p
    else if chain = 0 then { p with status := Status.length, detail := 0x10 }
    else match p.s.readMem q .read (chain + 16 * i) 16 with
      | (.data e false, s) =>
        let ((a, n), ok) := chainEntry e
        let p := { p with s := s }
        if !ok then { p with status := Status.badDesc, detail := 0x11 }
        else if n = 0 then { p with status := Status.length, detail := 0x10 }
        else Placed.chain q chain fuel (i + 1) (bs.drop n) { p.buffer q a n bs with entries := i + 1 }
      | (.data _ true, s) => { p with status := Status.poisoned, detail := 0, s := s }
      | (_, s) => { p with status := Status.ownership, detail := 0, s := s }

/-- Write a job's output (R341). -/
def State.kaoOutput (s : State) (q : Requester) (d bs : List Byte) : Placed :=
  let n := jobLe d 0x14 4
  Placed.chain q (jobLe d 0x20 8) 255 0 (bs.drop n)
    ((Placed.mk 0 0 0 0 [] s).buffer q (jobLe d 0x18 8) n bs)

/-- The buffers of a chain list as memory holds it, up to its end or an entry that cannot be used. -/
def State.chainBuffers (s : State) (q : Requester) (chain : Nat) : Nat → Nat → List (Nat × Nat)
  | 0, _ => []
  | fuel + 1, i =>
    match (s.readMem q .read (chain + 16 * i) 16).1 with
    | .data e false =>
      let (b, ok) := chainEntry e
      if !ok || b.2 = 0 then [] else b :: State.chainBuffers s q chain fuel (i + 1)
    | _ => []

/-- Every output buffer of a job. -/
def State.jobBuffers (s : State) (q : Requester) (d : List Byte) : List (Nat × Nat) :=
  let chain := jobLe d 0x20 8
  (jobLe d 0x18 8, jobLe d 0x14 4) :: if chain = 0 || 2 ^ 52 ≤ chain then [] else s.chainBuffers q chain 255 0

/-! ## Compression (R335, R337 to R339) -/

/-- What a codec makes of a job's input: output, the stream after it, input bytes used, where in the output each unit stored raw
ends, and the detail of a FORMAT failure. -/
structure Coded where
  out : List Byte
  stream : KaoStream
  used : Nat
  raw : List Nat
  err : Nat

/-- Pad a bit string to whole bytes. -/
def padBits (bs : List Bool) : List Byte :=
  let p := bs ++ List.replicate ((8 - bs.length % 8) % 8) false
  (packBits (p.length / 8) p).1

/-- The units of a job; the last job of a stream has at least one. -/
def jobUnits (last : Bool) (bs : List Byte) : List (List Byte) :=
  let us := unitsOf (bs.length / 32768 + 1) bs
  if last && us.isEmpty then [[]] else us

/-- The header of R338. -/
def gzipHead (level : Nat) : List Byte :=
  [0x1F, 0x8B, 8, 0, 0, 0, 0, 0, if level = 1 then 4 else if level = 9 then 2 else 0, 0xFF]

/-- A stream after `bs` more bytes of uncompressed data. -/
def KaoStream.add (x : KaoStream) (bs : List Byte) : KaoStream :=
  { x with crc := crc32 x.crc bs, total := x.total + bs.length, hist := (bs.reverse ++ x.hist).take 32768 }

/-- DEFLATE and gzip. -/
def KaoStream.deflate (x : KaoStream) (last : Bool) (bs : List Byte) : Coded :=
  let head := if x.format = 1 && x.blocks = 0 then bitsOfBytes (gzipHead x.level) else []
  let (bits, hist, raw) := encodeUnits x.level last x.hist (head ++ x.bits) (jobUnits last bs)
  let x : KaoStream := { x.add bs with hist := hist, blocks := x.blocks + 1 }
  if last then
    let tail := if x.format = 1 then leBytes 4 x.crc ++ leBytes 4 x.total else []
    ⟨padBits bits ++ tail, { x with bits := [], ended := true }, bs.length, raw, 0⟩
  else
    let (out, rest) := packBits (bits.length / 8) bits
    ⟨out, { x with bits := rest }, bs.length, raw, 0⟩

/-- One frame block (R339). -/
def KaoStream.frame (x : KaoStream) (last : Bool) (bs : List Byte) : Coded :=
  let (bits, _, raw) := encodeUnits x.level last x.hist [] (jobUnits last bs)
  let body := padBits (if last then bits else bits ++ [false] ++ storedBits (bits.length + 1) [])
  let stored := bs.length ≤ body.length
  let data := if stored then bs else body
  let flags := b2n stored + 2 * b2n last + 4 * b2n (x.blocks == 0)
  let head := [0x47, 0x4B, BitVec.ofNat 8 flags, BitVec.ofNat 8 x.level] ++ leBytes 4 data.length ++
    leBytes 4 bs.length ++ leBytes 4 (crc32 0 bs)
  ⟨head ++ data, { x.add bs with blocks := x.blocks + 1, ended := last }, bs.length,
    if stored then [16 + bs.length] else raw.map (16 + ·), 0⟩

/-! ## Decompression (R335, R338, R339) -/

/-- The end of a zero-ended field from an offset on; none when the input ends first. -/
def skipZero (bs : List Byte) (off : Nat) : Option Nat :=
  ((bs.drop off).findIdx? (· == 0)).map (off + · + 1)

/-- A gzip header: its length, none while the input is too short, or an error (R338). -/
def gzipParse (bs : List Byte) : Except Unit (Option Nat) :=
  let bad := fun i v => i < bs.length && bs.getD i 0 != v
  if bad 0 0x1F || bad 1 0x8B || bad 2 8 || (3 < bs.length && 32 ≤ (bs.getD 3 0).toNat) then .error ()
  else if bs.length < 10 then .ok none
  else
    let f := (bs.getD 3 0).toNat
    let extra := if bitOf f 2 then
        (if bs.length < 12 then none else
          let n := 12 + ofLe ((bs.drop 10).take 2)
          if bs.length < n then none else some n)
      else some 10
    let name := extra.bind fun o => if bitOf f 3 then skipZero bs o else some o
    let comment := name.bind fun o => if bitOf f 4 then skipZero bs o else some o
    match comment with
    | none => .ok none
    | some o =>
      if bitOf f 1 then
        if bs.length < o + 2 then .ok none
        else if ofLe ((bs.drop o).take 2) = crc32 0 (bs.take o) % 65536 then .ok (some (o + 2)) else .error ()
      else .ok (some o)

/-- All output of a DEFLATE or gzip stream from its input so far: the output with its newest byte first, where the stream
ends, if it does, and a FORMAT detail. -/
def streamOut (format : Nat) (bs : List Byte) : List Byte × Option Nat × Nat :=
  let head : Except Unit (Option Nat) := if format = 1 then gzipParse bs else .ok (some 0)
  match head with
  | .error _ => ([], none, 0x05)
  | .ok none => ([], none, 0)
  | .ok (some o) =>
    let bits := bitsOfBytes (bs.drop o)
    let r := inflate [] bits
    match r.stat with
    | .error e => (r.out, none, e)
    | .final =>
      let e := o + (bits.length - r.rest.length + 7) / 8
      if format = 0 then (r.out, some e, 0)
      else if bs.length < e + 8 then (r.out, none, 0)
      else if ofLe ((bs.drop e).take 4) = crc32 0 r.out.reverse && ofLe ((bs.drop (e + 4)).take 4) = r.out.length % 2 ^ 32
      then (r.out, some (e + 8), 0)
      else (r.out, none, 0x06)
    | _ => (r.out, none, 0)

/-- DEFLATE and gzip: the new output is what the input so far gives beyond what earlier jobs delivered. -/
def KaoStream.inflate (x : KaoStream) (bs : List Byte) : Coded :=
  if x.ended then ⟨[], x, 0, [], 0⟩
  else
    let input := x.input ++ bs
    let (out, fin, err) := streamOut x.format input
    let new := (out.take (out.length - x.given)).reverse
    ⟨new, { x.add new with input := input, given := out.length, ended := fin.isSome, blocks := x.blocks + 1 },
      match fin with | some e => e - x.input.length | none => bs.length, [], err⟩

/-- The frame blocks of a job's input (R339). A block that a refused or poisoned granule `cut` off is not judged (R342). -/
def KaoStream.unframe (cut : Bool) : Nat → KaoStream → List Byte → List Byte → Nat → Coded
  | 0, x, _, out, used => ⟨out, x, used, [], 0⟩
  | fuel + 1, x, bs, out, used =>
    if x.ended || bs.isEmpty || (cut && (bs.length < 16 || bs.length < 16 + ofLe ((bs.drop 4).take 4))) then
      ⟨out, x, used, [], 0⟩
    else
      let fail := fun e => Coded.mk out x used [] e
      let f := (bs.getD 2 0).toNat
      let n := ofLe ((bs.drop 4).take 4)
      let orig := ofLe ((bs.drop 8).take 4)
      if bs.length < 16 || bs.getD 0 0 != 0x47 || bs.getD 1 0 != 0x4B || 8 ≤ f || bs.length < 16 + n ||
          (x.blocks = 0 && !bitOf f 2) || (bitOf f 0 && n != orig) then fail 0x07
      else
        let body := (bs.drop 16).take n
        let hist := if bitOf f 2 then [] else x.hist
        let (data, err) : List Byte × Nat :=
          if bitOf f 0 then (body, 0)
          else
            let r := Machine.inflate hist (bitsOfBytes body)
            let data := (r.out.take (r.out.length - hist.length)).reverse
            match r.stat with
            | .error e => (data, e)
            | .final => (data, if bitOf f 1 && r.rest.length < 8 && data.length = orig then 0 else 0x07)
            | .boundary => (data, if !bitOf f 1 && data.length = orig then 0 else 0x07)
            | .middle => (data, 0x07)
        if err != 0 then { fail err with out := out ++ data }
        else if crc32 0 data != ofLe ((bs.drop 12).take 4) then { fail 0x08 with out := out ++ data }
        else
          let x : KaoStream := { KaoStream.add { x with hist := hist } data with blocks := x.blocks + 1, ended := bitOf f 1 }
          KaoStream.unframe cut fuel x (bs.drop (16 + n)) (out ++ data) (used + 16 + n)

/-- The codec of a stream applied to a job's input, which a refused or poisoned granule may have `cut` short. -/
def KaoStream.run (x : KaoStream) (last cut : Bool) (bs : List Byte) : Coded :=
  if x.op = 0 then (if x.format = 2 then x.frame (last && !cut) bs else x.deflate (last && !cut) bs)
  else if x.format = 2 then x.unframe cut (bs.length / 16 + 1) bs [] 0
  else x.inflate bs

/-! ## Jobs (R330, R333, R334, R342, R344) -/

/-- The channels in rotation after the one served last. -/
def State.kaoNext (s : State) (h : Nat) : Option Nat :=
  let r := (s.kaoOf h).rotor
  ((List.range 64).map fun i => (r + 1 + i) % 64).find? fun c =>
    let k := s.kchan h c
    s.rb Reg.KAO_CHAN_CFG.enable h c && !k.fetched.isEmpty && k.job.isNone

/-- Jobs running in a half. -/
def State.kaoBusy (s : State) (h : Nat) : Nat := ((s.kaoOf h).chans.filter fun p => p.2.job.isSome).length

/-- The output buffers of a job that has failed, and those it had reached, hold free bytes (R341). -/
def State.jobSpoils (s : State) (q : Requester) (d : List Byte) (reached : List (Nat × Nat)) : State :=
  (reached ++ s.jobBuffers q d).foldl (fun s r => s.scramble q r.1 r.2) s

/-- A job that runs nothing ends at once; the open stream is discarded. -/
def State.jobNothing (s : State) (h c i : Nat) (d : List Byte) (st detail : Nat) : State :=
  let j : KaoJob := ⟨s.kaoBinding h c, i, d, st, detail, 0, 0, 0, 0, false⟩
  ((s.jobSpoils (s.kaoReq h c) d []).updKchan h c fun k => { k with stream := none, job := some j }).kaoShow h c

/-- A job that fails on the way: its result fields and its buffers' contents are free. -/
def State.jobFails (s : State) (h c i : Nat) (d : List Byte) (st detail : Nat) (reached : List (Nat × Nat)) : State :=
  let s := s.jobSpoils (s.kaoReq h c) d reached
  let f := fun k => Config.freeNat (s.freeCtr + k)
  let j : KaoJob := ⟨s.kaoBinding h c, i, d, st, detail, f 0 % 2 ^ 32, f 1 % 2 ^ 32, f 2 % 2 ^ 32, f 3 % 256, false⟩
  ({ s with freeCtr := s.freeCtr + 4 }.updKchan h c fun k => { k with stream := none, job := some j }).kaoShow h c

/-- The outcome of a codec's run and of its output. The units stored raw that have been placed count, whatever ends the job. -/
def State.jobEnds (s : State) (h c i : Nat) (d : List Byte) (r : Coded) (stop : Option Nat) (p : Placed) : State :=
  let last := jobFlag d 1
  let save := jobFlag d 2
  let slot := jobSlot d
  let left := r.used < jobLe d 0x10 4
  let s := s.addf Reg.KAO_STAT.raw_units h 0 (r.raw.filter (· ≤ p.done)).length
  if p.status != 0 then s.jobFails h c i d p.status p.detail p.reached
  else if r.err != 0 then s.jobFails h c i d Status.format r.err p.reached
  else if stop.isSome && !(r.stream.op = 1 && r.stream.ended) then s.jobFails h c i d (stop.getD 0) 0 p.reached
  else if r.stream.op = 1 && last && !r.stream.ended then s.jobFails h c i d Status.format 0x09 p.reached
  else if save && !(s.slotHeld h c slot && (s.kslot h slot).isNone) then s.jobFails h c i d Status.badDesc 0x21 p.reached
  else
    let detail := if r.stream.op = 1 && r.stream.ended && left then 0x0A else 0
    let job : KaoJob := ⟨s.kaoBinding h c, i, d, 0, detail, r.used, r.out.length, r.stream.crc, p.entries, false⟩
    let s := if save && !SMap.get false (s.kaoOf h).releaseDue slot then s.setKslot h slot (some r.stream) else s
    (s.updKchan h c fun k => { k with
      stream := if save || last then none else some r.stream, job := some job }).kaoShow h c

/-- A job starts on a free pipe and runs. -/
def State.jobRun (s : State) (h c i : Nat) (d : List Byte) : State :=
  let ti := s.kaoTi h c
  if s.rb Reg.TIF_STATUS.resetting ti && !(s.ti ti).draining then s.jobNothing h c i d Status.squashed 0
  else match s.jobStream h c d with
    | .error (st, detail) => s.jobNothing h c i d st detail
    | .ok x =>
      let s := if jobFlag d 3 then s.setKslot h (jobSlot d) none else s
      let q := s.kaoReq h c
      let n := jobLe d 0x10 4
      let (bs, stop, s) := State.kaoInput q (n / 32 + 2) (jobLe d 8 8) n s
      let r := x.run (jobFlag d 1) stop.isSome bs
      let p := s.kaoOutput q d r.out
      p.s.jobEnds h c i d r stop p

/-- The next channel in rotation takes its oldest fetched job, when that is a job of this op. -/
def State.jobStart (s : State) (h op : Nat) : State :=
  if !s.blkOn Cls.kao h || s.holding || 16 ≤ s.kaoBusy h then s
  else match s.kaoNext h with
    | none => s
    | some c =>
      match (s.kchan h c).fetched with
      | [] => s
      | (i, d) :: rest =>
        if !s.kaoTiOk h c || ((d.getD 0 0).toNat == 1) != (op == 1) then s
        else ((s.updKao h fun k => { k with rotor := c }).updKchan h c fun k => { k with fetched := rest }).jobRun h c i d

/-- COMPRESS: a job whose op is not 1. -/
def execCompress (h : Half) (s : State) : Out3 := .next (s.jobStart h.val 0)

/-- DECOMPRESS: a job whose op is 1. -/
def execDecompress (h : Half) (s : State) : Out3 := .next (s.jobStart h.val 1)

/-- The address of a job's ring entry. -/
def KaoJob.entry (j : KaoJob) : Nat := j.bind.base * 4096 + 64 * j.index

/-- A result write that is refused ends the job with OWNERSHIP, as any access of its own does (R342, R344): its stream is discarded,
a slot it saved into is empty, and its buffers hold free bytes. -/
def State.jobRefused (s : State) (h c : Nat) (j : KaoJob) : State :=
  let s := if j.status = 0 && jobFlag j.desc 2 && s.slotHeld h c (jobSlot j.desc) then s.setKslot h (jobSlot j.desc) none else s
  let s := s.jobSpoils (s.jobReq h j) j.desc []
  (s.updKchan h c fun k => { k with
    stream := none, job := some { j with status := Status.ownership, detail := 0 } }).kaoShow h c

/-- Write a part of a job's descriptor. -/
def State.jobWrite (s : State) (h c : Nat) (j : KaoJob) (off : Nat) (bs : List Byte) : State :=
  match s.writeMem (s.jobReq h j) (j.entry + off) bs with
  | (.data _ _, s) => s
  | (_, s) => s.jobRefused h c j

/-- JOB_RESULT: bytes 0x28 to 0x3F (R331, R333). -/
def State.jobResult (s : State) (h c : Nat) : State :=
  match (s.kchan h c).job with
  | none => s
  | some j =>
    if j.written then s
    else
      let bs := leBytes 4 j.consumed ++ leBytes 4 j.produced ++ leBytes 4 j.crc ++ [BitVec.ofNat 8 j.chainUsed, 0, 0, 0] ++
        leBytes 8 (strataBits (s.replica (tStop h)))
      (s.jobWrite h c j 0x28 bs).updKchan h c fun k => { k with job := k.job.map fun j => { j with written := true } }

def execJobResult (h : Half) (c : Fin 64) (s : State) : Out3 := .next (s.jobResult h.val c.val)

/-- A job is over: the counts, and the notification or EV 0x0B0; the pipe is free. -/
def State.jobOver (s : State) (h c : Nat) (j : KaoJob) : State :=
  let s := s.addf Reg.KAO_STAT.jobs h
  let s := if j.status = 0 then s else s.addf Reg.KAO_STAT.failed h
  let s := s.updKchan h c fun k => { k with job := none }
  let s := (s.slotsDue h c).kaoShow h c
  let id := j.bind.intrId
  if jobFlag j.desc 4 then (if 0x400 ≤ id && id < 0xFFF then s.raiseId h id c 0 else s)
  else if j.status = 0 then s else s.raise 0x0B0 (s.tiEvTo j.bind.ti) h c

/-- JOB_DONE_WRITE: the word at 0x00, and the job is over. -/
def State.jobDone (s : State) (h c : Nat) : State :=
  match (s.kchan h c).job with
  | none => s
  | some j =>
    if !j.written then s
    else
      let s := s.jobWrite h c j 0 (j.desc.take 5 ++ [BitVec.ofNat 8 j.status, BitVec.ofNat 8 j.detail, 1])
      match (s.kchan h c).job with
      | none => s
      | some j => s.jobOver h c j

def execJobDoneWrite (h : Half) (c : Fin 64) (s : State) : Out3 := .next (s.jobDone h.val c.val)

/-- A job's TI is still the one it started for (R344). -/
def State.jobTiOk (s : State) (j : KaoJob) : Bool := s.blkOn Cls.tif j.bind.ti && s.tiGen j.bind.ti == j.bind.gen

/-- A running job whose TI has changed stops without a result, its buffers unspecified (R341, R344). -/
def State.jobStops (s : State) (h c : Nat) : State :=
  match (s.kchan h c).job with
  | none => s
  | some j =>
    if s.jobTiOk j then s
    else
      let s := (s.jobSpoils (s.jobReq h j) j.desc []).updKchan h c fun k => { k with job := none }
      (s.slotsDue h c).kaoShow h c

/-- KAOLIN_TI_CHANGE: the TI's generation differs or it is not ON (R344). A job that goes on after its channel was unbound stops
alone. -/
def State.kaoTiChange (s : State) (h c : Nat) : State :=
  let s := s.jobStops h c
  if !s.rb Reg.KAO_CHAN_CFG.enable h c || s.kaoTiOk h c then s
  else
    let s := s.updKchan h c fun k => { k with fetched := [], stopped := false, stream := none }
    let s := s.slotsRelease h c
    let s := (s.setf Reg.KAO_CHAN_CFG.enable h 0 c).setf Reg.KAO_CHAN_STATE.status h Status.tiReset c
    (s.kaoShow h c).kaoEvent h c

def execKaolinTiChange (h : Half) (c : Fin 64) (s : State) : Out3 := .next (s.kaoTiChange h.val c.val)

/-! ## The unit as a block (R344) -/

/-- KAO_CTL.enable is 0: fetched jobs not started are returned. -/
def State.kaoStopping (s : State) (h : Nat) : State :=
  (List.range 64).foldl (fun s c =>
    match (s.kchan h c).fetched with
    | [] => s
    | (i, _) :: _ => (s.updKchan h c fun k => { k with fetched := [] }).setf Reg.KAO_CHAN_STATE.fetch h i c) s

/-- The unit is OFF: open streams are discarded and its slots released by R33, each zeroed. -/
def State.kaoOff (s : State) (h : Nat) : State :=
  let s := s.releaseClaims Cls.kao h
  (List.range 64).foldl (fun s c => (s.updKchan h c fun k => { k with stream := none }).kaoShow h c) s

/-- The unit is ON: each channel rechecks its TI. -/
def State.kaoOn (s : State) (h : Nat) : State := (List.range 64).foldl (fun s c => s.kaoTiChange h c) s

/-- KAO_STAT_READ. -/
def execKaoStatRead (q : Requester) (h : Half) (s : State) : Out3 := .next (s.readCmd q Cls.kao h.val Reg.KAO_STAT.reg 0 id)

end Sys2Proof.Machine
end

