-- ==== Sys2Proof/Machine/DramCore.lean ====
section
/-!
DEFINITION. DramCore: one line of a DDR5 channel read and written, the written-block bitmap, neighbour refresh and refresh
management, rank retirement and migration (R347 to R358, R362 to R365, R370 to R372, R380).
-/
namespace Sys2Proof.Machine

/-! ## Where a channel address lies (R347, R349, R363) -/

/-- V, the reserve at the top of the channel address space. -/
def State.reserveBytes (s : State) (c : Nat) : Nat := if s.chanSet (c / 8) = 0 then 2 ^ 27 else 2 ^ 28

/-- C, the channel address space. -/
def State.chanBytes (s : State) (c : Nat) : Nat := s.rf Reg.DMC_CFG.active c * s.rankBytes c

def State.reserveBase (s : State) (c : Nat) : Nat := s.chanBytes c - s.reserveBytes c

/-- The physical rank that DMC_CFG.map gives a logical rank. -/
def State.mapRank (s : State) (c l : Nat) : Nat := s.rf Reg.DMC_CFG.map c / 4 ^ l % 4

/-- The physical rank that serves a channel address: the destination below the migration pointer. -/
def State.physRank (s : State) (c ca : Nat) : Nat :=
  let l := ca / s.rankBytes c
  match (s.chan c).migration with
  | some m => if m.src = l && ca % s.rankBytes c / 4096 * 4096 < m.ptr then m.dst else s.mapRank c l
  | none => s.mapRank c l

/-- Rank states of DMC_STATUS. -/
def State.rankState (s : State) (c r : Nat) : Nat := s.rf Reg.DMC_STATUS.rank_state c / 8 ^ r % 8

def State.setRankState (s : State) (c r v : Nat) : State :=
  let w := s.rf Reg.DMC_STATUS.rank_state c
  s.setf Reg.DMC_STATUS.rank_state c (w - w / 8 ^ r % 8 * 8 ^ r + v * 8 ^ r)

/-- The row of a channel address, and its subchannel, bank group and bank. -/
def State.rowOf (s : State) (c ca : Nat) : Nat := ca / 2 ^ 19 % 2 ^ (16 + s.rf Reg.DMC_CFG.density c)
def State.bgOf (s : State) (c ca : Nat) : Nat := (ca / 128 % 8) ^^^ (s.rowOf c ca % 8)
def State.bankOf (s : State) (c ca : Nat) : Nat := (ca / 1024 % 4) ^^^ (s.rowOf c ca / 8 % 4)

/-- The location field of an error record (R377). -/
def State.dramLocation (s : State) (c ca g : Nat) : Nat :=
  c + s.physRank c ca * 2 ^ 4 + ca / 64 % 2 * 2 ^ 6 + s.bgOf c ca * 2 ^ 7 + s.bankOf c ca * 2 ^ 10 + s.rowOf c ca * 2 ^ 12
    + ca / 2 ^ 12 % 128 * 2 ^ 30 + g * 2 ^ 37

/-- Errors are kept by physical rank and granule of the rank. -/
def State.errKey (s : State) (c ca g : Nat) : Nat := s.physRank c ca * 2 ^ 40 + ca % s.rankBytes c / 32 + g

def State.granErrs (s : State) (c ca g : Nat) : ErrPat × Bool := SMap.get ([], false) (s.chan c).errs (s.errKey c ca g)

def State.setGranErrs (s : State) (c ca g : Nat) (e : ErrPat × Bool) : State :=
  s.updChan c fun d => { d with errs := SMap.set ([], false) d.errs (s.errKey c ca g) e }

/-! ## The written-block bitmap (R352 to R355) -/

/-- The block of a channel address counts as written; every block does without a bitmap, and so does the reserve. -/
def State.blockWritten (s : State) (c ca : Nat) : Bool :=
  !s.rb Reg.DMC_CFG.bitmap_en c || s.reserveBase c ≤ ca ||
    SMap.get false (s.chan c).written (ca / 4096) || SMap.get false (s.chan c).lineUe (ca / 4096 / 512)

/-- The line holds no codeword of its own: its block was never written but its bit was lost, or a training pattern lies
there. -/
def State.lineGarbage (s : State) (c ca : Nat) : Bool :=
  let d := s.chan c
  !SMap.get false d.lineFixed (ca / 64) &&
    ((SMap.get false d.lineUe (ca / 4096 / 512) && !SMap.get false d.written (ca / 4096)) ||
      (SMap.get false d.scrambled (s.physRank c ca) && ca % s.rankBytes c < 2 ^ 22))

/-- The written bits of a bitmap line change under a miscorrection: XOR of symbols into granule `g` of line `idx`. -/
def State.flipBitmap (s : State) (c idx g : Nat) (e : ErrPat) : State :=
  s.updChan c fun d => { d with written := e.foldl (fun m x =>
    if x.1 < 4 then m
    else (List.range 16).foldl (fun m b =>
      let cb := 512 * idx + 256 * g + 16 * (x.1 - 4) + b
      if bitOf x.2 b then SMap.set false m cb (!SMap.get false m cb) else m) m) d.written }

/-! ## The data of a line as DRAM holds it -/

/-- The granule is poisoned in DRAM: by the home's own copy while an owner's differs from it. -/
def State.dramPoison (s : State) (g : Nat) : Bool :=
  match (s.lineHome (g / 2)).stale with
  | some st => if g % 2 = 0 then st.poison0 else st.poison1
  | none => SMap.get false s.mem.poison g

def State.setDramPoison (s : State) (g : Nat) (b : Bool) : State :=
  match (s.lineHome (g / 2)).stale with
  | some _ => s.updLine (g / 2) fun l => { l with stale := l.stale.map fun st =>
      if g % 2 = 0 then { st with poison0 := b } else { st with poison1 := b } }
  | none => s.setPoison g b

/-- Change one stored byte of DRAM's copy. -/
def State.setDramByte (s : State) (a : Nat) (b : Byte) : State :=
  match (s.lineHome (a / 64)).stale with
  | some _ => s.updLine (a / 64) fun l => { l with stale := l.stale.map fun st => { st with bytes := st.bytes.set (a % 64) b } }
  | none => { s with mem := { s.mem with bytes := SMap.set 0 s.mem.bytes a b } }

def State.dramByte (s : State) (a : Nat) : Byte :=
  match (s.lineHome (a / 64)).stale with
  | some st => st.bytes.getD (a % 64) 0
  | none => SMap.get 0 s.mem.bytes a

/-- The ciphertext of granule `g` differs from what was written by `e` and the code no longer shows it: a plaintext granule
changes in those bits, an encrypted one loses the 16-byte blocks they lie in. -/
def State.flip320 (s : State) (g : Nat) (e : ErrPat) : State :=
  let a := 32 * g
  e.foldl (fun s x =>
    if x.1 < 4 then s
    else if s.mem.tagAt a < 2 * 2 ^ 32 then
      let b := a + 2 * (x.1 - 4)
      (s.setDramByte b (s.dramByte b ^^^ BitVec.ofNat 8 x.2)).setDramByte (b + 1) (s.dramByte (b + 1) ^^^ BitVec.ofNat 8 (x.2 / 256))
    else (List.range 16).foldl (fun s k =>
      let (v, s) := s.drawFree
      s.setDramByte (a + 16 * ((x.1 - 4) / 8) + k) (BitVec.ofNat 8 v)) s) s

/-! ## Rank retirement (R362 to R365) -/

/-- EV 0x0C0 to 0x0C6 of a channel. -/
def State.dmcEvent (s : State) (ev c : Nat) : State := s.raise ev .both (c / 8) c

def State.migStatus (s : State) (c st : Nat) : State :=
  (s.setf Reg.DMC_MIGRATE.status c st).setf Reg.DMC_STATUS.last_status c st

/-- Another channel migrates. -/
def State.otherMigration (s : State) (c : Nat) : Bool := s.dmc.any fun p => p.1 != c && p.2.migration.isSome

/-- Fence logical rank `l` below an offset (R365). -/
def State.fenceRank (s : State) (c l limit : Nat) : State :=
  let s := s.setRankState c (s.mapRank c l) 5
  let s := s.updChan c fun d => { d with fence := SMap.set 0 d.fence l limit }
  (s.dmcEvent 0x0C4 c).huskMode

/-- The migration of a channel ends; its repair with it. -/
def State.migEnd (s : State) (c st : Nat) : State :=
  let s := s.updChan c fun d => { d with migration := none }
  let s := ((s.setf Reg.DMC_STATUS.migrating c 0).setf Reg.DMC_MIGRATE.active c 0).migStatus c st
  s.repairEnds .migration (s.otherMigration c)

/-- A mark ends when its rank reaches retired (R380). -/
def State.clearMarks (s : State) (c r : Nat) : State :=
  [0, 1].foldl (fun s u =>
    let j := 8 * (c % 8) + 2 * r + u
    let s := (s.setf Reg.RAS_MARK.valid (c / 8) 0 j).setf Reg.RAS_MARK.auto (c / 8) 0 j
    s.setf Reg.RAS_MARK.device (c / 8) 0 j) s

/-- P has reached R: the map names the destination and the source is retired. -/
def State.migComplete (s : State) (c : Nat) (m : Migration) : State :=
  let src := s.mapRank c m.src
  let w := s.rf Reg.DMC_CFG.map c
  let s := s.setf Reg.DMC_CFG.map c (w - w / 4 ^ m.src % 4 * 4 ^ m.src + m.dst * 4 ^ m.src)
  let s := (s.setRankState c src 4).setRankState c m.dst 1
  let s := s.updChan c fun d => { d with owed := SMap.set 0 d.owed src 0, refDue := SMap.set false d.refDue src false }
  ((s.clearMarks c src).migEnd c Status.ok).dmcEvent 0x0C1 c

/-- A trigger of R362 names logical rank `l`; `cmd` tells a command error from the others. -/
def State.retireRank (s : State) (c l : Nat) (cmd : Bool) : State :=
  let refuse := fun (s : State) =>
    if cmd then s.fenceRank c l (s.rankBytes c)
    else (s.migStatus c Status.noSpare).dmcEvent 0x0C2 c
  match (s.chan c).migration with
  | some m =>
    if m.src = l then
      (if cmd then s.updChan c fun d => { d with migration := some { m with srcDead := true } } else s)
    else refuse s
  | none =>
    match (List.range 4).find? fun r => s.rankState c r == 2 with
    | none => refuse s
    | some d =>
      let src := s.mapRank c l
      let s := s.setRankState c src 3
      let s := s.updChan c fun x => { x with migration := some ⟨l, d, 0, false⟩ }
      let s := ((s.setf Reg.DMC_STATUS.migrating c 1).setf Reg.DMC_MIGRATE.active c 1).migStatus c Status.ok
      let s := s.setf Reg.DMC_MIG_PTR.p c 0
      let s := s.setOdStored 0x0C40 (c + 1) (s.od 0x0C40 (c + 1) ||| 2 ^ src)
      (s.repairBegins .migration).dmcEvent 0x0C0 c

/-! ## Device marks (R380) -/

/-- The mark entry of a channel address, and the mark in force there. -/
def State.markIdx (s : State) (c ca : Nat) : Nat := 8 * (c % 8) + 2 * s.physRank c ca + ca / 64 % 2

def State.markAt (s : State) (c ca : Nat) : Option Nat :=
  let j := s.markIdx c ca
  if s.rb Reg.RAS_MARK.valid (c / 8) j then some (s.rf Reg.RAS_MARK.device (c / 8) j) else none

/-- A symbol was corrected: its device is counted, and marked when it reaches the threshold. -/
def State.countSym (s : State) (c ca p : Nat) : State :=
  let h := c / 8
  let j := s.markIdx c ca
  let dev := posDevice p
  let n := SMap.get 0 (s.rasHalf h).markCount (16 * j + dev) + 1
  let s := s.updRas h fun x => { x with markCount := SMap.set 0 x.markCount (16 * j + dev) n }
  let s := s.setf Reg.RAS_MARK.count h (max (s.rf Reg.RAS_MARK.count h j) (min n 0xFFFF)) j
  let thr := s.rf Reg.RAS_CTL.mark_thr h
  if thr = 0 || n < thr then s
  else if !s.rb Reg.RAS_MARK.valid h j then
    let s := (s.setf Reg.RAS_MARK.valid h 1 j).setf Reg.RAS_MARK.device h dev j
    (s.setf Reg.RAS_MARK.auto h 1 j).raise 0x0A7 .both h 0
  else if s.rf Reg.RAS_MARK.device h j != dev && n == thr then s.raise 0x0A8 .both h 0
  else s

/-! ## One granule read (R351, R371, R372) -/

/-- What a read of a granule found. -/
structure GranRead where
  ce : Nat
  ue : Bool
  poison : Bool
deriving DecidableEq, Repr

/-- The change that a persistent injection puts into every write of the granule (R386). -/
def State.persistFor (s : State) (c ca g : Nat) : Option Inject :=
  (s.rasHalf (c / 8)).inject.filter fun i =>
    i.target == 0 && i.persist && i.applied && i.line == s.chanPa c ca / 64 && i.granule == g

/-- The channel writes a granule: no errors but an armed change. -/
def State.granWritten (s : State) (c ca g : Nat) : State :=
  match s.persistFor c ca g with
  | some i =>
    let s := s.setGranErrs c ca g (i.syms, !i.syms.isEmpty)
    if i.poison then s.setDramPoison (s.chanPa c ca / 32 + g) true else s
  | none => s.setGranErrs c ca g ([], false)

/-- Four 16-bit syndromes as one number. -/
def packSyn (l : List Nat) : Nat := l.foldr (fun x a => x + 65536 * a) 0

/-- A read of granule `g` of the line at `ca` meets the stored errors: it corrects, or rewrites the granule poisoned and
triggers R362. `src` is the source of the record. -/
def State.readGranule (s : State) (c ca g src : Nat) : GranRead × State :=
  let h := c / 8
  let reserve := decide (s.reserveBase c ≤ ca)
  let pa := if reserve then 0 else s.chanPa c ca + 32 * g
  let gi := pa / 32
  let (e, inj) := s.granErrs c ca g
  let pois := !reserve && s.dramPoison gi
  let mark := s.markAt c ca
  let found := if !reserve && s.lineGarbage c ca && !pois then .uncorrectable else decode320 e pois mark
  let word := if pois then errXor e poisonPattern else e
  let rec' := { s.mkRec 0 src Status.ok (channelStop c) pa c 0xFFFF with
    flags := b2n (!reserve) + 8 * b2n inj, syndrome := packSyn (syns16 word), location := s.dramLocation c ca g }
  let settle := fun (s : State) (resid : ErrPat) =>
    let s := s.granWritten c ca g
    if reserve then s.flipBitmap c ((ca - s.reserveBase c) / 64) g resid else s.flip320 gi resid
  let ce := fun (s : State) (x : ErrPat) (um : Bool) =>
    let s := x.foldl (fun s y => s.countSym c ca y.1) s
    s.logError h { rec' with flags := rec'.flags + 16, positions := errPositions x um }
  let bitmapLost := fun (s : State) =>
    let s := s.updChan c fun d => { d with lineUe := SMap.set false d.lineUe ((ca - s.reserveBase c) / 64) true }
    let s := (s.granWritten c ca 0).granWritten c ca 1
    let s := s.addf Reg.DMC_COUNT2.bitmap_ue c
    s.logError h { rec' with cls := 2, source := 0x05, status := Status.poisoned }
  match found with
  | .clean =>
    (⟨0, false, false⟩, if e.isEmpty then s else
      let s := settle s word
      if pois then s.setDramPoison gi false else s)
  | .poisoned =>
    if reserve then (⟨0, true, true⟩, bitmapLost s)
    else (⟨0, false, true⟩, if e.isEmpty then s else (settle s e).setDramPoison gi true)
  | .corrected x um =>
    let s := ce (settle s (errXor word x)) x um
    (⟨1, false, false⟩, if pois then s.setDramPoison gi false else s)
  | .poisonCorrected x um =>
    if reserve then (⟨1, true, true⟩, bitmapLost (ce s x um))
    else (⟨1, false, true⟩, (ce (settle s (errXor e x)) x um).setDramPoison gi true)
  | .uncorrectable =>
    let l := ca / s.rankBytes c
    let s :=
      if reserve then bitmapLost s
      else
        ((s.granWritten c ca g).setDramPoison gi true).logError h
          { rec' with cls := if src = 0x04 then 2 else 1, status := Status.poisoned }
    (⟨0, true, true⟩, if s.rb Reg.DMC_MIGRATE.auto c then s.retireRank c l false else s)

/-- A line read: both granules. A line rewritten poisoned has codewords of its own. -/
def State.readDramLine (s : State) (c ca src : Nat) : GranRead × State :=
  let garbage := s.lineGarbage c ca
  let (a, s) := s.readGranule c ca 0 src
  let (b, s) := s.readGranule c ca 1 src
  let s := if garbage then s.updChan c fun d => { d with lineFixed := SMap.set false d.lineFixed (ca / 64) true } else s
  (⟨a.ce + b.ce, a.ue || b.ue, a.poison || b.poison⟩, s)

/-- Symbol errors come upon a line: granule, position, value. -/
def State.upset (s : State) (c ca : Nat) (flips : List (Fin 2 × Fin 20 × BitVec 16)) : State :=
  flips.foldl (fun s f =>
    let (e, inj) := s.granErrs c ca f.1.val
    s.setGranErrs c ca f.1.val (errAdd e (f.2.1.val, f.2.2.toNat), inj)) s

/-! ## Activations (R357, R358) -/

/-- One step of a right-shifting Galois register. -/
def galoisRight (mask v : Nat) : Nat := (v / 2) ^^^ (if v % 2 = 1 then mask else 0)

/-- The key of a bank's activation count. -/
def State.bankKey (s : State) (c ca : Nat) : Nat := s.physRank c ca * 64 + ca / 64 % 2 * 32 + s.bgOf c ca * 4 + s.bankOf c ca

/-- `n` activations of a bank count toward refresh management; at RAAIMT an RFM issues. -/
def State.countActs (s : State) (c key n : Nat) : State :=
  let d := s.chan c
  if !d.rfmReq then s
  else
    let a := SMap.get 0 d.acts key + n
    if d.raaimt ≤ a && d.raaimt != 0 then
      (s.addf Reg.DMC_COUNT.rfm c).updChan c fun d => { d with acts := SMap.set 0 d.acts key (a - d.raaimt) }
    else s.updChan c fun d => { d with acts := SMap.set 0 d.acts key a }

/-- An ACT made for a request: the LFSR advances, and a neighbour refresh of the row may follow. -/
def State.activate (s : State) (c ca : Nat) : State :=
  let key := s.bankKey c ca
  let s := s.countActs c key 1
  let v := galoisRight 0x80200003 (s.rf Reg.DMC_NR_LFSR.value c)
  let s := s.setf Reg.DMC_NR_LFSR.value c v
  let k := max 6 (min 14 (s.rf Reg.DMC_REFRESH.nr_k c))
  if s.rb Reg.DMC_REFRESH.nr_en c && v % 2 ^ k = 0 then
    let s := s.addf Reg.DMC_COUNT.nr c
    if (s.chan c).drfm then s
    else
      let r := s.rowOf c ca
      s.countActs c key (b2n (0 < r) + b2n (r + 1 < 2 ^ (16 + s.rf Reg.DMC_CFG.density c)))
  else s

/-! ## Lines at the channel (R351, R353, R354) -/

/-- A read is served: 64 bytes and the poison bits to the home. -/
def State.serveRead (s : State) (c ca : Nat) (slot : Option Nat) : State :=
  let give := fun (s : State) (bs : List Byte) (poison : Nat) =>
    { s with out := { s.out with resp := bs, value := poison, status := Status.ok } }
  if s.chanFenced c ca then
    let r := { s.mkRec 2 0x52 Status.poisoned (channelStop c) (s.chanPa c ca) c 0xFFFF with location := s.dramLocation c ca 0 }
    give (s.logError (c / 8) r) (List.replicate 64 0) 3
  else if !s.blockWritten c ca then give s (List.replicate 64 0) 0
  else if s.reserveBase c ≤ ca then (s.readDramLine c ca 0x05).2
  else
    let (_, s) := s.readDramLine c ca 0x01
    let g := s.chanPa c ca / 32
    let bits := b2n (s.dramPoison g) + 2 * b2n (s.dramPoison (g + 1))
    let byte := fun k =>
      let a := 32 * g + k
      -- a poisoned granule is not decrypted
      let tag := if s.dramPoison (g + k / 32) then 1 else s.tagOf slot
      match (s.lineHome (g / 2)).stale with
      | some st => s.byteUnder st.tag tag a st.bytes
      | none => s.peekAs tag a
    give s ((List.range 64).map byte) bits

/-- A line holds its data under a key slot from now on: in DRAM's own copy, while an owner's differs from it. -/
def State.lineWritten (s : State) (line tag : Nat) : State :=
  match (s.lineHome line).stale with
  | some _ => s.updLine line fun l => { l with stale := l.stale.map fun st => { st with tag := tag } }
  | none =>
    if s.mem.tagAt (64 * line) = tag then s
    else { s with mem := { s.mem with lineTag := SMap.set 0 s.mem.lineTag line tag } }

/-- The channel writes both granules of a line: codewords of their own. -/
def State.chanLine (s : State) (c ca : Nat) : State :=
  let s := (s.granWritten c ca 0).granWritten c ca 1
  if s.lineGarbage c ca then s.updChan c fun d => { d with lineFixed := SMap.set false d.lineFixed (ca / 64) true } else s

/-- The first write to a block writes all its 64 lines under the key slot of the write: zeros but for its own line (R354). -/
def State.fillBlock (s : State) (c ca tag : Nat) : State :=
  let a := s.chanPa c ca
  let s := if s.mem.tagAt a = 0 then { s with mem := { s.mem with pageTag := SMap.set 0 s.mem.pageTag (a / 4096) tag } } else s
  (List.range 64).foldl (fun s k => s.chanLine c (ca / 4096 * 4096 + 64 * k)) s

/-- A write is served: whole, with new check bits and under the slot that the home attached; the first to a block starts its zero
fill. -/
def State.serveWrite (s : State) (c ca : Nat) (slot : Option Nat) : State :=
  if s.chanFenced c ca then
    let r := { s.mkRec 2 0x52 Status.poisoned (channelStop c) (s.chanPa c ca) c 0xFFFF with location := s.dramLocation c ca 0 }
    s.logError (c / 8) r
  else if s.reserveBase c ≤ ca then s
  else
    let tag := s.tagOf slot
    let line := s.chanPa c ca / 64
    if !s.blockWritten c ca then
      ((s.fillBlock c ca tag).lineWritten line tag).updChan c fun d => { d with filling := SMap.set false d.filling (ca / 4096) true }
    else (s.chanLine c ca).lineWritten line tag

def State.serve (s : State) (c : Nat) (r : ChanReq) : State :=
  if r.write then s.serveWrite c r.ca r.slot else s.serveRead c r.ca r.slot

/-- A request waits while its block is being filled (R354) and while its rank must refresh first (R356). -/
def State.chanWaits (s : State) (c ca : Nat) : Bool :=
  SMap.get false (s.chan c).filling (ca / 4096) || SMap.get false (s.chan c).refDue (s.physRank c ca)

def State.chanRequest (s : State) (c : Nat) (r : ChanReq) : State :=
  if s.chanWaits c r.ca then s.updChan c fun d => { d with waiting := d.waiting ++ [r] }
  else s.serve c r

/-- The requests that waited are served in arrival order, but for those that must still wait. -/
def State.serveWaiting (s : State) (c : Nat) : State :=
  (s.chan c).waiting.foldl (fun s r => s.chanRequest c r) (s.updChan c fun d => { d with waiting := [] })

end Sys2Proof.Machine
end

