-- ==== Sys2Proof/Machine/Dram.lean ====
section
/-!
DEFINITION. Dram: the commands of the DDR5 channels (R351 to R365, R391).
-/
namespace Sys2Proof.Machine

/-! ## Requests (R351, R354) -/

/-- DRAM_READ: the home asks for the line at a channel address under a key slot. `act` tells whether the row had to be
opened, and `flips` the symbol errors that came upon the line since it was last written. -/
def execDramRead (c : ChannelId) (ca : BitVec 38) (slot : Option (Fin 1028)) (act : Bool)
    (flips : List (Fin 2 × Fin 20 × BitVec 16)) (s : State) : Out3 :=
  if !s.blkOn Cls.dmc c.val then .next s
  else
    let a := ca.toNat / 64 * 64
    let s := s.upset c.val a flips
    let s := if act then s.activate c.val a else s
    .next (s.chanRequest c.val ⟨false, a, slot.map Fin.val⟩)

/-- DRAM_WRITE. -/
def execDramWrite (c : ChannelId) (ca : BitVec 38) (slot : Option (Fin 1028)) (act : Bool) (s : State) : Out3 :=
  if !s.blkOn Cls.dmc c.val then .next s
  else
    let a := ca.toNat / 64 * 64
    let s := if act then s.activate c.val a else s
    .next (s.chanRequest c.val ⟨true, a, slot.map Fin.val⟩)

/-- ZERO_FILL_DONE: the other lines of the block have been written with zeros, the bit sets and the requests that waited are
served. -/
def execZeroFillDone (c : ChannelId) (cb : BitVec 26) (s : State) : Out3 :=
  let b := cb.toNat
  let d := s.chan c.val
  if !SMap.get false d.filling b then .next s
  else
    let s := s.updChan c.val fun d => { d with
      filling := SMap.set false d.filling b false, written := SMap.set false d.written b true }
    .next ((s.addf Reg.DMC_COUNT2.zero_fills c.val).serveWaiting c.val)

/-! ## Refresh (R356) -/

/-- REFRESH_OWED: a tREFI passes; only active, spare and retiring ranks owe. A rank whose owed count would exceed postpone_max
takes no request until a REFab issues. -/
def execRefreshOwed (c : ChannelId) (r : Fin 4) (s : State) : Out3 :=
  let st := s.rankState c.val r.val
  if !(s.blkOn Cls.dmc c.val && (st == 1 || st == 2 || st == 3)) then .next s
  else
    let n := SMap.get 0 (s.chan c.val).owed r.val + 1
    let due := decide (min 8 (s.rf Reg.DMC_REFRESH.postpone_max c.val) < n)
    let n := min 8 n
    let s := s.updChan c.val fun d => { d with
      owed := SMap.set 0 d.owed r.val n, refDue := if due then SMap.set false d.refDue r.val true else d.refDue }
    .next (s.setf Reg.DMC_COUNT.owed_max c.val (max (s.rf Reg.DMC_COUNT.owed_max c.val) n))

/-- A refresh of every bank of a rank, which no longer has to refresh first. -/
def State.refabOne (s : State) (c r : Nat) : State :=
  s.updChan c fun d => { d with
    owed := SMap.set 0 d.owed r (SMap.get 0 d.owed r - 1), refDue := SMap.set false d.refDue r false,
    acts := (List.range 64).foldl (fun m b => SMap.set 0 m (64 * r + b) (SMap.get 0 m (64 * r + b) - d.raaimt)) d.acts }

/-- REFAB: one all-bank refresh while requests for the rank are queued; with its queue empty every owed one issues. The requests
that waited for it are served. -/
def execRefab (c : ChannelId) (r : Fin 4) (queued : Bool) (s : State) : Out3 :=
  let n := SMap.get 0 (s.chan c.val).owed r.val
  if !s.blkOn Cls.dmc c.val then .next s
  else .next (((List.range (if queued then min 1 n else n)).foldl (fun s _ => s.refabOne c.val r.val) s).serveWaiting c.val)

/-- RETRAIN: at a rank's next REFab, each lane's rd and wr move by at most one step (R361). `moves` gives, by lane, the step of
rd and of wr: 0 stays, 1 up, 2 down. -/
def State.moveLane (s : State) (c n : Nat) (rd wr : Fin 3) : State :=
  let step : Fin 3 → Int := fun x => if x.val = 1 then 1 else if x.val = 2 then -1 else 0
  let go := fun (f : Fld) (x : Fin 3) (s : State) =>
    let old := s.rf f c n
    let new := ((old : Int) + step x).toNat
    s.setf f c (min new (2 ^ f.width - 1)) n
  let r0 := s.rf Reg.DMC_DELAY.rd c n
  let w0 := s.rf Reg.DMC_DELAY.wr c n
  let s := go Reg.DMC_DELAY.wr wr (go Reg.DMC_DELAY.rd rd s)
  let s := s.updChan c fun d => { d with
    movedRd := SMap.upd 0 d.movedRd n (· + ((s.rf Reg.DMC_DELAY.rd c n : Int) - r0)),
    movedWr := SMap.upd 0 d.movedWr n (· + ((s.rf Reg.DMC_DELAY.wr c n : Int) - w0)) }
  let d := s.chan c
  let m := max (SMap.get 0 d.movedRd n).natAbs (SMap.get 0 d.movedWr n).natAbs
  let s := s.setf Reg.DMC_STATUS.drift_max c (max (s.rf Reg.DMC_STATUS.drift_max c) m)
  if max 1 (s.rf Reg.DMC_RETRAIN.drift_limit c) < m && !SMap.get false d.driftEv n then
    (s.updChan c fun d => { d with driftEv := SMap.set false d.driftEv n true }).dmcEvent 0x0C5 c
  else s

def execRetrain (c : ChannelId) (r : Fin 4) (moves : List (Fin 20 × Fin 3 × Fin 3)) (s : State) : Out3 :=
  if !s.blkOn Cls.dmc c.val || s.rf Reg.DMC_RETRAIN.interval_ms c.val == 0 then .next s
  else .next ((moves.foldl (fun s m => s.moveLane c.val m.1.val m.2.1 m.2.2) (s.refabOne c.val r.val)).serveWaiting c.val)

/-- DIMM_TEMP_POLL: hot sets above 85 °C and clears below 82 °C on the hottest DIMM, which also halves or quarters the request
slots (R356, R391). -/
def execDimmTempPoll (c : ChannelId) (t0 t1 : Int) (s : State) : Out3 :=
  let t := max t0 t1
  let hot := if 85 < t then 1 else if t < 82 then 0 else s.rf Reg.DMC_REFRESH.hot c.val
  let s := (s.setf Reg.DMC_REFRESH.hot c.val hot).setf Reg.DMC_STATUS.hot c.val hot
  let lvl := if 95 ≤ t then 2 else if 90 ≤ t then 1 else 0
  let old := (s.chan c.val).throttle
  let s := s.updChan c.val fun d => { d with throttle := lvl }
  .next (if lvl = 2 && old != 2 then s.raise 0x0D1 .both (c.val / 8) (0x100 + c.val) else s)

/-! ## Training (R345 to R347, R359, R360) -/

/-- Give every present physical rank its state, and the logical ranks their map (R346, R347). -/
def State.assignRanks (s : State) (c : Nat) : State :=
  let present := s.rf Reg.DMC_CFG.present c
  let retired := s.od 0x0C40 (c + 1) % 16
  let ranks := (List.range 4).filter fun r => bitOf present r
  let spare := if s.rb Reg.DMC_CFG.spare_en c && 2 ≤ ranks.length && retired &&& present = 0 then ranks.getLast? else none
  let act := ranks.filter fun r => !bitOf retired r && spare != some r
  let state := fun r =>
    if !bitOf present r then 0 else if bitOf retired r then 4 else if spare == some r then 2 else 1
  let s := s.setf Reg.DMC_STATUS.rank_state c (state 0 + 8 * state 1 + 64 * state 2 + 512 * state 3)
  let s := s.setf Reg.DMC_CFG.map c ((act.zipIdx.map fun x => x.1 * 4 ^ x.2).sum)
  s.setf Reg.DMC_CFG.active c act.length

/-- A DIMM meets every condition of R345. -/
def Dimm.supported (d : Dimm) : Bool :=
  d.rdimm && 6400 ≤ d.speed && d.width == 4 && d.devices == 10 && (d.density == 16 || d.density == 32) && !d.stacked &&
    (d.ranks == 1 || d.ranks == 2) && d.groups == 8 && d.banks == 4

/-- The physical ranks of the DIMMs in a channel's slots: 0 and 1 on slot 0, 2 and 3 on slot 1 (R346). -/
def dimmRanks (slot0 slot1 : Option Dimm) : Nat :=
  let of := fun (d : Option Dimm) => match d with | some d => 2 ^ min 2 d.ranks - 1 | none => 0
  of slot0 + 4 * of slot1

/-- Step 1's verdict: a DIMM or two, all supported, and of one density, which gives the channel its rank capacity (R345 to R347). -/
def dimmsOk (slot0 slot1 : Option Dimm) : Bool :=
  let ds := slot0.toList ++ slot1.toList
  !ds.isEmpty && ds.all Dimm.supported && ds.all fun d => d.density == (ds.headD d).density

/-- The delays of a trained channel become the seeds for its DIMMs (R359); the safe table holds none (R430). -/
def State.seedSet (s : State) (serials : List Nat) (delays : List (Fin 20 × Fin 1024 × Fin 1024 × Fin 256)) : State :=
  if !s.sys.trimmed then s
  else
    let seed : Seed := ⟨serials, delays.map fun d => (d.1.val, d.2.1.val, d.2.2.1.val, d.2.2.2.val)⟩
    let rest := s.tlt.cal.seeds.filter fun x => x.serials != serials
    if s.tlt.cal.seeds.contains seed then s
    else { s with tlt := { s.tlt with cal := { s.tlt.cal with seeds := rest ++ [seed] } } }

/-- CHANNEL_TRAINING in TUNE: the DIMMs of the channel's slots and their refresh management as the SPDs say, `good` whether step 7
found no error, and the delays those that steps 3 to 6 left. A good channel is enabled; one whose DMC failed PROVE fails step 1
(R385). -/
def execChannelTraining (c : ChannelId) (slot0 slot1 : Option Dimm) (rfm : Bool) (raa : Nat × Nat)
    (drfm good : Bool) (delays : List (Fin 20 × Fin 1024 × Fin 1024 × Fin 256)) (s : State) : Out3 :=
  let n := c.val
  if !s.tuning || 2 ≤ s.blkState Cls.dmc n then .next s
  else
    let wide := (slot0.toList ++ slot1.toList).any fun d => d.density == 32
    let s := (s.setf Reg.DMC_CFG.present n (dimmRanks slot0 slot1)).setf Reg.DMC_CFG.density n (b2n wide)
    let s := s.assignRanks n
    if (s.chan n).failed || !dimmsOk slot0 slot1 || s.rf Reg.DMC_CFG.active n == 0 then
      .next (s.setf Reg.DMC_STATUS.last_status n Status.unsupported)
    else
      let s := delays.foldl (fun s d =>
        let i := d.1.val
        ((s.setf Reg.DMC_DELAY.rd n d.2.1.val i).setf Reg.DMC_DELAY.wr n d.2.2.1.val i).setf
          Reg.DMC_DELAY.vref n d.2.2.2.val i) s
      let s := s.updChan n fun d => { Dmc.empty with
        rfmReq := rfm, raaimt := if rfm then raa.1 else 0, raammt := if rfm then raa.2 else 0, drfm := drfm,
        throttle := d.throttle, failed := d.failed }
      let s := s.setf Reg.DMC_STATUS.drift_max n 0
      if !good then .next (s.setf Reg.DMC_STATUS.last_status n Status.timeout)
      else
        let s := (s.setf Reg.DMC_STATUS.last_status n Status.ok).seedSet ((slot0.toList ++ slot1.toList).map (·.serial)) delays
        let k := blkKey Cls.dmc n
        .next ((s.setf Reg.PFX_CTL.enable k 1).setf Reg.PFX_STATE.state k 1)

/-- DMC_TRAIN_CTL is written: the channel has not reached ON, so the write is not held. -/
def State.trainCtl (s : State) (a : Actor) (c v : Nat) : State :=
  if !Reg.DMC_TRAIN_CTL.op.admits a then s
  else
    let s := s.storeReg a c 0 v allOnes Reg.DMC_TRAIN_CTL.reg.fields
    if Reg.DMC_TRAIN_CTL.go.of v = 0 then s
    else if 2 ≤ s.blkState Cls.dmc c || s.rb Reg.DMC_TRAIN_CTL.busy c then
      s.setf Reg.DMC_STATUS.last_status c Status.busy
    else
      let op := Reg.DMC_TRAIN_CTL.op.of v
      if op = 0 || 5 < op then s
      else
        let r := Reg.DMC_TRAIN_CTL.rank.of v
        (s.setf Reg.DMC_TRAIN_CTL.busy c 1).updChan c fun d => { d with
          helper := op, scrambled := if op = 2 then d.scrambled else SMap.set false d.scrambled r true }

/-- A write of DMC_TRAIN_CTL whose op is `op` and whose go is 1. -/
def State.trainGo (s : State) (q : Requester) (c v op : Nat) : State :=
  s.withAccess q .write Cls.dmc c 0x200 fun s => s.trainCtl q.actor c (v / 16 * 16 + op ||| 2 ^ 32)

def execWritePattern (q : Requester) (c : ChannelId) (v : Word) (s : State) : Out3 := .next (s.trainGo q c.val v.toNat 1)

def execReadAndCompare (q : Requester) (c : ChannelId) (v : Word) (s : State) : Out3 := .next (s.trainGo q c.val v.toNat 2)

def execSweepRd (q : Requester) (c : ChannelId) (v : Word) (s : State) : Out3 := .next (s.trainGo q c.val v.toNat 3)

def execSweepWr (q : Requester) (c : ChannelId) (v : Word) (s : State) : Out3 := .next (s.trainGo q c.val v.toNat 4)

def execSweepVref (q : Requester) (c : ChannelId) (v : Word) (s : State) : Out3 := .next (s.trainGo q c.val v.toNat 5)

/-- A lane's window at the end of a sweep: the first and last points without error; none gives free values. -/
def State.laneWindow (s : State) (c n : Nat) (errs : List (Fin 20 × Fin 256 × Nat)) : State :=
  let steps := max 1 (s.rf Reg.DMC_TRAIN_CTL.steps c)
  let free := (List.range steps).filter fun p => !errs.any fun e => e.1.val == n && e.2.1.val == p && e.2.2 != 0
  match free.head?, free.getLast? with
  | some l, some r => (s.setf Reg.DMC_TRAIN_WIN.left c l n).setf Reg.DMC_TRAIN_WIN.right c r n
  | _, _ =>
    let (l, s) := s.drawFree
    let (r, s) := s.drawFree
    (s.setf Reg.DMC_TRAIN_WIN.left c l n).setf Reg.DMC_TRAIN_WIN.right c r n

/-- TRAIN_OP_DONE: `errs` are the mismatching bits found, by lane and sweep point. -/
def execTrainOpDone (c : ChannelId) (errs : List (Fin 20 × Fin 256 × Nat)) (s : State) : Out3 :=
  let n := c.val
  let op := (s.chan n).helper
  if op = 0 then .next s
  else
    let lanes := (List.range 20).filter fun l => bitOf (s.rf Reg.DMC_TRAIN_CTL.lanes n) l
    let s := if op = 1 then s else lanes.foldl (fun s l =>
      s.addf Reg.DMC_TRAIN_WIN.errors n l (((errs.filter fun e => e.1.val == l).map fun e => e.2.2).sum)) s
    let s := if 3 ≤ op then lanes.foldl (fun s l => s.laneWindow n l errs) s else s
    let s := (s.setf Reg.DMC_TRAIN_CTL.busy n 0).setf Reg.DMC_STATUS.last_status n Status.ok
    .next (s.updChan n fun d => { d with helper := 0 })

/-! ## Command errors and migration (R362 to R365) -/

/-- A command error on a physical rank. -/
def State.commandError (s : State) (c r : Nat) : State :=
  match (s.chan c).migration with
  | some m =>
    if m.dst = r then
      let s := (s.setRankState c m.dst 5).setRankState c (s.mapRank c m.src) 1
      let s := s.updChan c fun d => { d with fence := SMap.set 0 d.fence m.src m.ptr }
      let s := (s.migEnd c Status.noSpare).dmcEvent 0x0C3 c
      if m.ptr = 0 then s else (s.dmcEvent 0x0C4 c).huskMode
    else match (List.range 4).find? fun l => l < s.rf Reg.DMC_CFG.active c && s.mapRank c l == r with
      | some l => s.retireRank c l true
      | none => s
  | none =>
    match (List.range 4).find? fun l => l < s.rf Reg.DMC_CFG.active c && s.mapRank c l == r with
    | some l => if s.rb Reg.DMC_MIGRATE.auto c then s.retireRank c l true else s
    | none => s

/-- CA_PARITY_ALERT for a command to a physical rank: `again` tells that it recurred on a replay, `long` that the alert has
been held for more than 1 µs. The fourth replay's alert, or a long one, is a command error. -/
def execCaParityAlert (c : ChannelId) (r : Fin 4) (again long : Bool) (s : State) : Out3 :=
  let n := c.val
  let k := (s.chan n).replays
  if !s.blkOn Cls.dmc n then .next s
  else if long || (again && 4 ≤ k) then
    .next ((s.updChan n fun d => { d with replays := 0 }).commandError n r.val)
  else .next ((s.addf Reg.DMC_COUNT.replays n).updChan n fun d => { d with replays := if again then k + 1 else 1 })

/-- DMC_MIGRATE is written. -/
def State.migrateWrite (s : State) (a : Actor) (c v : Nat) : State :=
  if !Reg.DMC_MIGRATE.src.admits a then s
  else
    let s := s.storeReg a c 0 v allOnes Reg.DMC_MIGRATE.reg.fields
    let l := Reg.DMC_MIGRATE.src.of v
    if Reg.DMC_MIGRATE.go.of v = 0 then s
    else if (s.chan c).migration.isSome then s.migStatus c Status.busy
    else if l < s.rf Reg.DMC_CFG.active c then s.retireRank c l false
    else s

/-- MIGRATE_GO: the write whose go is 1. -/
def execMigrateGo (q : Requester) (c : ChannelId) (v : Word) (s : State) : Out3 :=
  .next (s.writeReg q Cls.dmc c.val 0x400 (v.toNat ||| 4) fun s => s.migrateWrite q.actor c.val (v.toNat ||| 4))

/-- A line goes to the destination poisoned; one that was poisoned already is not counted (R374). -/
def State.migPoison (s : State) (c ca : Nat) : State :=
  let g := s.chanPa c ca / 32
  let s := if s.dramPoison g && s.dramPoison (g + 1) then s else s.addf Reg.DMC_MIGRATE.ue_lines c
  (s.setDramPoison g true).setDramPoison (g + 1) true

/-- One line is copied with correction; an uncorrectable granule is written poisoned (R364). -/
def State.migLine (s : State) (c ca : Nat) : State :=
  let (r, s) := s.readDramLine c ca 0x04
  if !r.ue then s
  else s.addf Reg.DMC_MIGRATE.ue_lines c

/-- MIGRATION_BLOCK_COPY: P advances over one block. -/
def execMigrationBlockCopy (c : ChannelId) (s : State) : Out3 :=
  let n := c.val
  match (s.chan n).migration with
  | none => .next s
  | some m =>
    let ca := m.src * s.rankBytes n + m.ptr
    let lines := (List.range 64).map fun k => ca + 64 * k
    let s :=
      if !s.blockWritten n ca then s
      else if m.srcDead then
        if s.reserveBase n ≤ ca then
          lines.foldl (fun s a =>
            (s.setGranErrs n a 0 (poisonPattern, false)).setGranErrs n a 1 (poisonPattern, false)) s
        else lines.foldl (fun s a => s.migPoison n a) s
      else lines.foldl (fun s a => s.migLine n a) s
    let p := m.ptr + 4096
    let s := s.updChan n fun d => { d with migration := d.migration.map fun x => { x with ptr := p } }
    let s := s.setf Reg.DMC_MIG_PTR.p n (p / 4096)
    .next (if s.rankBytes n ≤ p then
      match (s.chan n).migration with
      | some x => s.migComplete n x
      | none => s
    else s)

/-! ## Register reads -/

def execDmcCountRead (q : Requester) (c : ChannelId) (s : State) : Out3 :=
  .next (s.readCmd q Cls.dmc c.val Reg.DMC_COUNT.reg 0 id)

def execDmcCount2Read (q : Requester) (c : ChannelId) (s : State) : Out3 :=
  .next (s.readCmd q Cls.dmc c.val Reg.DMC_COUNT2.reg 0 id)

def execDmcTrainWinRead (q : Requester) (c : ChannelId) (n : Fin 20) (s : State) : Out3 :=
  .next (s.readCmd q Cls.dmc c.val Reg.DMC_TRAIN_WIN.reg n.val id)

def execDmcMigrateRead (q : Requester) (c : ChannelId) (s : State) : Out3 :=
  .next (s.readCmd q Cls.dmc c.val Reg.DMC_MIGRATE.reg 0 id)

end Sys2Proof.Machine
end

