-- ==== Sys2Proof/Machine/RasCore.lean ====
section
/-!
DEFINITION. RasCore: error records and their logs, the Sifter, directed passes and error injection (R377 to R386). What an
error of class UEf does to the device is in Device.
-/
namespace Sys2Proof.Machine

/-! ## Records (R377, R378) -/

/-- A record's 64 bytes; `number` is the log's tail count. -/
def ErrRec.bytes (r : ErrRec) (number : Nat) : List Byte :=
  leBytes 2 number ++ leBytes 1 r.cls ++ leBytes 1 r.flags ++ leBytes 1 r.source ++ leBytes 1 r.status ++ leBytes 2 r.stop
    ++ leBytes 8 r.addr ++ leBytes 12 r.stamp ++ leBytes 2 r.inst ++ leBytes 2 r.requester ++ leBytes 8 r.syndrome
    ++ leBytes 4 r.positions ++ leBytes 2 r.count ++ leBytes 2 r.tenant ++ leBytes 8 r.location ++ leBytes 8 0

/-- The copy of a Hardpan record that the Topsoil log gets. -/
def ErrRec.withhold (r : ErrRec) : ErrRec :=
  { r with flags := r.flags ||| 2, addr := 0, syndrome := 0, positions := 0, location := 0, tenant := 0, hardpan := false }

/-- The checker number of a half's RAS walker. -/
def rasChecker : Nat := 2000

/-- The POT entry of the page a record names. -/
def State.recEntry (s : State) (h : Nat) (r : ErrRec) : Option Nat :=
  if r.flags % 2 = 0 then none
  else match s.potIndex r.addr with
    | some (t, i) => s.potEntry (s.homeHalf r.addr h) rasChecker t i
    | none => none

/-- The entries of a log, when it is enabled, and its base and pointers. -/
def State.rasSize (s : State) (h : Nat) (hp : Bool) : Option Nat :=
  log2Clamp (s.rf (if hp then Reg.RAS_SLOG.log2_entries else Reg.RAS_LOG.log2_entries) h) 8 16

def State.rasHead (s : State) (h : Nat) (hp : Bool) : Nat :=
  s.rf (if hp then Reg.RAS_SLOG_PTR.head else Reg.RAS_LOG_PTR.head) h

def State.rasTail (s : State) (h : Nat) (hp : Bool) : Nat :=
  s.rf (if hp then Reg.RAS_SLOG_PTR.tail else Reg.RAS_LOG_PTR.tail) h

/-- The log takes a record now. -/
def State.rasRoom (s : State) (h : Nat) (hp : Bool) : Bool :=
  s.blkOn Cls.ras h && match s.rasSize h hp with
    | some n => (s.rasTail h hp + 2 ^ 32 - s.rasHead h hp) % 2 ^ 32 < 2 ^ n
    | none => false

/-- A record is dropped: EV 0x0A6 at most once between reads of dropped. -/
def State.rasDrop (s : State) (h : Nat) : State :=
  let s := s.addf Reg.RAS_COUNT2.dropped h
  let spent := (s.rasHalf h).a6Spent
  let s := s.updRas h fun x => { x with lost := true, a6Spent := true }
  if spent then s else s.raise 0x0A6 .both h 0

/-- Write a record to its log; a DE or UEr raises its event to the log's world unless it is a withheld copy. -/
def State.rasWrite (s : State) (h : Nat) (r : ErrRec) : State :=
  let hp := r.hardpan
  let n := (s.rasSize h hp).getD 8
  let t := s.rasTail h hp
  let r := if (s.rasHalf h).lost then { r with flags := r.flags ||| 4 } else r
  let base := s.rf (if hp then Reg.RAS_SLOG.base else Reg.RAS_LOG.base) h * 4096
  match s.writeMem (hwReq (halfOf h) (tStop h)) (base + 64 * (t % 2 ^ n)) (r.bytes t) with
  | (.data _ _, s) =>
    let s := s.setf (if hp then Reg.RAS_SLOG_PTR.tail else Reg.RAS_LOG_PTR.tail) h (t + 1)
    let s := s.updRas h fun x => { x with lost := false }
    let dest := if hp then EvTo.hardpan else .topsoil
    if r.flags &&& 2 != 0 then s
    else if r.cls = 1 then s.raise 0x0A1 dest h r.source
    else if r.cls = 2 then s.raise 0x0A2 dest h r.source
    else s
  | (_, s) => s.rasDrop h

/-- Put a record into the buffer of 16. -/
def State.rasBuffer (s : State) (h : Nat) (r : ErrRec) : State :=
  let b := (s.rasHalf h).buffer
  if b.length < 16 then s.updRas h fun x => { x with buffer := b ++ [r] }
  else if r.cls = 0 then s.rasDrop h
  else match b.findIdx? (·.cls == 0) with
    | some i => (s.updRas h fun x => { x with buffer := b.eraseIdx i ++ [r] }).rasDrop h
    | none => s.rasDrop h

/-- Buffered records go to their logs in order as room appears. -/
def State.rasDrain (s : State) (h : Nat) : State :=
  let b := (s.rasHalf h).buffer
  (b.foldl (fun (x : State × Bool × Bool) r =>
    let stuck := if r.hardpan then x.2.1 else x.2.2
    if !stuck && x.1.rasRoom h r.hardpan then (x.1.rasWrite h r, x.2)
    else
      (x.1.updRas h fun y => { y with buffer := y.buffer ++ [r] }, x.2.1 || r.hardpan, x.2.2 || !r.hardpan))
    (s.updRas h fun y => { y with buffer := [] }, false, false)).1

/-- Tilth keeps the UEr and UEf records, a withheld copy and the second copy of a UEf apart. -/
def ErrRec.kept (r : ErrRec) : Bool := decide (2 ≤ r.cls) && r.flags &&& 2 == 0 && !(r.cls == 3 && r.hardpan)

/-- The last 64 of them, newest first (OD 0x1C00); the number of one that waits for its log is a free value. -/
def State.rasKeep (s : State) (r : ErrRec) (n : Nat) : State :=
  if r.kept then { s with sys := { s.sys with errLog := (r.bytes n :: s.sys.errLog).take 64 } } else s

/-- A record goes to its log or, behind others or without room, to the buffer. -/
def State.rasPlace (s : State) (h : Nat) (r : ErrRec) : State :=
  let s := s.rasDrain h
  if s.rasRoom h r.hardpan && !(s.rasHalf h).buffer.any (·.hardpan == r.hardpan) then
    (s.rasKeep r (s.rasTail h r.hardpan)).rasWrite h r
  else
    let (n, s) := if r.kept then s.drawFree else (0, s)
    (s.rasKeep r n).rasBuffer h r

/-- The CE rate: the record with its count, or none when it is suppressed. -/
def State.ceLimit (s : State) (h : Nat) (r : ErrRec) : Option ErrRec × State :=
  let ms := s.strata.tick / 1000000
  let x := s.rasHalf h
  let n := if x.ceMs = ms then x.ceCount else 0
  if s.rf Reg.RAS_CTL.ce_max h ≤ n then
    (none, (s.addf Reg.RAS_COUNT2.suppressed h).updRas h fun x => { x with ceHeld := x.ceHeld + 1 })
  else
    (some { r with count := min 0xFFFF (1 + x.ceHeld) },
      s.updRas h fun x => { x with ceMs := ms, ceCount := n + 1, ceHeld := 0 })

/-- Route the oldest detected record (R378); the answer is the record when it is of class UEf. -/
def State.routeRecord (s : State) (h : Nat) : Option ErrRec × State :=
  match (s.rasHalf h).detected with
  | [] => (none, s)
  | r :: rest =>
    let s := s.updRas h fun x => { x with detected := rest }
    let e := s.recEntry h r
    let hp := r.hardpan || e.any fun e => bitsOf e 2 1 == 1
    let tenant := if r.requester = 0xFFFF then
        (match e with | some e => if bitsOf e 2 1 = 0 then bitsOf e 31 20 else 0 | none => 0) else r.tenant
    let r := { r with hardpan := hp, tenant := tenant }
    if r.cls = 3 then
      (some r, ((s.rasPlace h { r with hardpan := false }).rasPlace h { r with hardpan := true }).raise 0x0A3 .both h r.source)
    else
      let (r, s) := if r.cls = 0 then s.ceLimit h r else (some r, s)
      match r with
      | none => (none, s)
      | some r => (none, if r.hardpan then (s.rasPlace h r).rasPlace h r.withhold else s.rasPlace h r)

/-! ## Logs -/

/-- RAS_LOG (slog false) or RAS_SLOG is written: both pointers return to 0 (R379). -/
def State.rasLogSet (s : State) (a : Actor) (h v : Nat) (hp : Bool) : State :=
  let r := if hp then Reg.RAS_SLOG.reg else Reg.RAS_LOG.reg
  if !(r.fields.any (·.admits a)) then s
  else
    let s := s.storeReg a h 0 v allOnes r.fields
    let s := s.setf (if hp then Reg.RAS_SLOG_PTR.head else Reg.RAS_LOG_PTR.head) h 0
    (s.setf (if hp then Reg.RAS_SLOG_PTR.tail else Reg.RAS_LOG_PTR.tail) h 0).rasDrain h

def execRasLogWrite (q : Requester) (h : Half) (slog : Bool) (v : Word) (s : State) : Out3 :=
  .next (s.writeReg q Cls.ras h.val (if slog then 0x118 else 0x108) v.toNat fun s => s.rasLogSet q.actor h.val v.toNat slog)

/-- A log's head is written; a value below it or above the tail is ignored. -/
def State.rasHeadSet (s : State) (a : Actor) (h v : Nat) (hp : Bool) : State :=
  let f := if hp then Reg.RAS_SLOG_PTR.head else Reg.RAS_LOG_PTR.head
  let head := s.rasHead h hp
  if !f.admits a || (s.rasTail h hp + 2 ^ 32 - head) % 2 ^ 32 < (v + 2 ^ 32 - head) % 2 ^ 32 then s
  else (s.setf f h v).rasDrain h

def execRasLogHeadWrite (q : Requester) (h : Half) (slog : Bool) (v : Word) (s : State) : Out3 :=
  .next (s.writeReg q Cls.ras h.val (if slog then 0x120 else 0x110) v.toNat fun s =>
    s.rasHeadSet q.actor h.val (v.toNat % 2 ^ 32) slog)

def execRasCountRead (q : Requester) (h : Half) (s : State) : Out3 :=
  .next (s.readCmd q Cls.ras h.val Reg.RAS_COUNT.reg 0 id)

/-- RAS_COUNT2_READ also rearms EV 0x0A6. -/
def execRasCount2Read (q : Requester) (h : Half) (s : State) : Out3 :=
  .next (s.readCmd q Cls.ras h.val Reg.RAS_COUNT2.reg 0 fun s => s.updRas h.val fun x => { x with a6Spent := false })

/-! ## The patrol (R381) -/

/-- The time that a lap may not undercut, in ticks. -/
def State.lapTicks (s : State) (h : Nat) : Nat := max 1 (s.rf Reg.RAS_PATROL.target_h h) * 3600 * 1000000000

/-- The patrol is not ahead of one lap per target_h hours. -/
def State.patrolPaced (s : State) (c : Nat) : Bool :=
  let x := s.rasHalf (c / 8)
  SMap.get 0 x.patrol (c % 8) * s.lapTicks (c / 8) ≤ (s.strata.tick - SMap.get 0 x.lapStart (c % 8)) * s.chanBytes c

/-- The patrol moves past the block or line at its place; at the end of the channel a lap ends. -/
def State.patrolAdvance (s : State) (c next : Nat) : State :=
  let h := c / 8
  let k := c % 8
  let x := s.rasHalf h
  let size := s.chanBytes c
  let now := s.strata.tick
  let took := now - SMap.get 0 x.lapStart k
  let late := decide (s.lapTicks h < took)
  let s := if late && !SMap.get false x.lapLate k then
      (s.updRas h fun y => { y with lapLate := SMap.set false y.lapLate k true }).raise 0x0A5 .both h c else s
  if next < size then
    (s.updRas h fun y => { y with patrol := SMap.set 0 y.patrol k next }).setf Reg.RAS_LAP.progress h (next * 65536 / size) k
  else
    let s := s.updRas h fun y => { y with
      patrol := SMap.set 0 y.patrol k 0, lapStart := SMap.set 0 y.lapStart k now, lapLate := SMap.set false y.lapLate k false,
      markCount := y.markCount.filter fun m => m.1 / 16 / 8 != k }
    let s := (List.range 8).foldl (fun s j => s.setf Reg.RAS_MARK.count h 0 (8 * k + j)) s
    let s := (s.setf Reg.RAS_LAP.last_lap_s h (took / 1000000000) k).setf Reg.RAS_LAP.progress h 0 k
    s.setf Reg.RAS_LAP.laps h (s.rf Reg.RAS_LAP.laps h k + 1) k

/-- PATROL_READ: the Sifter reads the next line of a channel with nothing queued, or passes over an unwritten block; it makes no
read that would be faster than one lap per target_h hours. -/
def execPatrolRead (c : ChannelId) (flips : List (Fin 2 × Fin 20 × BitVec 16)) (s : State) : Out3 :=
  let n := c.val
  let h := n / 8
  let ca := SMap.get 0 (s.rasHalf h).patrol (n % 8)
  if !(s.blkOn Cls.ras h && s.blkOn Cls.dmc n && s.rb Reg.RAS_PATROL.enable h && (s.chan n).waiting.isEmpty
      && s.chanBytes n != 0 && s.patrolPaced n) then .next s
  else if !s.blockWritten n ca then .next (s.patrolAdvance n ((ca / 4096 + 1) * 4096))
  else if s.chanFenced n ca then .next (s.patrolAdvance n (ca + 64))
  else .next (((s.upset n ca flips).readDramLine n ca 0x02).2.patrolAdvance n (ca + 64))

/-! ## On-die patrol (R372, R381) -/

/-- What the on-die patrol reads. -/
def odpL2 : Nat := 0
def odpL3 : Nat := 1
def odpSram : Nat := 2
def odpIram : Nat := 3
def odpImage : Nat := 4
def odpL2Tag : Nat := 5

/-- XOR Riddle-35 data symbols into listed bytes. -/
def flipBytes (bs : List Byte) (off : Nat) (e : ErrPat) : List Byte :=
  e.foldl (fun bs x => if x.1 < 3 then bs else bs.modify (off + (x.1 - 3)) (· ^^^ BitVec.ofNat 8 x.2)) bs

/-- ON_DIE_PATROL: the patrol reads a granule or tag of a structure and finds symbol errors there. `what`: 0 L2 of core
`inst`, 1 an L3 slice, 2 a cluster's SRAM, 3 an engine's IRAM, 4 an image of a cluster's SVC store with the slot in bits
63:32 of `a`, 5 the tags of a core's L2, 6 the tags and directory of an L3 slice, 7 the far filter of one. `a` is the address or
the offset; for tags, more than one flip is beyond SEC-DED. -/
def execOnDiePatrol (what : Fin 8) (inst : Fin 1024) (a : Word) (flips : List (Fin 35 × Byte)) (s : State) : Out3 :=
  let n := inst.val
  let e : ErrPat := flips.foldl (fun e f => errAdd e (f.1.val, f.2.toNat)) []
  let g := a.toNat / 32
  let w := what.val
  .next (
  if w = odpL2 then s.check35 (coreHalf n) 0x11 (coreStop n) n g e false
  else if w = odpL3 then
    (s.meetOnDie g).check35 (n / 64) 0x13 (sliceStop n) n g e false
  else if odpL2Tag ≤ w then
    if e.isEmpty then s
    else
      let h := if w = odpL2Tag then coreHalf n else n / 64 % 2
      let st := if w = odpL2Tag then coreStop n else sliceStop n
      let one := flips.length = 1
      let src := if w = odpL2Tag then 0x12 else if w = 6 then 0x14 else 0x15
      s.logError h { s.mkRec (if one then 0 else 3) src Status.ok st 0 n 0xFFFF with
        flags := if one then 16 else 0, location := dieLocation src (g / 2) 0 }
  else
    let c := if w = odpIram then engCluster n else n % 16
    let h := c / 8
    let rec' := { s.mkRec 0 (if w = odpSram then 0x30 else 0x32) Status.ok (clusterStop c) 0 (if w = odpIram then n else c) 0xFFFF with
      flags := 0, syndrome := syn8 e 0 + syn8 e 1 * 2 ^ 8 + syn8 e 2 * 2 ^ 16, location := g / 2 % 2 ^ 16 + 2 ^ 20 * (g % 2) }
    let ce := fun (s : State) (x : ErrPat) =>
      if x.isEmpty then s else s.logError h { rec' with flags := 16, positions := errPositions x false }
    if e.isEmpty then s
    else if w = odpSram then
      match decode35 e with
      | none => (s.updCluster c fun k => { k with sramPoison := SMap.set false k.sramPoison g true }).logError h
          { rec' with cls := 1, status := Status.poisoned }
      | some x => ce (s.updCluster c fun k => { k with
          sram := (errXor e x).foldl (fun m y => if y.1 < 3 then m
            else let b := 32 * g + (y.1 - 3); SMap.set 0 m b (SMap.get 0 m b ^^^ BitVec.ofNat 8 y.2)) k.sram }) x
    else if w = odpIram then
      match decode35 e with
      | none => if (s.eng n).run = .lost then s else s.engineLost n 0x32
      | some x => ce (s.updEng n fun k => { k with
          iram := k.iram.map fun i => { i with body := flipBytes i.body (32 * g) (errXor e x) } }) x
    else
      let slot := a.toNat / 2 ^ 32
      let off := a.toNat % 2 ^ 32 / 32 * 32
      match SMap.get none (s.cluster c).images slot with
      | none => s
      | some i =>
        match decode35 e with
        | none =>
          let s := (s.setf Reg.SVC_IMG.valid c 0 slot).setf Reg.SVC_LOAD.last_status c Status.poisoned
          let s := s.logError h { rec' with cls := 2, status := Status.poisoned, hardpan := i.world != 0 }
          s.raise 0x051 (if i.world = 0 then .topsoil else .hardpan) h c
        | some x => ce (s.updCluster c fun k => { k with
            images := SMap.set none k.images slot (some { i with body := flipBytes i.body off (errXor e x) }) }) x)

/-! ## Directed passes (R382, R383) -/

/-- Clear what go clears. -/
def State.passClear (s : State) (h : Nat) : State :=
  let s := [Reg.RAS_PASS_SUM0.lines, Reg.RAS_PASS_SUM0.cancelled, Reg.RAS_PASS_SUM1.ce, Reg.RAS_PASS_SUM1.new_ue,
    Reg.RAS_PASS_SUM1.poisoned, Reg.RAS_PASS_SUM1.hidden].foldl (fun s f => s.setf f h 0) s
  (List.range 8).foldl (fun s i =>
    ((s.setf Reg.RAS_PASS_UE.valid h 0 i).setf Reg.RAS_PASS_UE.already_poisoned h 0 i).setf Reg.RAS_PASS_UE.addr h 0 i) s

/-- The line is listed, or hidden from Topsoil when its page is Hardpan-owned. -/
def State.passList (s : State) (h line : Nat) (a : Actor) (already : Bool) : State :=
  let hp := match s.potEntry h rasChecker 0 (line / 64) with | some e => bitsOf e 2 1 == 1 | none => false
  if hp && (a = .t || a = .v) then s.addf Reg.RAS_PASS_SUM1.hidden h
  else match (List.range 8).find? fun i => !s.rb Reg.RAS_PASS_UE.valid h i with
    | some i => ((s.setf Reg.RAS_PASS_UE.valid h 1 i).setf Reg.RAS_PASS_UE.already_poisoned h (b2n already) i).setf
        Reg.RAS_PASS_UE.addr h line i
    | none => s

/-- One line of a pass; `flips` are the symbol errors that came upon it. -/
def State.passLine (s : State) (h line : Nat) (a : Actor) (flips : List (Fin 2 × Fin 20 × BitVec 16)) : State :=
  let (c, ca) := s.chanOf h (64 * line)
  let s := s.addf Reg.RAS_PASS_SUM0.lines h
  if s.chanFenced c ca then (s.addf Reg.RAS_PASS_SUM1.poisoned h).passList h line a true
  else if !s.blockWritten c ca then s
  else
    let (r, s) := (s.upset c ca flips).readDramLine c ca 0x03
    let s := s.addf Reg.RAS_PASS_SUM1.ce h 0 r.ce
    if r.ue then (s.addf Reg.RAS_PASS_SUM1.new_ue h).passList h line a false
    else if r.poison then (s.addf Reg.RAS_PASS_SUM1.poisoned h).passList h line a true
    else s

/-- The pass covers its next `n` lines; `flips` names them by their place among these. -/
def State.passRun (s : State) (h n : Nat) (flips : List (Nat × Fin 2 × Fin 20 × BitVec 16)) : State :=
  match (s.rasHalf h).pass with
  | none => s
  | some p => (List.range n).foldl (fun s k =>
      s.passLine h (p.next + k) p.actor ((flips.filter fun f => f.1 == k).map (·.2))) s

/-- The pass ends: EV 0x0A4 to the world that started it. -/
def State.passEnd (s : State) (h : Nat) (cancelled : Bool) : State :=
  match (s.rasHalf h).pass with
  | none => s
  | some p =>
    let s := s.updRas h fun x => { x with pass := none }
    let s := (s.setf Reg.RAS_PASS_CTL.busy h 0).setf Reg.RAS_PASS_SUM0.cancelled h (b2n cancelled)
    s.raise 0x0A4 (EvTo.ofActor p.actor) h 0

/-- A pass is cancelled after `n` of its lines. -/
def State.passCancel (s : State) (h n : Nat) (flips : List (Nat × Fin 2 × Fin 20 × BitVec 16)) : State :=
  match (s.rasHalf h).pass with
  | none => s
  | some p => (s.passRun h (min n p.left) flips).passEnd h true

/-- RAS leaves ON during a pass: it ends as by cancel, wherever it stood (R384). -/
def State.passStop (s : State) (h : Nat) : State :=
  if (s.rasHalf h).pass.isNone then s
  else let (n, s) := s.drawFree; s.passCancel h n []

/-- RAS_PASS_CTL is written with `go`. -/
def State.passCtl (s : State) (a : Actor) (h v : Nat) : State :=
  let s := s.storeReg a h 0 v allOnes Reg.RAS_PASS_CTL.reg.fields
  if Reg.RAS_PASS_CTL.go.of v = 0 || !Reg.RAS_PASS_CTL.go.admits a then s
  else if s.rb Reg.RAS_PASS_CTL.busy h then s.setf Reg.RAS_PASS_CTL.last_status h Status.busy
  else
    let s := s.passClear h
    let start := s.rf Reg.RAS_PASS_START.addr h
    let n := s.rf Reg.RAS_PASS_LEN.lines h
    let lo := if h = 0 then 0 else s.sys.s0
    let hi := if h = 0 then s.sys.s0 else s.sys.s0 + s.sys.s1
    if n = 0 || 64 * start < lo || hi < 64 * (start + n) then s.setf Reg.RAS_PASS_CTL.last_status h Status.badDesc
    else
      let s := (s.setf Reg.RAS_PASS_CTL.last_status h Status.ok).setf Reg.RAS_PASS_CTL.busy h 1
      (s.setf Reg.RAS_PASS_CTL.by h a.code).updRas h fun x => { x with pass := some ⟨start, n, a⟩ }

/-- PASS_GO: the write whose go is 1; when it sets cancel too, the pass it starts or finds running stops. -/
def execPassGo (q : Requester) (h : Half) (v : Word) (s : State) : Out3 :=
  .next (s.writeReg q Cls.ras h.val 0x310 (v.toNat ||| 1) fun s =>
    let s := s.passCtl q.actor h.val (v.toNat ||| 1)
    if Reg.RAS_PASS_CTL.cancel.of v.toNat = 1 && Reg.RAS_PASS_CTL.cancel.admits q.actor then s.passStop h.val else s)

/-- PASS_CANCEL: the write whose cancel is 1, after `n` lines. -/
def execPassCancel (q : Requester) (h : Half) (v : Word) (n : Nat) (flips : List (Nat × Fin 2 × Fin 20 × BitVec 16))
    (s : State) : Out3 :=
  .next (s.writeReg q Cls.ras h.val 0x310 (v.toNat ||| 2) fun s =>
    let s := s.passCtl q.actor h.val (v.toNat / 2 * 2)
    if Reg.RAS_PASS_CTL.cancel.admits q.actor then s.passCancel h.val n flips else s)

/-- PASS_DONE: the pass has covered its lines. -/
def execPassDone (h : Half) (flips : List (Nat × Fin 2 × Fin 20 × BitVec 16)) (s : State) : Out3 :=
  .next (match (s.rasHalf h.val).pass with
  | some p => if s.blkOn Cls.ras h.val then (s.passRun h.val p.left flips).passEnd h.val false else s
  | none => s)

/-! ## Injection (R386) -/

/-- Why a go is refused, if it is. -/
def State.injectRefused (s : State) (q : Requester) (h v : Nat) : Option Nat :=
  let a := s.rf Reg.RAS_INJ_ADDR.addr h * 64
  let top := q.actor = .t || q.actor = .v
  let target := Reg.RAS_INJ_CTL.target.of v
  let limit := if target = 0 then 19 else 34
  let pos := [Reg.RAS_INJ_CTL.pos0, Reg.RAS_INJ_CTL.pos1, Reg.RAS_INJ_CTL.pos2].take (Reg.RAS_INJ_CTL.nsym.of v)
  if top && !s.rb Reg.RAS_CTL.t_inject h then some Status.denied
  else if top && !(s.potCheck ⟨.topsoilCore, q.actor, .topsoil, 0, q.half, q.stop⟩ .write a).ok then some Status.ownership
  else if target = 3 || pos.any (fun f => limit < f.of v) then some Status.badDesc
  else if target = 0 && s.region a != .dram h then some Status.badDesc
  else none

/-- RAS_INJ_CTL is written. -/
def State.injCtl (s : State) (q : Requester) (h v : Nat) : State :=
  let s := s.storeReg q.actor h 0 v allOnes Reg.RAS_INJ_CTL.reg.fields
  if !Reg.RAS_INJ_CTL.go.admits q.actor then s
  else
    let off := fun (s : State) => (s.setf Reg.RAS_INJ_CTL.armed h 0).updRas h fun x => { x with inject := none }
    let s := if Reg.RAS_INJ_CTL.disarm.of v = 1 then off s else s
    if Reg.RAS_INJ_CTL.go.of v = 0 then s
    else match s.injectRefused q h v with
      | some st => (off s).setf Reg.RAS_INJ_CTL.last_status h st
      | none =>
        let target := Reg.RAS_INJ_CTL.target.of v
        let pat := Reg.RAS_INJ_CTL.pattern.of v % (if target = 0 then 2 ^ 16 else 2 ^ 8)
        let pos := [Reg.RAS_INJ_CTL.pos0, Reg.RAS_INJ_CTL.pos1, Reg.RAS_INJ_CTL.pos2].take (Reg.RAS_INJ_CTL.nsym.of v)
        let pois := Reg.RAS_INJ_CTL.poison.of v == 1
        let syms : ErrPat := if pois then [] else pos.foldl (fun e f => errAdd e (f.of v, pat)) []
        let s := (s.setf Reg.RAS_INJ_CTL.last_status h Status.ok).setf Reg.RAS_INJ_CTL.armed h 1
        s.updRas h fun x => { x with
          inject := some ⟨s.rf Reg.RAS_INJ_ADDR.addr h, Reg.RAS_INJ_CTL.granule.of v, pois,
            Reg.RAS_INJ_CTL.persist.of v == 1, syms, target, false⟩ }

/-- INJECT_GO: the write whose go is 1. -/
def execInjectGo (q : Requester) (h : Half) (v : Word) (s : State) : Out3 :=
  .next (s.writeReg q Cls.ras h.val 0x508 (v.toNat ||| 2 ^ 48) fun s => s.injCtl q h.val (v.toNat ||| 2 ^ 48))

/-- INJECT_DISARM: the write whose disarm is 1. -/
def execInjectDisarm (q : Requester) (h : Half) (v : Word) (s : State) : Out3 :=
  let w := (v.toNat ||| 2 ^ 49) - v.toNat / 2 ^ 48 % 2 * 2 ^ 48
  .next (s.writeReg q Cls.ras h.val 0x508 w fun s => s.injCtl q h.val w)

/-- The channel rewrites a granule with an injected change; an unwritten block is filled first. -/
def State.injectDram (s : State) (h : Nat) (i : Inject) : State :=
  let a := 64 * i.line
  let (c, ca) := s.chanOf h a
  let s :=
    if s.blockWritten c ca then (s.readDramLine c ca 0x01).2
    else
      let s := s.fillBlock c ca (s.tagOf (s.keySlotFor (hwReq (halfOf h) (tStop h)) a))
      (s.addf Reg.DMC_COUNT2.zero_fills c).updChan c fun d => { d with written := SMap.set false d.written (ca / 4096) true }
  let s := s.setGranErrs c ca i.granule (i.syms, !i.syms.isEmpty)
  if i.poison then s.setDramPoison (2 * i.line + i.granule) true else s

/-- INJECT_APPLY: the armed change is applied to DRAM, to the home slice's L3 copy, or to the next data flit of the line. -/
def execInjectApply (h : Half) (s : State) : Out3 :=
  let n := h.val
  match (s.rasHalf n).inject with
  | none => .next s
  | some i =>
    if i.applied then .next s
    else if i.target = 0 then .next ((s.injectDram n i).injectFired n i)
    else if i.target = 1 then
      let g := 2 * i.line + i.granule
      let s := (s.meetOnDie g).fillL3 i.line
      let s := if i.poison then s.setPoison g true
        else { s with mem := { s.mem with onDie := SMap.set ([], false) s.mem.onDie g (i.syms, !i.syms.isEmpty) } }
      .next (s.injectFired n i)
    else .next (s.ejectLine i.line (sliceStop (s.homeSlice (64 * i.line) n)) (s.homeSlice (64 * i.line) n) [])

end Sys2Proof.Machine
end

