-- ==== Sys2Proof/Machine/Device.lean ====
section
/-!
DEFINITION. Device: what moves the device as a whole: changes of primacy (R411, R412), the entry to HUSK (R414, R415), the
package resets (R471, R472) and UEf errors (R376).
-/
namespace Sys2Proof.Machine

/-! ## Primacy (R411, R412) -/

/-- The closed batches of a half that becomes primary stand in its queue, and need no message any more (R181). -/
def Vrv.toPrimary (v : Vrv) : Vrv :=
  { v with outbox := [], queue := v.queue ++ v.outbox.filterMap fun m => match m with | .batch b => some b | .mark _ => none }

/-- A half becomes primary with a new epoch. -/
def State.newPrimary (s : State) (p : Half) : State :=
  let e := s.rf Reg.TLT_PRIM.epoch 0 + 1
  let s := { s with sys := { s.sys with primary := p } }.updVrv p.val Vrv.toPrimary
  (s.setf Reg.TLT_PRIM.epoch 0 e).setf Reg.TLT_PRIM.epoch 1 e

/-- Copy a register of instance `a` into instance `b`. -/
def State.copyReg (s : State) (a b : Nat) (r : RegDef) : State :=
  r.fields.foldl (fun s f => (List.range (max 1 r.count)).foldl (fun s j => s.setf f b (s.rf f a j) j) s) s

/-- The registers that stand for the functions of R411 beside the bank of R173 and the claim table. -/
def handoverRegs : List RegDef :=
  [Reg.STR_CTL.reg, Reg.STR_STATUS.reg, Reg.STR_RATE.reg, Reg.STR_STEP.reg, Reg.STR_SET_LO.reg, Reg.STR_SET_HI.reg,
   Reg.VRV_NEXT_POS.reg, Reg.PWR_DORM.reg, Reg.HPN_KEY_CMD.reg, Reg.HPN_KEY_ARG.reg, Reg.HPN_HEARTBEAT.reg]

/-- The functions of R411 pass to the other half; Strata keeps its discipline state, and Varve hands over the position. The batches
that the old primary has closed and not merged go over with it; its watermarks start anew (R181, R182). -/
def State.handover (s : State) (p : Half) : State :=
  let old := s.sys.primary.val
  let errors := s.rf Reg.STR_STATUS.sync_errors p.val
  let s := handoverRegs.foldl (fun s r => s.copyReg old p.val r) s
  let s := s.setf Reg.STR_STATUS.sync_errors p.val errors
  let s := s.updVrv old fun v => { v with mark := none }
  (s.newPrimary p).raise 0x0E0 .both p.val 0

/-! ## HUSK (R414, R415) -/

/-- Block instances of a class in a half whose header is listed. -/
def State.listedBlocks (s : State) (cls h : Nat) : List Nat :=
  (SMap.keys (SMap.get [] s.regs Reg.PFX_STATE.state.id)).filterMap fun k =>
    if k / 4096 = cls && s.blkHalf cls (k % 4096) == h then some (k % 4096) else none

/-- The classes that stop in a lost half. -/
def lostClasses : List Nat := [Cls.knx, Cls.slt, Cls.dsp, Cls.clt, Cls.kao, Cls.vrv]

/-- The cores and engines of a lost half are in reset, and its Dispatch, Collector, Kaolin and Varve stop. -/
def State.quiesce (s : State) (lost : Nat) : State :=
  let s := (SMap.keys s.cores).foldl (fun s c => if coreHalf c = lost then s.updCore c (·.toReset (s.coreIsHardpan c)) else s) s
  let s := (SMap.keys s.engines).foldl (fun s e =>
    if engHalf e = lost then s.updEng e fun k => { Engine.empty with run := if k.run = .lost then .lost else .detached }
    else s) s
  let s := (SMap.keys s.clusters).foldl (fun s c => if c / 8 = lost then s.updCluster c fun k => { k with inj := [] } else s) s
  let s := ((s.updDsp lost fun _ => Dsp.empty).updClt lost fun _ => Clt.empty).updKao lost fun _ => Kao.empty
  let s := s.updVrv lost fun v => { v with copies := [], opened := none, outbox := [] }
  lostClasses.foldl (fun s cls => (s.listedBlocks cls lost).foldl (fun s i =>
    (s.resetFld Reg.PFX_CTL.enable (blkKey cls i)).resetFld Reg.PFX_STATE.state (blkKey cls i)) s) s

/-- The claims that blocks of the lost half hold are freed (R36). -/
def State.huskClaims (s : State) (lost : Nat) : State :=
  (List.range 130).foldl (fun s n =>
    if s.claimHeld n && s.blkHalf (s.rf Reg.PRT_CLAIM.owner_class 0 n) (s.rf Reg.PRT_CLAIM.owner_instance 0 n) == lost then
      (s.claimClear n 0).claimFree n
    else s) s

/-- The half whose Event Hub holds a raise key's state (R327). -/
def State.keyHome (s : State) (key : Nat) : Nat :=
  let g := key / 4096
  if g < 2 then g else s.keyTarget key / 128

/-- The lost half's Event Hub state is dropped, and so are the raises on their way to or from it. -/
def State.huskEvents (s : State) (lost : Nat) : State :=
  let x := s.evh
  let keep := x.pend.filter fun p => s.keyHome p.1 != lost
  let toLost := (x.crossing.filter fun e => e.target / 128 == lost && !e.withdraw).length
  let s := { s with evh := { x with pend := keep, active := x.active.filter fun a => a.core / 128 != lost,
                                    signalled := x.signalled.filter fun p => p.1 / 3 / 128 != lost, crossing := [] } }
  s.addf Reg.EVH_STAT.dropped (1 - lost) 0 toLost

/-- A steal message goes to or comes from the lost half. -/
def StealMsg.touches (lost : Nat) : StealMsg → Bool
  | .request t c _ _ => engHalf t == lost || c / 8 == lost
  | .reply t _ _ _ half => engHalf t == lost || half

/-- A record of Dispatch for a tracked remote task (R415 step 4). -/
def remoteLost (r : Rec) : Rec :=
  { r with status := Status.engineLost, late := false, reissued := false, dispatch := true, remote := true, result := 0,
           engine := 0xFFFF, poison := false }

/-- The survivor's remote tasks end with ENGINE_LOST; records of the lost half that stand in its lanes are lost. -/
def State.huskTasks (s : State) (lost : Nat) : State :=
  let h := 1 - lost
  let gone := (s.remoteEntries h).map (fun e => remoteLost (e.dspRec Status.engineLost 0xFFFF)) ++
    (s.remoteRecs h).map remoteLost
  let s := s.updClt h fun c =>
    { c with lanes := (SMap.keys c.lanes).foldl (fun m k =>
        SMap.upd [] m k fun l => l.filter fun r => r.dispatch || !r.remote) c.lanes }
  let s := { s with steals := s.steals.filter fun m => !m.touches lost }
  let s := (s.updDsp h fun d => { d with arriving := [] }).quiesce lost
  gone.foldl State.dspMake s

/-- The marker of R182 in the surviving primary: after HALF_LOST without a handover the chain goes on from the last LEASE. -/
def State.huskLedger (s : State) (lost : Nat) (moved : Bool) : State :=
  let p := s.sys.primary.val
  let s :=
    if !moved then s
    else match s.tlt.lastLease.signed with
      | some (j, c) => { s with ledger := { s.ledger with chain := c } }.setf Reg.VRV_NEXT_POS.value p (j + 1)
      | none => { s with ledger := { s.ledger with chain := [] } }.setf Reg.VRV_NEXT_POS.value p 0
  if s.blkOn Cls.vrv p then s.huskMarker lost else s

/-- The device goes on with one half: the steps of R415. When the lost half was primary, the other becomes primary. -/
def State.huskEnter (s : State) (lost : Half) : State :=
  let h := 1 - lost.val
  let moved := s.sys.primary.val != h
  let s := if moved then s.newPrimary (halfOf h) else s
  let s := (s.huskCoherence lost.val).huskClaims lost.val
  let s := (s.huskEvents lost.val).huskTasks lost.val
  let s := { s with sys := { s.sys with lostHalf := some lost, bridgeUp := false }, tlt := { s.tlt with holdFrom := none } }
  ((s.huskLedger lost.val moved).huskMode).raise 0x0E3 .both h 0

/-! ## Frames of the management port (R424) -/

/-- The 20 header bytes of a frame. -/
def omHeader (type sid seq len : Nat) : List Byte :=
  [0x47, 0x4D, 1, BitVec.ofNat 8 type] ++ leBytes 4 sid ++ leBytes 8 seq ++ leBytes 2 len ++ [0, 0]

/-- Send a frame. -/
def State.sendFrame (s : State) (f : List Byte) : State := { s with out := { s.out with frames := f :: s.out.frames } }

/-- A CLOSE frame with a status (R426). -/
def omClose (sid seq status : Nat) : List Byte := omHeader 0x1F sid seq 1 ++ [BitVec.ofNat 8 status]

def State.sessionAt (s : State) (sid : Nat) : Option Session := SMap.get none s.tlt.sessions sid

def State.setSession (s : State) (sid : Nat) (x : Option Session) : State :=
  { s with tlt := { s.tlt with sessions := SMap.set none s.tlt.sessions sid x } }

/-- Tilth closes a session; which listed status the CLOSE then carries is not stated, and is a free value. -/
def State.closeSession (s : State) (sid : Nat) : State :=
  match s.sessionAt sid with
  | none => s
  | some x =>
    let (st, s) := s.drawFree
    (s.setSession sid none).sendFrame (omClose sid x.seqOut (Status.pick st))

/-- The sessions that used a credential close (R426). -/
def State.closeCred (s : State) (n : Nat) : State :=
  (SMap.keys s.tlt.sessions).foldl (fun s sid =>
    match s.sessionAt sid with
    | some x => if x.cred = n then s.closeSession sid else s
    | none => s) s

/-- Every session closes (R426). -/
def State.closeAll (s : State) : State := (SMap.keys s.tlt.sessions).foldl State.closeSession s

/-! ## Package resets (R471, R472) -/

/-- What a CXL device still holds after a reset of this one. -/
def Mem.cxlOnly (m : Mem) : Mem :=
  { bytes := m.bytes.filter fun p => decide (cxlBase ≤ p.1), poison := m.poison.filter fun p => decide (cxlBase ≤ 32 * p.1),
    lineTag := m.lineTag.filter fun p => decide (cxlBase ≤ 64 * p.1),
    pageTag := m.pageTag.filter fun p => decide (cxlBase ≤ 4096 * p.1), onDie := [] }

/-- A region's offset >> 20. -/
def StoreWork.region : StoreWork → Nat
  | .fw r _ => 16 * r
  | .od _ _ => 0x3C
  | .boot _ => 0x3E
  | .cal _ => 0x3F

/-- Power fails while a store runs: the region that was being written is lost, and of the boot counts the copy that was being
written (R429). -/
def Tlt.storeCut (t : Tlt) : Tlt :=
  match t.storing with
  | none => t
  | some (.boot false) =>
    { t with stored := SMap.upd 0 t.stored (odKey 0x0100 5) (· - 1), storing := none, storeAgain := [] }
  | some w => { t with broken := SMap.set false t.broken w.region true, storing := none, storeAgain := [] }

/-- The Tilths after a reset: the store, and what VAON holds when it keeps its supply. -/
def Tlt.afterReset (t : Tlt) (vaon : Bool) : Tlt :=
  let t := t.storeCut
  let r := { Tlt.empty with
    stored := t.stored, storedBlob := t.storedBlob, cal := t.calStored, calStored := t.calStored, fw := t.fw,
    broken := t.broken, nextSid := t.nextSid }
  if vaon then { r with vaonArm := t.vaonArm } else r

/-- A reset of the whole die: every register and part at its reset value. The store stays; `vaon` keeps what VAON holds,
and `logs` the logs of the object dictionary and the contents of CXL memory. -/
def State.dieReset (s : State) (vaon logs : Bool) : State :=
  let z := State.reset
  let y := { z.sys with
    mode := s.sys.mode, prevMode := s.sys.prevMode, vaonRecord := s.sys.vaonRecord
    modeLog := if logs then s.sys.modeLog else [], errLog := if logs then s.sys.errLog else [] }
  let r := { z with
    pending := s.pending, out := s.out, freeCtr := s.freeCtr, rngCtr := s.rngCtr, keyGen := s.keyGen, sys := y,
    mem := if logs then s.mem.cxlOnly else z.mem
    pwr := { Pwr.empty with hours := s.pwr.hours, railOut := s.pwr.railOut }
    tlt := s.tlt.afterReset vaon }
  if vaon then
    let r := [Reg.HPN_TAMPER.latch, Reg.HPN_TAMPER.first_cause].foldl (fun (r : State) f => r.hpnBoth f (s.rf f 0)) r
    r.hpnBoth Reg.PWR_WATCH.wake_addr (s.rf Reg.PWR_WATCH.wake_addr 0)
  else r

/-- The device is in OFF or WATCH, where no reset and no other command of the die acts. -/
def State.dark (s : State) : Bool := s.sys.mode == .off || s.sys.mode == .watch

/-- The VAON-held part of the boot record is written without the record; a store of it that runs ends first. -/
def Tlt.noRecord (t : Tlt) : Tlt :=
  { t with broken := SMap.set false t.broken 0x3E false, storing := t.storing.filter (· != .boot true) }

/-- The VAON-held record is removed, unless a rail is outside its window (R428, R471). -/
def State.removeRecord (s : State) : State :=
  if s.railsOut then s else { s with sys := { s.sys with vaonRecord := false }, tlt := s.tlt.noRecord }

/-- A package reset with a cause of R468. -/
def State.resetTo (s : State) (cause : Nat) : State :=
  ((s.closeAll.toMode .root cause).dieReset true true).hpnBoth Reg.PWR_WATCH.wake_cause 3

/-- A package reset (R471); `remove` is false when PWR_GOOD has fallen (R457). -/
def State.packageReset (s : State) (remove : Bool) : State :=
  if s.dark then s else (if remove then s.removeRecord else s).resetTo 0x14

/-- A package error reset keeps the UEf record (R376, R472). -/
def State.packageErrorReset (s : State) (h : Nat) (r : ErrRec) : State :=
  if s.dark then s
  else
    let s := s.removeRecord.resetTo 0x15
    { s with tlt := { s.tlt with uefKept := some (r, h) } }

/-! ## UEf (R376) -/

/-- A UEf of a half: the half is lost when the other half and the bridge are sound, and the package is reset otherwise. The
failure of the bridge itself follows R412. -/
def State.uef (s : State) (h : Half) (r : ErrRec) : State :=
  if r.source = 0x21 then s
  else if s.sys.lostHalf.isNone && s.sys.bridgeUp then s.huskEnter h else s.packageErrorReset h.val r

/-- ERROR_RECORD_WRITE: RAS routes the oldest record it has detected. -/
def execErrorRecordWrite (h : Half) (s : State) : Out3 :=
  match s.routeRecord h.val with
  | (none, s) => .next s
  | (some r, s) => .next (s.uef h r)

end Sys2Proof.Machine
end

