-- ==== Sys2Proof/Machine/OdTable.lean ====
section
/-!
DEFINITION. OdTable: the parameters of the object dictionary (R417 to R422 and the chapters that name them) and the stores of
the persistent store (R428).
-/
namespace Sys2Proof.Machine

/-! ## Types and parameters (R417, R418) -/

inductive OdType where
  | bool | u8 | u16 | u32 | u64 | i32 | i64 | fix | str | blob | time96
deriving DecidableEq, Repr

def OdType.code : OdType → Nat
  | .bool => 0x01 | .u8 => 0x02 | .u16 => 0x03 | .u32 => 0x04 | .u64 => 0x05 | .i32 => 0x06 | .i64 => 0x07
  | .fix => 0x08 | .str => 0x09 | .blob => 0x0A | .time96 => 0x0B

inductive OdAcc where
  | ro | rw | wo | rwp
deriving DecidableEq, Repr

/-- A parameter: its type, the least and greatest length of its value, its access, the least role that reads and that writes
it, and the world whose principals alone may write it. -/
structure OdParam where
  ty : OdType
  lo : Nat
  hi : Nat
  acc : OdAcc
  read : Nat
  write : Nat
  world : Option World
deriving DecidableEq, Repr

def OdType.size : OdType → Nat
  | .bool => 1 | .u8 => 1 | .u16 => 2 | .u32 => 4 | .u64 => 8 | .i32 => 4 | .i64 => 8 | .fix => 4 | .time96 => 12
  | .str => 255 | .blob => 4096

/-- A number that every role reads and that `write` may write. -/
def odNum (ty : OdType) (acc : OdAcc) (write : Nat) (world : Option World := none) : OdParam :=
  ⟨ty, ty.size, ty.size, acc, 0, write, world⟩

/-- A BLOB of a fixed length. -/
def odBlobOf (n : Nat) (acc : OdAcc) (read write : Nat) (world : Option World := none) : OdParam :=
  ⟨.blob, n, n, acc, read, write, world⟩

/-- The parameters of 0x0000 to 0x03FF: sessions, identity, modes and control. -/
def odParamLow (idx sub : Nat) : Option OdParam :=
  match idx with
  | 0x0001 => if sub = 0 then some (odNum .u32 .ro 0) else if sub ≤ 64 then some (odBlobOf 24 .ro 1 0) else none
  | 0x0010 => if 1 ≤ sub && sub ≤ 32 then some (odBlobOf 72 .rwp 0 2) else none
  | 0x0020 => if sub = 1 then some (odNum .u16 .rwp 1) else none
  | 0x0030 =>
    if sub = 1 then some (odNum .u8 .rwp 2 (some .topsoil)) else if sub = 2 then some (odNum .u16 .rwp 2) else none
  | 0x0040 => if sub = 1 then some (odNum .u8 .rwp 2 (some .topsoil)) else none
  | 0x0100 =>
    if 1 ≤ sub && sub ≤ 3 then some ⟨.str, 0, 255, .ro, 0, 0, none⟩
    else if sub = 4 then some (odBlobOf 16 .ro 0 0)
    else if sub = 5 then some (odNum .u64 .ro 0) else none
  | 0x0108 => if sub = 1 then some (odBlobOf 64 .ro 0 0) else none
  | 0x0200 => if sub = 1 then some (odNum .u8 .ro 0) else none
  | 0x0202 =>
    if sub = 1 then some (odNum .u8 .ro 0)
    else if sub = 2 || sub = 4 then some (odNum .u8 .wo 2)
    else if sub = 3 then some (odBlobOf 48 .ro 0 0) else none
  | 0x0203 => if sub = 1 then some (odNum .u8 .wo 2 (some .hardpan)) else none
  | 0x0204 => if sub = 1 then some (odNum .u8 .wo 2) else none
  | 0x0205 =>
    if sub = 1 then some (odNum .u8 .wo 1) else if sub = 2 then some (odNum .u8 .ro 0)
    else if sub = 3 then some (odNum .u8 .wo 2) else none
  | 0x0206 =>
    if sub = 1 || sub = 3 then some (odNum .u8 .wo 2 (some .hardpan))
    else if sub = 2 then some ⟨.blob, 0, 4096, .wo, 0, 2, some .hardpan⟩ else none
  | 0x0210 => if sub = 1 then some (odNum .u8 .rwp 2 (some .hardpan)) else none
  | 0x0220 => if sub = 1 then some (odNum .bool .rw 1) else none
  | _ => none

/-- The parameters of 0x0400 to 0x17FF: power, Strata, errors, Weathering and calibration. -/
def odParamMid (idx sub : Nat) : Option OdParam :=
  match idx with
  | 0x0400 => if sub = 1 then some (odNum .u16 .rwp 1) else none
  | 0x0410 =>
    if sub = 1 then some (odNum .bool .rw 1) else if sub = 2 || sub = 3 then some (odNum .u16 .rwp 1)
    else if sub = 4 then some (odNum .bool .rwp 1) else none
  | 0x0420 => if sub = 1 then some (odNum .u8 .wo 1) else if sub = 2 then some (odNum .u8 .rwp 1) else none
  | 0x0800 => if sub = 1 then some (odNum .u8 .rwp 1) else none
  | 0x0801 => if sub = 1 then some (odNum .i32 .rwp 1) else none
  | 0x0C40 => if 1 ≤ sub && sub ≤ 16 then some (odNum .u8 .rwp 1) else none
  | 0x0C50 => if 1 ≤ sub && sub ≤ 16 then some (odNum .u64 .rwp 1) else none
  | 0x0C60 => if 1 ≤ sub && sub ≤ 2 then some (odBlobOf 17 .rwp 0 1) else none
  | 0x1000 =>
    if sub = 1 then some (odNum .fix .ro 0) else if sub = 2 then some (odNum .u16 .rwp 1)
    else if sub = 3 then some (odNum .u32 .ro 0) else none
  | 0x1010 =>
    if sub = 1 then some (odNum .u32 .rw 2) else if sub = 2 then some ⟨.blob, 0, 4096, .ro, 0, 0, none⟩
    else if sub = 3 then some ⟨.blob, 1, 4096, .wo, 0, 2, none⟩
    else if sub = 4 then some (odNum .u8 .wo 2) else if sub = 5 then some (odNum .u32 .ro 0) else none
  | _ => none

/-- The parameters of 0x1800 to 0x1FFF: ports, pins and logs. -/
def odParamHigh (idx sub : Nat) : Option OdParam :=
  match idx with
  | 0x1800 =>
    if sub = 1 then some (odBlobOf 16 .rwp 0 1) else if sub = 2 then some (odNum .u16 .rwp 1)
    else if sub = 3 then some (odNum .u8 .rwp 1) else none
  | 0x1810 => if 1 ≤ sub && sub ≤ 8 then some (odNum .u8 .rwp 1) else none
  | 0x1820 => if 1 ≤ sub && sub ≤ 4 then some (odNum .u8 .rwp 1) else none
  | 0x1840 => if 33 ≤ sub && sub ≤ 36 then some (odBlobOf 8 .rwp 0 2 (some .hardpan)) else none
  | 0x1850 => if sub = 8 then some (odNum .bool .rwp 1) else none
  | 0x1C00 => if 1 ≤ sub && sub ≤ 64 then some (odBlobOf 64 .ro 1 0) else none
  | 0x1C80 => if 1 ≤ sub then some (odBlobOf 16 .ro 0 0) else none
  | 0x1C90 => if sub = 1 then some (odNum .u8 .wo 2) else if sub = 2 then some (odBlobOf 8 .ro 0 0) else none
  | _ => none

/-- The parameter of an index and subindex. -/
def odParam (idx sub : Nat) : Option OdParam :=
  if idx < 0x0400 then odParamLow idx sub else if idx < 0x1800 then odParamMid idx sub else odParamHigh idx sub

/-- A value is in its parameter's range (R420, R423). -/
def odInRange (idx sub v : Nat) (bs : List Byte) : Bool :=
  match odParam idx sub with
  | none => false
  | some p =>
    if p.ty = .bool then v ≤ 1
    else match idx with
    | 0x0010 => (bs.getD 64 0).toNat ≤ 1 && (bs.getD 65 0).toNat ≤ 2 && (bs.drop 66).all (· == 0)
    | 0x0030 => if sub = 1 then v ≤ 1 else v ≤ 4095
    | 0x0040 => v ≤ 1
    | 0x0202 => sub != 2 || v ≤ 1
    | 0x0420 => sub != 2 || v ≤ 0x7F
    | 0x0800 => v ≤ 3
    | 0x0C40 => v ≤ 15
    | 0x1810 => v ≤ 4
    | 0x1820 => v ≤ 1
    | _ => true

/-- The defaults of BLOB parameters. -/
def odBlobDefault (idx : Nat) : List Byte :=
  match idx with
  | 0x0010 => List.replicate 72 0
  | 0x0C60 => List.replicate 17 0
  | 0x1800 => [0xFE, 0x80] ++ List.replicate 13 0 ++ [1]
  | 0x1840 => leBytes 4 3760 ++ leBytes 4 5640
  | _ => []

/-- The value of a BLOB parameter that a principal writes. -/
def State.odBlob (s : State) (idx sub : Nat) : List Byte :=
  match SMap.get [] s.sys.odBlob (odKey idx sub) with
  | [] => odBlobDefault idx
  | bs => bs

def State.setOdBlob (s : State) (idx sub : Nat) (bs : List Byte) : State :=
  { s with sys := { s.sys with odBlob := SMap.set [] s.sys.odBlob (odKey idx sub) bs } }

/-- Set a BLOB and its copy in the store (R406, R472). -/
def State.setOdBlobStored (s : State) (idx sub : Nat) (bs : List Byte) : State :=
  { s.setOdBlob idx sub bs with
    tlt := { s.tlt with storedBlob := SMap.set [] s.tlt.storedBlob (odKey idx sub) bs } }

/-- The bit of a physical core's domain in OD 0x0C60 (R406). -/
def State.oldCoreListed (s : State) (h d : Nat) : Bool := (ofLe (s.odBlob 0x0C60 (h + 1))).testBit d

/-! ## The persistent store (R428) -/

/-- The parameter's value reaches the store. -/
def odKept (k : Nat) : Bool :=
  match odParam (k / 256) (k % 256) with
  | some p => p.acc == .rwp
  | none => false

/-- What a store of the OD region writes. The boot count stands in the boot record. -/
def State.odWork (s : State) : StoreWork :=
  .od (s.sys.od.filter fun p => odKept p.1) (s.sys.odBlob.filter fun p => odKept p.1)

/-- What a finished store has written. -/
def Tlt.written (t : Tlt) : StoreWork → Tlt
  | .od nums blobs =>
    let count := SMap.get 0 t.stored (odKey 0x0100 5)
    { t with stored := SMap.set 0 nums (odKey 0x0100 5) count, storedBlob := blobs, broken := SMap.set false t.broken 0x3C false }
  | .boot r => if r then { t with broken := SMap.set false t.broken 0x3E false } else t
  | .cal c => { t with calStored := c, broken := SMap.set false t.broken 0x3F false }
  | .fw r bs => { t with fw := SMap.set [] t.fw r bs, broken := SMap.set false t.broken (16 * r) false }

/-- STORE_DONE. -/
def execStoreDone (s : State) : Out3 :=
  match s.tlt.storing with
  | none => .next s
  | some w =>
    let s := { s with tlt := { s.tlt.written w with storing := none } }
    let s := s.storeEnded w.bit Status.ok ((s.strata.tick - s.tlt.storeFrom) / 1000000)
    .next (match s.tlt.storeAgain with
      | [] => s
      | w :: rest => (({ s with tlt := { s.tlt with storeAgain := rest } } : State).storeBegin w).2)

/-- The calibration set is stored; a refusal with RAIL_WINDOW is retried (R402). -/
def State.storeCal (s : State) (h : Nat) : State :=
  let (st, s) := s.storeSoon (.cal s.tlt.cal)
  let s := { s with pwr := { s.pwr with unstored := SMap.set false s.pwr.unstored h (st == Status.railWindow) } }
  s.setf Reg.WTH_CTL.last_status h st

end Sys2Proof.Machine
end

