-- ==== Sys2Proof/Machine/Rails.lean ====
section
/-!
DEFINITION. Rails: the supply rails, package power and temperature (R387 to R391).
-/
namespace Sys2Proof.Machine

/-! ## Rails (R387 to R389) -/

/-- The grants of the listed cores of which `p` holds. -/
def State.regrantAll (s : State) (p : Nat → Bool) : State :=
  (SMap.keys s.cores).foldl (fun s c => if p c then s.regrant c true else s) s

/-- A protective change of a mesh's clock; below the floor of a held mesh it raises secure EV 0x074 (R150). -/
def State.meshProtect (s : State) (h : Nat) : State :=
  let was := SMap.get false s.sys.meshSlow h
  let s := s.setMesh
  if !was && SMap.get false s.sys.meshSlow h && s.held h 144 && 1500 < s.rf Reg.PWR_HOLD.floor_mhz h 144 then
    s.raise 0x074 .hardpan h 144
  else s

/-- The clocks on a rail whose fault begins or ends are granted anew. -/
def State.railGrants (s : State) (r : Nat) : State :=
  let s := if r = 4 || r = 5 then s.meshProtect (r - 4) else s
  s.regrantAll (fun c => coreRail c == r)

/-- RAIL_SET: a write of a voltage: no other than the highest that a domain on the rail needs (R245, R388). -/
def execRailSet (r : Fin 8) (mv : BitVec 12) (s : State) : Out3 :=
  .next (if mv.toNat != s.railNeed r.val then s else s.railAsk r.val mv.toNat)

/-- RAIL_ATTEMPT_FAIL: the attempt is repeated, and the fourth failure ends the request with RAIL_FAULT. -/
def execRailAttemptFail (r : Fin 8) (s : State) : Out3 :=
  let h := s.railHalf r.val
  .next (match s.rail r.val with
  | none => s
  | some x =>
    if !x.flying then s
    else
      let s := s.setRail r.val (some { x with fails := x.fails + 1 })
      if x.fails < 3 then s.setf Reg.PWR_RAIL.retries h (x.fails + 1) r.val
      else
        let s := (s.setf Reg.PWR_RAIL.last_status h Status.railFault r.val).setf Reg.PWR_RAIL.fault h 1 r.val
        let s := (s.addf Reg.PWR_RAIL.faults h r.val).raise 0x0D0 .both h r.val
        s.railGrants r.val)

/-- RAIL_RETRY: the rail is asked again, for the highest voltage that is needed by then. -/
def execRailRetry (r : Fin 8) (s : State) : Out3 :=
  .next (match s.rail r.val with
  | none => s
  | some x =>
    if x.flying then s
    else (s.setRail r.val (some ⟨max x.target (x.next.getD 0), 0, none⟩)).setf Reg.PWR_RAIL.retries (s.railHalf r.val) 0 r.val)

/-- How far the sensed voltage of a rail may lie from its target: 10 mV, and the monitor's calibrated offset while the die-local
monitor replaces an open or shorted sense pair (R388, R452). -/
def State.railTolerance (s : State) (r : Nat) : Nat :=
  let c := s.rf Reg.PRT_LINE.state 0 r
  if c = 1 || c = 2 then 10 + Config.monitorOffset r else 10

/-- RAIL_ACKNOWLEDGED: the regulator's status is good and the voltage sensed is near enough to the target. -/
def execRailAcknowledged (r : Fin 8) (sensed : BitVec 12) (s : State) : Out3 :=
  let h := s.railHalf r.val
  .next (match s.rail r.val with
  | none => s
  | some x =>
    let tol := s.railTolerance r.val
    if !x.flying || sensed.toNat + tol < x.target || x.target + tol < sensed.toNat then s
    else
      let cured := s.rb Reg.PWR_RAIL.fault h r.val
      let s := s.setRail r.val (x.next.map fun n => ⟨n, 0, none⟩)
      let s := (s.setf Reg.PWR_RAIL.set_mv h x.target r.val).setf Reg.PWR_RAIL.sense_mv h sensed.toNat r.val
      let s := (s.setf Reg.PWR_RAIL.last_status h Status.ok r.val).setf Reg.PWR_RAIL.fault h 0 r.val
      if cured then s.railGrants r.val else s)

/-- PWR_RAIL_READ. -/
def execPwrRailRead (q : Requester) (h : Half) (r : Fin 14) (s : State) : Out3 :=
  .next (s.readCmd q Cls.pwr h.val Reg.PWR_RAIL.reg r.val id)

/-- The sensed voltage lies outside the rail's window; VFUSE is checked while fuses are programmed alone, which no command
of this device does. -/
def railOutside (r set mv : Nat) : Bool :=
  if r < 8 then mv + 40 < set || set + 40 < mv
  else if r < 13 then mv * 100 < set * 95 || set * 105 < mv * 100
  else false

/-! ## Package power (R390, R395) -/

/-- What a core's grant may be lowered to: its floor while its domain is held, and never below 800 MHz. -/
def State.coreFloor (s : State) (c : Nat) : Nat :=
  let h := coreHalf c
  let d := coreDom c
  max 800 (if s.held h d then s.rf Reg.PWR_HOLD.floor_mhz h d else 0)

/-- The core has a grant that can be lowered. -/
def State.lowerable (s : State) (c : Nat) : Bool := s.coreFloor c < (s.core c).granted && (s.core c).run != .off

/-- Lower a core's grant by 100 MHz for package power. -/
def State.powerLower (s : State) (c : Nat) : State :=
  if s.lowerable c then
    let n := max (s.coreFloor c) ((s.core c).granted - 100)
    (s.updCore c fun k => { k with capPower := n }).regrant c true
  else s

/-- The mesh of a half can be slowed: its domain has no floor above 1,500 MHz. -/
def State.meshSlowable (s : State) (h : Nat) : Bool :=
  !SMap.get false s.pwr.meshPower h && !(s.held h 144 && 1500 < s.rf Reg.PWR_HOLD.floor_mhz h 144)

def State.setMeshPower (s : State) (h : Nat) (b : Bool) : State :=
  { s with pwr := { s.pwr with meshPower := SMap.set false s.pwr.meshPower h b } }

/-- One step down of R390; none when nothing is left above the floors. -/
def State.powerDownStep (s : State) : Option State :=
  let cs := SMap.keys s.cores
  let top := cs.filter fun c => !s.coreIsHardpan c && s.lowerable c
  let hard := cs.filter fun c => s.coreIsHardpan c && s.lowerable c
  if cs.any fun c => 3000 < (s.core c).granted then
    some (cs.foldl (fun s c => (s.updCore c fun k => { k with capPower := min 3000 k.capPower }).regrant c true) s)
  else if !top.isEmpty then some (top.foldl State.powerLower s)
  else if s.meshSlowable 0 || s.meshSlowable 1 then
    some ([0, 1].foldl (fun s h => if s.meshSlowable h then s.setMeshPower h true else s) s).setMesh
  else if !hard.isEmpty then some (hard.foldl State.powerLower s)
  else none

/-- Raise the package-power cap of cores by 100 MHz, no further than `top`. -/
def State.powerRaise (s : State) (cs : List Nat) (top : Nat) : State :=
  cs.foldl (fun s c => (s.updCore c fun k => { k with capPower := min top (k.capPower + 100) }).regrant c true) s

/-- One step up, in the reverse order. -/
def State.powerUpStep (s : State) : State :=
  let cs := SMap.keys s.cores
  let hard := cs.filter fun c => s.coreIsHardpan c && (s.core c).capPower < 3000
  let top := cs.filter fun c => !s.coreIsHardpan c && (s.core c).capPower < 3000
  let boost := cs.filter fun c => (s.core c).capPower < 3600
  if !hard.isEmpty then s.powerRaise hard 3000
  else if SMap.get false s.pwr.meshPower 0 || SMap.get false s.pwr.meshPower 1 then
    ((s.setMeshPower 0 false).setMeshPower 1 false).setMesh
  else if !top.isEmpty then s.powerRaise top 3000
  else s.powerRaise boost 3600

/-- The power of the AVS rails in mW, from the last voltages and currents. -/
def State.avsPower (s : State) : Nat :=
  (List.range 8).foldl (fun n r =>
    n + s.rf Reg.PWR_RAIL.sense_mv (s.railHalf r) r * s.rf Reg.PWR_RAIL.amps (s.railHalf r) r / 10) 0

/-- One rail's reading: its voltage in mV and current in 0.1 A. -/
def State.railSample (s : State) (x : Fin 14 × BitVec 12 × BitVec 16) : State :=
  let r := x.1.val
  let h := s.railHalf r
  let s := s.setf Reg.PWR_RAIL.sense_mv h x.2.1.toNat r
  let s := if r < 8 then s.setf Reg.PWR_RAIL.amps h x.2.2.toNat r else s
  { s with pwr := { s.pwr with
      railOut := SMap.set false s.pwr.railOut r (railOutside r (s.rf Reg.PWR_RAIL.set_mv h r) x.2.1.toNat) } }

/-- The running average of R390 in mW. -/
def Pwr.average (p : Pwr) : Nat := if p.sums = [] then 0 else p.sums.foldl (· + ·) 0 / p.sums.length

/-- The average is compared with the limit. -/
def State.powerAct (s : State) : State :=
  let p := s.sys.primary.val
  let avg := s.pwr.average
  let limit := s.rf Reg.PWR_POWER.limit_w p * 1000
  let tick := s.strata.tick
  let s := s.setf Reg.PWR_POWER.pkg_w p (avg / 1000)
  let low := if avg * 100 < limit * 40 then (if s.pwr.lowPower = 0 then tick + 1 else s.pwr.lowPower) else 0
  let s := { s with pwr := { s.pwr with lowPower := low } }
  if limit < avg then
    let s := { s with pwr := { s.pwr with lastReturn := tick } }
    match s.powerDownStep with
    | some s => s.setf Reg.PWR_POWER.over p 0
    | none => if s.rb Reg.PWR_POWER.over p then s else (s.setf Reg.PWR_POWER.over p 1).raise 0x0D2 .both p 0
  else
    let s := s.setf Reg.PWR_POWER.over p 0
    if avg * 100 ≤ limit * 98 then
      if s.pwr.lastReturn + 1000000 ≤ tick then
        let s := { s with pwr := { s.pwr with lastReturn := tick } }
        s.powerUpStep
      else s
    else { s with pwr := { s.pwr with lastReturn := tick } }

/-- POWER_SAMPLE: the readings of the rails, and the calibrated allowance of the fixed rails in W. -/
def execPowerSample (rails : List (Fin 14 × BitVec 12 × BitVec 16)) (fixed : BitVec 16) (s : State) : Out3 :=
  if s.dark then .next s
  else
    let s := rails.foldl State.railSample s
    let s := { s with pwr := { s.pwr with sums := ((s.avsPower + fixed.toNat * 1000) :: s.pwr.sums).take 10 } }
    .next s.powerAct

/-! ## Temperature (R391, R479) -/

/-- The 90 °C row: grants fall by 100 MHz per ms, and return below 88 °C. -/
def State.throttle (s : State) (h tj : Nat) : State :=
  let mine := fun c => coreHalf c == h
  let tick := s.strata.tick
  let on := s.rb Reg.PWR_POWER.throttle h
  if 90 ≤ tj || (on && 88 ≤ tj) then
    let last := SMap.get 0 s.pwr.lastStep h
    if on && tick < last + 1000000 then s
    else
      let s := (s.setf Reg.PWR_POWER.throttle h 1)
      let s := { s with pwr := { s.pwr with lastStep := SMap.set 0 s.pwr.lastStep h tick } }
      ((SMap.keys s.cores).filter fun c => mine c && s.lowerable c).foldl (fun s c =>
        let n := max (s.coreFloor c) ((s.core c).granted - 100)
        (s.updCore c fun k => { k with capThermal := n }).regrant c true) s
  else if on then
    let s := s.setf Reg.PWR_POWER.throttle h 0
    ((SMap.keys s.cores).filter mine).foldl (fun s c =>
      (s.updCore c fun k => { k with capThermal := 3600 }).regrant c true) s
  else s

/-- The 95 °C row: a protective reduction of cores and mesh, below the floor of a held mesh too (R150). -/
def State.tripAt (s : State) (h tj : Nat) : State :=
  let mine := fun c => coreHalf c == h
  let on := s.rb Reg.PWR_POWER.trip h
  if 95 ≤ tj && !on then
    let s := ((s.setf Reg.PWR_POWER.trip h 1).setMesh).regrantAll mine
    let s := if s.held h 144 && 1500 < s.rf Reg.PWR_HOLD.floor_mhz h 144 then s.raise 0x074 .hardpan h 144 else s
    s.raise 0x0D1 .both h 0
  else if tj < 90 && on then ((s.setf Reg.PWR_POWER.trip h 0).setMesh).regrantAll mine
  else s

/-- THERMAL_SAMPLE: the hottest junction of a half, in °C. -/
def execThermalSample (h : Half) (tj : BitVec 8) (s : State) : Out3 :=
  if s.dark then .next s
  else .next (((s.setf Reg.PWR_POWER.tj_c h.val tj.toNat).tripAt h.val tj.toNat).throttle h.val tj.toNat)

/-- A held domain has lost its power (R150). -/
def State.domainLost (s : State) (h d : Nat) : State :=
  if s.held h d then
    let s := (s.zeroizeDomain h d).domDown h d 2
    (s.setf Reg.PWR_HOLD.lost h 1 d).raise 0x073 .hardpan h d
  else s.domDown h d 2

/-- Assert or release ERROR_N (0) or THERMTRIP_N (1). -/
def State.setPin (s : State) (n : Nat) (b : Bool) : State := { s with tlt := { s.tlt with pins := SMap.set false s.tlt.pins n b } }

/-- THERMAL_SHUTDOWN: 100 °C for 1 ms in a half; every rail but VAON goes, and the loss of the held domains leads to SEAL. -/
def execThermalShutdown (h : Half) (s : State) : Out3 :=
  if s.dark || s.rf Reg.PWR_POWER.tj_c h.val < 100 then .next s
  else
    let s := s.setPin 1 true
    let s := [0, 1].foldl (fun s h => (List.range 159).foldl (fun s d => s.domainLost h d) s) s
    .next (s.sealNow 7)

end Sys2Proof.Machine
end

