-- ==== Sys2Proof/Machine/Dormancy.lean ====
section
/-!
DEFINITION. Dormancy: requests on power and clock domains and the Dormancy handshake (R392 to R394), FALLOW (R395 to R397),
and WATCH, its wake and the orderly power-down (R398 to R400, R458).
-/
namespace Sys2Proof.Machine

/-! ## Answers (R394) -/

inductive DormAns where
  | accept | delay (us : Nat) | refuse | held
deriving DecidableEq, Repr

/-- Some member of a cluster runs a task or holds deque entries, or the cluster holds injection entries. -/
def State.clusterWorks (s : State) (c : Nat) : Bool :=
  (s.cluster c).injCount != 0 ||
    (clusterEngines c).any fun e => s.isMember e && ((s.eng e).task.isSome || !(s.eng e).deque.isEmpty)

/-- What holds the Varve of a half awake: a batch open, or closed and not merged. -/
def State.vrvWorks (s : State) (h : Nat) : Bool :=
  let v := SMap.get Vrv.empty s.ledger.halves h
  v.opened.isSome || !v.copies.isEmpty || !v.outbox.isEmpty || !v.queue.isEmpty

/-- Another TI than the Tilth TI is live in a half. -/
def State.otherTiLive (s : State) (h : Nat) : Bool := s.tiList.any fun n => s.tiLive h n && n != s.sys.tilthTi

/-- A block's own row; a Silt cluster is asked at its first engine. -/
def State.dormRow (s : State) (kind want cls inst : Nat) : DormAns :=
  let h := s.blkHalf cls inst
  if cls = Cls.slt then (if want = 2 && s.clusterWorks (inst / 64) then .delay 20 else .accept)
  else if cls = Cls.svc then (if (s.cluster inst).load.isSome then .refuse else .accept)
  else if cls = Cls.dmc then
    if (s.chan inst).migration.isSome || s.rb Reg.DMC_TRAIN_CTL.busy inst then .refuse
    else if kind = 2 && (s.chan inst).owed != [] then .delay 10 else .accept
  else if kind != 2 then .accept
  else if cls = Cls.knx then (if (s.core inst).run = .running then .delay 100 else .accept)
  else if cls = Cls.kao then (if s.kaoBusy h = 0 then .accept else .delay 50)
  else if cls = Cls.dsp then (if s.otherTiLive h then .refuse else .accept)
  else if cls = Cls.vrv then (if s.vrvWorks h then .delay 10 else .accept)
  else if cls = Cls.ras then (if (s.rasHalf h).pass.isSome then .refuse else .accept)
  else .accept

/-- A block that starts or stops; a Silt cluster's is any of its engines'. -/
def State.blkMoving (s : State) (cls inst : Nat) : Bool :=
  let moving := fun i => s.blkState cls i == 1 || s.blkState cls i == 3
  if cls = Cls.slt then (clusterEngines (inst / 64)).any moving else moving inst

/-- The block's answer to an entry. Hardpan's own request on one domain is not held up by its hold. -/
def State.dormAnswer (s : State) (d : Dorm) (b : Nat × Nat) : DormAns :=
  let h := s.blkHalf b.1 b.2
  let held := match blkDomain b.1 b.2 with | some n => s.held h n | none => false
  if held && !(d.kind = 0 && d.actor = 2) then .held
  else if s.blkMoving b.1 b.2 then .delay 100
  else s.dormRow d.kind d.want b.1 b.2

/-! ## FALLOW's scope (R395) -/

/-- The cluster holds the only members of some valid pool of its half. -/
def State.soleMember (s : State) (c : Nat) : Bool :=
  let h := c / 8
  (List.range 32).any fun p => s.rb Reg.HPN_POOL.valid h p &&
    ((clusterEngines c).any fun e => s.isMember e && s.poolOf e == p) &&
    !((List.range 8).any fun k => 8 * h + k != c && (clusterEngines (8 * h + k)).any fun e => s.isMember e && s.poolOf e == p)

/-- A cluster that FALLOW keeps. -/
def State.keptCluster (s : State) (c : Nat) : Bool := bitOf (s.od 0x0410 2) c || s.soleMember c

/-- The blocks of a half that survives. -/
def State.serving (s : State) (bs : List (Nat × Nat)) : List (Nat × Nat) :=
  bs.filter fun b => s.sys.lostHalf.all fun x => x.val != s.blkHalf b.1 b.2

/-- The Silt clusters outside the kept mask and the DMCs; the mesh has no block to ask. -/
def State.fallowScope (s : State) : List (Nat × Nat) :=
  s.serving (((List.range 16).filter fun c => !s.keptCluster c).map (fun c => (Cls.slt, 64 * c)) ++
    (List.range 16).map fun c => (Cls.dmc, c))

/-- Every block; tenant interfaces that were never made accept as they are. -/
def State.watchScope (s : State) : List (Nat × Nat) :=
  let all := fun cls => (List.range (clsCount cls)).map fun i => (cls, i)
  let tifs := (SMap.keys s.tis).map fun i => (Cls.tif, i)
  s.serving (all Cls.knx ++ (List.range 16).map (fun c => (Cls.slt, 64 * c)) ++
    [Cls.svc, Cls.dmc, Cls.kao, Cls.dsp, Cls.clt, Cls.vrv, Cls.ras, Cls.hpn, Cls.pot, Cls.str, Cls.evh, Cls.pwr, Cls.wth,
      Cls.tlt, Cls.prt].flatMap all ++ tifs)

/-- The blocks of a domain; an engine domain is asked as one cluster with its SVC block. -/
def domScope (h d : Nat) : List (Nat × Nat) :=
  if d < 136 then [(Cls.knx, domCore h d)]
  else if d < 144 then [(Cls.slt, 64 * (8 * h + (d - 136))), (Cls.svc, 8 * h + (d - 136))]
  else if 145 ≤ d && d < 153 then [(Cls.dmc, 8 * h + (d - 145))]
  else if d = 157 then [(Cls.str, h)]
  else if d = 158 then [(Cls.kao, h)]
  else []

/-! ## Entries (R393) -/

def State.dormSet (s : State) (d : Option Dorm) : State :=
  { s with pwr := { s.pwr with dorm := d } }.setf Reg.PWR_DORM.busy s.sys.primary.val (b2n d.isSome)

/-- PWR_DORM, and for a domain request PWR_DOM, record how the entry ended; EV 0x0D3 goes to the requester's world. -/
def State.dormEnd (s : State) (d : Dorm) (status : Nat) : State :=
  let p := s.sys.primary.val
  let s := (s.dormSet none).setf Reg.PWR_DORM.last_status p status
  let s :=
    if d.kind != 0 then s
    else
      let st := if status = Status.ok && !d.held.isEmpty then Status.pendingHeld else status
      let s := s.setf Reg.PWR_DOM.last_status d.half st d.dom
      if status = Status.ok then s
      else
        let now := s.domState d.half d.dom
        (s.setf Reg.PWR_DOM.gate d.half (b2n (now == 1)) d.dom).setf Reg.PWR_DOM.off d.half (b2n (now == 2)) d.dom
  s.raise 0x0D3 (actorTo d.actor) p d.kind

/-- Blocks in scope that accepted. -/
def State.dormTaken (s : State) (d : Dorm) : List (Nat × Nat) :=
  d.scope.filter fun b => match blkDomain b.1 b.2 with
    | some n => !d.held.contains (s.blkHalf b.1 b.2 * 256 + n)
    | none => true

/-- The device enters FALLOW (R396): the accepting clusters' engines lose power, the mesh slows unless held, which latches its
slower clock (R148), and the limit changes. -/
def State.fallowApply (s : State) (d : Dorm) : State :=
  let cs := (s.dormTaken d).filterMap fun b => if b.1 = Cls.slt then some (b.2 / 64) else none
  let s := cs.foldl (fun (s : State) c =>
    (s.clusterPower c 3).setf Reg.PWR_FALLOW.off_mask (c / 8) (s.rf Reg.PWR_FALLOW.off_mask (c / 8) ||| 2 ^ (c % 8))) s
  let s := [0, 1].foldl (fun (s : State) h =>
    let s := (s.setf Reg.PWR_FALLOW.state h 2).addf Reg.PWR_FALLOW.entries h
    if s.held h 144 then
      ((s.setf Reg.PWR_HOLD.pend_scale h 1 144).setf Reg.PWR_HOLD.pend_mhz h 1500 144).setf Reg.PWR_HOLD.last_status h
        Status.pendingHeld 144
    else s) s
  let s := (s.setMesh.setLimit).raise 0x0D9 .both s.sys.primary.val 1
  (s.toMode .fallow 0x09).regrantAll fun _ => true

/-- The persistent OD values are written as step 4 of R399 does; the status is that of the store. -/
def State.storeNow (s : State) : Nat × State :=
  let w := s.odWork
  match s.storeBegin w with
  | (0, s) => (Status.ok, ({ s with tlt := { s.tlt.written w with storing := none } } : State).storeEnded w.bit Status.ok 0)
  | (st, s) => (st, s)

/-- Step 4 of R399, then power is removed: to WATCH with its wake matcher armed, or to OFF (R458). -/
def State.goDark (s : State) (powerDown : Bool) : Nat × State :=
  match s.storeNow with
  | (0, s) =>
    let s := s.removeRecord
    let s := { s with tlt := { s.tlt with vaonArm := s.rf Reg.HPN_TAMPER.arm 0 } }
    let s := if powerDown then s.closeAll.toMode .off 0x17 else s.closeAll.toMode .watch 0x12
    let s := s.dieReset true true
    (Status.ok, { s with mem := State.reset.mem, tlt := { s.tlt with poweredDown := powerDown } })
  | (st, s) => (st, s)

/-- An entry ends without effect. -/
def State.dormFail (s : State) (d : Dorm) (status : Nat) : State :=
  let s := match d.kind with
    | 1 => ([0, 1].foldl (fun (s : State) h => s.setf Reg.PWR_FALLOW.state h 0) s).setOd 0x0410 1 0
    | 2 => { s with pwr := { s.pwr with watch := .none } }
    | _ => s
  s.dormEnd d status

/-- The domains that answered PENDING_HELD latch what the entry asks of them, once it applies (R393): FALLOW asks no gate and no
power-off of a DMC. -/
def State.latchQueries (s : State) (d : Dorm) : State :=
  d.held.foldl (fun s x =>
    if d.kind = 1 && 144 < x % 256 then s.setf Reg.PWR_HOLD.last_status (x / 256) Status.pendingHeld (x % 256)
    else s.latchReq (x / 256) (x % 256) (if d.kind = 0 then d.want else 2)) s

/-- The entry applies to every block that accepted. A FALLOW entry that finds the device no longer in FIELD ends. -/
def State.dormApply (s : State) (d : Dorm) : State :=
  match d.kind with
  | 0 =>
    let s := if d.held.isEmpty then s.domDown d.half d.dom d.want else s.latchQueries d
    s.dormEnd d Status.ok
  | 1 => if s.sys.mode = .field then ((s.latchQueries d).dormEnd d Status.ok).fallowApply d else s.dormFail d Status.refused
  | _ =>
    let s := { s with pwr := { s.pwr with watch := .none } }
    match s.goDark false with
    | (0, s) => s
    | (st, s) => s.dormEnd d st

/-- When every block has answered and none has asked for a delay, the entry applies. -/
def State.dormGo (s : State) (d : Dorm) : State :=
  if d.ask.isEmpty && d.delayed.isEmpty then s.dormApply d else s.dormSet (some d)

/-- An entry starts. -/
def State.dormStart (s : State) (kind half dom want actor : Nat) (scope : List (Nat × Nat)) : State :=
  let p := s.sys.primary.val
  let s := (s.setf Reg.PWR_DORM.kind p kind).setf Reg.PWR_DORM.busy p 1
  s.dormGo ⟨kind, half, dom, want, actor, scope, scope, [], [], 0⟩

/-- DORMANCY_ANSWER: the next block answers. -/
def execDormancyAnswer (s : State) : Out3 :=
  match s.pwr.dorm with
  | none => .next s
  | some d =>
    match d.ask with
    | [] => .next s
    | b :: rest =>
      let p := s.sys.primary.val
      let note := fun (s : State) => (s.setf Reg.PWR_DORM.ref_class p b.1).setf Reg.PWR_DORM.ref_instance p b.2
      let h := s.blkHalf b.1 b.2
      .next (match s.dormAnswer d b with
      | .accept => s.dormGo { d with ask := rest }
      | .delay n => (note s).dormGo { d with ask := rest, delayed := d.delayed ++ [(b, n)] }
      | .refuse => (note s).dormFail d Status.refused
      | .held =>
        let n := (blkDomain b.1 b.2).getD 0
        s.dormGo { d with ask := rest, held := d.held ++ [h * 256 + n] })

/-- DORMANCY_DELAY_END: the largest delay asked for has passed. -/
def execDormancyDelayEnd (s : State) : Out3 :=
  match s.pwr.dorm with
  | none => .next s
  | some d =>
    if !d.ask.isEmpty || d.delayed.isEmpty then .next s
    else
      let t := d.waited + d.delayed.foldl (fun m x => max m x.2) 0
      let most := max 1 (s.rf Reg.PWR_DORM.max_delay_us s.sys.primary.val)
      .next (if most < t then s.dormFail d Status.delayed
        else s.dormSet (some { d with ask := d.delayed.map Prod.fst, delayed := [], waited := t }))

/-! ## Domain requests (R392, R148) -/

/-- A request that a domain runs: it cancels the opposing latched requests and is applied. -/
def State.domRun (s : State) (h d : Nat) : State :=
  let s := ((s.setf Reg.PWR_HOLD.pend_gate h 0 d).setf Reg.PWR_HOLD.pend_off h 0 d).setf Reg.PWR_HOLD.last_status h Status.ok d
  let s := if s.domState h d = 0 then s else s.domUp h d
  s.setf Reg.PWR_DOM.last_status h Status.ok d

/-- R392 refuses a request on a core domain whose core still runs, and on domains 155 and 156. -/
def State.domRefused (s : State) (h d : Nat) : Bool :=
  d = 155 || d = 156 || (d < 136 && (s.core (domCore h d)).run == .running)

/-- PWR_DOM is written. -/
def State.domWrite (s : State) (a : Actor) (h d v : Nat) : State :=
  if !Reg.PWR_DOM.gate.admits a then s
  else
    let want := if Reg.PWR_DOM.off.of v = 1 then 2 else if Reg.PWR_DOM.gate.of v = 1 then 1 else 0
    let store := fun (s : State) => s.storeReg a h d v allOnes [Reg.PWR_DOM.gate, Reg.PWR_DOM.off]
    if want = 0 then (store s).domRun h d
    else if s.domRefused h d then s.setf Reg.PWR_DOM.last_status h Status.refused d
    else if s.pwr.dorm.isSome then s.setf Reg.PWR_DOM.last_status h Status.busy d
    else if s.held h d && a != .h then
      let s := (store s).latchReq h d want
      s.setf Reg.PWR_DOM.last_status h Status.pendingHeld d
    else ((store s).setf Reg.PWR_HOLD.last_status h Status.ok d).dormStart 0 h d want a.code (domScope h d)

/-- DOMAIN_REQUEST: a write of PWR_DOM[d]. -/
def execDomainRequest (q : Requester) (h : Half) (d : Fin 159) (v : Word) (s : State) : Out3 :=
  .next (s.writeReg q Cls.pwr h.val (0x1000 + 8 * d.val) v.toNat fun s => s.domWrite q.actor h.val d.val v.toNat)

/-! ## FALLOW (R395, R397) -/

/-- The actor code that stands for the world of an OD principal. -/
def principalCode (w : World) : Nat := match w with | .topsoil => 0 | .hardpan => 2

/-- A FALLOW entry starts; the status answers the OD write. -/
def State.fallowStart (s : State) (actor : Nat) : Nat × State :=
  if s.sys.mode = .fallow then (Status.ok, s)
  else if s.sys.mode != .field || s.pwr.dorm.isSome then (Status.busy, s)
  else
    let s := ([0, 1].foldl (fun s h => s.setf Reg.PWR_FALLOW.state h 1) s).setOd 0x0410 1 1
    (Status.ok, s.dormStart 1 0 0 2 actor s.fallowScope)

/-- FALLOW_AUTO_ENTER: package power has stayed below 40 % of its limit for 1 s. -/
def execFallowAutoEnter (s : State) : Out3 :=
  if s.od 0x0410 4 = 1 && s.pwr.lowPower != 0 && s.pwr.lowPower - 1 + 1000000000 ≤ s.strata.tick && s.sys.mode = .field then
    .next (s.fallowStart 3).2
  else .next s

/-- A trigger of Dispatch: a kept cluster's injection list holds 64 entries, or Dispatch holds a descriptor. -/
def State.fallowFull (s : State) : Bool :=
  ((List.range 16).any fun c => !bitOf (s.rf Reg.PWR_FALLOW.off_mask (c / 8)) (c % 8) && 64 ≤ (s.cluster c).injCount) ||
    !(s.dspOf 0).held.isEmpty || !(s.dspOf 1).held.isEmpty

/-- PWR_FALLOW_READ. -/
def execPwrFallowRead (q : Requester) (h : Half) (s : State) : Out3 :=
  .next (s.readCmd q Cls.pwr h.val Reg.PWR_FALLOW.reg 0 id)

/-! ## WATCH (R399, R400) and power-down (R458) -/

/-- A WATCH entry starts; the status answers the OD write. -/
def State.watchStart (s : State) (actor : Nat) : Nat × State :=
  if (s.sys.mode != .field && s.sys.mode != .fallow) || s.pwr.watch != .none || s.pwr.dorm.isSome then (Status.busy, s)
  else
    let s := { s with pwr := { s.pwr with watch := .hardpan false actor } }
    (Status.ok, s.raise 0x0DA .hardpan s.sys.primary.val 0)

/-- An orderly power-down starts; in SEAL only step 4 of R399 runs. -/
def State.powerDown (s : State) (actor : Nat) : Nat × State :=
  if s.sys.mode = .seal then s.goDark true
  else if s.pwr.watch != .none || s.pwr.dorm.isSome then (Status.busy, s)
  else
    let s := { s with pwr := { s.pwr with watch := .hardpan true actor } }
    (Status.ok, s.raise 0x0DA .hardpan s.sys.primary.val 0)

/-- Hardware releases the holds of the Hardpan cores. -/
def State.releaseHardpanHolds (s : State) : State :=
  s.hardpanCores.foldl (fun s l =>
    let c := s.physOf l
    let h := coreHalf c
    let d := coreDom c
    let s := s.setf Reg.PWR_HOLD.hold h 0 d
    if s.hasPend h d then s.applyLatched h d else s) s

/-- A WATCH entry or power-down that failed leaves the device serving, with EV 0x0D3. -/
def State.watchFail (s : State) (actor status : Nat) : State :=
  let p := s.sys.primary.val
  let s := { s with pwr := { s.pwr with watch := .none } }
  ((s.setf Reg.PWR_DORM.kind p 2).setf Reg.PWR_DORM.last_status p status).raise 0x0D3 (actorTo actor) p 2

/-- Hardpan is ready: WATCH goes on to the handshake, power-down to its last step. -/
def State.hpReady (s : State) : State :=
  match s.pwr.watch with
  | .hardpan false a =>
    let s := s.releaseHardpanHolds
    if s.pwr.dorm.isSome then s.watchFail a Status.busy
    else
      let s := { s with pwr := { s.pwr with watch := .handshake a } }
      s.dormStart 2 0 0 2 a s.watchScope
  | .hardpan true a =>
    match s.releaseHardpanHolds.goDark true with
    | (0, s) => s
    | (st, s) => s.watchFail a st
  | _ => s

/-- PWR_WATCH is written. -/
def State.pwrWatch (s : State) (a : Actor) (h v : Nat) : State :=
  let s := s.storeReg a h 0 v allOnes Reg.PWR_WATCH.reg.fields
  if Reg.PWR_WATCH.hp_ready.admits a && Reg.PWR_WATCH.hp_ready.of v = 1 then s.hpReady else s

/-- HP_READY: a write of PWR_WATCH with hp_ready = 1. -/
def execHpReady (q : Requester) (h : Half) (v : Word) (s : State) : Out3 :=
  .next (s.writeReg q Cls.pwr h.val 0x480 (v.toNat ||| 2 ^ 8) fun s => s.pwrWatch q.actor h.val (v.toNat ||| 2 ^ 8))

/-- WATCH_HP_TIMEOUT: Hardpan is not ready within 100 ms. -/
def execWatchHpTimeout (s : State) : Out3 :=
  match s.pwr.watch with
  | .hardpan _ a => .next (s.watchFail a Status.pendingHeld)
  | _ => .next s

/-- The device leaves WATCH for ROOT, as after power-up. -/
def State.wake (s : State) (cause wakeCause : Nat) : State := (s.toMode .root cause).hpnBoth Reg.PWR_WATCH.wake_cause wakeCause

/-- I3C_WAKE_MATCH: a START with seven address bits on the target port. A match is acknowledged. -/
def execI3cWakeMatch (addr : Fin 128) (s : State) : Out3 :=
  if s.sys.mode != .watch then .next s
  else if addr.val = s.rf Reg.PWR_WATCH.wake_addr 0 && 8 ≤ addr.val && addr.val ≤ 0x77 then
    .next ((s.wake 0x02 1).answer 1 0)
  else .next (s.answer 0 0)

end Sys2Proof.Machine
end

