-- ==== Sys2Proof/Machine/Repair.lean ====
section
/-!
DEFINITION. Repair: Weathering (R401 to R403) and the repairs in service: update windows, backfill, mesh rerouting and engine
tests (R404 to R408).
-/
namespace Sys2Proof.Machine

/-! ## Weathering (R401 to R403) -/

/-- The integer square root, bit by bit from bit `k - 1`. -/
def isqrtFrom : Nat → Nat → Nat → Nat
  | 0, _, r => r
  | k + 1, n, r => if (r + 2 ^ k) * (r + 2 ^ k) ≤ n then isqrtFrom k n (r + 2 ^ k) else isqrtFrom k n r

def isqrt (n : Nat) : Nat := isqrtFrom 80 n 0

/-- 2^20 times the square root and the fourth root of a number of hours. -/
def root2 (t : Nat) : Nat := isqrt (t * 2 ^ 40)
def root4 (t : Nat) : Nat := isqrt (isqrt (t * 2 ^ 80))

/-- The guard slack g in 0.25 ps (R402). -/
def guardSlack : Int := 80

/-- The greatest margin in 2^-16 years: what it reads when A is not positive. -/
def maxMargin : Nat := 32767 * 65536

/-- R403's margin in 2^-16 years at `t` hours, from the factory slack and the readings. -/
def marginOf (s0 : Int) (t : Nat) (readings : List (Nat × Int)) : Nat :=
  let a : Int := readings.foldl (fun n x => n + (s0 - x.2) * (root4 x.1 : Int)) 0
  let b := readings.foldl (fun n x => n + root2 x.1) 0
  if a ≤ 0 || b = 0 then maxMargin
  else
    let num := (((s0 - guardSlack) * b) ^ 4).toNat
    let den := (a ^ 4).toNat
    min maxMargin ((num - t * den) * 65536 / (den * 8766))

def State.readingsOf (s : State) (stop : Nat) : List (Nat × Int) := SMap.get [] s.tlt.cal.readings stop

/-- The factory reading of a replica: the calibration set's, or the first reading while no valid set is loaded (R430). -/
def State.factoryOf (s : State) (stop : Nat) : Int :=
  if s.sys.trimmed then Config.factorySlack s.tlt.cal.base stop
  else match s.readingsOf stop with | [] => 0 | x :: _ => x.2

/-- The replica of a half with the least slack in the last measurement. -/
def State.worstStop (s : State) (h : Nat) : Option Nat :=
  (List.range 256).foldl (fun (best : Option Nat) i =>
    if !s.rb Reg.WTH_SLACK.valid h i then best
    else match best with
      | none => some i
      | some b =>
        if Reg.WTH_SLACK.slack.signed (s.rf Reg.WTH_SLACK.slack h i) < Reg.WTH_SLACK.slack.signed (s.rf Reg.WTH_SLACK.slack h b)
        then some i else some b) none

/-- WTH_MARGIN, and EV 0x0D7 once per fall below OD 0x1000.02. -/
def State.marginSet (s : State) (h : Nat) : State :=
  match s.worstStop h with
  | none => s
  | some i =>
    let t := s.pwr.hours
    let y := marginOf (s.factoryOf (h * 256 + i)) t (s.readingsOf (h * 256 + i))
    let s := (s.setf Reg.WTH_MARGIN.years h y).setf Reg.WTH_MARGIN.worst_stop h (h * 256 + i)
    let s := s.setf Reg.WTH_MARGIN.hours16 h (t / 16)
    let low := y < s.od 0x1000 2 * 65536
    let was := SMap.get false s.pwr.alerted h
    let s := { s with pwr := { s.pwr with alerted := SMap.set false s.pwr.alerted h low } }
    if low && !was then s.raise 0x0D7 .both h 0 else s

/-- One replica's reading. -/
def State.slackSet (s : State) (h : Nat) (x : Fin 256 × BitVec 16 × BitVec 8) : State :=
  let i := x.1.val
  let s := (s.setf Reg.WTH_SLACK.slack h x.2.1.toNat i).setf Reg.WTH_SLACK.temp_c h x.2.2.toNat i
  let s := s.setf Reg.WTH_SLACK.valid h 1 i
  { s with tlt := { s.tlt with cal := { s.tlt.cal with
      readings := SMap.upd [] s.tlt.cal.readings (h * 256 + i) (· ++ [(s.pwr.hours, x.2.1.toInt)]) } } }

/-- The calibration set has a new version. -/
def State.calGrown (s : State) : State :=
  { s with tlt := { s.tlt with cal := { s.tlt.cal with version := s.tlt.cal.version + 1 } } }

/-- A measurement of a half's replicas after `hours` of powered time; the store of it follows. -/
def State.weather (s : State) (h hours : Nat) (readings : List (Fin 256 × BitVec 16 × BitVec 8)) : State :=
  let s := { s with pwr := { s.pwr with hours := max s.pwr.hours hours } }
  let s := if s.sys.trimmed then s else { s with tlt := { s.tlt with noBaseline := true } }
  let s := readings.foldl (fun s x => s.slackSet h x) s
  let s := s.setf Reg.WTH_CTL.busy h (b2n (SMap.get false s.pwr.replan h))
  (s.calGrown.marginSet h).storeCal h

/-- WEATHERING_MEASURE. -/
def execWeatheringMeasure (h : Half) (hours : BitVec 32) (readings : List (Fin 256 × BitVec 16 × BitVec 8)) (s : State) : Out3 :=
  if s.dark then .next s else .next (s.weather h.val hours.toNat readings)

/-- A half is planned anew from the readings so far; the plan takes effect at once. -/
def State.planMake (s : State) (h : Nat) : State :=
  let c := s.tlt.cal
  let s := { s with tlt := { s.tlt with cal := { c with plans := c.plans ++ [PlanMade.mk h s.pwr.hours c.readings] } } }
  s.planShow h true

/-- REPLAN: grants above a new fmax drop, and grants that need more voltage have their rail raised. -/
def execReplan (h : Half) (s : State) : Out3 :=
  if s.dark then .next s
  else
    let n := h.val
    let s := s.planMake n
    let s := { s with pwr := { s.pwr with replan := SMap.set false s.pwr.replan n false } }
    let s := (s.setf Reg.WTH_CTL.busy n 0).regrantAll fun c => coreHalf c == n
    .next ((s.calGrown.raise 0x0D6 .both n 0).storeCal n)

/-- PLAN_STORE_RETRY: each hour. -/
def execPlanStoreRetry (h : Half) (s : State) : Out3 :=
  if SMap.get false s.pwr.unstored h.val then .next (s.storeCal h.val) else .next s

/-- WTH_CTL is written. -/
def State.wthCtl (s : State) (a : Actor) (h v : Nat) : State :=
  let s := s.storeReg a h 0 v allOnes [Reg.WTH_CTL.period_h]
  if !Reg.WTH_CTL.measure.admits a || s.rb Reg.WTH_CTL.busy h then s
  else
    let re := Reg.WTH_CTL.replan.of v = 1
    let s := { s with pwr := { s.pwr with replan := SMap.set false s.pwr.replan h re } }
    s.setf Reg.WTH_CTL.busy h (b2n (re || Reg.WTH_CTL.measure.of v = 1))

/-! ## Update windows (R404) -/

/-- OD 0x0220.01 opens or closes an update window. -/
def State.updateWindow (s : State) (open_ : Bool) : State :=
  if open_ = s.pwr.updating then s
  else
    let s := ({ s with pwr := { s.pwr with updating := open_ } } : State).setOd 0x0220 1 (b2n open_)
    if open_ then s.repairBegins .updateWindow else s.repairEnds .updateWindow false

/-! ## Backfill (R405, R406) -/

/-- The spare may be taken. -/
def State.spareFree (s : State) (p : Nat) : Bool :=
  !SMap.get false s.pwr.spareUsed p && !s.oldCoreListed (coreHalf p) (coreDom p)

/-- The lowest-numbered free spare of a half. -/
def State.nextSpare (s : State) (h : Nat) : Option Nat := ((List.range 8).map fun i => 256 + 8 * h + i).find? s.spareFree

def State.backfill (s : State) (h : Nat) : Option Backfill := SMap.get none s.pwr.backfills h

def State.setBackfill (s : State) (h : Nat) (b : Option Backfill) : State :=
  { s with pwr := { s.pwr with backfills := SMap.set none s.pwr.backfills h b } }

def State.backStatus (s : State) (h st : Nat) : State := s.setf Reg.PWR_BACKFILL.last_status h st

/-- A spare is used up. -/
def State.spareTake (s : State) (p : Nat) : State :=
  let h := coreHalf p
  let s := { s with pwr := { s.pwr with spareUsed := SMap.set false s.pwr.spareUsed p true } }
  s.setf Reg.PWR_BACKFILL.spares_left h ((List.range 8).filter fun i => s.spareFree (256 + 8 * h + i)).length

/-- Step 3: the spare's domain is powered, and held by hardware for a Hardpan ID. -/
def State.spareUp (s : State) (p logical : Nat) : State :=
  let s := s.domUp (coreHalf p) (coreDom p)
  if s.isHardpanCore logical then s.setf Reg.PWR_HOLD.hold (coreHalf p) 1 (coreDom p) else s

/-- The checks of a go: none lets the backfill begin. -/
def State.backRefused (s : State) (a : Actor) (h l : Nat) : Option Nat :=
  if s.rb Reg.PWR_BACKFILL.busy h then some Status.busy
  else if l / 128 != h then some Status.refused
  else if s.isHardpanCore l && a != .h then some Status.denied
  else if (s.core (s.physOf l)).run = .running then some Status.refused
  else if (s.nextSpare h).isNone then some Status.noSpare
  else none

/-- PWR_BACKFILL with go = 1. -/
def State.backGo (s : State) (a : Actor) (h l : Nat) : State :=
  match s.backRefused a h l with
  | some st => s.backStatus h st
  | none =>
    let p := (s.nextSpare h).getD 0
    let s := ((s.repairBegins .backfill).flushCore (s.physOf l)).spareTake p
    let s := (s.setBackfill h (some ⟨l, p, a.code⟩)).setf Reg.PWR_BACKFILL.busy h 1
    ((s.setf Reg.PWR_BACKFILL.spare h p).setf Reg.PWR_BACKFILL.ready h 0).spareUp p l

/-- PWR_BACKFILL with release = 1: the spare starts at PWR_BACKFILL_PC. -/
def State.backRelease (s : State) (a : Actor) (h : Nat) : State :=
  match s.backfill h with
  | none => s
  | some b =>
    if !s.rb Reg.PWR_BACKFILL.ready h || (s.isHardpanCore b.logical && a != .h) then s
    else
      let target := (s.core b.spare).cr 0x120
      let s := (s.startCore b.spare (4 * s.rf Reg.PWR_BACKFILL_PC.pc h)).setf Reg.PWR_BACKFILL.ready h 0
      ((s.updCore b.spare fun k => { k with ctl := SMap.set 0 k.ctl 0x120 target }).regrant b.spare true).setBackfill h none

/-- PWR_BACKFILL is written. -/
def State.backWrite (s : State) (a : Actor) (h v : Nat) : State :=
  if !Reg.PWR_BACKFILL.go.admits a then s
  else
    let busy := s.rb Reg.PWR_BACKFILL.busy h
    let s := if busy then s else s.storeReg a h 0 v allOnes [Reg.PWR_BACKFILL.logical]
    let s := if Reg.PWR_BACKFILL.go.of v = 1 then s.backGo a h (Reg.PWR_BACKFILL.logical.of v) else s
    if Reg.PWR_BACKFILL.release.of v = 1 then s.backRelease a h else s

/-- BACKFILL_GO: the write with go = 1. -/
def execBackfillGo (q : Requester) (h : Half) (v : Word) (s : State) : Out3 :=
  .next (s.writeReg q Cls.pwr h.val 0x600 (v.toNat ||| 2 ^ 8) fun s => s.backWrite q.actor h.val (v.toNat ||| 2 ^ 8))

/-- BACKFILL_RELEASE: the write with release = 1. -/
def execBackfillRelease (q : Requester) (h : Half) (v : Word) (s : State) : Out3 :=
  .next (s.writeReg q Cls.pwr h.val 0x600 (v.toNat ||| 2 ^ 11) fun s => s.backWrite q.actor h.val (v.toNat ||| 2 ^ 11))

/-- Some backfill is in its steps 1 to 5. -/
def State.backfilling (s : State) : Bool := s.rb Reg.PWR_BACKFILL.busy 0 || s.rb Reg.PWR_BACKFILL.busy 1

/-- The spare takes the logical ID; the old core's block enters FAULT and its domain is powered off. -/
def State.takeOver (s : State) (h : Nat) (b : Backfill) : State :=
  let old := s.physOf b.logical
  let target := (s.core old).cr 0x120
  let s := { s with sys := { s.sys with physOf := SMap.set b.logical s.sys.physOf b.logical b.spare } }
  let s := s.updCore b.spare fun k => { k with ctl := SMap.set 0 k.ctl 0x120 target }
  let k := blkKey Cls.knx b.spare
  let s := (s.setf Reg.PFX_CTL.enable k 1).setf Reg.PFX_STATE.state k 2
  let s := s.setf Reg.PFX_STATE.generation k (s.rf Reg.PFX_STATE.generation k + 1)
  let s := if s.blkState Cls.knx old = 4 then s else
    let (st, s) := s.drawFree
    s.blockFault Cls.knx old (Status.pick st)
  let s := if s.isHardpanCore b.logical then s.setf Reg.PWR_HOLD.hold (coreHalf old) 0 (coreDom old) else s
  let s := s.corePowerOff old
  s.setOdBlobStored 0x0C60 (h + 1) (leBytes 17 (ofLe (s.odBlob 0x0C60 (h + 1)) ||| 2 ^ coreDom old))

/-- BACKFILL_SPARE_TEST_DONE: the test of step 4 ends. -/
def execBackfillSpareTestDone (h : Half) (pass : Bool) (s : State) : Out3 :=
  let n := h.val
  match if s.rb Reg.PWR_BACKFILL.busy n then s.backfill n else none with
  | none => .next s
  | some b =>
    let stop := fun (s : State) (st : Nat) =>
      let s := (s.setf Reg.PWR_BACKFILL.busy n 0).backStatus n st
      s.repairEnds .backfill s.backfilling
    if pass then
      let s := ((s.takeOver n b).setf Reg.PWR_BACKFILL.ready n 1).raise 0x0D4 (actorTo b.actor) n b.logical
      .next (stop s Status.ok)
    else
      .next (match s.nextSpare n with
        | some p => (((s.spareTake p).setBackfill n (some { b with spare := p })).setf Reg.PWR_BACKFILL.spare n p).spareUp p b.logical
        | none => stop (s.setBackfill n none) Status.noSpare)

/-! ## Mesh rerouting (R19, R407) -/

/-- The two stops, as row and column, that a link joins. -/
def linkEnds (l : Nat) : List (Nat × Nat) :=
  if l < 81 then [(l / 9, l % 9), (l / 9, l % 9 + 1)] else [((l - 81) % 8, (l - 81) / 8), ((l - 81) % 8 + 1, (l - 81) / 8)]

def State.linkFailed (s : State) (h l : Nat) : Bool := bitOf (s.rf Reg.PWR_LINK_FAIL.failed h (l / 64)) (l % 64)

/-- The failed links of a half. -/
def State.failedLinks (s : State) (h : Nat) : List Nat := (List.range 161).filter (s.linkFailed h)

/-- MESH_LINK_FAIL: a third failed link of a half, or one that shares a stop with an earlier one, is a UEf of the half. -/
def execMeshLinkFail (h : Half) (l : Fin 161) (s : State) : Out3 :=
  let n := h.val
  if s.dark || s.linkFailed n l.val then .next s
  else
    let before := s.failedLinks n
    let shared := before.any fun k => (linkEnds k).any fun e => (linkEnds l.val).contains e
    let s := s.setf Reg.PWR_LINK_FAIL.failed n (s.rf Reg.PWR_LINK_FAIL.failed n (l.val / 64) ||| 2 ^ (l.val % 64)) (l.val / 64)
    let s := s.raise 0x0D5 .both n l.val
    if 2 ≤ before.length || shared then
      let e := (linkEnds l.val).headD (0, 0)
      .next (s.logError n { s.mkRec 3 0x20 Status.ok (n * 256 + e.1 * 16 + e.2) 0 l.val 0xFFFF with flags := 0 })
    else
      let s := { s with pwr := { s.pwr with reroutes := s.pwr.reroutes ++ [(n, l.val)] } }
      .next (s.repairBegins .reroute)

/-- The number of a mesh class. -/
def MeshCls.code : MeshCls → Nat
  | .request => 0 | .response => 1 | .snoop => 2 | .writeback => 3 | .completion => 4

/-- A steal message's class, source and destination. -/
def StealMsg.leg : StealMsg → Nat × Nat × Nat
  | .request t c _ _ => (0, clusterStop (engCluster t), clusterStop c)
  | .reply t c _ _ _ => (1, clusterStop c, clusterStop (engCluster t))

/-- The messages on their way over the mesh and bridge, by class, source stop and destination stop. -/
def State.messages (s : State) : List (Nat × Nat × Nat) :=
  let home := fun (a h : Nat) => sliceStop (s.homeSlice a h)
  s.coh.net.map (fun m => (m.cls.code, m.src, m.dst)) ++
    s.coh.mesh.map (fun m => (0, coreStop m.2.core.val, home (64 * m.1) 0)) ++
    s.coh.dev.map (fun d => (0, coreStop d.core.val, home d.addr (coreHalf d.core.val))) ++
    s.steals.map StealMsg.leg ++
    s.engines.flatMap fun p => p.2.posted.map fun x => (0, clusterStop (engCluster p.1), home x.pa (engHalf p.1))

/-- The part of a message's way that lies in a half: a message of the other half comes or goes by the B stop. -/
def legIn (h : Nat) (m : Nat × Nat × Nat) : Nat × Nat × Nat :=
  (m.1, if m.2.1 / 256 = h then m.2.1 else bStop h, if m.2.2 / 256 = h then m.2.2 else bStop h)

/-- A message of a triple of a half is still in flight. -/
def State.tripleBusy (s : State) (h src dst cls : Nat) : Bool :=
  s.messages.any fun m => (m.2.1 / 256 == h || m.2.2 / 256 == h) && legIn h m == (cls, h * 256 + src, h * 256 + dst)

/-- The numbers from one to another, in either direction. -/
def stepsFrom (x y : Nat) : List Nat :=
  if x ≤ y then (List.range (y - x + 1)).map (x + ·) else (List.range (x - y + 1)).map (x - ·)

/-- The stops of a message's way, as rows and columns: along the source row, then along the destination column (R17). -/
def meshPath (a b : Nat × Nat) : List (Nat × Nat) :=
  (stepsFrom a.2 b.2).map (fun c => (a.1, c)) ++ ((stepsFrom a.1 b.1).drop 1).map fun r => (r, b.2)

/-- The link that joins two neighbouring stops. -/
def linkOf (p q : Nat × Nat) : Nat := if p.1 = q.1 then 9 * p.1 + min p.2 q.2 else 81 + 8 * p.2 + min p.1 q.1

/-- The way from a stop to its neighbour around the link that joins them: by the next row or column, or from the last one by the
one before (R407). -/
def detour (p q : Nat × Nat) : List (Nat × Nat) :=
  if p.1 = q.1 then
    let r := if p.1 = 8 then 7 else p.1 + 1
    [(r, p.2), (r, q.2), q]
  else
    let c := if p.2 = 9 then 8 else p.2 + 1
    [(p.1, c), (q.1, c), q]

/-- A way with a detour around each link of which `bad` holds. -/
def avoidLinks (bad : Nat → Bool) : List (Nat × Nat) → List (Nat × Nat)
  | p :: q :: rest => p :: ((if bad (linkOf p q) then (detour p q).dropLast else []) ++ avoidLinks bad (q :: rest))
  | l => l

/-- The two stops of a triple, as rows and columns. -/
def triplePath (src dst : Nat) : List (Nat × Nat) := meshPath (src / 16, src % 16) (dst / 16, dst % 16)

/-- A triple's way under R17 crosses a failed link. -/
def State.crossesFailed (s : State) (h src dst : Nat) : Bool :=
  let p := triplePath src dst
  (p.zip (p.drop 1)).any fun x => s.linkFailed h (linkOf x.1 x.2)

/-- The way that a message of a triple takes: around the failed links once the triple has switched. -/
def State.meshRoute (s : State) (h src dst cls : Nat) : List (Nat × Nat) :=
  if s.pwr.routed.contains (h, src, dst, cls) then avoidLinks (s.linkFailed h) (triplePath src dst) else triplePath src dst

/-- REROUTE_SWITCH: the new route takes effect for one source, destination and class of a half whose way crosses a failed link, once
every message of that triple in flight has been delivered (R19); `last` tells that no message still takes an old route. -/
def execRerouteSwitch (h : Half) (src dst : BitVec 8) (cls : Fin 5) (last : Bool) (s : State) : Out3 :=
  let n := h.val
  if !(s.pwr.reroutes.any fun r => r.1 == n) || s.tripleBusy n src.toNat dst.toNat cls.val then .next s
  else
    let t := (n, src.toNat, dst.toNat, cls.val)
    let routed := if s.pwr.routed.contains t || !s.crossesFailed n src.toNat dst.toNat then s.pwr.routed else s.pwr.routed ++ [t]
    let s := { s with pwr := { s.pwr with routed := routed } }
    if last then
      let done := s.pwr.reroutes.filter fun r => r.1 == n
      let left := s.pwr.reroutes.filter fun r => r.1 != n
      let s := { s with pwr := { s.pwr with reroutes := left } }
      .next ((List.range done.length).foldl (fun s i => s.repairEnds .reroute (i + 1 != done.length || !left.isEmpty)) s)
    else .next s

/-! ## Engine tests (R408) -/

/-- PWR_ENG_TEST is written. -/
def State.engTest (s : State) (a : Actor) (h v : Nat) : State :=
  if !Reg.PWR_ENG_TEST.go.admits a then s
  else
    let e := Reg.PWR_ENG_TEST.engine.of v
    let busy := s.rb Reg.PWR_ENG_TEST.busy h
    let s := if busy then s else s.storeReg a h 0 v allOnes [Reg.PWR_ENG_TEST.engine]
    if Reg.PWR_ENG_TEST.go.of v = 0 then s
    else if busy || engHalf e != h || (s.eng e).run != .lost then s.setf Reg.PWR_ENG_TEST.last_status h Status.busy
    else (s.setf Reg.PWR_ENG_TEST.busy h 1).repairBegins .engineTest

/-- ENGINE_TEST: the write with go = 1. -/
def execEngineTest (q : Requester) (h : Half) (v : Word) (s : State) : Out3 :=
  .next (s.writeReg q Cls.pwr h.val 0x800 (v.toNat ||| 2 ^ 16) fun s => s.engTest q.actor h.val (v.toNat ||| 2 ^ 16))

/-- A lost engine is readmitted: its block passes through STOPPING to OFF and the engine is detached. -/
def State.readmit (s : State) (e : Nat) : State :=
  let k := blkKey Cls.slt e
  let s := s.updEng e fun _ => { Engine.empty with run := .detached }
  let s := (s.resetFld Reg.PFX_STATE.state k).resetFld Reg.PFX_CTL.enable k
  let m := s.od 0x0C50 (engCluster e + 1)
  let s := s.setOdStored 0x0C50 (engCluster e + 1) (if bitOf m (e % 64) then m - 2 ^ (e % 64) else m)
  s.raise 0x0D8 .both (engHalf e) e

/-- ENGINE_TEST_DONE. -/
def execEngineTestDone (h : Half) (pass : Bool) (s : State) : Out3 :=
  let n := h.val
  if !s.rb Reg.PWR_ENG_TEST.busy n then .next s
  else
    let e := s.rf Reg.PWR_ENG_TEST.engine n
    let s := s.setf Reg.PWR_ENG_TEST.busy n 0
    let s := if pass then (s.readmit e).setf Reg.PWR_ENG_TEST.last_status n Status.ok
      else s.setf Reg.PWR_ENG_TEST.last_status n Status.engineLost
    .next (s.repairEnds .engineTest (s.rb Reg.PWR_ENG_TEST.busy (1 - n)))

end Sys2Proof.Machine
end

