-- ==== Sys2Proof/Machine/Hold.lean ====
section
/-!
DEFINITION. Hold: HOLD (R469), writes to the firmware regions, the unseal (R470), and primacy taken by a quiesced half (R412).
-/
namespace Sys2Proof.Machine

/-! ## HOLD (R469) -/

/-- A HOLD entry starts: Dispatch stops fetching and Kaolin starts no new job. -/
def State.holdStart (s : State) : Nat × State :=
  if (s.sys.mode != .field && s.sys.mode != .fallow) || s.tlt.holdFrom.isSome then (Status.busy, s)
  else (Status.ok, { s with tlt := { s.tlt with holdFrom := some s.strata.tick } })

/-- Something that Dispatch has fetched, a task, a record, a job or a batch is still in flight. -/
def State.inFlight (s : State) : Bool :=
  s.liveHalves.any (fun h => !(s.dspOf h).reads.isEmpty || !(s.dspOf h).held.isEmpty || !(s.dspOf h).arriving.isEmpty ||
    !(s.dspOf h).recs.isEmpty || !(s.dspOf h).tilth.isEmpty || s.kaoBusy h != 0 || s.vrvWorks h ||
    (s.cltOf h).lanes.any fun l => !l.2.isEmpty) ||
  s.clusters.any (fun p => p.2.injCount != 0) ||
  s.engines.any fun p => p.2.task.isSome || !p.2.deque.isEmpty || !p.2.latch.isEmpty

/-- HOLD_DRAINED. -/
def execHoldDrained (s : State) : Out3 :=
  if s.tlt.holdFrom.isNone || s.inFlight then .next s
  else
    let s := { s with tlt := { s.tlt with holdFrom := none } }
    let s := if s.sys.mode = .fallow then s.endFallow else s
    .next (if s.sys.mode = .field || s.sys.mode = .fallow then s.toMode .hold 0x10 else s)

/-- HOLD_TIMEOUT: work remains after 100 ms. -/
def execHoldTimeout (s : State) : Out3 :=
  match s.tlt.holdFrom with
  | none => .next s
  | some t =>
    if s.strata.tick < t + 100000000 || !s.inFlight then .next s
    else .next (({ s with tlt := { s.tlt with holdFrom := none } } : State).answer 0 Status.timeout)

/-- The mode that HOLD gives way to: the next of R467 whose condition holds, FIELD without one. -/
def State.afterHold (s : State) : Mode :=
  if s.rf Reg.PWR_MEND.count 0 ≠ 0 then .mend else if s.anyClay then .clay else .field

/-- HOLD is left. -/
def State.holdEnd (s : State) : Nat × State :=
  if s.sys.mode = .hold then (Status.ok, s.toMode s.afterHold 0x11) else (Status.busy, s)

/-! ## Firmware (R469) -/

/-- The size of a firmware region's body. -/
def fwRoom (r : Nat) : Nat := (if r = 2 then 28 else 16) * 2 ^ 20 - 64

def State.fwSelect (s : State) (r : Nat) : Nat × State :=
  if s.sys.mode != .hold then (Status.busy, s)
  else if 2 < r then (Status.badDesc, s)
  else (Status.ok, { s with tlt := { s.tlt with fwSel := some r, fwStage := [] } })

def State.fwChunk (s : State) (bs : List Byte) : Nat × State :=
  if s.sys.mode != .hold then (Status.busy, s)
  else match s.tlt.fwSel with
  | none => (Status.badDesc, s)
  | some r =>
    if fwRoom r < s.tlt.fwStage.length + bs.length then (Status.length, s)
    else (Status.ok, { s with tlt := { s.tlt with fwStage := s.tlt.fwStage ++ bs } })

def State.fwStore (s : State) (v : Nat) : Nat × State :=
  if s.sys.mode != .hold then (Status.busy, s)
  else match s.tlt.fwSel with
  | none => (Status.badDesc, s)
  | some r => if v = 0x43 then s.storeBegin (.fw r s.tlt.fwStage) else (Status.badDesc, s)

/-! ## Unseal (R470) -/

/-- Every loop of the arm mask kept in VAON reads good. -/
def State.loopsGood (s : State) : Bool :=
  (List.range 5).all fun l => !s.tlt.vaonArm.testBit l || s.rf Reg.PRT_LINE.state 0 (32 + l) == 0

/-- The unseal write of a Custodian of Hardpan; `session` tells that it came through a management-port session. -/
def State.unseal (s : State) (session : Bool) (v : Nat) : Nat × State :=
  if v != 0x55 then (Status.badDesc, s)
  else if !session || s.sys.mode != .seal || !s.tlt.sealedAtRoot || !s.loopsGood then (Status.denied, s)
  else
    let s := (s.hpnBoth Reg.HPN_TAMPER.latch 0).hpnBoth Reg.HPN_TAMPER.first_cause 0
    let s := { s with sys := { s.sys with vaonRecord := false }, tlt := { s.tlt.noRecord with vaonArm := 0 } }
    (Status.ok, s.resetTo 0x14)

/-! ## Primacy (R412) -/

/-- An orderly handover is possible: both halves serve and the grit line is alive. -/
def State.handoverTo (s : State) (v : Nat) : Nat × State :=
  if v = s.sys.primary.val then (Status.ok, s)
  else if s.sys.lostHalf.isSome || !s.sys.bridgeUp || !s.rb Reg.TLT_PRIM.grit_ok s.sys.primary.val then (Status.busy, s)
  else (Status.ok, s.handover (halfOf v))

/-- A quiesced half takes primacy and serves in HUSK; the other half is given up as dead. -/
def State.takePrimacy (s : State) (h : Half) (v : Nat) : Nat × State :=
  if v != 0x5A then (Status.badDesc, s)
  else if s.sys.lostHalf != some h then (Status.busy, s)
  else (Status.ok, s.huskEnter (halfOf (1 - h.val)))

end Sys2Proof.Machine
end

