-- ==== Sys2Proof/Machine/Od.lean ====
section
/-!
DEFINITION. Od: the object dictionary's requests: their checks (R418 to R423), the values of parameters, and what writes do.
-/
namespace Sys2Proof.Machine

def asBytes (l : List Nat) : List Byte := l.map (BitVec.ofNat 8)
def asNats (l : List Byte) : List Nat := l.map BitVec.toNat

/-! ## Values (R417) -/

/-- The calibration-set body in force (R430, R431); none is loaded in the safe table. -/
def State.calBody (s : State) : List Byte :=
  if !s.sys.trimmed then []
  else match s.tlt.cal.base, s.tlt.cal.version with
  | some b, 0 => b
  | b, v => (serialBytes ++ Config.calBody b v).take 1048512

/-- The lost range (R414). -/
def State.lostRange (s : State) : List Byte :=
  match s.sys.lostHalf with
  | none => List.replicate 48 0
  | some l =>
    let base := if l.val = 0 then 0 else s.sys.s0
    let top := if l.val = 0 then s.sys.s0 else s.sys.s0 + s.sys.s1
    let win := fun j =>
      let n := s.rf Reg.PRT_CXL_WIN.size_gib l.val j
      let b := cxlBase + s.rf Reg.PRT_CXL_WIN.base_gib l.val j * gib
      if n = 0 then List.replicate 16 0 else leBytes 8 b ++ leBytes 8 (b + n * gib)
    leBytes 8 base ++ leBytes 8 top ++ win 0 ++ win 1

/-- Entry n of OD 0x0001: the n-th open session. -/
def State.sessionBlob (s : State) (n : Nat) : List Byte :=
  match s.tlt.sessions[n - 1]? with
  | some (sid, some x) =>
    leBytes 4 sid ++ [BitVec.ofNat 8 x.world, BitVec.ofNat 8 x.role, BitVec.ofNat 8 x.cred, 0] ++ leBytes 16 x.peer
  | _ => List.replicate 24 0

/-- An entry of the mode log as OD 0x1C80 shows it. -/
def ModeEntry.blob (e : ModeEntry) : List Byte :=
  leBytes 12 e.time ++ [BitVec.ofNat 8 e.mode, BitVec.ofNat 8 (e.cause.getD (Config.noteCause e.note)), 0, 0]

/-- OD 0x1000.01: the least margin among the halves that have measured one. -/
def State.odMargin (s : State) : Nat :=
  match [0, 1].filterMap fun h => if (s.worstStop h).isSome then some (s.rf Reg.WTH_MARGIN.years h) else none with
  | [] => 0
  | y :: ys => ys.foldl min y

/-- The device identity public key (OD 0x0108.01). -/
def identityKey (h : Nat) : List Byte :=
  match Crypto.p256.mul (Config.identitySecret h) (some (Crypto.p256.gx, Crypto.p256.gy)) with
  | some (x, y) => beBytes 32 x ++ beBytes 32 y
  | none => List.replicate 64 0

def asciiBytes (t : String) : List Byte := t.toList.map fun c => BitVec.ofNat 8 c.toNat

/-- The value of a read-only parameter. -/
def State.odRo (s : State) (idx sub : Nat) : Option (List Byte) :=
  match idx, sub with
  | 0x0001, 0 => some (leBytes 4 (SMap.get 0 s.tlt.dropped 0 + SMap.get 0 s.tlt.dropped 1))
  | 0x0001, n => some (s.sessionBlob n)
  | 0x0100, 1 => some (asciiBytes "Gwyntor")
  | 0x0100, 2 => some (asciiBytes "GWA256")
  | 0x0100, 3 => some (asciiBytes "B1")
  | 0x0100, 4 => some serialBytes
  | 0x0108, 1 => some (identityKey s.sys.primary.val)
  | 0x0200, 1 => some (leBytes 1 s.sys.mode.code)
  | 0x0202, 1 => some (leBytes 1 s.sys.primary.val)
  | 0x0202, 3 => some s.lostRange
  | 0x0205, 2 => some (leBytes 1 (b2n s.tlt.poweredDown))
  | 0x1000, 1 => some (leBytes 4 s.odMargin)
  | 0x1000, 3 => some (leBytes 4 (b2n s.tlt.noBaseline * 2 ^ 31))
  | 0x1010, 2 => some ((s.calBody.drop (s.od 0x1010 1)).take 4096)
  | 0x1010, 5 => some (leBytes 4 s.calBody.length)
  | 0x1C00, n => some (s.sys.errLog.getD (n - 1) (List.replicate 64 0))
  | 0x1C80, n => some (match s.sys.modeLog[n - 1]? with | some e => e.blob | none => List.replicate 16 0)
  | 0x1C90, 2 =>
    some ([BitVec.ofNat 8 s.tlt.lastMask, BitVec.ofNat 8 s.tlt.lastStatus, 0, 0] ++ leBytes 4 s.tlt.lastMs)
  | _, _ => none

/-- A parameter's value as a READ returns it. -/
def State.odValue (s : State) (idx sub : Nat) (p : OdParam) : List Byte :=
  match s.odRo idx sub with
  | some v => v
  | none => if p.ty = .blob then s.odBlob idx sub else leBytes p.lo (s.od idx sub)

/-! ## Checks (R418 to R423) -/

/-- A request of R423: op, type code, index, subindex, the byte that must be 0, the value length and the value. -/
structure OdReq where
  op : Nat
  ty : Nat
  idx : Nat
  sub : Nat
  zero : Nat
  len : Nat
  val : List Byte
deriving DecidableEq, Repr

/-- Read a request's bytes. -/
def OdReq.parse (bs : List Byte) : OdReq :=
  let n := fun o k => ofLe ((bs.drop o).take k)
  ⟨n 0 1, n 1 1, n 2 2, n 4 1, n 5 1, n 6 2, (bs.drop 8).take (n 6 2)⟩

/-- The role grants the request. -/
def odRights (p : Principal) (r : OdReq) (q : OdParam) : Bool :=
  if r.op = 1 then q.read ≤ p.role.val
  else q.write ≤ p.role.val && (q.world.isNone || q.world == some p.world)

/-- The half that answers has been lost: it serves the ranges of its own units and the write of R412 alone (R414, R421). -/
def State.odElsewhere (s : State) (p : Principal) (r : OdReq) : Bool :=
  s.sys.lostHalf == some p.half && !(r.op = 1 && 0x4000 ≤ r.idx && r.idx ≤ 0x7FFF) &&
    !(r.op = 2 && r.idx = 0x0202 && r.sub = 4)

/-- Writes that SEAL accepts (R470). -/
def odInSeal (r : OdReq) : Bool := (r.idx = 0x0203 && r.sub = 1) || (r.idx = 0x0205 && (r.sub = 1 || r.sub = 3))

/-- The checks of a request, in order: the status of the first that fails, or OK. -/
def State.odCheck (s : State) (p : Principal) (r : OdReq) : Nat :=
  if 0xC000 ≤ r.idx && p.world = .topsoil then Status.denied
  else match odParam r.idx r.sub with
  | none => Status.unsupported
  | some q =>
    if (r.op != 1 && r.op != 2) || r.zero != 0 then Status.badDesc
    else if r.ty != q.ty.code then Status.badDesc
    else if (r.op = 1 && q.acc = .wo) || (r.op = 2 && q.acc = .ro) then Status.denied
    else if !odRights p r q then Status.denied
    else if s.odElsewhere p r then Status.notPrimary
    else if r.op = 2 && s.sys.mode = .seal && !odInSeal r then Status.sealed
    else if r.op = 2 && s.sys.mode = .prove && s.tlt.root = .proved then Status.busy
    else if r.val.length != r.len then Status.length
    else if r.op = 1 then (if r.len = 0 then Status.ok else Status.length)
    else if r.len < q.lo || q.hi < r.len then Status.length
    else if !odInRange r.idx r.sub (ofLe r.val) r.val then Status.badDesc
    else Status.ok

/-! ## Writes -/

/-- A credential is written by a Custodian of its world: of the new one's, and of the one it replaces (R422). -/
def State.credWrite (s : State) (p : Principal) (n : Nat) (bs : List Byte) : Nat × State :=
  let worldOf := fun (b : List Byte) => if b.getD 64 0 = 0 then World.topsoil else World.hardpan
  let empty := fun (b : List Byte) => b.all (· == 0)
  let old := s.odBlob 0x0010 n
  if (!empty old && worldOf old != p.world) || (!empty bs && worldOf bs != p.world) then (Status.denied, s)
  else (Status.ok, (s.setOdBlob 0x0010 n bs).closeCred n)

/-- A chunk of the staging copy (R431). -/
def State.calChunk (s : State) (bs : List Byte) : Nat × State :=
  let o := s.od 0x1010 1
  if s.sys.mode = .root || s.sys.mode = .prove || s.sys.mode = .tune then (Status.busy, s)
  else if 1048512 < o + bs.length then (Status.length, s)
  else
    let t := { s.tlt with staging := putBytes s.tlt.staging o bs, stagingLen := some (max (s.tlt.stagingLen.getD 0) (o + bs.length)) }
    (Status.ok, ({ s with tlt := t } : State).setOd 0x1010 1 (o + bs.length))

def State.noStaging (s : State) : State := { s with tlt := { s.tlt with staging := [], stagingLen := none } }

/-- The staging copy is committed: it replaces the set in force at once, and is stored (R430). -/
def State.calCommit (s : State) : Nat × State :=
  let n := s.tlt.stagingLen.getD 0
  let body := (List.range n).map fun i => SMap.get 0 s.tlt.staging i
  if s.sys.mode = .root || s.sys.mode = .prove || s.sys.mode = .tune then (Status.busy, s)
  else if n < 16 || body.take 16 != serialBytes then (Status.badDesc, s)
  else if s.tlt.storing.isSome then (Status.busy, s)
  else if s.railsOut then (Status.railWindow, s)
  else
    let s := { s.noStaging with tlt := { s.noStaging.tlt with cal := ⟨some body, 0, [], [], []⟩ } }
    let s := (s.setf Reg.STR_STATUS.untrimmed 0 0).setf Reg.STR_STATUS.untrimmed 1 0
    let s := { s with sys := { s.sys with trimmed := true } }
    let s := [0, 1].foldl (fun s h => s.planShow h false) s
    (s.regrantAll fun _ => true).storeBegin (.cal s.tlt.cal)

def State.calControl (s : State) (v : Nat) : Nat × State :=
  if v = 0x43 then s.calCommit
  else if v = 0x44 then
    if s.sys.mode = .root || s.sys.mode = .prove || s.sys.mode = .tune then (Status.busy, s) else (Status.ok, s.noStaging)
  else (Status.badDesc, s)

/-- OD 0x0410.01 is written. -/
def State.fallowWrite (s : State) (actor v : Nat) : Nat × State :=
  if v = 1 then s.fallowStart actor
  else if s.sys.mode = .fallow then (Status.ok, s.fallowExit)
  else (Status.ok, s.setOd 0x0410 1 0)

/-- OD 0x0204.01 is written (R469). -/
def State.holdWrite (s : State) (v : Nat) : Nat × State :=
  if v = 0x48 then s.holdStart else if v = 0x46 then s.holdEnd else (Status.badDesc, s)

/-- A write that passed its checks: the status and the new state. Most parameters only keep their value. -/
def State.odApply (s : State) (p : Principal) (idx sub : Nat) (bs : List Byte) : Nat × State :=
  let v := ofLe bs
  let a := principalCode p.world
  match idx, sub with
  | 0x0010, n => s.credWrite p n bs
  | 0x0202, 2 => s.handoverTo v
  | 0x0202, 4 => s.takePrimacy p.half v
  | 0x0203, 1 => s.unseal p.session v
  | 0x0204, 1 => s.holdWrite v
  | 0x0205, 1 => if v = 0x44 then s.powerDown a else (Status.badDesc, s)
  | 0x0205, 3 => if v = 0x52 then (Status.ok, s.packageReset true) else (Status.badDesc, s)
  | 0x0206, 1 => s.fwSelect v
  | 0x0206, 2 => s.fwChunk bs
  | 0x0206, 3 => s.fwStore v
  | 0x0220, 1 => (Status.ok, s.updateWindow (v == 1))
  | 0x0400, 1 => (Status.ok, (s.setOd idx sub v).setLimit)
  | 0x0410, 1 => s.fallowWrite a v
  | 0x0410, 3 => (Status.ok, (s.setOd idx sub v).setLimit)
  | 0x0420, 1 => if v = 0x57 then s.watchStart a else (Status.ok, s)
  | 0x1010, 3 => s.calChunk bs
  | 0x1010, 4 => s.calControl v
  | 0x1C90, 1 => if v = 0x53 then s.storeBegin s.odWork else (Status.badDesc, s)
  | _, _ =>
    match odParam idx sub with
    | some q => (Status.ok, if q.ty = .blob then s.setOdBlob idx sub bs else s.setOd idx sub v)
    | none => (Status.ok, s)

/-! ## Requests (R423) -/

/-- The response's bytes. -/
def odResponse (r : OdReq) (status : Nat) (val : List Byte) : List Byte :=
  [BitVec.ofNat 8 (r.op ||| 0x80), BitVec.ofNat 8 status] ++ leBytes 2 r.idx ++
    [BitVec.ofNat 8 r.sub, BitVec.ofNat 8 r.ty] ++ leBytes 2 val.length ++ val

/-- A request is carried out whole or not at all; a response that needs more than `room` bytes ends with LENGTH. -/
def State.odRun (s : State) (p : Principal) (r : OdReq) (room : Nat) : List Byte × State :=
  match s.odCheck p r with
  | 0 =>
    if r.op = 1 then
      match odParam r.idx r.sub with
      | none => (odResponse r Status.unsupported [], s)
      | some q =>
        let v := s.odValue r.idx r.sub q
        if room < 8 + v.length then (odResponse r Status.length [], s)
        else
          let s := if r.idx = 0x1010 && r.sub = 2 then s.setOd 0x1010 1 (s.od 0x1010 1 + v.length) else s
          (odResponse r Status.ok v, s)
    else
      let (st, s) := s.odApply p r.idx r.sub r.val
      (odResponse r st [], s)
  | st => (odResponse r st [], s)

/-- The response is what the device last answered. -/
def State.respond (s : State) (bs : List Byte) : State :=
  { s with out := { s.out with resp := bs, status := (bs.getD 1 0).toNat } }

/-- The principal of the in-band path (R427). -/
def State.inBandPrincipal (s : State) (h : Half) : Principal :=
  ⟨.topsoil, if s.od 0x0030 1 = 1 then 1 else 0, h, false⟩

/-- The oldest descriptor that Dispatch has passed to Tilth: the request is read at in_addr and the response written at
out_addr, with Tilth's own rights, and Dispatch makes the record. -/
def State.odInBand (s : State) (h : Half) : State :=
  match (s.dspOf h.val).tilth with
  | [] => s
  | e :: rest =>
    let s := s.updDsp h.val fun d => { d with tilth := rest }
    let q := tilthReq h
    let src := e.fld 0x28 8
    let room := e.fld 0x3C 4
    let done := fun (s : State) (st n : Nat) => s.dspMake { e.dspRec st 0xFFFF with result := n }
    let bad := fun (m : MemOut) => match m with | .unmapped => Status.badAddress | _ => Status.ownership
    match s.readMem q .read src 8 with
    | (.data hd false, s) =>
      match s.readMem q .read (src + 8) (min 4096 (ofLe ((hd.drop 6).take 2))) with
      | (.data v false, s) =>
        let (resp, s) := s.odRun (s.inBandPrincipal h) (OdReq.parse (hd ++ v)) room
        let s := s.respond resp
        (match s.writeMem q (e.fld 0x40 8) (resp.take room) with
        | (.data _ _, s) => done s (resp.getD 1 0).toNat resp.length
        | (m, s) => done s (bad m) 0)
      | (.data _ true, s) => done s Status.poisoned 0
      | (m, s) => done s (bad m) 0
    | (.data _ true, s) => done s Status.poisoned 0
    | (m, s) => done s (bad m) 0

/-- Carry out a request of a source with an op; the device is deaf in OFF and WATCH. -/
def State.odFrom (s : State) (op : Nat) : OdSource → State
  | .direct p type index sub value =>
    if s.dark then s
    else
      let (resp, s) := s.odRun p ⟨op, type.toNat, index.toNat, sub.toNat, 0, value.length, value⟩ 4104
      s.respond resp
  | .inBand h => s.odInBand h

/-- OD_READ. -/
def execOdRead (src : OdSource) (s : State) : Out3 := .next (s.odFrom 1 src)

/-- OD_WRITE. -/
def execOdWrite (src : OdSource) (s : State) : Out3 := .next (s.odFrom 2 src)

end Sys2Proof.Machine
end

