-- ==== Sys2Proof/Machine/Tilth.lean ====
section
/-!
DEFINITION. Tilth: the lease and the grit line (R409 to R413), the management port's sessions (R424 to R426), MCTP, the in-band
and Hardpan paths (R427, R445), and the object-dictionary commands that have rows of their own.
-/
namespace Sys2Proof.Machine

/-! ## The lease (R410, R412) -/

/-- Both halves serve, and MGT messages cross the bridge. -/
def State.paired (s : State) : Bool := s.sys.lostHalf.isNone && s.sys.bridgeUp && !s.dark

/-- The half that is not primary. -/
def State.second (s : State) : Half := halfOf (1 - s.sys.primary.val)

/-- LEASE_SEND. -/
def execLeaseSend (s : State) : Out3 :=
  if !s.paired then .next s
  else
    let n := (s.tlt.leaseSeq + 1) % 2 ^ 32
    let l : Lease := ⟨s.rf Reg.TLT_PRIM.epoch s.sys.primary.val, n, s.ledger.signed⟩
    .next { s with tlt := { s.tlt with leaseSeq := n, leases := s.tlt.leases ++ [l] } }

/-- A half has seen a LEASE or an acknowledgement. -/
def State.leaseOk (s : State) (h : Nat) : State :=
  { s with tlt := { s.tlt with leaseSeen := SMap.set 0 s.tlt.leaseSeen h s.strata.tick } }.setf Reg.TLT_PRIM.lease_ok h 1

/-- LEASE: the oldest LEASE arrives and is acknowledged. -/
def execLease (s : State) : Out3 :=
  match s.tlt.leases with
  | [] => .next s
  | l :: rest =>
    if !s.paired then .next s
    else
      let s := { s with tlt := { s.tlt with leases := rest, acks := s.tlt.acks ++ [l.seq], lastLease := l } }
      .next (s.leaseOk s.second.val)

/-- LEASE_ACK. -/
def execLeaseAck (s : State) : Out3 :=
  match s.tlt.acks with
  | [] => .next s
  | _ :: rest =>
    if !s.paired then .next s
    else
      let s := { s with tlt := { s.tlt with acks := rest } }
      .next (s.leaseOk s.sys.primary.val)

/-- LEASE_LAPSE: a half has seen no LEASE or acknowledgement for 3 ms. With the grit line alive or silent the primary keeps
primacy and enters HUSK, and the other half is quiesced. -/
def execLeaseLapse (h : Half) (s : State) : Out3 :=
  if !s.paired || s.strata.tick < SMap.get 0 s.tlt.leaseSeen h.val + 3000000 then .next s
  else
    let s := (s.setf Reg.TLT_PRIM.lease_ok 0 0).setf Reg.TLT_PRIM.lease_ok 1 0
    .next (s.huskEnter s.second)

/-- GRIT_HEARTBEAT: a heartbeat of the other Tilth reaches half `h`. -/
def execGritHeartbeat (h : Half) (s : State) : Out3 :=
  if s.dark then .next s
  else .next ({ s with tlt := { s.tlt with gritSeen := SMap.set 0 s.tlt.gritSeen h.val s.strata.tick } }.setf
    Reg.TLT_PRIM.grit_ok h.val 1)

/-- GRIT_SILENCE: no heartbeat for 3 ms, a grit fault while the lease is alive. -/
def execGritSilence (h : Half) (s : State) : Out3 :=
  if s.dark || s.strata.tick < SMap.get 0 s.tlt.gritSeen h.val + 3000000 || !s.rb Reg.TLT_PRIM.grit_ok h.val then .next s
  else
    let t := s.setf Reg.TLT_PRIM.grit_ok h.val 0
    .next (if s.paired then t.raise 0x0E2 .both h.val 0 else t)

/-- BRIDGE_FAILURE: sixteen replays of one flit. -/
def execBridgeFailure (s : State) : Out3 :=
  if !s.paired then .next s
  else
    let p := s.sys.primary.val
    let s := s.logError p { s.mkRec 3 0x21 Status.ok (bStop p) 0 0 0xFFFF with flags := 0 }
    .next (s.huskEnter s.second)

/-- HALF_LOST: the message of half `lost` arrives. -/
def execHalfLost (lost : Half) (s : State) : Out3 :=
  if s.sys.lostHalf.isSome || s.dark then .next s else .next (s.huskEnter lost)

/-! ## Sessions (R424 to R426) -/

/-- A frame's number at an offset. -/
def omFld (f : List Byte) (off n : Nat) : Nat := ofLe ((f.drop off).take n)

/-- The frame has the magic, version, type and length of R424; `tag` is the length of the tag. -/
def omGood (f : List Byte) (type tag : Nat) : Bool :=
  f.take 2 == [0x47, 0x4D] && omFld f 2 1 == 1 && omFld f 3 1 == type && f.length == 20 + omFld f 0x10 2 + tag

/-- A frame is dropped and counted. -/
def State.dropFrame (s : State) (h : Nat) : State :=
  { s with tlt := { s.tlt with dropped := SMap.upd 0 s.tlt.dropped h fun n => min (2 ^ 32 - 1) (n + 1) } }

/-- EV 0x0E4, at most once per second. -/
def State.authAlarm (s : State) (h : Nat) : State :=
  if s.tlt.alarm != 0 && s.strata.tick < s.tlt.alarm - 1 + 1000000000 then s
  else ({ s with tlt := { s.tlt with alarm := s.strata.tick + 1 } } : State).raise 0x0E4 .both h 0

/-- A credential's public key. -/
def credKey (c : List Byte) : Nat × Nat := (ofBe (c.take 32), ofBe ((c.drop 32).take 32))

/-- A number from the random source, from 1 to the order less 1. -/
def State.drawScalar (s : State) : Nat × State :=
  let (bs, s) := s.drawRandom 32
  (ofBe bs % (Crypto.p256.n - 1) + 1, s)

/-- An ECDSA P-256 signature by a secret with a drawn nonce. -/
def State.signWith (s : State) (d : Nat) (msg : List Byte) : List Byte × State :=
  let (k, s) := s.drawScalar
  let c := Crypto.p256
  let e := Crypto.natBe (Crypto.sha256 (asNats msg))
  let r := match c.mul k (some (c.gx, c.gy)) with | some (x, _) => x % c.n | none => 0
  let t := Crypto.invMod k c.n * ((e + r * d) % c.n) % c.n
  (beBytes 32 r ++ beBytes 32 t, s)

/-- A P-256 point as 64 bytes. -/
def pointBytes (q : Crypto.Pt) : List Byte :=
  match q with | some (x, y) => beBytes 32 x ++ beBytes 32 y | none => List.replicate 64 0

/-- HELLO: a session is offered with HELLO_REPLY, or refused. -/
def execHello (h : Half) (peer : BitVec 128) (f : List Byte) (s : State) : Out3 :=
  if s.dark then .next s
  else if !omGood f 1 0 || omFld f 0x10 2 != 98 then .next (s.dropFrame h.val)
  else
    let n := omFld f (20 + 96) 1
    if 64 ≤ s.tlt.sessions.length then .next (s.sendFrame (omClose 0 0 Status.busy))
    else if n = 0 || 32 < n || (s.odBlob 0x0010 n).all (· == 0) then
      .next ((s.sendFrame (omClose 0 0 Status.denied)).authAlarm h.val)
    else
      let sid := (s.tlt.nextSid + 1) % 2 ^ 32
      let (nonce, s) := s.drawRandom 32
      let (eph, s) := s.drawScalar
      let body := nonce ++ pointBytes (Crypto.p256.mul eph (some (Crypto.p256.gx, Crypto.p256.gy)))
      let head := omHeader 2 sid 0 160
      let (sig, s) := s.signWith (Config.identitySecret h.val % Crypto.p256.n) (f ++ head ++ body)
      let reply := head ++ body ++ sig
      let o : Opening := ⟨h.val, n, peer.toNat, asNats (f ++ reply), asNats ((f.drop (20 + 32)).take 64), eph,
        asNats ((f.drop 20).take 32 ++ nonce)⟩
      let t := { s.tlt with nextSid := s.tlt.nextSid + 1, opening := SMap.set none s.tlt.opening sid (some o) }
      .next (({ s with tlt := t } : State).sendFrame reply)

/-- HKDF-SHA-256 (R425): 72 bytes. -/
def hkdf72 (ikm salt info : List Nat) : List Nat :=
  let prk := Crypto.hmac Crypto.hSha256 salt ikm
  let t1 := Crypto.hmac Crypto.hSha256 prk (info ++ [1])
  let t2 := Crypto.hmac Crypto.hSha256 prk (t1 ++ info ++ [2])
  let t3 := Crypto.hmac Crypto.hSha256 prk (t2 ++ info ++ [3])
  (t1 ++ t2 ++ t3).take 72

/-- The session keys of an opening; none when the client's key is no point of the curve. -/
def Opening.keys (o : Opening) : Option (List Nat) :=
  let x := Crypto.natBe (o.clientKey.take 32)
  let y := Crypto.natBe (o.clientKey.drop 32)
  if !Crypto.p256.onCurve x y then none
  else (Crypto.p256.mul o.secret (some (x, y))).map fun q =>
    hkdf72 (Crypto.bytesBe 32 q.1) o.nonces (asNats (asciiBytes "GWA256 OD v1"))

/-- FINISH: the session opens when the signature of the credential's key verifies. -/
def execFinish (h : Half) (f : List Byte) (s : State) : Out3 :=
  let sid := omFld f 4 4
  if s.dark then .next s
  else if !omGood f 3 0 || omFld f 0x10 2 != 64 then .next (s.dropFrame h.val)
  else match SMap.get none s.tlt.opening sid with
  | none => .next (s.dropFrame h.val)
  | some o =>
    if o.half != h.val then .next (s.dropFrame h.val)
    else
      let s := { s with tlt := { s.tlt with opening := SMap.set none s.tlt.opening sid none } }
      let c := s.odBlob 0x0010 o.cred
      let (x, y) := credKey c
      let good := !c.all (· == 0) && Crypto.p256.onCurve x y &&
        Crypto.p256.verify x y (Crypto.sha256 (o.covered ++ asNats (f.take 20))) (asNats (f.drop 20))
      .next (match if good then o.keys else none with
      | none => (s.sendFrame (omClose sid 0 Status.denied)).authAlarm h.val
      | some k =>
        let x : Session :=
          { half := h.val, world := (c.getD 64 0).toNat, role := (c.getD 65 0).toNat, cred := o.cred, peer := o.peer
            keyIn := k.take 32, keyOut := (k.drop 32).take 32, saltIn := (k.drop 64).take 4, saltOut := k.drop 68
            seqIn := 0, seqOut := 0, seen := s.strata.tick }
        s.setSession sid (some x))

/-- The principal of a session (R425). -/
def Session.principal (x : Session) (h : Half) : Principal :=
  ⟨if x.world = 0 then .topsoil else .hardpan, ⟨min x.role 2, by omega⟩, h, true⟩

/-- A RESPONSE frame of a session. -/
def Session.seal (x : Session) (sid : Nat) (payload : List Byte) : List Byte :=
  let head := omHeader 0x11 sid x.seqOut payload.length
  let iv := x.saltOut ++ asNats (leBytes 8 x.seqOut)
  let ct := Crypto.gcmCtr x.keyOut iv (asNats payload)
  head ++ asBytes ct ++ asBytes (Crypto.gcmTag x.keyOut iv (asNats head) ct)

/-- REQUEST: an encrypted request is carried out and answered. -/
def execRequest (h : Half) (f : List Byte) (s : State) : Out3 :=
  let sid := omFld f 4 4
  let seq := omFld f 8 8
  let n := omFld f 0x10 2
  if s.dark then .next s
  else if !omGood f 0x10 16 then .next (s.dropFrame h.val)
  else match s.sessionAt sid with
  | none => .next (s.dropFrame h.val)
  | some x =>
    let iv := x.saltIn ++ asNats (leBytes 8 seq)
    let ct := asNats ((f.drop 20).take n)
    if x.half != h.val || Crypto.gcmTag x.keyIn iv (asNats (f.take 20)) ct != asNats (f.drop (20 + n)) then
      .next (s.dropFrame h.val)
    else if seq < x.seqIn then .next s
    else
      let y := { x with seqIn := seq + 1, seen := s.strata.tick, seqOut := x.seqOut + 1 }
      let s := s.setSession sid (some y)
      let (resp, s) := s.odRun (x.principal h) (OdReq.parse (asBytes (Crypto.gcmCtr x.keyIn iv ct))) 4104
      .next ((s.respond resp).sendFrame (x.seal sid resp))

/-- SESSION_IDLE_TIMEOUT: no valid frame for the idle timeout. -/
def execSessionIdleTimeout (sid : BitVec 32) (s : State) : Out3 :=
  match s.sessionAt sid.toNat with
  | none => .next s
  | some x =>
    if s.strata.tick < x.seen + s.od 0x0020 1 * 1000000000 then .next s else .next (s.closeSession sid.toNat)

/-! ## MCTP over I3C (R445) -/

/-- ENTDAA: the controller assigns the target of a half its dynamic address. -/
def execEntdaa (h : Half) (addr : Fin 128) (s : State) : Out3 :=
  if s.dark then .next s
  else .next { s with tlt := { s.tlt with i3cAddr := SMap.set 0 s.tlt.i3cAddr h.val addr.val } }

/-- An MCTP Control response: message type 0, the request's instance, the command, the completion code and data. -/
def mctpReply (inst cmd code : Nat) (data : List Byte) : List Byte :=
  [0, BitVec.ofNat 8 (inst % 32), BitVec.ofNat 8 cmd, BitVec.ofNat 8 code] ++ data

/-- MCTP_CONTROL: Set and Get Endpoint ID, and the messages of endpoint discovery; others are unsupported. -/
def execMctpControl (h : Half) (inst cmd : Byte) (data : List Byte) (s : State) : Out3 :=
  let i := inst.toNat
  let answer := fun (s : State) (code : Nat) (d : List Byte) =>
    let r := mctpReply i cmd.toNat code d
    (s.sendFrame r).respond r
  let eid := SMap.get 0 s.tlt.eid h.val
  if s.dark then .next s
  else
    .next (match cmd.toNat with
    | 0x01 =>
      let e := (data.getD 1 0).toNat
      if data.length != 2 || 1 < (data.getD 0 0).toNat || e < 8 || e = 0xFF then answer s 0x02 []
      else
        answer { s with tlt := { s.tlt with eid := SMap.set 0 s.tlt.eid h.val e } } 0 [0, BitVec.ofNat 8 e, 0]
    | 0x02 => answer s 0 [BitVec.ofNat 8 eid, 0, 0]
    | 0x0B => answer s 0 []
    | 0x0C => answer s 0 []
    | _ => answer s 0x05 [])

/-- The first six bytes of Gwyntor's vendor-defined messages: type 0x7F, enterprise number 47,381 and command 0x01. -/
def mctpVendor : List Byte := [0x7F, 0x00, 0x00, 0xB9, 0x15, 0x01]

/-- MCTP_VENDOR_REQUEST: an unauthenticated request; messages are at most 1,024 bytes. -/
def execMctpVendorRequest (h : Half) (msg : List Byte) (s : State) : Out3 :=
  if s.dark || 1024 < msg.length || msg.take 6 != mctpVendor then .next s
  else
    let p : Principal := ⟨.topsoil, if s.od 0x0040 1 = 1 then 1 else 0, h, false⟩
    let (resp, s) := s.odRun p (OdReq.parse (msg.drop 6)) 1018
    .next ((s.respond resp).sendFrame (mctpVendor ++ resp))

/-! ## The in-band path and Hardpan's (R427) -/

/-- OD_CMD: Tilth carries out the oldest descriptor that Dispatch passed to it. -/
def execOdCmd (h : Half) (s : State) : Out3 := .next (s.odInBand h)

/-- A request of Hardpan at TLT_HPOD.addr, with the response written over it. -/
def State.hpodRun (s : State) (h : Half) : State :=
  let q := hwReq h (tStop h.val)
  let a := 64 * s.rf Reg.TLT_HPOD.addr h.val
  match s.readMem q .read a 8 with
  | (.data hd false, s) =>
    match s.readMem q .read (a + 8) (min 4096 (ofLe ((hd.drop 6).take 2))) with
    | (.data v false, s) =>
      let (resp, s) := s.odRun ⟨.hardpan, 2, h, false⟩ (OdReq.parse (hd ++ v)) 4104
      ((s.respond resp).writeMem q a resp).2
    | (.data _ true, s) => (s.writeMem q a (odResponse (OdReq.parse hd) Status.poisoned [])).2
    | (_, s) => s
  | (.data hd true, s) => (s.writeMem q a (odResponse (OdReq.parse hd) Status.poisoned [])).2
  | (_, s) => s

/-- TLT_HPOD is written; the request runs within the write, so busy never shows. -/
def State.hpodWrite (s : State) (a : Actor) (h : Half) (v : Nat) : State :=
  let s := s.storeReg a h.val 0 v allOnes [Reg.TLT_HPOD.addr]
  if Reg.TLT_HPOD.go.admits a && Reg.TLT_HPOD.go.of v = 1 then s.hpodRun h else s

/-- TLT_HPOD_GO: the write with go = 1. -/
def execTltHpodGo (q : Requester) (h : Half) (v : Word) (s : State) : Out3 :=
  .next (s.writeReg q Cls.tlt h.val 0x200 (v.toNat ||| 1) fun s => s.hpodWrite q.actor h (v.toNat ||| 1))

/-! ## Commands that are one OD request -/

/-- A principal writes a parameter with its own type. -/
def State.odSet (s : State) (p : Principal) (idx sub : Nat) (v : List Byte) : State :=
  let ty := match odParam idx sub with | some q => q.ty.code | none => 0
  s.odFrom 2 (.direct p (BitVec.ofNat 8 ty) (BitVec.ofNat 16 idx) (BitVec.ofNat 8 sub) v)

/-- FALLOW_ENTER: OD 0x0410.01 = 1. -/
def execFallowEnter (p : Principal) (s : State) : Out3 := .next (s.odSet p 0x0410 1 [1])

/-- FALLOW_EXIT: OD 0x0410.01 = 0, or, with no principal, a trigger of Dispatch (R397). -/
def execFallowExit (p : Option Principal) (s : State) : Out3 :=
  match p with
  | some p => .next (s.odSet p 0x0410 1 [0])
  | none => .next (if s.fallowFull then s.fallowExit else s)

/-- WATCH_ENTER: OD 0x0420.01 = 0x57. -/
def execWatchEnter (p : Principal) (s : State) : Out3 := .next (s.odSet p 0x0420 1 [0x57])

/-- UPDATE_WINDOW_OPEN: OD 0x0220.01 = 1. -/
def execUpdateWindowOpen (p : Principal) (s : State) : Out3 := .next (s.odSet p 0x0220 1 [1])

/-- UPDATE_WINDOW_CLOSE: OD 0x0220.01 = 0. -/
def execUpdateWindowClose (p : Principal) (s : State) : Out3 := .next (s.odSet p 0x0220 1 [0])

/-- HANDOVER: OD 0x0202.02 = the half to become primary. -/
def execHandover (p : Principal) (dest : Half) (s : State) : Out3 := .next (s.odSet p 0x0202 2 [BitVec.ofNat 8 dest.val])

/-- TAKE_PRIMACY: OD 0x0202.04 = 0x5A, on the quiesced half that the principal reaches. -/
def execTakePrimacy (p : Principal) (s : State) : Out3 := .next (s.odSet p 0x0202 4 [0x5A])

/-- STORE_START: OD 0x1C90.01 = 0x53. -/
def execStoreStart (p : Principal) (s : State) : Out3 := .next (s.odSet p 0x1C90 1 [0x53])

/-- CAL_CHUNK_READ: a READ of OD 0x1010.02. -/
def execCalChunkRead (p : Principal) (s : State) : Out3 := .next (s.odFrom 1 (.direct p 0x0A 0x1010 2 []))

/-- CAL_CHUNK_WRITE: a WRITE of OD 0x1010.03. -/
def execCalChunkWrite (p : Principal) (bytes : List Byte) (s : State) : Out3 := .next (s.odSet p 0x1010 3 bytes)

/-- CAL_COMMIT: OD 0x1010.04 = 0x43. -/
def execCalCommit (p : Principal) (s : State) : Out3 := .next (s.odSet p 0x1010 4 [0x43])

/-- CAL_DISCARD: OD 0x1010.04 = 0x44. -/
def execCalDiscard (p : Principal) (s : State) : Out3 := .next (s.odSet p 0x1010 4 [0x44])

/-- POWER_DOWN: OD 0x0205.01 = 0x44. -/
def execPowerDown (p : Principal) (s : State) : Out3 := .next (s.odSet p 0x0205 1 [0x44])

/-- HOLD_ENTER: OD 0x0204.01 = 0x48. -/
def execHoldEnter (p : Principal) (s : State) : Out3 := .next (s.odSet p 0x0204 1 [0x48])

/-- HOLD_EXIT: OD 0x0204.01 = 0x46. -/
def execHoldExit (p : Principal) (s : State) : Out3 := .next (s.odSet p 0x0204 1 [0x46])

/-- FIRMWARE_REGION_SELECT: OD 0x0206.01. -/
def execFirmwareRegionSelect (p : Principal) (region : Byte) (s : State) : Out3 := .next (s.odSet p 0x0206 1 [region])

/-- FIRMWARE_CHUNK: OD 0x0206.02. -/
def execFirmwareChunk (p : Principal) (bytes : List Byte) (s : State) : Out3 := .next (s.odSet p 0x0206 2 bytes)

/-- FIRMWARE_STORE: OD 0x0206.03 = 0x43. -/
def execFirmwareStore (p : Principal) (s : State) : Out3 := .next (s.odSet p 0x0206 3 [0x43])

/-- UNSEAL: OD 0x0203.01 = 0x55. -/
def execUnseal (p : Principal) (s : State) : Out3 := .next (s.odSet p 0x0203 1 [0x55])

/-- PACKAGE_RESET_COMMAND: OD 0x0205.03 = 0x52. -/
def execPackageResetCommand (p : Principal) (s : State) : Out3 := .next (s.odSet p 0x0205 3 [0x52])

end Sys2Proof.Machine
end

