-- ==== Sys2Proof/Machine/Startup.lean ====
section
/-!
DEFINITION. Startup: ROOT, PROVE and TUNE, and the resets that come from outside the die (chapter "Start-up, modes and reset",
R409, R427, R429, R449, R456 to R466, R471, R472, R480).
-/
namespace Sys2Proof.Machine

def State.setRoot (s : State) (r : RootStage) : State := { s with tlt := { s.tlt with root := r } }

/-! ## ROOT steps 1 to 3 (R409, R449, R459) -/

/-- PRIM_SEL of a half as its strap reads. -/
def State.strapOf (s : State) (h : Nat) : Nat := b2n (s.tlt.straps.testBit h)

/-- Differing straps: recorded in both halves, logged, and EV 0x0E1 waits for the Event Hubs. -/
def State.strapMismatch (s : State) : State :=
  let s := (s.hpnBoth Reg.TLT_PRIM.strap_mismatch 1).logMode none .strapMismatch
  { s with tlt := { s.tlt with strapEvent := true } }

/-- The primary of step 2. Without the grit line each half takes its own reading and H0 wins once the bridge is up. -/
def State.choosePrimary (s : State) (grit : Bool) : State :=
  let p0 := s.strapOf 0
  let p1 := s.strapOf 1
  let s := { s with sys := { s.sys with primary := halfOf (if p0 = 1 && p1 = 1 then 1 else 0) } }
  let s := s.hpnBoth Reg.TLT_PRIM.grit_ok (b2n grit)
  if grit && p0 != p1 then s.strapMismatch else s

/-- The persistent OD values come into force; every parameter takes its default when the region is bad, and a value outside its
range takes its default (R420, R429). -/
def State.odLoad (s : State) : State :=
  let bad := s.tlt.found.odBad || SMap.get false s.tlt.broken 0x3C
  let count := s.od 0x0100 5
  let s := { s with sys := { s.sys with od := [], odBlob := [] } }
  let s :=
    if bad then (s.logMode none (.crc 0x3C)).raise 0x0E6 .both s.strP 0x3C
    else
      let good := fun (k v : Nat) => odInRange (k / 256) (k % 256) v []
      let wrong := s.tlt.stored.filter fun p => odKept p.1 && !good p.1 (p.2 - 1)
      let s := { s with sys := { s.sys with od := s.tlt.stored.filter fun p => odKept p.1 && good p.1 (p.2 - 1),
                                            odBlob := s.tlt.storedBlob } }
      wrong.foldl (fun s p => s.logMode none (.odIndex (p.1 / 256))) s
  s.setOd 0x0100 5 count

/-- ROOT ends at step 3 in SEAL: by the seal latch, or by the record, which then sets it (R151, R158, R459). The OD values are
loaded, for the unseal needs a credential. -/
def State.rootSeal (s : State) (bad : Bool) : State :=
  let s := if s.rb Reg.HPN_TAMPER.latch 0 then s
    else (s.hpnBoth Reg.HPN_TAMPER.latch 1).hpnBoth Reg.HPN_TAMPER.first_cause 8
  let s := if bad then (s.logMode none (.crc 0x3E)).raise 0x0E6 .both s.strP 0x3E else s
  let s := (s.hpnBoth Reg.HPN_STATUS.state 4).odLoad
  ({ s with tlt := { s.tlt with sealedAtRoot := true, root := .done } } : State).toMode .seal 0x05

/-- Steps 2 and 3. -/
def State.rootOn (s : State) : State :=
  let s := s.choosePrimary (s.rb Reg.TLT_PRIM.grit_ok 0)
  let s := s.setOdStored 0x0100 5 ((SMap.get 0 s.tlt.stored (odKey 0x0100 5) - 1) + 1)
  let s := (s.storeSoon (.boot false)).2
  let bad := s.tlt.found.recordBad || SMap.get false s.tlt.broken 0x3E
  if s.rb Reg.HPN_TAMPER.latch 0 || s.sys.vaonRecord || bad then s.rootSeal bad else s.setRoot .firmware

/-- Step 1 once the rails are in their windows: the straps are known, and a cold die waits. -/
def State.rootRails (s : State) (cold : Bool) : State :=
  if s.railsOut then s.setRoot .rails else if cold then s.setRoot .cold else s.rootOn

/-- ROOT_START: RESET_N is released, or the wake latch has started the device; while step 1 waits for rails it looks again. The
straps are PRIM_SEL_H0, PRIM_SEL_H1, BOOT_SRC and TEST_MODE; `cold`, `grit` and `found` are what Tilth observes. -/
def execRootStart (straps : Fin 16) (cold grit recordBad odBad calBad : Bool) (s : State) : Out3 :=
  let off := s.sys.mode = .off
  if !(off || (s.sys.mode = .root && (s.tlt.root = .none || s.tlt.root = .rails))) then .next s
  else
    let s := if off then
        ((s.dieReset false true).toMode .root 0x01).hpnBoth Reg.PWR_WATCH.wake_cause 0
      else s
    let s := { s with tlt := { s.tlt with straps := straps.val, found := ⟨recordBad, odBad, calBad⟩, poweredDown := false } }
    let s := ((s.setPin 0 false).setf Reg.TLT_PRIM.strap 0 (s.strapOf 0)).setf Reg.TLT_PRIM.strap 1 (s.strapOf 1)
    let s := (s.hpnBoth Reg.TLT_PRIM.grit_ok (b2n grit)).hpnBoth Reg.PWR_WATCH.hp_ready 0
    .next (s.rootRails cold)

/-- ROOT_RAIL_TIMEOUT: 100 ms with a rail outside its window at step 1 (R457). -/
def execRootRailTimeout (s : State) : Out3 :=
  if s.sys.mode = .root && s.tlt.root = .rails then
    .next (((s.setRoot .railsDead).setPin 0 true).logMode none .railWindow)
  else .next s

/-- COLD_HOLD_END (R480). -/
def execColdHoldEnd (s : State) : Out3 :=
  if s.sys.mode = .root && s.tlt.root = .cold then .next s.rootOn else .next s

/-! ## ROOT steps 4 to 8 (R459 to R461) -/

/-- The calibration set of the store, or the safe table (R430). -/
def State.calLoad (s : State) : State :=
  if s.tlt.found.calBad || SMap.get false s.tlt.broken 0x3F then
    let s := (s.logMode none (.crc 0x3F)).raise 0x0E6 .both s.strP 0x3F
    let s := (s.setf Reg.STR_STATUS.untrimmed 0 1).setf Reg.STR_STATUS.untrimmed 1 1
    { s with sys := { s.sys with trimmed := false }, tlt := { s.tlt with noBaseline := true } }
  else
    let c := s.tlt.calStored
    let s := (s.setf Reg.STR_STATUS.untrimmed 0 0).setf Reg.STR_STATUS.untrimmed 1 0
    let s := { s with sys := { s.sys with trimmed := true }, tlt := { s.tlt with cal := c } }
    if c.base.isNone && c.plans.isEmpty then s else [0, 1].foldl (fun s h => s.planShow h false) s

/-- Half of the number of Hardpan cores that OD 0x0210.01 asks for (R142). -/
def hardpanPairs (n : Nat) : Nat := if 16 < n then 8 else max 1 ((n + 1) / 2)

/-- An AVS rail is at the boot point that the plan gives: every core it feeds at its clock after reset, the mesh at 2.0 GHz and
the clusters at theirs. -/
def State.railBoot (s : State) (r : Nat) : State :=
  let h := r / 2
  let mv := if r < 4 then
      (List.range 136).foldl (fun n d =>
        if coreRail (domCore h d) == r then max n (s.planMv h d (if s.sys.trimmed then 2600 else 2400)) else n) 600
    else s.railNeed r
  s.setf Reg.PWR_RAIL.set_mv (s.railHalf r) mv r

/-- The Hardpan cores are known: they read so in STATUS (R188), and hardware holds their domains from here on (R147). -/
def State.holdHardpan (s : State) : State :=
  s.hardpanCores.foldl (fun s l =>
    let c := s.physOf l
    (s.updCore c (·.toReset true)).setf Reg.PWR_HOLD.hold (coreHalf c) 1 (coreDom c)) s

/-- Steps 5 to 7: the values and the calibration set come into force, the rails are set, and key slot 1,025 gets its key. The
Tilth TI is homed in the primary with priv 2 (R427). -/
def State.rootLoad (s : State) : State :=
  let s := (s.odLoad.calLoad).setLimit
  let s := (s.hpnBoth Reg.HPN_STATUS.cores (hardpanPairs (s.od 0x0210 1))).holdHardpan
  let s := s.hpnBoth Reg.PWR_WATCH.wake_addr (s.od 0x0420 2)
  let ti := s.od 0x0030 2
  let s := { s with sys := { s.sys with tilthTi := ti } }
  let s := (s.setf Reg.TIF_CFG.home ti s.strP).setf Reg.TIF_CFG.priv ti 2
  let s := (List.range 8).foldl State.railBoot s
  let s := s.mekSet 1025 true
  if s.od 0x1850 8 = 1 then (s.claimTry 65 .m Cls.prt s.strP).2 else s

/-- A half whose firmware slots were both refused. -/
def State.halfDead (s : State) (h : Nat) : Bool := SMap.get 0 s.tlt.fwTries h == 2

/-- TILTH_FIRMWARE_VERIFIED: a slot of a half's firmware is accepted or refused; the second refusal leaves the half in ROOT. -/
def execTilthFirmwareVerified (h : Half) (ok : Bool) (s : State) : Out3 :=
  let n := SMap.get 0 s.tlt.fwTries h.val
  if s.sys.mode != .root || s.tlt.root != .firmware || 2 ≤ n then .next s
  else
    let s := { s with tlt := { s.tlt with fwTries := SMap.set 0 s.tlt.fwTries h.val (if ok then 3 else n + 1) } }
    let s := if s.halfDead h.val then (s.setPin 0 true).logMode none (.imageRefused h.val) else s
    let settled := fun (x : Nat) => decide (2 ≤ SMap.get 0 s.tlt.fwTries x)
    if settled 0 && settled 1 && !(s.halfDead 0 && s.halfDead 1) then .next (s.rootLoad.setRoot .bridge) else .next s

/-- ROOT ends after step 8, unless TEST_MODE holds the device there. -/
def State.rootEnd (s : State) : State :=
  if s.tlt.straps.testBit 3 then s.setRoot .test else (s.setRoot .done).toMode .prove 0x04

/-- BRIDGE_TRAINED: primacy is confirmed; H0 wins where the readings differ. -/
def execBridgeTrained (s : State) : Out3 :=
  if s.sys.mode != .root || s.tlt.root != .bridge || s.halfDead 0 || s.halfDead 1 then .next s
  else
    let s := { s with sys := { s.sys with bridgeUp := true } }
    let s := if s.strapOf 0 != s.strapOf 1 && !s.rb Reg.TLT_PRIM.strap_mismatch 0 then s.strapMismatch else s
    let t := s.strata.tick
    let s := { s with tlt := { s.tlt with leaseSeen := SMap.set 0 (SMap.set 0 [] 0 t) 1 t,
                                          gritSeen := SMap.set 0 (SMap.set 0 [] 0 t) 1 t } }
    .next s.rootEnd

/-- A half is lost before Topsoil is released: the other goes on, as primary (R412, R461, R463). -/
def State.bootLose (s : State) (h : Nat) : State :=
  let s := if s.strP = h then s.newPrimary (halfOf (1 - h)) else s
  { s with sys := { s.sys with lostHalf := some (halfOf h), bridgeUp := false } }

/-- BRIDGE_TRAIN_TIMEOUT: 50 ms without a trained bridge; the primary continues alone. -/
def execBridgeTrainTimeout (s : State) : Out3 :=
  if s.sys.mode != .root || s.tlt.root != .bridge then .next s
  else
    let lost := if s.halfDead 0 then 0 else if s.halfDead 1 then 1 else 1 - s.strP
    .next (s.bootLose lost).rootEnd

/-! ## PROVE (R385, R462, R463) -/

/-- The record of a failing checker: a UEr with source 0x60. -/
def State.proveRecord (s : State) (f : ProveFail) : State :=
  if !f.checker then s
  else
    let n := f.stop.toNat
    s.logError (n / 256) (s.mkRec 2 0x60 Status.ok n 0 (match f.unit with
      | .engine e => e.val | .cluster c => c.val | .channel c => c.val | _ => n) 0xFFFF)

/-- The engines that a failure retires. -/
def ProveFail.engines (f : ProveFail) : List Nat :=
  match f.unit with
  | .engine e => [e.val]
  | .cluster c => (List.range 64).map (64 * c.val + ·)
  | _ => []

/-- The physical cores that a failure excludes: both of the tile. -/
def ProveFail.cores (f : ProveFail) : List Nat :=
  match f.unit with
  | .tile => (List.range 272).filter fun p => coreStop p == f.stop.toNat
  | _ => []

/-- A DMC that fails PROVE fails its training (R385). -/
def State.channelFails (s : State) (f : ProveFail) : State :=
  match f.unit with
  | .channel c => s.updChan c.val fun d => { d with failed := true }
  | _ => s

/-- The half fails PROVE. -/
def provesBad (fs : List ProveFail) (h : Nat) : Bool := fs.any fun f => f.unit == .other && f.stop.toNat / 256 == h

/-- RAS_POST of a half. -/
def State.postSet (s : State) (h : Nat) (fs : List ProveFail) (tested : Nat) : State :=
  let mine := fs.filter fun f => f.checker && f.stop.toNat / 256 == h
  let s := (s.setf Reg.RAS_POST.pass h (b2n !(provesBad fs h))).setf Reg.RAS_POST.failing h (min 255 mine.length)
  let s := s.setf Reg.RAS_POST.first_stop h (match mine with | f :: _ => f.stop.toNat | [] => 0)
  s.setf Reg.RAS_POST.tested h tested

/-- A logical ID without its core takes the next spare of its half, or is absent (R463). -/
def State.spareFor (s : State) (l : Nat) : State :=
  match s.nextSpare (l / 128) with
  | some p =>
    let s := { s with sys := { s.sys with physOf := SMap.set l s.sys.physOf l p } }
    (s.spareTake p).spareUp p l
  | none => { s with sys := { s.sys with physOf := SMap.set l s.sys.physOf l 272 } }

/-- Excluded cores are replaced, the Hardpan logical IDs first. -/
def State.proveSpares (s : State) (bad : List Nat) : State :=
  let s := (bad.filter (256 ≤ ·)).foldl State.spareTake s
  let gone := (List.range 256).filter fun l =>
    bad.contains l || s.oldCoreListed (l / 128) (l % 128)
  (gone.filter s.isHardpanCore ++ gone.filter fun l => !s.isHardpanCore l).foldl State.spareFor s

/-- The engines that OD 0x0C50 lists. -/
def State.lostEngines (s : State) : List Nat :=
  (List.range 1024).filter fun e => bitOf (s.od 0x0C50 (e / 64 + 1)) (e % 64)

/-- PROVE: the failures found in the halves that run it, and how many checkers each tested. -/
def execProve (fails : List ProveFail) (tested : BitVec 16) (s : State) : Out3 :=
  if s.sys.mode != .prove || s.tlt.root != .done then .next s
  else
    let live := s.liveHalves
    let fs := fails.filter fun f => live.contains (f.stop.toNat / 256)
    let s := fs.foldl (fun s f => (s.proveRecord f).channelFails f) s
    let s := s.proveSpares (fs.flatMap ProveFail.cores)
    let s := (s.lostEngines ++ fs.flatMap ProveFail.engines).foldl (fun s e =>
      if (s.eng e).run = .lost then s else s.engineLost e 0) s
    let s := (live.foldl (fun s h => s.postSet h fs tested.toNat) s).setRoot .proved
    match live.filter fun h => !provesBad fs h with
    | [] => .next (s.setPin 0 true)
    | [h] => .next ((if live.length = 2 then s.bootLose (1 - h) else s).toMode .tune 0x06)
    | _ => .next (s.toMode .tune 0x06)

/-! ## TUNE (R346, R347, R464, R465) -/

/-- The channel trained in full. -/
def State.trained (s : State) (c : Nat) : Bool :=
  (s.blkState Cls.dmc c == 1 || s.blkState Cls.dmc c == 2) && s.rf Reg.DMC_STATUS.last_status c == Status.ok

/-- The channels of a half in a set: 0 all, 1 the even ones, 2 the odd ones. -/
def setChannels (h t : Nat) : List Nat :=
  ((List.range 8).filter fun k => t = 0 || k % 2 == t - 1).map (8 * h + ·)

/-- Channels in use together: all trained, with the same DIMMs, ranks and density (R346). -/
def State.trainedAlike (s : State) (cs : List Nat) : Bool :=
  cs.all fun c => s.trained c && s.rf Reg.DMC_CFG.present c == s.rf Reg.DMC_CFG.present (cs.headD c) &&
    s.rf Reg.DMC_CFG.density c == s.rf Reg.DMC_CFG.density (cs.headD c)

/-- Step 1 of a half: the first set that trained in full is chosen, and the DRAM size with it. -/
def State.tuneDram (s : State) (h : Nat) : Nat × State :=
  let pick := [0, 1, 2].find? fun t => s.trainedAlike (setChannels h t)
  let used := match pick with | some t => setChannels h t | none => []
  let s := used.foldl (fun s c => s.setf Reg.DMC_CFG.set c (pick.getD 0)) s
  let s := (setChannels h 0).foldl (fun s c =>
    if used.contains c then s
    else
      let k := blkKey Cls.dmc c
      ((s.resetFld Reg.PFX_CTL.enable k).resetFld Reg.PFX_STATE.state k).raise 0x0C6 .both h c) s
  match used with
  | [] => (0, s)
  | c :: _ => (used.length * (s.chanBytes c - s.reserveBytes c), s)

/-- TUNE: after the channels' training (CHANNEL_TRAINING), steps 1 to 3. The record of a UEf that reset the package is written to
both logs (R472). -/
def execTune (s : State) : Out3 :=
  if !s.tuning || s.tlt.root != .proved then .next s
  else
    let live := s.liveHalves
    let (s0, s) := if live.contains 0 then s.tuneDram 0 else (0, s)
    let (s1, s) := if live.contains 1 then s.tuneDram 1 else (0, s)
    let s := { s with sys := { s.sys with s0 := s0, s1 := s1 }
                      strata := { Strata.empty with tick := s.strata.tick }
                      prt := { s.prt with bifur := (List.range 8).foldl (fun m n =>
                        SMap.set 0 m n (s.od 0x1810 (n + 1))) [] } }
    let s := if s.tlt.cal.seeds == s.tlt.calStored.seeds then s else (s.calGrown.storeSoon (.cal s.calGrown.tlt.cal)).2
    let s := s.setf Reg.STR_CTL.source s.strP (s.od 0x0800 1)
    let s := s.strEnter (if s.strSource = 0 then 0 else 1)
    let s := match s.tlt.uefKept with
      | some (r, h) => (s.rasPlace h { r with hardpan := false }).rasPlace h { r with hardpan := true }
      | none => s
    .next ({ s with tlt := { s.tlt with uefKept := none } }.setRoot .tuned)

/-- HARDPAN_BOOT_TIMEOUT: steps 4 and 5 are tried three times. -/
def execHardpanBootTimeout (s : State) : Out3 :=
  if !s.tuning || s.tlt.root != .tuned || s.rf Reg.HPN_STATUS.state s.strP != 0 then .next s
  else
    let n := s.tlt.bootTries + 1
    let s := ({ s with tlt := { s.tlt with bootTries := n } } : State).resetHardpanCores
    .next (if n = 3 then (s.setPin 0 true).hpnBoth Reg.HPN_STATUS.state 2 else s)

/-- Every Topsoil core of the halves that serve has been released. -/
def State.topsoilReleased (s : State) : Bool :=
  (List.range 256).all fun l =>
    s.isHardpanCore l || !s.liveHalves.contains (l / 128) || s.physOf l == 272 || (s.core (s.physOf l)).run != .reset

/-- Some rank is fenced. -/
def State.anyFence (s : State) : Bool := s.dmc.any fun p => !p.2.fence.isEmpty

/-- Tilth sets the Event Hubs' enable. -/
def State.hubsOn (s : State) : State :=
  s.liveHalves.foldl (fun s h =>
    let k := blkKey Cls.evh h
    if s.rb Reg.PFX_CTL.enable k then s
    else
      let s := (s.setf Reg.PFX_CTL.enable k 1).setf Reg.PFX_STATE.state k 1
      s.setf Reg.PFX_STATE.generation k (s.rf Reg.PFX_STATE.generation k + 1)) s

/-- Step 7, once Topsoil is released: FIELD, or HUSK with a half lost or a rank fenced; a HUSK that TUNE was in already stays. -/
def State.tuneEnd (s : State) : State :=
  if !s.tuning || s.tlt.root != .tuned || !s.topsoilReleased then s
  else
  let s := s.setRoot .served
  if s.sys.mode = .husk then s.hubsOn
  else if s.sys.lostHalf.isSome || s.anyFence then
    let s := s.hubsOn.toMode .husk 0x08
    if s.sys.lostHalf.isSome then s.raise 0x0E3 .both s.strP 0 else s
  else s.hubsOn.toMode .field 0x07

/-- KNX_START of a core is written (R466). -/
def State.knxStart (s : State) (a : Actor) (c v : Nat) : State :=
  let s := s.storeReg a c 0 v allOnes [Reg.KNX_START.pc]
  if Reg.KNX_START.release.admits a && Reg.KNX_START.release.of v = 1 && s.viewf Reg.KNX_START.waiting c 0 = 1 then
    (s.startCore c (4 * s.rf Reg.KNX_START.pc c)).tuneEnd
  else s

/-- KNX_START_RELEASE: the write with release = 1. -/
def execKnxStartRelease (q : Requester) (c : CoreId) (v : Word) (s : State) : Out3 :=
  .next (s.writeReg q Cls.knx c.val 0x100 (v.toNat ||| 1) fun s => s.knxStart q.actor c.val (v.toNat ||| 1))

/-! ## Resets from outside (R457, R468, R471) -/

/-- RESET_N_ASSERT: RESET_N low for 10 µs. -/
def execResetNAssert (s : State) : Out3 := .next (s.packageReset true)

/-- PWR_GOOD_FALL: PWR_GOOD low for 1 µs; the VAON-held record stays. -/
def execPwrGoodFall (s : State) : Out3 := .next (s.packageReset false)

/-- VAON_LOSS: nothing but the persistent store is left. -/
def execVaonLoss (s : State) : Out3 := .next ((s.toMode .off 0x16).dieReset false true)

end Sys2Proof.Machine
end

