-- ==== Sys2Proof/Machine/Ports.lean ====
section
/-!
DEFINITION. Ports: links, CXL windows, the Ethernet queues' registers, references, board lines, JTAG and the management port's
own messages (chapter "Ports, lands and survival", R432 to R454).
-/
namespace Sys2Proof.Machine

/-! ## PCIe and CXL links (R433, R434, R438) -/

/-- How many root ports a port has (R433). -/
def State.rootPorts (s : State) (p : Nat) : Nat :=
  match SMap.get 0 s.prt.bifur p with
  | 1 => 2 | 2 => 3 | 3 => 3 | 4 => 4 | _ => 1

/-- The half's ports serve. -/
def State.portsUp (s : State) (h : Nat) : Bool := !s.dark && s.sys.lostHalf.all fun x => x.val != h

def State.setLink (s : State) (p : Nat) (up : Bool) : State :=
  { s with sys := { s.sys with linkUp := SMap.set false s.sys.linkUp p up } }

/-- PCIE_LINK_CHANGE: a root port's link comes up or goes down, or, with none, it has an AER, hot-plug or PME message. Links that
come up in TUNE raise no event (R464). -/
def execPcieLinkChange (port : Fin 8) (rp : Fin 4) (link : Option Bool) (s : State) : Out3 :=
  let p := port.val
  if !s.portsUp (p / 4) || s.rootPorts p ≤ rp.val then .next s
  else
    let s := match link with
      | some up => if rp.val = 0 then s.setLink p up else s
      | none => s
    .next (if link = some true && s.sys.mode = .tune then s else s.raise 0x0F2 .topsoil (p / 4) (4 * p + rp.val))

/-- CXL_LINK_DOWN: the link of a CXL port goes down, or its device is removed. -/
def execCxlLinkDown (h : Half) (j : Fin 2) (s : State) : Out3 :=
  let p := 4 * h.val + j.val
  if !s.portsUp h.val then .next s
  else .next ((s.setLink p false).raise 0x0F2 .topsoil h.val (4 * p))

/-- PRT_IO_FAULT_READ: the read lets EV 0x0F3 be raised again. -/
def State.ioFaultSeen (s : State) (h : Nat) : State :=
  { s with sys := { s.sys with ioSpent := SMap.set false s.sys.ioSpent h false } }

def execPrtIoFaultRead (q : Requester) (h : Half) (s : State) : Out3 :=
  .next (s.readCmd q Cls.prt h.val Reg.PRT_IO_FAULT.reg 0 fun s => s.ioFaultSeen h.val)

/-! ## CXL windows (R438) -/

/-- A window in GiB overlaps another window in use, or reaches beyond the CXL range of R21. -/
def State.winBad (s : State) (h j base size : Nat) : Bool :=
  size != 0 && (8192 < base + size ||
    [(0, 0), (0, 1), (1, 0), (1, 1)].any fun x =>
      x != (h, j) &&
        (let b := s.rf Reg.PRT_CXL_WIN.base_gib x.1 x.2
         let n := s.rf Reg.PRT_CXL_WIN.size_gib x.1 x.2
         n != 0 && b < base + size && base < b + n))

/-- PRT_CXL_WIN is written. -/
def State.cxlWin (s : State) (a : Actor) (h j v : Nat) : State :=
  if !Reg.PRT_CXL_WIN.size_gib.admits a then s
  else if s.winBad h j (Reg.PRT_CXL_WIN.base_gib.of v) (Reg.PRT_CXL_WIN.size_gib.of v) then
    s.setf Reg.PRT_CXL_WIN.denied h 1 j
  else (s.storeReg a h j v allOnes [Reg.PRT_CXL_WIN.size_gib, Reg.PRT_CXL_WIN.base_gib]).setf Reg.PRT_CXL_WIN.denied h 0 j

/-- CXL_WINDOW_WRITE. -/
def execCxlWindowWrite (q : Requester) (h : Half) (j : Fin 2) (v : Word) (s : State) : Out3 :=
  .next (s.writeReg q Cls.prt h.val (0x280 + 8 * j.val) v.toNat fun s => s.cxlWin q.actor h.val j.val v.toNat)

/-! ## Ethernet queues (R440 to R442) -/

/-- The requester of a queue's DMA: its tenant at the N stop (R132, R134). -/
def State.ethReq (s : State) (h n : Nat) : Requester :=
  ⟨.io, .io, .topsoil, BitVec.ofNat 12 (s.rf Reg.PRT_ETHQ_CFG.tenant h n), halfOf h, BitVec.ofNat 9 (nStop h)⟩

/-- The descriptors of one ring. -/
def State.ethSize (s : State) (h n : Nat) : Nat := 2 ^ max 6 (min 12 (s.rf Reg.PRT_ETHQ_CFG.log2_size h n))

def ethKey (h n : Nat) : Nat := h * 128 + n

/-- The address of TX descriptor `i`; the RX ring follows the TX ring. -/
def State.txDesc (s : State) (h n i : Nat) : Nat := s.rf Reg.PRT_ETHQ_CFG.base h n * 4096 + 32 * i
def State.rxDesc (s : State) (h n i : Nat) : Nat := s.txDesc h n (s.ethSize h n) + 32 * i

/-- Write a descriptor's status and done. -/
def State.ethStatus (s : State) (h n a st : Nat) : State := (s.writeMem (s.ethReq h n) (a + 0x0B) [BitVec.ofNat 8 st, 1]).2

/-- The pending TX entries of a queue, oldest first. -/
def State.txPending (s : State) (h n : Nat) : List Nat :=
  let size := s.ethSize h n
  let next := SMap.get 0 s.prt.txNext (ethKey h n)
  let tail := SMap.get 0 s.prt.txTail (ethKey h n)
  (List.range ((tail + size - next) % size)).map fun k => (next + k) % size

/-- A queue's enable is written 0: its TX descriptors not yet read are refused. -/
def State.ethDisable (s : State) (h n : Nat) : State :=
  let s := (s.txPending h n).foldl (fun s i => s.ethStatus h n (s.txDesc h n i) Status.refused) s
  let s := { s with prt := { s.prt with txNext := SMap.set 0 s.prt.txNext (ethKey h n) (SMap.get 0 s.prt.txTail (ethKey h n)) } }
  s.setf Reg.PRT_ETHQ_CFG.enable h 0 n

/-- PRT_ETHQ_CFG is written: while enable is 1 its other fields are frozen. A queue begins at entry 0 of its rings. -/
def State.ethCfg (s : State) (a : Actor) (h n v : Nat) : State :=
  if !Reg.PRT_ETHQ_CFG.enable.admits a then s
  else
    let en := Reg.PRT_ETHQ_CFG.enable.of v
    if s.rb Reg.PRT_ETHQ_CFG.enable h n then (if en = 0 then s.ethDisable h n else s)
    else
      let s := s.storeReg a h n v allOnes Reg.PRT_ETHQ_CFG.reg.fields
      if en = 0 then s
      else
        let k := ethKey h n
        let p := s.prt
        { s with prt := { p with txTail := SMap.set 0 p.txTail k 0, txNext := SMap.set 0 p.txNext k 0,
                                 rxTail := SMap.set 0 p.rxTail k 0, rxNext := SMap.set 0 p.rxNext k 0 } }

/-- PRT_ETHQ_MAC is written. -/
def State.ethMac (s : State) (a : Actor) (h n v : Nat) : State :=
  if s.rb Reg.PRT_ETHQ_CFG.enable h n then s else s.storeReg a h n v allOnes Reg.PRT_ETHQ_MAC.reg.fields

/-- ETH_QUEUE_DISABLE: the write of PRT_ETHQ_CFG with enable = 0. -/
def execEthQueueDisable (q : Requester) (h : Half) (n : Fin 128) (s : State) : Out3 :=
  .next (s.withAccess q .write Cls.prt h.val (0x4000 + 16 * n.val) fun s =>
    if Reg.PRT_ETHQ_CFG.enable.admits q.actor && s.rb Reg.PRT_ETHQ_CFG.enable h.val n.val then s.ethDisable h.val n.val else s)

/-- A tail is written; one outside the ring, or of a queue that is not enabled, is ignored (R74). -/
def State.ethTail (s : State) (a : Actor) (h n t : Nat) (rx : Bool) : State :=
  let k := ethKey h n
  if !Reg.PRT_ETH_TX_DB.tail.admits a || !s.rb Reg.PRT_ETHQ_CFG.enable h n || s.ethSize h n ≤ t then s
  else if rx then { s with prt := { s.prt with rxTail := SMap.set 0 s.prt.rxTail k t } }
  else { s with prt := { s.prt with txTail := SMap.set 0 s.prt.txTail k t } }

/-- ETH_TX_DOORBELL. -/
def execEthTxDoorbell (q : Requester) (h : Half) (n : Fin 128) (v : Word) (s : State) : Out3 :=
  .next (s.writeReg q Cls.prt h.val (0x20000 + 0x1000 * n.val) v.toNat fun s =>
    s.ethTail q.actor h.val n.val (v.toNat % 4096) false)

/-- ETH_RX_DOORBELL. -/
def execEthRxDoorbell (q : Requester) (h : Half) (n : Fin 128) (v : Word) (s : State) : Out3 :=
  .next (s.writeReg q Cls.prt h.val (0x20008 + 0x1000 * n.val) v.toNat fun s =>
    s.ethTail q.actor h.val n.val (v.toNat % 4096) true)

/-- PRT_ETH_COUNT_READ. -/
def execPrtEthCountRead (q : Requester) (h : Half) (s : State) : Out3 :=
  .next (s.readCmd q Cls.prt h.val Reg.PRT_ETH_COUNT.reg 0 id)

/-! ## Ethernet links and references (R439, R442, R448) -/

/-- A sub-port exists: the second of a port only when OD 0x1820 splits it. -/
def State.subportThere (s : State) (h x : Nat) : Bool := x % 2 == 0 || s.od 0x1820 (2 * h + x / 2 + 1) == 1

/-- ETHERNET_LINK_CHANGE: a sub-port's link comes up or goes down. -/
def execEthernetLinkChange (h : Half) (x : Fin 4) (up : Bool) (s : State) : Out3 :=
  if !s.portsUp h.val || !s.subportThere h.val x.val then .next s
  else
    let s := { s with sys := { s.sys with ethUp := SMap.set false s.sys.ethUp (4 * h.val + x.val) up } }
    .next (if up && s.sys.mode != .tune then s.raise 0x0F2 .topsoil h.val 0 else s)

/-- ETH_REFCLK_LOSS: one input serves both halves. -/
def execEthRefclkLoss (s : State) : Out3 :=
  if s.dark then .next s
  else .next (({ s with sys := { s.sys with ethUp := [] } } : State).raiseBoth 0x0F4 .both 0)

/-- PCIE_REFCLK_LOSS: the half's clocks stop, a UEf of that half, which acts as its record is routed. R377 names no source for it: a free value, and not the
bridge's. -/
def execPcieRefclkLoss (h : Half) (s : State) : Out3 :=
  if !s.portsUp h.val then .next s
  else
    let (f, s) := s.drawFree
    let src := if f % 256 = 0x21 then 0 else f % 256
    let r := s.mkRec 3 src Status.ok (tStop h.val) 0 h.val 0xFFFF
    .next (s.logError h.val r)

/-! ## Board lines (R450 to R452) -/

/-- The half a line lands on. -/
def lineHalf (i : Nat) : Nat := if i = 2 || i = 3 || i = 5 || i = 7 then 1 else 0

/-- The limits of a tamper loop in ohms. -/
def State.loopLimits (s : State) (i : Nat) : Nat × Nat :=
  let bs := s.odBlob 0x1840 (i + 1)
  (ofLe (bs.take 4), ofLe ((bs.drop 4).take 4))

/-- The class of R451 and the value shown, two's complement for a sense pair; a reading of another kind of line says nothing. -/
def State.lineClass (s : State) (i : Nat) : LineReading → Option (Nat × Nat)
  | .sense pair mon full =>
    if 16 ≤ i then none
    else
      let m : Int := mon
      let show16 := fun (x : Int) => (x % 65536).toNat
      let c := if full then 1
        else if (pair - m).natAbs ≤ 60 then 0
        else if pair.natAbs < 20 && 100 < mon then 2
        else if (pair + m).natAbs ≤ 60 then 3 else 4
      some (c, show16 (if c = 3 then -pair else pair))
  | .fan differs noTach limit rpm =>
    if i < 16 || 24 ≤ i then none
    else some (if differs || noTach then 1 else if limit then 2 else 0, rpm / 4)
  | .analog mv =>
    if i < 24 || 32 ≤ i then none else some (if 1150 < mv then 1 else if mv < 20 then 2 else 0, mv)
  | .tamper o sh rev ohms =>
    if i < 32 then none
    else if i = 36 && s.tamperAux && !s.tamperAuxReads then none
    else if i = 36 then some (if !s.tamperAux then 5 else if o then 1 else if sh then 2 else 0, ohms / 4)
    else
      let (lo, hi) := s.loopLimits i
      some (if rev then 3 else if o then 1 else if sh then 2 else if ohms < lo || hi < ohms then 4 else 0, ohms / 4)

/-- Both PRT instances report a line. -/
def State.lineSet (s : State) (i c v : Nat) (changed : Bool) : State :=
  [0, 1].foldl (fun s h =>
    let s := (s.setf Reg.PRT_LINE.state h c i).setf Reg.PRT_LINE.swapped h (b2n (c == 3 && i < 16)) i
    let s := s.setf Reg.PRT_LINE.value h v i
    if changed then s.addf Reg.PRT_LINE.changes h i else s) s

/-- Fans run at 100 % while another is faulty. -/
def State.fansSet (s : State) : State :=
  let bad := (List.range 8).filter fun f => s.rf Reg.PRT_LINE.state 0 (16 + f) != 0
  (List.range 8).foldl (fun s f => s.setPin (8 + f) (bad.any (· != f))) s

/-- LINE_TEST: Tilth reads a line, classifies it and acts on a change. -/
def execLineTest (i : Fin 37) (r : LineReading) (s : State) : Out3 :=
  let n := i.val
  if s.dark then .next s
  else match s.lineClass n r with
  | none => .next s
  | some (c, v) =>
    let old := s.rf Reg.PRT_LINE.state 0 n
    let (f, s) := if 24 ≤ n && n < 32 && c != 0 then s.drawFree else (v, s)
    let s := s.lineSet n c (f % 65536) (c != old)
    let s := if 16 ≤ n && n < 24 then s.fansSet else s
    let h := lineHalf n
    let s := if c != old && (n < 16 || (n < 32 && c != 0)) then s.raise 0x0F0 .both h n else s
    .next (if c = 0 && old != 0 && old != 5 then s.raise 0x0F1 .both h n else s)

/-- PRT_LINE_READ. -/
def execPrtLineRead (q : Requester) (h : Half) (i : Fin 37) (s : State) : Out3 :=
  .next (s.readCmd q Cls.prt h.val Reg.PRT_LINE.reg i.val id)

/-! ## JTAG (R447) -/

/-- The TAP of a half loads an instruction. -/
def State.jtagIr (s : State) (h ir : Nat) : State := { s with prt := { s.prt with jtag := SMap.set 1 s.prt.jtag h ir } }

/-- Shifted bits as a number, the first bit least significant. -/
def bitsNat (bs : List Bool) : Nat := bs.foldr (fun b n => b2n b + 2 * n) 0

/-- BYPASS: one bit register, which captures 0, stands between TDI and TDO. -/
def execBypass (h : Half) (tdi : List Bool) (s : State) : Out3 :=
  if s.dark then .next s else .next ((s.jtagIr h.val 0xFF).answer (bitsNat ((false :: tdi).take tdi.length)) 0)

/-- IDCODE. -/
def execIdcode (h : Half) (s : State) : Out3 :=
  if s.dark then .next s else .next ((s.jtagIr h.val 0x01).answer 0x1A25633B 0)

/-- The boundary cells of a half: their number and order are not given, so what they capture is a free value. -/
def State.boundary (s : State) (h : Nat) (tdi : List Bool) : State :=
  let (f, s) := s.drawFree
  let s := { s with prt := { s.prt with boundary := SMap.set [] s.prt.boundary h tdi } }
  s.answer (Config.jtagBits f % 2 ^ tdi.length) 0

/-- SAMPLE/PRELOAD: the pins are sampled, and the cells hold what was shifted in. -/
def execSamplePreload (h : Half) (tdi : List Bool) (s : State) : Out3 :=
  if s.dark then .next s else .next ((s.jtagIr h.val 0x02).boundary h.val tdi)

/-- EXTEST: the cells drive the pins; accepted with TEST_MODE alone. -/
def execExtest (h : Half) (tdi : List Bool) (s : State) : Out3 :=
  if s.dark || !s.tlt.straps.testBit 3 then .next s else .next ((s.jtagIr h.val 0x03).boundary h.val tdi)

/-! ## PPS output (R170, R454) -/

/-- PPS_OUT_PULSE: GPIO8 rises on a second boundary of the master while PPS_OUT holds entry 64, and falls 100 ms later. -/
def execPpsOutPulse (rise : Bool) (s : State) : Out3 :=
  let ns := s.strata.time / 65536 % nsPerSecond
  let owned := s.claimHeld 64 && s.rf Reg.PRT_CLAIM.owner_actor 0 64 == 0
  if rise then .next (if owned && ns ≤ 1 then s.setPin 2 true else s)
  else .next (if 100000000 ≤ ns then s.setPin 2 false else s)

/-! ## IPv6 of the management port (R444) -/

/-- The IPv6 address of a half's Tilth. -/
def State.mgtIp (s : State) (h : Nat) : List Byte := beBytes 16 ((ofBe (s.odBlob 0x1800 1) + h) % 2 ^ 128)

/-- The MAC address of a half's Tilth. -/
def mgtMac (h : Nat) : List Byte :=
  [0x02, 0x47, 0x57] ++ beBytes 3 ((ofBe [Config.serialByte 13, Config.serialByte 14, Config.serialByte 15] + h) % 2 ^ 24)

/-- The ones' complement sum of 16-bit big-endian words. -/
def sum16 : List Byte → Nat
  | [] => 0
  | [a] => a.toNat * 256
  | a :: b :: l => a.toNat * 256 + b.toNat + sum16 l

def fold16 (n : Nat) : Nat :=
  let n := n % 65536 + n / 65536
  let n := n % 65536 + n / 65536
  n % 65536 + n / 65536

/-- The checksum over an IPv6 pseudo-header and a message whose checksum field is 0. -/
def check6 (src dst : List Byte) (next : Nat) (m : List Byte) : Nat :=
  65535 - fold16 (sum16 (src ++ dst ++ beBytes 4 m.length ++ beBytes 4 next ++ m))

/-- Parts of an Ethernet frame with IPv6: source MAC, source and destination address, next header, hop limit, payload. -/
structure Ip6 where
  mac : List Byte
  src : List Byte
  dst : List Byte
  next : Nat
  hops : Nat
  body : List Byte

def Ip6.parse (f : List Byte) : Option Ip6 :=
  let p := f.drop 14
  let n := ofBe ((p.drop 4).take 2)
  if f.length < 54 || (f.drop 12).take 2 != [0x86, 0xDD] || (p.getD 0 0).toNat / 16 != 6 || f.length < 54 + n then none
  else some ⟨(f.drop 6).take 6, (p.drop 8).take 16, (p.drop 24).take 16, (p.getD 6 0).toNat, (p.getD 7 0).toNat, (p.drop 40).take n⟩

/-- An ICMPv6 message with its checksum set, as a frame from a half's Tilth. -/
def State.icmp6 (s : State) (h : Nat) (mac dst m : List Byte) : List Byte :=
  let src := s.mgtIp h
  let m := m.take 2 ++ beBytes 2 (check6 src dst 58 (m.take 2 ++ [0, 0] ++ m.drop 4)) ++ m.drop 4
  mac ++ mgtMac h ++ [0x86, 0xDD, 0x60, 0, 0, 0] ++ beBytes 2 m.length ++ [58, 255] ++ src ++ dst ++ m

/-- The ICMPv6 message of a frame whose checksum is good. -/
def Ip6.icmp (x : Ip6) : Bool :=
  x.next == 58 && fold16 (sum16 (x.src ++ x.dst ++ beBytes 4 x.body.length ++ beBytes 4 58 ++ x.body)) == 65535

/-- NEIGHBOUR_DISCOVERY: a neighbour solicitation for a Tilth's address is answered with an advertisement. -/
def execNeighbourDiscovery (h : Half) (f : List Byte) (s : State) : Out3 :=
  if s.dark then .next s
  else match Ip6.parse f with
  | none => .next s
  | some x =>
    if !x.icmp || x.hops != 255 || x.body.getD 0 0 != 135 || x.body.length < 24 || (x.body.drop 8).take 16 != s.mgtIp h.val then .next s
    else
      let anon := x.src.all (· == 0)
      let dst := if anon then [0xFF, 0x02] ++ List.replicate 13 0 ++ [1] else x.src
      let mac := if anon then [0x33, 0x33, 0, 0, 0, 1] else x.mac
      let m := [136, 0, 0, 0, if anon then 0x20 else 0x60, 0, 0, 0] ++ s.mgtIp h.val ++ [2, 1] ++ mgtMac h.val
      .next (s.sendFrame (s.icmp6 h.val mac dst m))

/-- ICMPV6_ECHO: an echo request to a Tilth's address is answered with its data. -/
def execIcmpv6Echo (h : Half) (f : List Byte) (s : State) : Out3 :=
  if s.dark then .next s
  else match Ip6.parse f with
  | none => .next s
  | some x =>
    if !x.icmp || x.body.getD 0 0 != 128 || x.body.length < 8 || x.dst != s.mgtIp h.val then .next s
    else .next (s.sendFrame (s.icmp6 h.val x.mac x.src ([129, 0, 0, 0] ++ x.body.drop 4)))

end Sys2Proof.Machine
end

