-- ==== Sys2Proof/Machine/Drs.lean ====
section
/-!
DEFINITION. Drs: loads and stores that reach the device register space by address (R7, R8, R10, R24, R25, R30, R33), for
every register, whichever rule gives its write a further effect.
-/
namespace Sys2Proof.Machine

/-! ## Block headers (R30, R31) -/

/-- The actors that may write a class's enable (R30); for TIF the Tilth TI's M is `tifActor`'s. -/
def enableWriters : Nat → Nat
  | 0x01 => 12 | 0x02 => 12 | 0x05 => 12 | 0x06 => 12 | 0x07 => 12 | 0x09 => 12 | 0x08 => 12
  | 0x03 => 13 | 0x04 => 13 | 0x0B => 13 | 0x0C => 13
  | 0x0A => 7
  | 0x0E => 9
  | 0x0D => 8 | 0x0F => 8 | 0x10 => 8 | 0x11 => 8 | 0x12 => 8
  | _ => 0

/-- A block enters STARTING: its generation advances (R31). A core's registers clear and it waits for its release (R472). -/
def State.blkStart (s : State) (cls inst : Nat) : State :=
  let k := blkKey cls inst
  let s := if cls = Cls.knx then s.updCore inst fun c => if c.run = .off then c else c.toReset (s.coreIsHardpan inst) else s
  let s := { s with viaRestart := SMap.set false s.viaRestart k false }
  (s.setf Reg.PFX_STATE.state k 1).setf Reg.PFX_STATE.generation k (s.rf Reg.PFX_STATE.generation k + 1)

/-- A block leaves ON: its claims end, Kaolin's on OFF, and each class ends what its chapter says (R33, R70, R344, R384,
R472). -/
def State.blkLeave (s : State) (cls inst : Nat) : State :=
  let s := if cls = Cls.kao then s else s.releaseClaims cls inst
  if cls = Cls.slt then s.moveCheck inst
  else if cls = Cls.svc then (clusterEngines inst).foldl State.moveCheck s
  else if cls = Cls.knx then
    (s.coreDrain inst).updCore inst fun c => if c.run = .off then c else { c with run := .reset, wait := .none }
  else if cls = Cls.kao then s.kaoStopping inst
  else if cls = Cls.ras then s.passStop inst
  else s

/-- PFX_CTL.enable is written (R31). -/
def State.enableWrite (s : State) (q : Requester) (cls inst v : Nat) : State :=
  let k := blkKey cls inst
  let st := s.rf Reg.PFX_STATE.state k
  let en := v % 2
  if cls = Cls.tif then
    let a := s.tifActor q inst
    if en = 1 then s.tifEnable a inst q else s.tifDisable a inst q
  else if enableWriters cls &&& q.actor.bit = 0 then s
  else if st = 4 && en = 1 then s
  else
    let s := s.setf Reg.PFX_CTL.enable k en
    match en, st with
    | 1, 0 => s.blkStart cls inst
    | 1, 3 => s.setf Reg.PFX_STATE.restart_pending k 1
    | 0, 1 => s.setf Reg.PFX_STATE.state k 3
    | 0, 2 => (s.setf Reg.PFX_STATE.state k 3).blkLeave cls inst
    | 0, 3 => s.setf Reg.PFX_STATE.restart_pending k 0
    | 0, 4 => let s := s.setf Reg.PFX_STATE.state k 3
      if cls = Cls.kao then s.kaoStopping inst else s
    | _, _ => s

/-! ## Writes, class by class -/

/-- A write with no effect beyond its fields (R7, R10). -/
def State.plainWrite (s : State) (q : Requester) (inst j v : Nat) (r : RegDef) : State :=
  s.storeReg q.actor inst j v allOnes r.fields

/-- A free-running LFSR keeps its value when 0 is written. -/
def State.lfsrWrite (s : State) (q : Requester) (inst j v : Nat) (r : RegDef) (f : Fld) : State :=
  if f.of v = 0 then s else s.plainWrite q inst j v r

/-- SLT registers: SLT_CACHE.enable acts at the next instruction boundary, SLT_LFSR and SLT_TASK_LIMIT between tasks (R72). -/
def State.writeSlt (s : State) (q : Requester) (e j v : Nat) (r : RegDef) : State :=
  match r.off with
  | 0x108 => s.poolWrite q.actor e v
  | 0x120 =>
    let was := s.cacheOn e
    let s := s.storeFld q.actor e j v allOnes Reg.SLT_CACHE.enable
    let s := if (s.eng e).stall != .none && s.rb Reg.SLT_CACHE.enable e != was then
        s.updEng e fun k => { k with cacheWas := some was } else s
    let s := if bitOf v 1 then s.sltInvalidate q.actor e else s
    if bitOf v 2 then s.sltUnlock q.actor e else s
  | 0x128 =>
    if !Reg.SLT_LFSR.value.admits q.actor || Reg.SLT_LFSR.value.of v = 0 then s
    else if (s.eng e).task.isSome then s.updEng e fun k => { k with lfsrNew := some (Reg.SLT_LFSR.value.of v) }
    else s.setf Reg.SLT_LFSR.value e v
  | 0x130 =>
    let s := if bitOf v 0 then s.sltHaltSet q e else s
    let s := if bitOf v 1 then s.sltStepSet q e else s
    if bitOf v 2 then s.sltResumeSet q e else s
  | 0x138 =>
    if !Reg.SLT_TASK_LIMIT.limit.admits q.actor then s
    else
      let old := s.rf Reg.SLT_TASK_LIMIT.limit e
      let s := if (s.eng e).task.isSome && (s.eng e).limitOld.isNone then s.updEng e fun k => { k with limitOld := some old }
        else s
      s.setf Reg.SLT_TASK_LIMIT.limit e v
  | _ => s.plainWrite q e j v r

def State.writeDsp (s : State) (q : Requester) (h j v : Nat) (r : RegDef) : State :=
  match r.off with
  | 0x200 => s.poolLinkSet q.actor h j v
  | 0x180 => s.lfsrWrite q h j v r Reg.DSP_STEAL_LFSR.value
  | _ => s.plainWrite q h j v r

def State.writeSvc (s : State) (q : Requester) (c j v : Nat) (r : RegDef) : State :=
  match r.off with
  | 0x800 => s.sramAssign q.actor c j v
  | 0x140 =>
    if Reg.SVC_LOAD.go.of v = 1 then s.svcLoadGo q.actor c v
    else s.storeFld q.actor c j v allOnes Reg.SVC_LOAD.slot
  | 0x200 => s.svcPoolImg q.actor c j v
  | _ => s.plainWrite q c j v r

/-- HPN registers: the store's base and size are frozen once the half's POT is armed (R154). -/
def State.writeHpn (s : State) (q : Requester) (h j v : Nat) (r : RegDef) : State :=
  match r.off with
  | 0x4000 => s.hpnPoolSet q.actor h j v
  | 0x140 => s.hpnDebug q.actor v
  | 0x108 => s.heartbeat q.actor h v
  | 0x110 => s.restartWrite q.actor h v
  | 0x300 => s.keyCmd q.actor h v
  | 0x150 => s.tamperWrite q.actor v
  | 0x200 => if s.rb Reg.POT_CTL.armed h then s else s.plainWrite q h j v r
  | 0x208 => if s.rb Reg.POT_CTL.armed h then s else s.plainWrite q h j v r
  | _ => s.plainWrite q h j v r

/-- The registers of POT that are frozen once it is armed. -/
def potFrozen (off : Nat) : Bool := off == 0x108 || off == 0x110 || off == 0x118 || off == 0x120

def State.writePot (s : State) (q : Requester) (h j v : Nat) (r : RegDef) : State :=
  if r.off = 0x148 then s.potInval q.actor h v
  else if potFrozen r.off && s.rb Reg.POT_CTL.armed h then s
  else s.plainWrite q h j v r

/-- STR registers act in the primary's instance alone (R164, R173). -/
def State.writeStr (s : State) (q : Requester) (h j v : Nat) (r : RegDef) : State :=
  if h != s.strP then s
  else match r.off with
    | 0x100 => s.strCtl q.actor v
    | 0x120 => s.strRate q.actor v
    | 0x128 => s.strStep q.actor v
    | 0x130 => s.strGate q.actor fun s => s.plainWrite q h j v r
    | 0x138 => s.strSet q.actor v
    | 0x140 => s.strGate q.actor fun s => s.plainWrite q h j v r
    | 0x1010 => s.cmpCtl q.actor j v
    | 0x1000 => s.cmpValue q.actor j v Reg.STR_CMP_TIME_LO.value
    | 0x1008 => s.cmpValue q.actor j (Reg.STR_CMP_TIME_HI.value.of v) Reg.STR_CMP_TIME_HI.value
    | 0x1018 => s.cmpValue q.actor j v Reg.STR_CMP_ARG.arg
    | _ => s.plainWrite q h j v r

/-- VRV registers: bases and sizes are frozen while the block is ON; the others act at once. -/
def State.writeVrv (s : State) (q : Requester) (h j v : Nat) (r : RegDef) : State :=
  match r.off with
  | 0x130 => s.consWrite q.actor h v Reg.VRV_CONS_POS.value Reg.VRV_NEXT_POS.value
  | 0x138 => s.consWrite q.actor h v Reg.VRV_CONS_LEAF.value Reg.VRV_NEXT_LEAF.value
  | _ =>
    if (r.off = 0x108 || r.off = 0x110 || r.off = 0x118) && s.blkOn Cls.vrv h then s
    else (s.plainWrite q h j v r).logCheck

/-- TIF registers; none of their writes is held (R295). The doorbell page's two act for every requester the POT admits
(R293). -/
def State.writeTif (s : State) (q : Requester) (ti j v : Nat) (r : RegDef) : State :=
  let a := s.tifActor q ti
  match r.off with
  | 0x100 => s.tifFrozen q ti v .cfg
  | 0x108 => s.tifFrozen q ti v .ring
  | 0x110 => s.tifFrozen q ti v .shadow
  | 0x200 => s.tifSq a ti j v
  | 0x280 => if Reg.TIF_SQ_STATE.restart.of v = 1 then s.queueRestart q ti j else s
  | 0x130 => s.tifGen q ti v (Reg.TIF_GEN.reset_go.of v == 1)
  | 0x118 => if s.quotaLocked a ti || !Reg.TIF_QUOTA.weight.admits a then s else (s.tifStore a ti j v r.fields).tiDenied ti false
  | 0x120 => if s.quotaLocked a ti || !Reg.TIF_POOLS.mask.admits a then s else (s.tifStore a ti j v r.fields).tiDenied ti false
  | 0x128 =>
    if !Reg.TIF_EVENT.intr_id.admits a then s
    else
    let old := s.rf Reg.TIF_EVENT.intr_id ti
    let was := s.rb Reg.TIF_EVENT.queue_mode ti
    let s := ((s.noteSignals).tifStore a ti j v r.fields).tiDenied ti false
    let id := s.rf Reg.TIF_EVENT.intr_id ti
    let s := if was then s.dropLevel old else s
    if s.rb Reg.TIF_EVENT.queue_mode ti && s.levelHolds id then s.setPending (evKey (s.tiHome ti) id 0) ti (s.tiHome ti) else s
  | 0x1000 => s.doorbell q ti j (Reg.TIF_DB.tail.of v)
  | 0x1080 => s.ringHead q ti (v % 2 ^ 32)
  | _ => s.tifStore a ti j v r.fields

/-- EVH_EQ_CFG is written: the queue's interrupt is a level source (R323). -/
def State.eqCfg (s : State) (q : Requester) (h k v : Nat) (r : RegDef) : State :=
  let old := s.rf Reg.EVH_EQ_CFG.id h k
  let was := s.rf Reg.EVH_EQ_CFG.log2_size h k != 0
  let s := (s.noteSignals).plainWrite q h k v r
  let id := s.rf Reg.EVH_EQ_CFG.id h k
  let s := if was then s.dropLevel old else s
  if s.levelHolds id then s.setPending (evKey h id (128 * h + k)) 0 h else s

def State.writeEvh (s : State) (q : Requester) (h j v : Nat) (r : RegDef) : State :=
  let l := 128 * h + j
  match r.off with
  | 0x8000 => s.evhSrc q.actor h j v
  | 0x1000 => s.evhRaise q.actor h v
  | 0x108 => s.evhSgi q.actor h v
  | 0x90000 => s.tiqCfg q.actor h j v
  | 0x90008 => s.tiqHead q.actor h j v
  | 0x10040 => s.eqCfg q h j v r
  | 0x10008 => if Reg.EVH_EOI_K.id.admits q.actor then s.complete l 0 (v % 4096) else s
  | 0x10018 => if Reg.EVH_EOI_V.id.admits q.actor then s.complete l 1 (v % 4096) else s
  | 0x4008 => if Reg.EVH_SEC_EOI.id.admits q.actor then s.complete l 2 (v % 4096) else s
  | 0x10048 => s.eqHead q.actor l v
  | 0x100 => s.evhHold q.actor v
  | _ => (s.noteSignals).plainWrite q h j v r

def State.writeKao (s : State) (q : Requester) (h j v : Nat) (r : RegDef) : State :=
  match r.off with
  | 0x400 => s.kaoCfg q.actor h j v
  | 0x408 => s.kaoBindReg q.actor h j v
  | 0x410 => s.kaoRestart q.actor h j v
  | 0xC00 =>
    if Reg.KAO_SLOT.enable.of v = 1 then s.slotClaim q.actor h j v
    else if Reg.KAO_SLOT.enable.admits q.actor then s.slotRelease h j
    else s
  | 0x10000 => s.kaoDoorbell q.actor h j v
  | _ => s.plainWrite q h j v r

/-- DMC registers: DMC_CFG is written while the block is OFF alone. -/
def State.writeDmc (s : State) (q : Requester) (c j v : Nat) (r : RegDef) : State :=
  match r.off with
  | 0x100 => if s.blkState Cls.dmc c = 0 then s.plainWrite q c j v r else s
  | 0x118 => s.lfsrWrite q c j v r Reg.DMC_NR_LFSR.value
  | 0x200 => s.trainCtl q.actor c v
  | 0x400 => s.migrateWrite q.actor c v
  | _ => s.plainWrite q c j v r

/-- RAS registers. A cancel that comes as a plain store ends the pass wherever it stands. -/
def State.writeRas (s : State) (q : Requester) (h j v : Nat) (r : RegDef) : State :=
  match r.off with
  | 0x108 => s.rasLogSet q.actor h v false
  | 0x118 => s.rasLogSet q.actor h v true
  | 0x110 => s.rasHeadSet q.actor h (v % 2 ^ 32) false
  | 0x120 => s.rasHeadSet q.actor h (v % 2 ^ 32) true
  | 0x600 =>
    if 9 < Reg.RAS_MARK.device.of v then s
    else
      let s := s.plainWrite q h j v r
      if Reg.RAS_MARK.valid.admits q.actor then s.setf Reg.RAS_MARK.auto h 0 j else s
  | 0x310 =>
    let s := s.passCtl q.actor h v
    if Reg.RAS_PASS_CTL.cancel.of v = 1 && Reg.RAS_PASS_CTL.cancel.admits q.actor then s.passStop h else s
  | 0x508 => s.injCtl q h v
  | _ => s.plainWrite q h j v r

def State.writePwr (s : State) (q : Requester) (h j v : Nat) (r : RegDef) : State :=
  match r.off with
  | 0x2000 => s.pwrHold q.actor h j v
  | 0x1000 => s.domWrite q.actor h j v
  | 0x480 => s.pwrWatch q.actor h v
  | 0x600 => s.backWrite q.actor h v
  | 0x800 => s.engTest q.actor h v
  | _ => s.plainWrite q h j v r

def State.writePrt (s : State) (q : Requester) (h j v : Nat) (r : RegDef) : State :=
  match r.off with
  | 0x200 => { s.plainWrite q h j v r with prt := { s.prt with iotu := SMap.set [] s.prt.iotu (4 * h + j) [] } }
  | 0x280 => s.cxlWin q.actor h j v
  | 0x4000 => s.ethCfg q.actor h j v
  | 0x4008 => s.ethMac q.actor h j v
  | 0x20000 => s.ethTail q.actor h j (v % 4096) false
  | 0x20008 => s.ethTail q.actor h j (v % 4096) true
  | _ => s.plainWrite q h j v r

/-- A write of a word to a register beyond the header, on a block that takes it. -/
def State.applyWrite (s : State) (q : Requester) (cls inst j v : Nat) (r : RegDef) : State :=
  match cls with
  | 0x01 => if r.off = 0x100 then s.knxStart q.actor inst v else s.plainWrite q inst j v r
  | 0x02 => s.writeSlt q inst j v r
  | 0x03 => s.writeDsp q inst j v r
  | 0x05 => s.writeSvc q inst j v r
  | 0x06 => s.writeHpn q inst j v r
  | 0x07 => s.writePot q inst j v r
  | 0x08 => s.writeStr q inst j v r
  | 0x09 => s.writeVrv q inst j v r
  | 0x0A => s.writeTif q inst j v r
  | 0x0B => s.writeEvh q inst j v r
  | 0x0C => s.writeKao q inst j v r
  | 0x0D => s.writeDmc q inst j v r
  | 0x0E => s.writeRas q inst j v r
  | 0x0F => s.writePwr q inst j v r
  | 0x10 => if r.off = 0x100 then s.wthCtl q.actor inst v else s.plainWrite q inst j v r
  | 0x11 => if r.off = 0x200 then s.hpodWrite q.actor (halfOf inst) v else s.plainWrite q inst j v r
  | 0x12 => s.writePrt q inst j v r
  | _ => s.plainWrite q inst j v r

/-- The writes that R33 does not hold: those of TIF and VRV, and what a chapter names as frozen or as acted on while the block
is not ON. -/
def neverHeld (cls off : Nat) : Bool :=
  cls == Cls.tif || cls == Cls.vrv
    || (cls == Cls.pot && potFrozen off)
    || (cls == Cls.hpn && (off == 0x200 || off == 0x208))
    || (cls == Cls.dmc && (off == 0x100 || off == 0x200 || off == 0x208 || off == 0x300))
    || (cls == Cls.prt && (off == 0x4000 || off == 0x4008))

/-- The 64-bit word that a store of `size` bytes at byte `o` of a register writes: other RW fields keep their value, and the
other fields' bits are 0. -/
def State.mergeWord (s : State) (i j o size v : Nat) (fs : List Fld) : Nat :=
  if size = 8 then v
  else
    let keep := fs.foldl (fun w f => if f.ty = .rw then w + s.rf f i j % 2 ^ f.width * 2 ^ f.lo else w) 0
    let m := (2 ^ 32 - 1) * 2 ^ (8 * o)
    (keep &&& (allOnes - m)) ||| (v % 2 ^ 32 * 2 ^ (8 * o))

/-- Apply the writes held for a block that has reached ON, oldest first (R33). -/
def State.applyHeld (s : State) (cls inst : Nat) : State :=
  let k := blkKey cls inst
  let ws := SMap.get [] s.heldWrites k
  ws.foldl (fun (s : State) w =>
    let o := w.off % 8
    match regAt cls inst (w.off - o) with
    | some (r, i, j) =>
      s.applyWrite w.q cls inst j (s.mergeWord (if primaryOnly r then 0 else i) j o w.size w.value r.fields) r
    | none => s) { s with heldWrites := SMap.set [] s.heldWrites k [] }

/-! ## Accesses by address (R25) -/

/-- The access is one that the DRS takes. -/
def drsWellFormed (a size : Nat) : Bool := (size == 4 || size == 8) && a % size == 0 && drsNames a

/-- A field overlaps the bits of a register word that an access of `size` bytes at offset `o` of it touches. -/
def Fld.touched (f : Fld) (o size : Nat) : Bool := f.lo < 8 * (o + size) && 8 * o < f.lo + f.width

/-- The word of the RAS record buffer at an offset of its page (R379); a record's number is not given before a log
takes it. -/
def State.rasBufferWord (s : State) (h off : Nat) : Nat × State :=
  match (s.rasHalf h).buffer[(off - 0x1000) / 64]? with
  | none => (0, s)
  | some r => let (n, s) := s.drawFree; (ofLe (((r.bytes (n % 65536)).drop (off % 64)).take 8), s)

/-- A register's word, with what a read of it does beside clearing RC fields (R135, R317, R378, R437). -/
def State.readWord (s : State) (cls inst off o size : Nat) : Nat × State :=
  if cls = Cls.ras && 0x1000 ≤ off then (if off < 0x1400 then s.rasBufferWord inst off else (0, s))
  else match regAt cls inst off with
    | none => (0, s)
    | some (r, i, j) =>
      if primaryOnly r && s.sys.primary.val != inst then (0, s)
      else
        let i := if primaryOnly r then 0 else i
        let l := 128 * inst + j
        let ans := fun (t : State) => (t.out.value, t)
        if cls = Cls.evh && r.off = 0x10000 then ans (s.claim l 0)
        else if cls = Cls.evh && r.off = 0x10010 then ans (s.claim l 1)
        else if cls = Cls.evh && r.off = 0x4000 then ans (s.claim l 2)
        else
          let w := s.regWord i j r.fields
          let s := s.clearRC i j (r.fields.filter fun f => f.touched o size)
          let s := if cls = Cls.pot && r.off = 0x168 then
              { s with sys := { s.sys with potSpent := SMap.set false s.sys.potSpent inst false } }
            else if cls = Cls.prt && r.off = 0x240 then s.ioFaultSeen inst
            else if cls = Cls.ras && r.off = 0x138 then s.updRas inst fun x => { x with a6Spent := false }
            else s
          (w, s)

/-- A load from the DRS after its page check: the value, 0 where the access is not one the DRS takes. -/
def State.drsLoad (s : State) (q : Requester) (a size : Nat) : Nat × State :=
  if !drsWellFormed a size then (0, s.noBlock q)
  else
    let (cls, inst, off) := drsParts a
    let o := off % 8
    let (w, s) := s.readWord cls inst (off - o) o size
    (w / 2 ^ (8 * o) % 2 ^ (8 * size), s)

/-- A store to the DRS after its page check. -/
def State.drsStore (s : State) (q : Requester) (a size v : Nat) : State :=
  if !drsWellFormed a size then s.noBlock q
  else
    let (cls, inst, off) := drsParts a
    let o := off % 8
    match regAt cls inst (off - o) with
    | none => s
    | some (r, i, j) =>
      if off - o = 8 then (if o = 0 then s.enableWrite q cls inst v else s)
      else if !r.fields.any fun f => f.writers != 0 && f.touched o size then s
      else
        let i := if primaryOnly r then 0 else i
        if s.blkOn cls inst || neverHeld cls r.off then
          s.applyWrite q cls inst j (s.mergeWord i j o size v r.fields) r
        else { s with heldWrites := SMap.upd [] s.heldWrites (blkKey cls inst) (· ++ [⟨q, off, size, v⟩]) }

/-- A load from the DRS by address: none when the page refuses it (R10). In the lost half it reads poison, which a requester that can
carry it looks for in `cutOff` (R292). -/
def State.drsRead (s : State) (q : Requester) (a size : Nat) : Option Nat × State :=
  match s.cutOff a with
  | some src => (some 0, s.drsLost q a src)
  | none =>
    let v := s.potCheck q .read a
    if v.ok then let (x, s) := s.drsLoad q a size; (some x, s) else (none, s.refuse q .read a v)

/-- A store to the DRS by address: false when the page refuses it. In the lost half it is discarded (R292). -/
def State.drsWrite (s : State) (q : Requester) (a size v : Nat) : Bool × State :=
  match s.cutOff a with
  | some src => (true, s.drsLost q a src)
  | none =>
    let d := s.potCheck q .write a
    if d.ok then (true, s.drsStore q a size v) else (false, s.refuse q .write a d)

end Sys2Proof.Machine
end

