-- ==== Sys2Proof/Machine/Blocks.lean ====
section
/-!
DEFINITION. Blocks: the block state machine's events (R31 to R33), claims and releases as commands of their own (R34 to R37),
and the device accesses of Knaxa cores at their targets (R270, R434).
-/
namespace Sys2Proof.Machine

/-! ## Register stores -/

/-- REGISTER_WRITE: a store of `size` bytes at an address of the DRS. -/
def execRegisterWrite (q : Requester) (a : BitVec 52) (size : Fin 33) (v : Word) (s : State) : Out3 :=
  .next (if s.region a.toNat = .drs then (s.drsWrite q a.toNat size.val v.toNat).2 else s)

/-- ENABLE_WRITE. -/
def execEnableWrite (q : Requester) (cls : Fin 19) (inst : Fin 4096) (en : Bool) (s : State) : Out3 :=
  .next (s.drsWrite q (drsAddr cls.val inst.val 8) 8 (b2n en)).2

/-! ## The state machine -/

/-- The class and the instance name a block. -/
def blkThere (cls inst : Nat) : Bool := inst < clsCount cls

/-- What reaching ON starts, class by class. -/
def State.blkUp (s : State) (cls inst : Nat) : State :=
  let s := s.applyHeld cls inst
  if cls = Cls.slt then s.moveCheck inst
  else if cls = Cls.svc then (clusterEngines inst).foldl State.moveCheck s
  else if cls = Cls.kao then s.kaoOn inst
  else if cls = Cls.vrv then s.logCheck
  else if cls = Cls.ras then s.rasDrain inst
  else if cls = Cls.clt then s.dspInsertAll inst
  else if cls = Cls.tif then s.shadow inst
  else if cls = Cls.evh && s.tlt.strapEvent then
    { s with tlt := { s.tlt with strapEvent := false } }.raiseBoth 0x0E1 .both 0
  else s

/-- START_DONE: a block in STARTING reaches ON; through restart_pending it raises EV 0x011 (R31, R32). -/
def execStartDone (cls : Fin 19) (inst : Fin 4096) (s : State) : Out3 :=
  let c := cls.val
  let i := inst.val
  let k := blkKey c i
  if !blkThere c i || s.blkState c i != 1 then .next s
  else
    let s := (s.setf Reg.PFX_STATE.state k 2).setf Reg.PFX_STATE.last_status k Status.ok
    let back := SMap.get false s.viaRestart k
    let s := { s with viaRestart := SMap.set false s.viaRestart k false }
    .next ((if back then s.blockEvent c i true else s).blkUp c i)

/-- The work that STOPPING waits for is over: the move of an engine or of a cluster's engines (R70, R472), running Kaolin jobs
(R344), a migration (R365), a TI's tasks (R298). -/
def State.stopReady (s : State) (cls inst : Nat) : Bool :=
  if cls = Cls.slt then !s.isMember inst && !s.leaving inst
  else if cls = Cls.svc then (clusterEngines inst).all fun e => !s.isMember e && !s.leaving e
  else if cls = Cls.kao then (s.kaoOf inst).chans.all fun p => p.2.job.isNone
  else if cls = Cls.dmc then (s.chan inst).migration.isNone
  else if cls = Cls.tif then s.tiStopOk inst
  else true

/-- A cluster reset's effect at OFF (R472). -/
def State.svcClear (s : State) (c : Nat) : State :=
  let s := s.updCluster c fun k => { k with images := [], load := none, sram := [], sramPoison := [] }
  let s := (List.range 4).foldl (fun s j => Reg.SVC_IMG.reg.fields.foldl (fun s f => s.resetFld f c j) s) s
  let s := (List.range 32).foldl (fun s j =>
    (((s.setf Reg.SVC_POOL_IMG.bound c 0 j).setf Reg.SVC_SRAM_WIN.assigned c 0 j).setf Reg.SVC_SRAM_WIN.zeroing c 0 j)) s
  (clusterEngines c).foldl (fun s e =>
    let s := ((s.resetFld Reg.SLT_LFSR.value e).resetFld Reg.SLT_COUNT.tasks e).resetFld Reg.SLT_COUNT.misses e
    let s := s.resetFld Reg.SLT_FAULT.count e
    if (s.eng e).lfsrNew.isSome then s.updEng e fun k => { k with lfsrNew := none } else s) s

/-- What reaching OFF clears, class by class. -/
def State.blkDown (s : State) (cls inst : Nat) : State :=
  if cls = Cls.knx then s.flushCore inst
  else if cls = Cls.svc then s.svcClear inst
  else if cls = Cls.kao then s.kaoOff inst
  else s

/-- STOP_DONE: a block in STOPPING reaches OFF, or STARTING again when restart_pending is set (R31). -/
def execStopDone (cls : Fin 19) (inst : Fin 4096) (s : State) : Out3 :=
  let c := cls.val
  let i := inst.val
  let k := blkKey c i
  if !blkThere c i || s.blkState c i != 3 || !s.stopReady c i then .next s
  else if c = Cls.tif then .next (s.tiOff i)
  else
    let s := (s.setf Reg.PFX_STATE.state k 0).blkDown c i
    .next (if s.rb Reg.PFX_STATE.restart_pending k then
      { (s.setf Reg.PFX_STATE.restart_pending k 0).blkStart c i with viaRestart := SMap.set false s.viaRestart k true }
    else s)

/-- A block enters FAULT, and what its class does then. -/
def State.blkFail (s : State) (cls inst status : Nat) : State :=
  let s := if s.blkOn cls inst && cls = Cls.ras then s.passStop inst else s
  let s := { s.blockFault cls inst status with viaRestart := SMap.set false s.viaRestart (blkKey cls inst) false }
  if cls = Cls.vrv then s.logCheck else s

/-- BLOCK_FAULT: the block finds a fault in STARTING, ON or STOPPING. -/
def execBlockFault (cls : Fin 19) (inst : Fin 4096) (status : Byte) (s : State) : Out3 :=
  let st := s.blkState cls.val inst.val
  .next (if blkThere cls.val inst.val && 1 ≤ st && st ≤ 3 && Status.listed status.toNat then s.blkFail cls.val inst.val status.toNat else s)

/-- The state has a time limit: SLT's and DMC's STOPPING have none (R70, R365). -/
def State.blkLimited (s : State) (cls inst : Nat) : Bool :=
  s.blkState cls inst == 1 || (s.blkState cls inst == 3 && cls != Cls.slt && cls != Cls.dmc)

/-- BLOCK_TIMEOUT (R32). -/
def execBlockTimeout (cls : Fin 19) (inst : Fin 4096) (s : State) : Out3 :=
  .next (if blkThere cls.val inst.val && s.blkLimited cls.val inst.val then s.blkFail cls.val inst.val Status.timeout else s)

/-- PRT_BLOCK_EVT_READ. -/
def execPrtBlockEvtRead (q : Requester) (h : Half) (s : State) : Out3 :=
  .next (s.readCmd q Cls.prt h.val Reg.PRT_BLOCK_EVT.reg 0 id)

/-! ## Claims (R34 to R37) -/

/-- The place of a claimant in the order of R36. -/
def claimRank : Actor → Nat
  | .h => 0 | .m => 1 | .v => 2 | .t => 3 | .io => 4

/-- Claims in the order of R36; claims of one actor on one entry keep their order. -/
def orderClaims (l : List (Requester × Fin 64)) : List (Requester × Fin 64) :=
  [0, 1, 2, 3].flatMap fun r => l.filter fun c => claimRank c.1.actor == r

/-- The actors that R37 lets claim a shared land. -/
def landClaimant (n : Nat) (a : Actor) : Bool :=
  if n = 64 then a == .t || a == .h else a == .m || a == .t || a == .h

/-- An enable written 1 that claims entry `n`: a comparator's, a save slot's for a channel, or that of a shared land's feature,
which has no register of its own (log entry 23). -/
def State.claimFeature (s : State) (n : Nat) (q : Requester) (chan : Nat) : State :=
  if n < 64 then s.writeReg q Cls.str s.strP (0x1010 + 32 * n) 1 fun s => s.cmpCtl q.actor n 1
  else if n < 66 then
    if !landClaimant n q.actor then s
    else if n = 64 then (s.claimTry n q.actor (if q.actor = .h then Cls.hpn else Cls.prt) 0).2
    else (s.claimTry n q.actor Cls.prt s.strP).2
  else
    let h := (n - 66) / 32
    let slot := (n - 66) % 32
    s.writeReg q Cls.kao h (0xC00 + 8 * slot) (1 + 2 * chan) fun s => s.slotClaim q.actor h slot (1 + 2 * chan)

/-- RESOURCE_CLAIM: the claims on one entry that arrive in one mc, each with the Kaolin channel that it names for a save
slot. -/
def execResourceClaim (n : Fin 130) (claims : List (Requester × Fin 64)) (s : State) : Out3 :=
  .next ((orderClaims claims).foldl (fun (s : State) c => s.claimFeature n.val c.1 c.2.val) s)

/-- RESOURCE_RELEASE: the owner writes its enable 0. -/
def execResourceRelease (n : Fin 130) (q : Requester) (s : State) : Out3 :=
  let n := n.val
  .next (
    if n < 64 then s.writeReg q Cls.str s.strP (0x1010 + 32 * n) 0 fun s => s.cmpCtl q.actor n 0
    else if n < 66 then
      if s.claimHeld n && s.rf Reg.PRT_CLAIM.owner_actor 0 n == q.actor.code && landClaimant n q.actor then s.claimDrop n else s
    else
      let h := (n - 66) / 32
      let slot := (n - 66) % 32
      s.writeReg q Cls.kao h (0xC00 + 8 * slot) 0 fun s =>
        if Reg.KAO_SLOT.enable.admits q.actor then s.slotRelease h slot else s)

/-- PRT_CLAIM_READ. -/
def execPrtClaimRead (q : Requester) (h : Half) (n : Fin 130) (s : State) : Out3 :=
  .next (s.readCmd q Cls.prt h.val Reg.PRT_CLAIM.reg n.val id)

/-! ## Device accesses at their targets (R270, R434) -/

/-- Take a core's access of one direction off the way to its home. -/
def State.devTake (s : State) (c : Nat) (write : Bool) : Option (DevAcc × State) :=
  match s.coh.dev.find? fun d => d.core.val == c with
  | some d => if d.write = write then some (d, { s with coh := { s.coh with dev := s.coh.dev.erase d } }) else none
  | none => none

/-- An element is answered: the next one leaves, or the instruction ends. -/
def State.devNext (s : State) (c v : Nat) : State :=
  match (s.core c).wait with
  | .device w left got => (s.goDev c w (left.drop 1) (v :: got)).tlbiNotes
  | _ => s

/-- The form of a vector access, if the instruction is one. -/
def devForm (w : IWord) : Option VAddr :=
  match kxOp w with
  | some .vld | some .vst => some .contiguous
  | some .vlds | some .vsts => some .strided
  | some .pld | some .pst => some .predicate
  | _ => none

/-- A vector instruction waits: each of its elements was checked before the first was sent, and none is refused later (R258,
R262). -/
def State.devChecked (s : State) (c : Nat) : Bool :=
  match (s.core c).wait with
  | .device w _ _ => (devForm w).isSome
  | _ => false

/-- The element in flight fails: its exception is taken on the waiting instruction; that of PLD and PST names no element (R260). -/
def State.devFault (s : State) (c cause : Nat) : State :=
  match (s.core c).wait with
  | .device w _ got =>
    let k := s.core c
    let acc : KxAcc := if kxStores w then .store else .load
    let e : WalkFlt := ⟨cause, 0, 0, false, false, none⟩
    let f := match devForm w with
      | some form =>
        let r := (k.vRefs w form).getD got.length (0, 0)
        accFlt acc r.2 (kxAccSize w) (if form = .predicate then none else some r.1) e
      | none => accFlt acc (k.ea w) (kxAccSize w) none e
    ((s.updCore c fun k => { k with wait := .none }).fault c f).tlbiNotes
  | _ => s

/-- An address of the PCIe configuration windows (R21). -/
def pcieConfig (a : Nat) : Bool := a < 0xD000080000000

/-- A core's device read consumes poison: a UEr with the source given, and POISON. -/
def State.devPoison (s : State) (c a src : Nat) : State :=
  let r := s.mkRec 2 src Status.poisoned (coreStop c) a c (coreStop c)
  (s.logError (coreHalf c) { r with hardpan := (s.core c).hard }).devFault c Cause.poison

/-- A core's read of a PCIe memory window fails (R434). -/
def State.pcieFail (s : State) (c a : Nat) : State := s.devPoison c a 0x42

/-- A device read of memory that the translation maps as device memory. -/
def State.devMemRead (s : State) (c : Nat) (d : DevAcc) : State :=
  let q := s.coreReq c
  match if s.devChecked c then s.readChecked q d.addr d.size else s.readMem q .read d.addr d.size with
  | (.data bs false, s) => s.devNext c (ofLe bs)
  | (.data _ true, s) => s.devPoison c d.addr 0x40
  | (.refused, s) => s.devFault c Cause.ownership
  | (.unmapped, s) => s.devFault c Cause.unmapped

/-- A device read at a register block. -/
def State.devDrsRead (s : State) (c : Nat) (d : DevAcc) : State :=
  let q := s.coreReq c
  match if s.devChecked c then (let (v, s) := s.drsLoad q d.addr d.size; (some v, s)) else s.drsRead q d.addr d.size with
  | (some v, s) => s.devNext c v
  | (none, s) => s.devFault c Cause.ownership

/-- DEV_READ: `r` is how the device behind a PCIe window completes. A configuration read that ends in Completer Abort has no
stated data: it is a free value. A range that is cut off reads as poison (R292). -/
def execDevRead (c : CoreId) (r : Completion) (s : State) : Out3 :=
  let n := c.val
  .next (match s.devTake n false with
  | none => s
  | some (d, s) =>
    match s.cutOff d.addr, s.region d.addr with
    | some src, _ => s.devPoison n d.addr src
    | none, .drs => s.devDrsRead n d
    | none, .pcie _ =>
      match r with
      | .data v => s.devNext n (v.toNat % 2 ^ (8 * d.size))
      | .unsupported => if pcieConfig d.addr then s.devNext n (2 ^ (8 * d.size) - 1) else s.pcieFail n d.addr
      | .abort =>
        if pcieConfig d.addr then let (v, s) := s.drawFree; s.devNext n (v % 2 ^ (8 * d.size)) else s.pcieFail n d.addr
    | none, _ => s.devMemRead n d)

/-- A posted write for a PCIe window leaves through its port. -/
def pcieWrite (d : DevAcc) : List Byte := leBytes 8 d.addr ++ leBytes d.size d.value

/-- DEV_WRITE: the home accepts the oldest device write of a core; one to a range that is cut off is discarded (R292). -/
def execDevWrite (c : CoreId) (s : State) : Out3 :=
  let n := c.val
  .next (match s.devTake n true with
  | none => s
  | some (d, s) =>
    let q := s.coreReq n
    match s.cutOff d.addr, s.region d.addr with
    | some src, _ => (s.discardWrite n d.addr src).devNext n 0
    | none, .drs =>
      if s.devChecked n then (s.drsStore q d.addr d.size d.value).devNext n 0
      else match s.drsWrite q d.addr d.size d.value with
        | (true, s) => s.devNext n 0
        | (false, s) => s.devFault n Cause.ownership
    | none, .pcie _ => (s.sendFrame (pcieWrite d)).devNext n 0
    | none, _ =>
      if s.devChecked n then (s.writeChecked q d.addr (leBytes d.size d.value)).devNext n 0
      else match s.writeMem q d.addr (leBytes d.size d.value) with
        | (.data _ _, s) => s.devNext n 0
        | (.refused, s) => s.devFault n Cause.ownership
        | (.unmapped, s) => s.devFault n Cause.unmapped)

/-- COMPLETION_TIMEOUT: a core's read of a PCIe window gets no completion. What a configuration read returns then is not
stated: it is a free value. -/
def execCompletionTimeout (c : CoreId) (s : State) : Out3 :=
  let n := c.val
  .next (match s.devTake n false with
  | none => s
  | some (d, t) =>
    match s.region d.addr with
    | .pcie _ =>
      if pcieConfig d.addr then let (v, t) := t.drawFree; t.devNext n (v % 2 ^ (8 * d.size)) else t.pcieFail n d.addr
    | _ => s)

end Sys2Proof.Machine
end

