-- ==== Sys2Proof/Machine/Inbound.lean ====
section
/-!
DEFINITION. Inbound: requests from PCIe and CXL requesters (R435 to R437), Ethernet frames (R440 to R443) and the debug access
port (R146, R447).
-/
namespace Sys2Proof.Machine

/-! ## Translation (R435 to R437) -/

/-- An IOTU's table entry: read through its cache of 2,048 entries, which keeps it until POT_INVAL empties it or another entry
takes its place (log entry 250). A poisoned entry is none. -/
def State.iotuEntry (s : State) (p rid : Nat) : Nat × State :=
  match SMap.get 0 (SMap.get [] s.prt.iotu p) rid with
  | n + 1 => (n, s)
  | 0 =>
    let a := s.rf Reg.PRT_IO_RID.base (p / 4) (p % 4) * 4096 + 8 * rid
    let e := if s.mem.anyPoison a 8 then 0 else ofLe (peekList s.peek a 8)
    let room := fun (m : SMap Nat) => if m.length < 2048 then m else m.eraseIdx (Config.victimWay s.coh.fills % 2048)
    (e, { s with prt := { s.prt with iotu := SMap.upd [] s.prt.iotu p fun m => SMap.set 0 (room m) rid (e + 1) },
                 coh := { s.coh with fills := s.coh.fills + 1 } })

/-- A stage-2 walk from a table as the IOTU reads it: the physical address, when a valid leaf has the right. -/
def State.ioWalk (s : State) (write : Bool) (a : Nat) : List Nat → Nat → Option Nat
  | [], _ => none
  | l :: ls, base =>
    let ea := base + 8 * walkIndex a l 1
    let e := ofLe (peekList s.peek ea 8)
    if s.mem.anyPoison ea 8 || badEntry e l then none
    else if bitOf e 1 then (if bitOf e (if write then 3 else 2) then some ((Leaf.mk e l ea).out a) else none)
    else s.ioWalk write a ls (bitsOf e 51 12 * 4096)

/-- The physical address and the tenant of an inbound access; none is a translation fault. -/
def State.ioTranslate (s : State) (p rid bus : Nat) (write : Bool) : Option (Nat × Nat) × State :=
  if !s.rb Reg.PRT_IO_RID.enable (p / 4) (p % 4) then (none, s)
  else
    let (e, s) := s.iotuEntry p rid
    if !bitOf e 0 || bitsOf e 11 2 != 0 then (none, s)
    else if !bitOf e 1 then (some (bus, bitsOf e 63 52), s)
    else if bus / 2 ^ 52 != 0 then (none, s)
    else
      match s.ioWalk write bus [0, 1, 2, 3, 4] (bitsOf e 51 12 * 4096) with
      | some a => (some (a, bitsOf e 63 52), s)
      | none => (none, s)

/-- A translation fault is recorded, with EV 0x0F3 once between reads of PRT_IO_FAULT. -/
def State.ioFault (s : State) (p rid : Nat) (write : Bool) : State :=
  let h := p / 4
  let s := ((s.setf Reg.PRT_IO_FAULT.rid h rid).setf Reg.PRT_IO_FAULT.port h (p % 4)).setf Reg.PRT_IO_FAULT.write h (b2n write)
  let s := s.addf Reg.PRT_IO_FAULT.count h
  if SMap.get false s.sys.ioSpent h then s
  else ({ s with sys := { s.sys with ioSpent := SMap.set false s.sys.ioSpent h true } }).raise 0x0F3 .topsoil h 0

/-- The requester behind a port: its tenant, at the P stop (R132, R134). -/
def ioReq (p tenant : Nat) : Requester :=
  ⟨.io, .io, .topsoil, BitVec.ofNat 12 tenant, halfOf (p / 4), BitVec.ofNat 9 (portStop p)⟩

/-- PCIe completion codes: Successful Completion, Unsupported Request, Completer Abort. -/
def cplOk : Nat := 0
def cplUr : Nat := 1
def cplCa : Nat := 4

/-- Complete a read: its status, its data, and in `value` the EP bit. -/
def State.ioComplete (s : State) (status ep : Nat) (bs : List Byte) : State :=
  { s with out := { s.out with value := ep, status := status, resp := bs } }

/-- An inbound request lies within one 4 KiB page, as PCIe requires. -/
def ioShape (bus n : Nat) : Bool := 1 ≤ n && n ≤ 4096 && bus % 4096 + n ≤ 4096

/-- A translated read at its target. -/
def State.ioRead (s : State) (q : Requester) (a n : Nat) : State :=
  match s.region a with
  | .pcie _ => s.ioComplete cplUr 0 []
  | .drs =>
    match s.drsRead q a n with
    | (some v, t) => t.ioComplete cplOk (b2n (s.cutOff a).isSome) (leBytes n v)
    | (none, t) => t.ioComplete cplCa 0 []
  | _ =>
    match s.readMem q .read a n with
    | (.data bs false, s) => s.ioComplete cplOk 0 bs
    | (.data bs true, s) =>
      (s.logError q.half.val (s.mkRec 2 0x42 Status.poisoned q.stop.toNat a 0 q.stop.toNat)).ioComplete cplOk 1 bs
    | (.refused, s) => s.ioComplete cplCa 0 []
    | (.unmapped, s) => s.ioComplete cplUr 0 []

/-- INBOUND_READ. -/
def execInboundRead (p : Fin 8) (rid : BitVec 16) (bus : Word) (n : Fin 4097) (s : State) : Out3 :=
  if !s.portsUp (p.val / 4) || !ioShape bus.toNat n.val then .next s
  else match s.ioTranslate p.val rid.toNat bus.toNat false with
    | (none, s) => .next ((s.ioFault p.val rid.toNat false).ioComplete cplUr 0 [])
    | (some (a, t), s) => .next (s.ioRead (ioReq p.val t) a n.val)

/-- Poison every granule that `n` bytes at `a` touch. -/
def State.poisonRange (s : State) (a n : Nat) : State :=
  if n = 0 then s
  else (List.range ((a + n - 1) / 32 - a / 32 + 1)).foldl (fun s k => s.setPoison (a / 32 + k) true) s

/-- A translated write at its target; with EP its granules are written poisoned (R375). -/
def State.ioWrite (s : State) (q : Requester) (a : Nat) (bs : List Byte) (ep : Bool) : State :=
  match s.region a with
  | .pcie _ => s
  | .drs => (s.drsWrite q a bs.length (ofLe bs)).2
  | _ =>
    match s.writeMem q a bs with
    | (.data _ _, s) =>
      if !ep then s
      else (s.poisonRange a bs.length).logError q.half.val (s.mkRec 1 0x42 Status.poisoned q.stop.toNat a 0 q.stop.toNat)
    | (_, s) => s

/-- INBOUND_WRITE: `ep` is the TLP's poison bit. -/
def execInboundWrite (p : Fin 8) (rid : BitVec 16) (bus : Word) (bs : List Byte) (ep : Bool) (s : State) : Out3 :=
  if !s.portsUp (p.val / 4) || !ioShape bus.toNat bs.length then .next s
  else match s.ioTranslate p.val rid.toNat bus.toNat true with
    | (none, s) => .next (s.ioFault p.val rid.toNat true)
    | (some (a, t), s) => .next (s.ioWrite (ioReq p.val t) a bs ep)

/-! ## Frames (R440 to R443) -/

/-- CRC-32C, bit by bit. -/
def crc32cByte : Nat → Nat → Nat
  | 0, c => c
  | n + 1, c => crc32cByte n (if c % 2 = 1 then (c / 2) ^^^ 0x82F63B78 else c / 2)

def crc32c (bs : List Byte) : Nat := (bs.foldl (fun x b => crc32cByte 8 (x ^^^ b.toNat)) 0xFFFFFFFF) ^^^ 0xFFFFFFFF

/-- `n` bytes of a frame at an offset. -/
def cut (f : List Byte) (off n : Nat) : List Byte := (f.drop off).take n

def beAt (f : List Byte) (off n : Nat) : Nat := ofBe (cut f off n)

/-- Replace bytes of a frame. -/
def patch (f : List Byte) (off : Nat) (bs : List Byte) : List Byte := f.take off ++ bs ++ f.drop (off + bs.length)

/-- The frame has an 802.1Q tag. -/
def tagged (f : List Byte) : Bool := beAt f 12 2 == 0x8100
def vlanId (f : List Byte) : Nat := beAt f 14 2 % 4096
/-- Where the payload of the last EtherType begins. -/
def l3Off (f : List Byte) : Nat := if tagged f then 18 else 14
def etherType (f : List Byte) : Nat := beAt f (l3Off f - 2) 2

/-- What a frame carries in IP: source and destination addresses, protocol, offset and length of its payload, and whether it
is IPv6. -/
structure IpPart where
  src : List Byte
  dst : List Byte
  proto : Nat
  off : Nat
  len : Nat
  six : Bool
deriving DecidableEq, Repr

/-- The IP packet of a frame; none for a frame that is not IP. A fragment's protocol counts as none. -/
def ipPart (f : List Byte) : Option IpPart :=
  let o := l3Off f
  let v := (f.getD o 0).toNat
  if etherType f = 0x0800 && v / 16 = 4 && o + 20 ≤ f.length then
    let head := 4 * (v % 16)
    let fragment := beAt f (o + 6) 2 % 2 ^ 14 != 0
    some ⟨cut f (o + 12) 4, cut f (o + 16) 4, if fragment then 0 else (f.getD (o + 9) 0).toNat, o + head,
      beAt f (o + 2) 2 - head, false⟩
  else if etherType f = 0x86DD && v / 16 = 6 && o + 40 ≤ f.length then
    some ⟨cut f (o + 8) 16, cut f (o + 24) 16, (f.getD (o + 6) 0).toNat, o + 40, beAt f (o + 4) 2, true⟩
  else none

/-- The packet carries TCP or UDP. -/
def IpPart.ported (x : IpPart) (f : List Byte) : Bool :=
  (x.proto == 6 || x.proto == 17) && 8 ≤ x.len && x.off + x.len ≤ f.length

/-- Where the checksum of the TCP or UDP header stands. -/
def IpPart.sumOff (x : IpPart) : Nat := x.off + (if x.proto = 6 then 16 else 6)

/-- The pseudo-header. -/
def IpPart.pseudo (x : IpPart) : List Byte :=
  x.src ++ x.dst ++ (if x.six then beBytes 4 x.len ++ beBytes 4 x.proto else beBytes 2 x.proto ++ beBytes 2 x.len)

/-- The TCP or UDP checksum of a packet is good; a UDP checksum of 0 is none. -/
def IpPart.sumGood (x : IpPart) (f : List Byte) : Bool :=
  x.ported f && !(x.proto == 17 && beAt f x.sumOff 2 == 0) && fold16 (sum16 (x.pseudo ++ cut f x.off x.len)) == 65535

/-- The frame with the packet's checksum computed. -/
def IpPart.sumSet (x : IpPart) (f : List Byte) : List Byte :=
  let z := patch f x.sumOff [0, 0]
  let c := 65535 - fold16 (sum16 (x.pseudo ++ cut z x.off x.len))
  patch f x.sumOff (beBytes 2 (if c = 0 && x.proto = 17 then 65535 else c))

/-- h of R440. What an IP frame without TCP or UDP ports hashes is not stated: a free value. -/
def State.frameHash (s : State) (f : List Byte) : Nat × State :=
  match ipPart f with
  | none => (0, s)
  | some x =>
    if x.ported f then (crc32c (x.src ++ x.dst ++ cut f x.off 4), s)
    else let (v, s) := s.drawFree; (v % 2 ^ 32, s)

/-- The stamp of a frame: within 4 ns of master time with trims loaded, open without them (R443). -/
def State.frameStamp (s : State) : Nat × State :=
  let (v, s) := s.drawFree
  let d : Int := if s.sys.trimmed then (v % (8 * 65536 + 1) : Nat) - (4 * 65536 : Int) else (v % 2 ^ 40 : Nat) - (2 ^ 39 : Int)
  (strataBits ((s.strata.time : Int) + d).toNat, s)

/-- A queue takes frames of a sub-port, and its VLAN matches. -/
def State.queueTakes (s : State) (h x : Nat) (f : List Byte) (n : Nat) : Bool :=
  s.rb Reg.PRT_ETHQ_CFG.enable h n && s.rf Reg.PRT_ETHQ_CFG.subport h n == x &&
    (if s.rb Reg.PRT_ETHQ_MAC.vlan_en h n then tagged f && vlanId f == s.rf Reg.PRT_ETHQ_MAC.vlan h n else !tagged f)

/-- The queue that a frame goes to. -/
def State.rxQueue (s : State) (h x : Nat) (f : List Byte) (hash : Nat) : Option Nat :=
  let qs := (List.range 128).filter (s.queueTakes h x f)
  if bitOf (f.getD 0 0).toNat 0 then (qs.filter fun n => s.rb Reg.PRT_ETHQ_CFG.mcast h n).head?
  else
    let ms := qs.filter fun n => s.rf Reg.PRT_ETHQ_MAC.mac h n == beAt f 0 6
    if ms.isEmpty then none else ms[hash % ms.length]?

/-- A DMA access was refused: the descriptor shows OWNERSHIP where it can be written, and pot counts. -/
def State.ethRefused (s : State) (h n a : Nat) : State := (s.ethStatus h n a Status.ownership).addf Reg.PRT_ETH_COUNT.pot h

/-- A DMA read met poison. -/
def State.ethPoisoned (s : State) (h n a : Nat) : State :=
  let s := s.logError h (s.mkRec 2 0x43 Status.poisoned (nStop h) a n (nStop h))
  (s.ethStatus h n a Status.poisoned).addf Reg.PRT_ETH_COUNT.poison h

/-- Step a ring's next entry. -/
def State.rxStep (s : State) (h n : Nat) : State :=
  let k := ethKey h n
  { s with prt := { s.prt with rxNext := SMap.set 0 s.prt.rxNext k ((SMap.get 0 s.prt.rxNext k + 1) % s.ethSize h n) } }

def State.txStep (s : State) (h n : Nat) : State :=
  let k := ethKey h n
  { s with prt := { s.prt with txNext := SMap.set 0 s.prt.txNext k ((SMap.get 0 s.prt.txNext k + 1) % s.ethSize h n) } }

/-- A frame's delivery to a queue with a free descriptor at `a`. -/
def State.rxDeliver (s : State) (h n a : Nat) (f : List Byte) (hash : Nat) : State :=
  let q := s.ethReq h n
  match s.readMem q .read a 10 with
  | (.data d false, s) =>
    if ofLe (cut d 8 2) < f.length then s.ethStatus h n a Status.length
    else
      match s.writeMem q (ofLe (d.take 8)) f with
      | (.data _ _, s) =>
        let good := match ipPart f with | some x => x.sumGood f | none => false
        let (st, s) := s.frameStamp
        let d := leBytes 2 f.length ++ [BitVec.ofNat 8 (8 * b2n good + 16), 0, 1, 0, 0, 0] ++ leBytes 12 st ++ leBytes 4 hash
        match s.writeMem q (a + 8) d with
        | (.data _ _, s) => s
        | (_, s) => s.addf Reg.PRT_ETH_COUNT.pot h
      | (_, s) => s.ethRefused h n a
  | (.data _ true, s) => s.ethPoisoned h n a
  | (_, s) => s.ethRefused h n a

/-- A received frame of a length that the port takes. -/
def frameOk (f : List Byte) : Bool := 14 ≤ f.length && f.length ≤ 9216

/-- FRAME_RECEIVE: a frame, without its FCS, from sub-port `x` of a half's N stop. -/
def execFrameReceive (h : Half) (x : Fin 4) (f : List Byte) (s : State) : Out3 :=
  let n := h.val
  if !s.portsUp n || !SMap.get false s.sys.ethUp (4 * n + x.val) || !frameOk f then .next s
  else
    let (hash, s) := s.frameHash f
    .next (match s.rxQueue n x.val f hash with
    | none => s.addf Reg.PRT_ETH_COUNT.nomatch n
    | some c =>
      let i := SMap.get 0 s.prt.rxNext (ethKey n c)
      if i = SMap.get 0 s.prt.rxTail (ethKey n c) then s.addf Reg.PRT_ETH_COUNT.ring_full n
      else (s.rxStep n c).rxDeliver n c (s.rxDesc n c i) f hash)

/-- Where the PTP message of a frame begins: over Ethernet, or over UDP port 319. -/
def ptpOff (f : List Byte) : Option Nat :=
  if etherType f = 0x88F7 then some (l3Off f)
  else match ipPart f with
    | some x => if x.ported f && x.proto = 17 && beAt f (x.off + 2) 2 = 319 then some (x.off + 8) else none
    | none => none

/-- A one_step Sync with its stamp (R443). -/
def oneStep (f : List Byte) (stamp : Nat) : List Byte :=
  match ptpOff f with
  | none => f
  | some o =>
    if (f.getD o 0).toNat % 16 != 0 || f.length < o + 44 then f
    else
      let c := (beAt f (o + 8) 8 + stamp % 65536) % 2 ^ 64
      let g := patch (patch f (o + 34) (beBytes 6 (bitsOf stamp 95 48) ++ beBytes 4 (bitsOf stamp 47 16))) (o + 8) (beBytes 8 c)
      match ipPart g with
      | some x => if x.six then x.sumSet g else patch g x.sumOff [0, 0]
      | none => g

/-- A frame read whole is sent, and its descriptor written. -/
def State.txSend (s : State) (h n a flags : Nat) (f : List Byte) : State :=
  let f := if bitOf flags 0 then (match ipPart f with | some x => if x.ported f then x.sumSet f else f | none => f) else f
  let (st, s) := s.frameStamp
  let f := if bitOf flags 2 then oneStep f st else f
  let s := (s.sendFrame f).ethStatus h n a Status.ok
  if bitOf flags 1 || bitOf flags 2 then (s.writeMem (s.ethReq h n) (a + 0x10) (leBytes 12 st)).2 else s

/-- The frame of a descriptor at `a` is read and sent, or not (R442). -/
def State.txFrame (s : State) (h n a : Nat) : State :=
  let q := s.ethReq h n
  match s.readMem q .read a 11 with
  | (.data d false, s) =>
    let len := ofLe (cut d 8 2)
    if len < 14 || 9216 < len then s.ethStatus h n a Status.length
    else
      match s.readMem q .read (ofLe (d.take 8)) len with
      | (.data f false, s) => s.txSend h n a (d.getD 10 0).toNat f
      | (.data _ true, s) => s.ethPoisoned h n a
      | (_, s) => s.ethRefused h n a
  | (.data _ true, s) => s.ethPoisoned h n a
  | (_, s) => s.ethRefused h n a

/-- FRAME_TRANSMIT: the oldest pending TX descriptor of a queue, while its sub-port's link is up. -/
def execFrameTransmit (h : Half) (n : Fin 128) (s : State) : Out3 :=
  let x := s.rf Reg.PRT_ETHQ_CFG.subport h.val n.val
  if !s.portsUp h.val || !s.rb Reg.PRT_ETHQ_CFG.enable h.val n.val || !SMap.get false s.sys.ethUp (4 * h.val + x) then .next s
  else match s.txPending h.val n.val with
    | [] => .next s
    | i :: _ => .next ((s.txStep h.val n.val).txFrame h.val n.val (s.txDesc h.val n.val i))

/-! ## The debug access port (R146, R447) -/

/-- The debug access port of a half acts with the rights of a world's cores. -/
def dapReq (h : Half) : World → Requester
  | .topsoil => ⟨.topsoilCore, .t, .topsoil, 0, h, BitVec.ofNat 9 (tStop h.val)⟩
  | .hardpan => ⟨.hardpanWorld, .h, .hardpan, 0, h, BitVec.ofNat 9 (tStop h.val)⟩

/-- A read of pages: none where R132 does not allow it. What a PCIe device answers is a free value. -/
def State.dapRead (s : State) (q : Requester) (a n : Nat) : List Byte × State :=
  match s.region a with
  | .drs => let (v, s) := s.drsRead q a n; (leBytes n (v.getD 0), s)
  | .pcie _ =>
    match s.cutOff a with
    | some src => (List.replicate n 0, s.drsLost q a src)
    | none =>
      let v := s.potCheck q .read a
      if v.ok then let (x, s) := s.drawFree; (leBytes n x, s) else ([], s.refuse q .read a v)
  | _ =>
    match s.readMem q .read a n with
    | (.data bs _, s) => (bs, s)
    | (_, s) => ([], s)

def State.dapWrite (s : State) (q : Requester) (a : Nat) (bs : List Byte) : State :=
  match s.region a with
  | .drs => (s.drsWrite q a bs.length (ofLe bs)).2
  | .pcie _ =>
    match s.cutOff a with
    | some src => s.drsLost q a src
    | none =>
      let v := s.potCheck q .write a
      if v.ok then s.sendFrame (leBytes 8 a ++ bs) else s.refuse q .write a v
  | _ => (s.writeMem q a bs).2

/-- The world a core runs in. -/
def State.coreWorld (s : State) (c : Nat) : World := if (s.core c).hard then .hardpan else .topsoil

/-- The half of a register's core or engine, and the world whose enable governs it. -/
def State.dapPlace (s : State) : DapReg → Nat × World
  | .g c _ => (coreHalf c.val, s.coreWorld c.val)
  | .v c _ => (coreHalf c.val, s.coreWorld c.val)
  | .p c _ => (coreHalf c.val, s.coreWorld c.val)
  | .pc c => (coreHalf c.val, s.coreWorld c.val)
  | .s e _ => (engHalf e.val, s.engWorld e.val)
  | .w e _ => (engHalf e.val, s.engWorld e.val)

/-- Reads of engine registers need the non-invasive enable alone (R71). -/
def dapOfEngine : DapReg → Bool
  | .s _ _ => true
  | .w _ _ => true
  | _ => false

def State.dapGet (s : State) : DapReg → Nat
  | .g c n => ((s.core c.val).rg n.val).toNat
  | .v c n => ((s.core c.val).rv n.val).toNat
  | .p c n => ((s.core c.val).rp n.val).toNat
  | .pc c => (s.core c.val).pc.toNat
  | .s e n => ((s.eng e.val).rs n.val).toNat
  | .w e n => ((s.eng e.val).rw n.val).toNat

def State.dapSet (s : State) (v : Nat) : DapReg → State
  | .g c n => s.updCore c.val fun k => k.setg n.val (w64 v)
  | .v c n => s.updCore c.val fun k => k.setv n.val (BitVec.ofNat 256 v)
  | .p c n => s.updCore c.val fun k => k.setp n.val (BitVec.ofNat 32 v)
  | .pc c => s.updCore c.val fun k => { k with pc := w64 v }
  | .s e n => s.updEng e.val fun k => k.sets n.val (w64 v)
  | .w e n => s.updEng e.val fun k => k.setw n.val (BitVec.ofNat 256 v)

/-- An operation on a core that runs in the world. -/
def State.dapCore (s : State) (w : World) (c : CoreId) (f : State → State) : State :=
  if s.coreWorld c.val = w && s.debugInv c.val then f s else s

/-- One operation of the debug access port for a world. Where its enable is missing it does nothing and a read gives 0. -/
def State.dapRun (s : State) (h : Half) (w : World) : DapOp → State
  | .read a n =>
    if s.debugOf h.val w true then
      let (bs, s) := s.dapRead (dapReq h w) a.toNat n.val
      (s.answer (ofLe bs) 0)
    else s.answer 0 0
  | .write a bs => if s.debugOf h.val w true && bs.length ≤ 64 then s.dapWrite (dapReq h w) a.toNat bs else s
  | .readReg r =>
    let (x, t) := s.dapPlace r
    if t = w && s.debugOf x w (!dapOfEngine r) then s.answer (s.dapGet r) 0 else s.answer 0 0
  | .writeReg r v =>
    let (x, t) := s.dapPlace r
    if t = w && s.debugOf x w true then s.dapSet v.toNat r else s
  | .halt c => s.dapCore w c fun s => s.updCore c.val fun k => { k with debugHalt := true }
  | .resume c => s.dapCore w c fun s => (s.updCore c.val fun k => { k with debugHalt := false }).retryInstr c.val
  | .step c => s.dapCore w c fun s =>
    (s.updCore c.val fun k => { k with stepArmed := true, debugHalt := false }).retryInstr c.val
  | .breakpoints c pcs => s.dapCore w c fun s => s.updCore c.val fun k => { k with breakpoints := pcs.map BitVec.toNat }
  | .watchpoints c vas => s.dapCore w c fun s => s.updCore c.val fun k => { k with watchpoints := vas.map BitVec.toNat }

/-- DAP: the JTAG instruction, and one operation for a world. -/
def execDap (h : Half) (w : World) (op : DapOp) (s : State) : Out3 :=
  if s.dark then .next s else .next ((s.jtagIr h.val 0x10).dapRun h w op)

end Sys2Proof.Machine
end

