-- ==== Sys2Proof/Machine/SltInstr.lean ====
section
/-!
DEFINITION. SltInstr: the Silt instructions of R47, one meaning per row, each the shared frame of one instruction on its engine.
-/
namespace Sys2Proof.Machine

/-- SILT_ADD. -/
def execSiltAdd (e : EngineId) (w : IWord) (s : State) : Out3 := sltInstr .add e w s

/-- SILT_SUB. -/
def execSiltSub (e : EngineId) (w : IWord) (s : State) : Out3 := sltInstr .sub e w s

/-- SILT_AND. -/
def execSiltAnd (e : EngineId) (w : IWord) (s : State) : Out3 := sltInstr .and e w s

/-- SILT_OR. -/
def execSiltOr (e : EngineId) (w : IWord) (s : State) : Out3 := sltInstr .or e w s

/-- SILT_XOR. -/
def execSiltXor (e : EngineId) (w : IWord) (s : State) : Out3 := sltInstr .xor e w s

/-- SILT_ANDN. -/
def execSiltAndn (e : EngineId) (w : IWord) (s : State) : Out3 := sltInstr .andn e w s

/-- SILT_SLL. -/
def execSiltSll (e : EngineId) (w : IWord) (s : State) : Out3 := sltInstr .sll e w s

/-- SILT_SRL. -/
def execSiltSrl (e : EngineId) (w : IWord) (s : State) : Out3 := sltInstr .srl e w s

/-- SILT_SRA. -/
def execSiltSra (e : EngineId) (w : IWord) (s : State) : Out3 := sltInstr .sra e w s

/-- SILT_ROR. -/
def execSiltRor (e : EngineId) (w : IWord) (s : State) : Out3 := sltInstr .ror e w s

/-- SILT_SLT. -/
def execSiltSlt (e : EngineId) (w : IWord) (s : State) : Out3 := sltInstr .slt e w s

/-- SILT_SLTU. -/
def execSiltSltu (e : EngineId) (w : IWord) (s : State) : Out3 := sltInstr .sltu e w s

/-- SILT_MUL. -/
def execSiltMul (e : EngineId) (w : IWord) (s : State) : Out3 := sltInstr .mul e w s

/-- SILT_MULHU. -/
def execSiltMulhu (e : EngineId) (w : IWord) (s : State) : Out3 := sltInstr .mulhu e w s

/-- SILT_CLZ. -/
def execSiltClz (e : EngineId) (w : IWord) (s : State) : Out3 := sltInstr .clz e w s

/-- SILT_POPC. -/
def execSiltPopc (e : EngineId) (w : IWord) (s : State) : Out3 := sltInstr .popc e w s

/-- SILT_BSWAP. -/
def execSiltBswap (e : EngineId) (w : IWord) (s : State) : Out3 := sltInstr .bswap e w s

/-- SILT_ADDI. -/
def execSiltAddi (e : EngineId) (w : IWord) (s : State) : Out3 := sltInstr .addi e w s

/-- SILT_ANDI. -/
def execSiltAndi (e : EngineId) (w : IWord) (s : State) : Out3 := sltInstr .andi e w s

/-- SILT_ORI. -/
def execSiltOri (e : EngineId) (w : IWord) (s : State) : Out3 := sltInstr .ori e w s

/-- SILT_XORI. -/
def execSiltXori (e : EngineId) (w : IWord) (s : State) : Out3 := sltInstr .xori e w s

/-- SILT_SHI. -/
def execSiltShi (e : EngineId) (w : IWord) (s : State) : Out3 := sltInstr .shi e w s

/-- SILT_MOVZ. -/
def execSiltMovz (e : EngineId) (w : IWord) (s : State) : Out3 := sltInstr .movz e w s

/-- SILT_MOVK. -/
def execSiltMovk (e : EngineId) (w : IWord) (s : State) : Out3 := sltInstr .movk e w s

/-- SILT_LD. -/
def execSiltLd (e : EngineId) (w : IWord) (s : State) : Out3 := sltInstr .ld e w s

/-- SILT_LW. -/
def execSiltLw (e : EngineId) (w : IWord) (s : State) : Out3 := sltInstr .lw e w s

/-- SILT_LH. -/
def execSiltLh (e : EngineId) (w : IWord) (s : State) : Out3 := sltInstr .lh e w s

/-- SILT_LB. -/
def execSiltLb (e : EngineId) (w : IWord) (s : State) : Out3 := sltInstr .lb e w s

/-- SILT_SD. -/
def execSiltSd (e : EngineId) (w : IWord) (s : State) : Out3 := sltInstr .sd e w s

/-- SILT_SW. -/
def execSiltSw (e : EngineId) (w : IWord) (s : State) : Out3 := sltInstr .sw e w s

/-- SILT_SH. -/
def execSiltSh (e : EngineId) (w : IWord) (s : State) : Out3 := sltInstr .sh e w s

/-- SILT_SB. -/
def execSiltSb (e : EngineId) (w : IWord) (s : State) : Out3 := sltInstr .sb e w s

/-- WLD. -/
def execSiltWld (e : EngineId) (w : IWord) (s : State) : Out3 := sltInstr .wld e w s

/-- WST. -/
def execSiltWst (e : EngineId) (w : IWord) (s : State) : Out3 := sltInstr .wst e w s

/-- CPRE. -/
def execSiltCpre (e : EngineId) (w : IWord) (s : State) : Out3 := sltInstr .cpre e w s

/-- CLOCK. -/
def execSiltClock (e : EngineId) (w : IWord) (s : State) : Out3 := sltInstr .clock e w s

/-- CUNLOCK. -/
def execSiltCunlock (e : EngineId) (w : IWord) (s : State) : Out3 := sltInstr .cunlock e w s

/-- CINV. -/
def execSiltCinv (e : EngineId) (w : IWord) (s : State) : Out3 := sltInstr .cinv e w s

/-- CINVL. -/
def execSiltCinvl (e : EngineId) (w : IWord) (s : State) : Out3 := sltInstr .cinvl e w s

/-- SILT_AMOADD. -/
def execSiltAmoadd (e : EngineId) (w : IWord) (s : State) : Out3 := sltInstr .amoadd e w s

/-- SILT_AMOSWAP. -/
def execSiltAmoswap (e : EngineId) (w : IWord) (s : State) : Out3 := sltInstr .amoswap e w s

/-- AMOCAS. -/
def execSiltAmocas (e : EngineId) (w : IWord) (s : State) : Out3 := sltInstr .amocas e w s

/-- SILT_BCC. -/
def execSiltBcc (e : EngineId) (w : IWord) (s : State) : Out3 := sltInstr .bcc e w s

/-- SILT_BZCC. -/
def execSiltBzcc (e : EngineId) (w : IWord) (s : State) : Out3 := sltInstr .bzcc e w s

/-- SILT_J. -/
def execSiltJ (e : EngineId) (w : IWord) (s : State) : Out3 := sltInstr .j e w s

/-- SILT_JR. -/
def execSiltJr (e : EngineId) (w : IWord) (s : State) : Out3 := sltInstr .jr e w s

/-- DONE. -/
def execSiltDone (e : EngineId) (w : IWord) (s : State) : Out3 := sltInstr .done e w s

/-- NOP. -/
def execSiltNop (e : EngineId) (w : IWord) (s : State) : Out3 := sltInstr .nop e w s

/-- SILT_FENCE. -/
def execSiltFence (e : EngineId) (w : IWord) (s : State) : Out3 := sltInstr .fence e w s

/-- RDTL. -/
def execSiltRdtl (e : EngineId) (w : IWord) (s : State) : Out3 := sltInstr .rdtl e w s

/-- RDTH. -/
def execSiltRdth (e : EngineId) (w : IWord) (s : State) : Out3 := sltInstr .rdth e w s

/-- SILT_BRK. -/
def execSiltBrk (e : EngineId) (w : IWord) (s : State) : Out3 := sltInstr .brk e w s

/-- GETCF. -/
def execSiltGetcf (e : EngineId) (w : IWord) (s : State) : Out3 := sltInstr .getcf e w s

/-- SETCF. -/
def execSiltSetcf (e : EngineId) (w : IWord) (s : State) : Out3 := sltInstr .setcf e w s

/-- WADD. -/
def execSiltWadd (e : EngineId) (w : IWord) (s : State) : Out3 := sltInstr .wadd e w s

/-- WADDC. -/
def execSiltWaddc (e : EngineId) (w : IWord) (s : State) : Out3 := sltInstr .waddc e w s

/-- WSUB. -/
def execSiltWsub (e : EngineId) (w : IWord) (s : State) : Out3 := sltInstr .wsub e w s

/-- WSUBB. -/
def execSiltWsubb (e : EngineId) (w : IWord) (s : State) : Out3 := sltInstr .wsubb e w s

/-- WAND. -/
def execSiltWand (e : EngineId) (w : IWord) (s : State) : Out3 := sltInstr .wand e w s

/-- WOR. -/
def execSiltWor (e : EngineId) (w : IWord) (s : State) : Out3 := sltInstr .wor e w s

/-- WXOR. -/
def execSiltWxor (e : EngineId) (w : IWord) (s : State) : Out3 := sltInstr .wxor e w s

/-- WMOV. -/
def execSiltWmov (e : EngineId) (w : IWord) (s : State) : Out3 := sltInstr .wmov e w s

/-- WSHL1. -/
def execSiltWshl1 (e : EngineId) (w : IWord) (s : State) : Out3 := sltInstr .wshl1 e w s

/-- WSHR1. -/
def execSiltWshr1 (e : EngineId) (w : IWord) (s : State) : Out3 := sltInstr .wshr1 e w s

/-- WZERO. -/
def execSiltWzero (e : EngineId) (w : IWord) (s : State) : Out3 := sltInstr .wzero e w s

/-- MULLO. -/
def execSiltMullo (e : EngineId) (w : IWord) (s : State) : Out3 := sltInstr .mullo e w s

/-- MULHI. -/
def execSiltMulhi (e : EngineId) (w : IWord) (s : State) : Out3 := sltInstr .mulhi e w s

/-- MMUL. -/
def execSiltMmul (e : EngineId) (w : IWord) (s : State) : Out3 := sltInstr .mmul e w s

/-- MADD. -/
def execSiltMadd (e : EngineId) (w : IWord) (s : State) : Out3 := sltInstr .madd e w s

/-- MSUB. -/
def execSiltMsub (e : EngineId) (w : IWord) (s : State) : Out3 := sltInstr .msub e w s

/-- MSETM. -/
def execSiltMsetm (e : EngineId) (w : IWord) (s : State) : Out3 := sltInstr .msetm e w s

/-- AESE. -/
def execSiltAese (e : EngineId) (w : IWord) (s : State) : Out3 := sltInstr .aese e w s

/-- AESD. -/
def execSiltAesd (e : EngineId) (w : IWord) (s : State) : Out3 := sltInstr .aesd e w s

/-- TDESE. -/
def execSiltTdese (e : EngineId) (w : IWord) (s : State) : Out3 := sltInstr .tdese e w s

/-- TDESD. -/
def execSiltTdesd (e : EngineId) (w : IWord) (s : State) : Out3 := sltInstr .tdesd e w s

/-- GMUL. -/
def execSiltGmul (e : EngineId) (w : IWord) (s : State) : Out3 := sltInstr .gmul e w s

/-- SHA256C. -/
def execSiltSha256c (e : EngineId) (w : IWord) (s : State) : Out3 := sltInstr .sha256c e w s

/-- SHA512C. -/
def execSiltSha512c (e : EngineId) (w : IWord) (s : State) : Out3 := sltInstr .sha512c e w s

/-- SHA256K. -/
def execSiltSha256k (e : EngineId) (w : IWord) (s : State) : Out3 := sltInstr .sha256k e w s

/-- SHA512K. -/
def execSiltSha512k (e : EngineId) (w : IWord) (s : State) : Out3 := sltInstr .sha512k e w s

/-- KECCAK. -/
def execSiltKeccak (e : EngineId) (w : IWord) (s : State) : Out3 := sltInstr .keccak e w s

/-- WINS. -/
def execSiltWins (e : EngineId) (w : IWord) (s : State) : Out3 := sltInstr .wins e w s

/-- WEXT. -/
def execSiltWext (e : EngineId) (w : IWord) (s : State) : Out3 := sltInstr .wext e w s

/-- WCEQ. -/
def execSiltWceq (e : EngineId) (w : IWord) (s : State) : Out3 := sltInstr .wceq e w s

/-- WCSEL. -/
def execSiltWcsel (e : EngineId) (w : IWord) (s : State) : Out3 := sltInstr .wcsel e w s

/-- WBIT. -/
def execSiltWbit (e : EngineId) (w : IWord) (s : State) : Out3 := sltInstr .wbit e w s

/-- KLD. -/
def execSiltKld (e : EngineId) (w : IWord) (s : State) : Out3 := sltInstr .kld e w s

/-- KZERO. -/
def execSiltKzero (e : EngineId) (w : IWord) (s : State) : Out3 := sltInstr .kzero e w s

/-- KZALL. -/
def execSiltKzall (e : EngineId) (w : IWord) (s : State) : Out3 := sltInstr .kzall e w s

end Sys2Proof.Machine
end

