-- ==== Sys2Proof/Machine/Dispatch.lean ====
section
/-!
DEFINITION. Dispatch: one arm per command, each a direct call of its meaning.
-/
namespace Sys2Proof.Machine

/-- The effect of a command on everything but the queue. -/
def exec (i : Instr) (s : State) : Host.Outcome State Fault Refusal :=
  match i with
  | .registerWrite q a size v => Sys2Proof.Machine.execRegisterWrite q a size v s
  | .enableWrite q cls inst en => Sys2Proof.Machine.execEnableWrite q cls inst en s
  | .startDone cls inst => Sys2Proof.Machine.execStartDone cls inst s
  | .stopDone cls inst => Sys2Proof.Machine.execStopDone cls inst s
  | .blockFault cls inst status => Sys2Proof.Machine.execBlockFault cls inst status s
  | .blockTimeout cls inst => Sys2Proof.Machine.execBlockTimeout cls inst s
  | .prtBlockEvtRead q h => Sys2Proof.Machine.execPrtBlockEvtRead q h s
  | .resourceClaim n claims => Sys2Proof.Machine.execResourceClaim n claims s
  | .resourceRelease n q => Sys2Proof.Machine.execResourceRelease n q s
  | .prtClaimRead q h n => Sys2Proof.Machine.execPrtClaimRead q h n s
  | .rerouteSwitch h src dst cls last => Sys2Proof.Machine.execRerouteSwitch h src dst cls last s
  | .siltAdd e w => Sys2Proof.Machine.execSiltAdd e w s
  | .siltSub e w => Sys2Proof.Machine.execSiltSub e w s
  | .siltAnd e w => Sys2Proof.Machine.execSiltAnd e w s
  | .siltOr e w => Sys2Proof.Machine.execSiltOr e w s
  | .siltXor e w => Sys2Proof.Machine.execSiltXor e w s
  | .siltAndn e w => Sys2Proof.Machine.execSiltAndn e w s
  | .siltSll e w => Sys2Proof.Machine.execSiltSll e w s
  | .siltSrl e w => Sys2Proof.Machine.execSiltSrl e w s
  | .siltSra e w => Sys2Proof.Machine.execSiltSra e w s
  | .siltRor e w => Sys2Proof.Machine.execSiltRor e w s
  | .siltSlt e w => Sys2Proof.Machine.execSiltSlt e w s
  | .siltSltu e w => Sys2Proof.Machine.execSiltSltu e w s
  | .siltMul e w => Sys2Proof.Machine.execSiltMul e w s
  | .siltMulhu e w => Sys2Proof.Machine.execSiltMulhu e w s
  | .siltClz e w => Sys2Proof.Machine.execSiltClz e w s
  | .siltPopc e w => Sys2Proof.Machine.execSiltPopc e w s
  | .siltBswap e w => Sys2Proof.Machine.execSiltBswap e w s
  | .siltAddi e w => Sys2Proof.Machine.execSiltAddi e w s
  | .siltAndi e w => Sys2Proof.Machine.execSiltAndi e w s
  | .siltOri e w => Sys2Proof.Machine.execSiltOri e w s
  | .siltXori e w => Sys2Proof.Machine.execSiltXori e w s
  | .siltShi e w => Sys2Proof.Machine.execSiltShi e w s
  | .siltMovz e w => Sys2Proof.Machine.execSiltMovz e w s
  | .siltMovk e w => Sys2Proof.Machine.execSiltMovk e w s
  | .siltLd e w => Sys2Proof.Machine.execSiltLd e w s
  | .siltLw e w => Sys2Proof.Machine.execSiltLw e w s
  | .siltLh e w => Sys2Proof.Machine.execSiltLh e w s
  | .siltLb e w => Sys2Proof.Machine.execSiltLb e w s
  | .siltSd e w => Sys2Proof.Machine.execSiltSd e w s
  | .siltSw e w => Sys2Proof.Machine.execSiltSw e w s
  | .siltSh e w => Sys2Proof.Machine.execSiltSh e w s
  | .siltSb e w => Sys2Proof.Machine.execSiltSb e w s
  | .siltWld e w => Sys2Proof.Machine.execSiltWld e w s
  | .siltWst e w => Sys2Proof.Machine.execSiltWst e w s
  | .siltCpre e w => Sys2Proof.Machine.execSiltCpre e w s
  | .siltClock e w => Sys2Proof.Machine.execSiltClock e w s
  | .siltCunlock e w => Sys2Proof.Machine.execSiltCunlock e w s
  | .siltCinv e w => Sys2Proof.Machine.execSiltCinv e w s
  | .siltCinvl e w => Sys2Proof.Machine.execSiltCinvl e w s
  | .siltAmoadd e w => Sys2Proof.Machine.execSiltAmoadd e w s
  | .siltAmoswap e w => Sys2Proof.Machine.execSiltAmoswap e w s
  | .siltAmocas e w => Sys2Proof.Machine.execSiltAmocas e w s
  | .siltBcc e w => Sys2Proof.Machine.execSiltBcc e w s
  | .siltBzcc e w => Sys2Proof.Machine.execSiltBzcc e w s
  | .siltJ e w => Sys2Proof.Machine.execSiltJ e w s
  | .siltJr e w => Sys2Proof.Machine.execSiltJr e w s
  | .siltDone e w => Sys2Proof.Machine.execSiltDone e w s
  | .siltNop e w => Sys2Proof.Machine.execSiltNop e w s
  | .siltFence e w => Sys2Proof.Machine.execSiltFence e w s
  | .siltRdtl e w => Sys2Proof.Machine.execSiltRdtl e w s
  | .siltRdth e w => Sys2Proof.Machine.execSiltRdth e w s
  | .siltBrk e w => Sys2Proof.Machine.execSiltBrk e w s
  | .siltGetcf e w => Sys2Proof.Machine.execSiltGetcf e w s
  | .siltSetcf e w => Sys2Proof.Machine.execSiltSetcf e w s
  | .siltWadd e w => Sys2Proof.Machine.execSiltWadd e w s
  | .siltWaddc e w => Sys2Proof.Machine.execSiltWaddc e w s
  | .siltWsub e w => Sys2Proof.Machine.execSiltWsub e w s
  | .siltWsubb e w => Sys2Proof.Machine.execSiltWsubb e w s
  | .siltWand e w => Sys2Proof.Machine.execSiltWand e w s
  | .siltWor e w => Sys2Proof.Machine.execSiltWor e w s
  | .siltWxor e w => Sys2Proof.Machine.execSiltWxor e w s
  | .siltWmov e w => Sys2Proof.Machine.execSiltWmov e w s
  | .siltWshl1 e w => Sys2Proof.Machine.execSiltWshl1 e w s
  | .siltWshr1 e w => Sys2Proof.Machine.execSiltWshr1 e w s
  | .siltWzero e w => Sys2Proof.Machine.execSiltWzero e w s
  | .siltMullo e w => Sys2Proof.Machine.execSiltMullo e w s
  | .siltMulhi e w => Sys2Proof.Machine.execSiltMulhi e w s
  | .siltMmul e w => Sys2Proof.Machine.execSiltMmul e w s
  | .siltMadd e w => Sys2Proof.Machine.execSiltMadd e w s
  | .siltMsub e w => Sys2Proof.Machine.execSiltMsub e w s
  | .siltMsetm e w => Sys2Proof.Machine.execSiltMsetm e w s
  | .siltAese e w => Sys2Proof.Machine.execSiltAese e w s
  | .siltAesd e w => Sys2Proof.Machine.execSiltAesd e w s
  | .siltTdese e w => Sys2Proof.Machine.execSiltTdese e w s
  | .siltTdesd e w => Sys2Proof.Machine.execSiltTdesd e w s
  | .siltGmul e w => Sys2Proof.Machine.execSiltGmul e w s
  | .siltSha256c e w => Sys2Proof.Machine.execSiltSha256c e w s
  | .siltSha512c e w => Sys2Proof.Machine.execSiltSha512c e w s
  | .siltSha256k e w => Sys2Proof.Machine.execSiltSha256k e w s
  | .siltSha512k e w => Sys2Proof.Machine.execSiltSha512k e w s
  | .siltKeccak e w => Sys2Proof.Machine.execSiltKeccak e w s
  | .siltWins e w => Sys2Proof.Machine.execSiltWins e w s
  | .siltWext e w => Sys2Proof.Machine.execSiltWext e w s
  | .siltWceq e w => Sys2Proof.Machine.execSiltWceq e w s
  | .siltWcsel e w => Sys2Proof.Machine.execSiltWcsel e w s
  | .siltWbit e w => Sys2Proof.Machine.execSiltWbit e w s
  | .siltKld e w => Sys2Proof.Machine.execSiltKld e w s
  | .keyLoadReply e => Sys2Proof.Machine.execKeyLoadReply e s
  | .siltKzero e w => Sys2Proof.Machine.execSiltKzero e w s
  | .siltKzall e w => Sys2Proof.Machine.execSiltKzall e w s
  | .storeAcknowledge e n => Sys2Proof.Machine.execStoreAcknowledge e n s
  | .engineLineFill f => Sys2Proof.Machine.execEngineLineFill f s
  | .watchdog e => Sys2Proof.Machine.execWatchdog e s
  | .hwLost e source => Sys2Proof.Machine.execHwLost e source s
  | .sltDebugHalt q e => Sys2Proof.Machine.execSltDebugHalt q e s
  | .sltDebugStep q e => Sys2Proof.Machine.execSltDebugStep q e s
  | .sltDebugResume q e => Sys2Proof.Machine.execSltDebugResume q e s
  | .sltCacheInvalidate q e => Sys2Proof.Machine.execSltCacheInvalidate q e s
  | .sltCacheUnlockAll q e => Sys2Proof.Machine.execSltCacheUnlockAll q e s
  | .sltFaultRead q e => Sys2Proof.Machine.execSltFaultRead q e s
  | .sltCountRead q e => Sys2Proof.Machine.execSltCountRead q e s
  | .sramWindowAssign q c w v => Sys2Proof.Machine.execSramWindowAssign q c w v s
  | .sramZeroingDone c w => Sys2Proof.Machine.execSramZeroingDone c w s
  | .hpnPoolWrite q h p v => Sys2Proof.Machine.execHpnPoolWrite q h p v s
  | .sltPoolWrite q e v => Sys2Proof.Machine.execSltPoolWrite q e v s
  | .poolLeaveCapture e => Sys2Proof.Machine.execPoolLeaveCapture e s
  | .poolImageCopyDone e => Sys2Proof.Machine.execPoolImageCopyDone e s
  | .doorbell q ti n v => Sys2Proof.Machine.execDoorbell q ti n v s
  | .descriptorFetch h => Sys2Proof.Machine.execDescriptorFetch h s
  | .descriptorValidate h => Sys2Proof.Machine.execDescriptorValidate h s
  | .heldDescriptorRoute h p => Sys2Proof.Machine.execHeldDescriptorRoute h p s
  | .crossRouteArrival h => Sys2Proof.Machine.execCrossRouteArrival h s
  | .injectionToDeque c p => Sys2Proof.Machine.execInjectionToDeque c p s
  | .timedEntryDue e => Sys2Proof.Machine.execTimedEntryDue e s
  | .taskPop e => Sys2Proof.Machine.execTaskPop e s
  | .stealAttempt e => Sys2Proof.Machine.execStealAttempt e s
  | .stealRequest e => Sys2Proof.Machine.execStealRequest e s
  | .stealReply e => Sys2Proof.Machine.execStealReply e s
  | .stealBackoffEnd e => Sys2Proof.Machine.execStealBackoffEnd e s
  | .launch e => Sys2Proof.Machine.execLaunch e s
  | .dspPoolLinkWrite q h p v => Sys2Proof.Machine.execDspPoolLinkWrite q h p v s
  | .dspCountRead q h => Sys2Proof.Machine.execDspCountRead q h s
  | .dspStealCountRead q h => Sys2Proof.Machine.execDspStealCountRead q h s
  | .recordRelease e => Sys2Proof.Machine.execRecordRelease e s
  | .recordAccept h => Sys2Proof.Machine.execRecordAccept h s
  | .tailPublish ti tail => Sys2Proof.Machine.execTailPublish ti tail s
  | .ringStall ti => Sys2Proof.Machine.execRingStall ti s
  | .cltLaneRead q h k => Sys2Proof.Machine.execCltLaneRead q h k s
  | .cltCountRead q h => Sys2Proof.Machine.execCltCountRead q h s
  | .ecdsaP256Verify e => Sys2Proof.Machine.execEcdsaP256Verify e s
  | .ecdsaP256Sign e => Sys2Proof.Machine.execEcdsaP256Sign e s
  | .ecdsaP384Verify e => Sys2Proof.Machine.execEcdsaP384Verify e s
  | .ecdsaP384Sign e => Sys2Proof.Machine.execEcdsaP384Sign e s
  | .ed25519Verify e => Sys2Proof.Machine.execEd25519Verify e s
  | .ed25519Sign e => Sys2Proof.Machine.execEd25519Sign e s
  | .rsaVerify e => Sys2Proof.Machine.execRsaVerify e s
  | .rsaSign e => Sys2Proof.Machine.execRsaSign e s
  | .hmacSha256 e => Sys2Proof.Machine.execHmacSha256 e s
  | .hmacSha384 e => Sys2Proof.Machine.execHmacSha384 e s
  | .aesCmac e => Sys2Proof.Machine.execAesCmac e s
  | .aesGcm e => Sys2Proof.Machine.execAesGcm e s
  | .aesCbc e => Sys2Proof.Machine.execAesCbc e s
  | .tdesCbc e => Sys2Proof.Machine.execTdesCbc e s
  | .hash e => Sys2Proof.Machine.execHash e s
  | .pinTranslate e => Sys2Proof.Machine.execPinTranslate e s
  | .keyblockImport e => Sys2Proof.Machine.execKeyblockImport e s
  | .keyblockExport e => Sys2Proof.Machine.execKeyblockExport e s
  | .emvArqc e => Sys2Proof.Machine.execEmvArqc e s
  | .iso8583Remap e => Sys2Proof.Machine.execIso8583Remap e s
  | .odCmd h => Sys2Proof.Machine.execOdCmd h s
  | .svcLoadGo q c v => Sys2Proof.Machine.execSvcLoadGo q c v s
  | .svcLoadStaged c => Sys2Proof.Machine.execSvcLoadStaged c s
  | .iramReload e => Sys2Proof.Machine.execIramReload e s
  | .svcPoolImgWrite q c p v => Sys2Proof.Machine.execSvcPoolImgWrite q c p v s
  | .potArm q h v => Sys2Proof.Machine.execPotArm q h v s
  | .potWalk q a => Sys2Proof.Machine.execPotWalk q a s
  | .potInvalGo q h v => Sys2Proof.Machine.execPotInvalGo q h v s
  | .potInvalDone h => Sys2Proof.Machine.execPotInvalDone h s
  | .potFaultRead q h => Sys2Proof.Machine.execPotFaultRead q h s
  | .hpcall c w => Sys2Proof.Machine.execHpcall c w s
  | .forcedUnwindTimeout c => Sys2Proof.Machine.execForcedUnwindTimeout c s
  | .forcedUnwindAbsent c => Sys2Proof.Machine.execForcedUnwindAbsent c s
  | .pwrHoldWrite q h d v => Sys2Proof.Machine.execPwrHoldWrite q h d v s
  | .latchedRequestApply h d => Sys2Proof.Machine.execLatchedRequestApply h d s
  | .domainPowerLoss h d rail => Sys2Proof.Machine.execDomainPowerLoss h d rail s
  | .heartbeat q h v => Sys2Proof.Machine.execHeartbeat q h v s
  | .hardpanAbsent => Sys2Proof.Machine.execHardpanAbsent s
  | .hardpanAutoRestart => Sys2Proof.Machine.execHardpanAutoRestart s
  | .hpnRestartGo q h v => Sys2Proof.Machine.execHpnRestartGo q h v s
  | .hardpanImageVerified => Sys2Proof.Machine.execHardpanImageVerified s
  | .hardpanFirstHeartbeat q h v => Sys2Proof.Machine.execHardpanFirstHeartbeat q h v s
  | .restartTimeout => Sys2Proof.Machine.execRestartTimeout s
  | .create q h => Sys2Proof.Machine.execCreate q h s
  | .reserve q h => Sys2Proof.Machine.execReserve q h s
  | .install q h => Sys2Proof.Machine.execInstall q h s
  | .stage q h => Sys2Proof.Machine.execStage q h s
  | .promote q h => Sys2Proof.Machine.execPromote q h s
  | .promoteAt q h => Sys2Proof.Machine.execPromoteAt q h s
  | .destroy q h => Sys2Proof.Machine.execDestroy q h s
  | .narrow q h => Sys2Proof.Machine.execNarrow q h s
  | .wrap q h => Sys2Proof.Machine.execWrap q h s
  | .unwrap q h => Sys2Proof.Machine.execUnwrap q h s
  | .mekGen q h => Sys2Proof.Machine.execMekGen q h s
  | .mekClear q h => Sys2Proof.Machine.execMekClear q h s
  | .randomGenerationDone => Sys2Proof.Machine.execRandomGenerationDone s
  | .tamperTrip l => Sys2Proof.Machine.execTamperTrip l s
  | .sealNow q h v => Sys2Proof.Machine.execSealNow q h v s
  | .hpnDebugWrite q h v => Sys2Proof.Machine.execHpnDebugWrite q h v s
  | .strCtlWrite q h v => Sys2Proof.Machine.execStrCtlWrite q h v s
  | .ppsEdge => Sys2Proof.Machine.execPpsEdge s
  | .sourceLost => Sys2Proof.Machine.execSourceLost s
  | .strRateWrite q h v => Sys2Proof.Machine.execStrRateWrite q h v s
  | .strStepGo q h v => Sys2Proof.Machine.execStrStepGo q h v s
  | .strSetGo q h v => Sys2Proof.Machine.execStrSetGo q h v s
  | .scheduledChange => Sys2Proof.Machine.execScheduledChange s
  | .strataBroadcast h drift => Sys2Proof.Machine.execStrataBroadcast h drift s
  | .holdoverSecond => Sys2Proof.Machine.execHoldoverSecond s
  | .ref10mChange present => Sys2Proof.Machine.execRef10mChange present s
  | .strStatusRead q h => Sys2Proof.Machine.execStrStatusRead q h s
  | .cmpArm q n v => Sys2Proof.Machine.execCmpArm q n v s
  | .cmpDisarm q n v => Sys2Proof.Machine.execCmpDisarm q n v s
  | .cmpFire n => Sys2Proof.Machine.execCmpFire n s
  | .fanoutValidate n => Sys2Proof.Machine.execFanoutValidate n s
  | .fanoutPlace n => Sys2Proof.Machine.execFanoutPlace n s
  | .fanoutDeferredPlace n => Sys2Proof.Machine.execFanoutDeferredPlace n s
  | .promoteBroadcast n => Sys2Proof.Machine.execPromoteBroadcast n s
  | .promoteApply u => Sys2Proof.Machine.execPromoteApply u s
  | .ledgerCopy h => Sys2Proof.Machine.execLedgerCopy h s
  | .batchTimeClose h => Sys2Proof.Machine.execBatchTimeClose h s
  | .watermark => Sys2Proof.Machine.execWatermark s
  | .batchReceive => Sys2Proof.Machine.execBatchReceive s
  | .batchMerge => Sys2Proof.Machine.execBatchMerge s
  | .checkpoint => Sys2Proof.Machine.execCheckpoint s
  | .checkpointSignDone => Sys2Proof.Machine.execCheckpointSignDone s
  | .vrvConsWrite q h leaf v => Sys2Proof.Machine.execVrvConsWrite q h leaf v s
  | .vrvStatusRead q h => Sys2Proof.Machine.execVrvStatusRead q h s
  | .kxAdd c w => Sys2Proof.Machine.execKxAdd c w s
  | .kxSub c w => Sys2Proof.Machine.execKxSub c w s
  | .kxAnd c w => Sys2Proof.Machine.execKxAnd c w s
  | .kxOr c w => Sys2Proof.Machine.execKxOr c w s
  | .kxXor c w => Sys2Proof.Machine.execKxXor c w s
  | .kxAndn c w => Sys2Proof.Machine.execKxAndn c w s
  | .kxSll c w => Sys2Proof.Machine.execKxSll c w s
  | .kxSrl c w => Sys2Proof.Machine.execKxSrl c w s
  | .kxSra c w => Sys2Proof.Machine.execKxSra c w s
  | .kxRor c w => Sys2Proof.Machine.execKxRor c w s
  | .kxSlt c w => Sys2Proof.Machine.execKxSlt c w s
  | .kxSltu c w => Sys2Proof.Machine.execKxSltu c w s
  | .kxMin c w => Sys2Proof.Machine.execKxMin c w s
  | .kxMax c w => Sys2Proof.Machine.execKxMax c w s
  | .kxMinu c w => Sys2Proof.Machine.execKxMinu c w s
  | .kxMaxu c w => Sys2Proof.Machine.execKxMaxu c w s
  | .kxClz c w => Sys2Proof.Machine.execKxClz c w s
  | .kxCtz c w => Sys2Proof.Machine.execKxCtz c w s
  | .kxPopc c w => Sys2Proof.Machine.execKxPopc c w s
  | .kxBswap c w => Sys2Proof.Machine.execKxBswap c w s
  | .kxMul c w => Sys2Proof.Machine.execKxMul c w s
  | .kxMulh c w => Sys2Proof.Machine.execKxMulh c w s
  | .kxMulhu c w => Sys2Proof.Machine.execKxMulhu c w s
  | .kxDiv c w => Sys2Proof.Machine.execKxDiv c w s
  | .kxDivu c w => Sys2Proof.Machine.execKxDivu c w s
  | .kxRem c w => Sys2Proof.Machine.execKxRem c w s
  | .kxRemu c w => Sys2Proof.Machine.execKxRemu c w s
  | .kxAddi c w => Sys2Proof.Machine.execKxAddi c w s
  | .kxAndi c w => Sys2Proof.Machine.execKxAndi c w s
  | .kxOri c w => Sys2Proof.Machine.execKxOri c w s
  | .kxXori c w => Sys2Proof.Machine.execKxXori c w s
  | .kxShi c w => Sys2Proof.Machine.execKxShi c w s
  | .kxMovz c w => Sys2Proof.Machine.execKxMovz c w s
  | .kxMovk c w => Sys2Proof.Machine.execKxMovk c w s
  | .kxLd c w => Sys2Proof.Machine.execKxLd c w s
  | .kxLw c w => Sys2Proof.Machine.execKxLw c w s
  | .kxLws c w => Sys2Proof.Machine.execKxLws c w s
  | .kxLh c w => Sys2Proof.Machine.execKxLh c w s
  | .kxLhs c w => Sys2Proof.Machine.execKxLhs c w s
  | .kxLb c w => Sys2Proof.Machine.execKxLb c w s
  | .kxLbs c w => Sys2Proof.Machine.execKxLbs c w s
  | .kxSd c w => Sys2Proof.Machine.execKxSd c w s
  | .kxSw c w => Sys2Proof.Machine.execKxSw c w s
  | .kxSh c w => Sys2Proof.Machine.execKxSh c w s
  | .kxSb c w => Sys2Proof.Machine.execKxSb c w s
  | .kxPref c w => Sys2Proof.Machine.execKxPref c w s
  | .kxBcc c w => Sys2Proof.Machine.execKxBcc c w s
  | .kxBzcc c w => Sys2Proof.Machine.execKxBzcc c w s
  | .kxJ c w => Sys2Proof.Machine.execKxJ c w s
  | .kxJl c w => Sys2Proof.Machine.execKxJl c w s
  | .kxJr c w => Sys2Proof.Machine.execKxJr c w s
  | .kxJlr c w => Sys2Proof.Machine.execKxJlr c w s
  | .kxAmoadd c w => Sys2Proof.Machine.execKxAmoadd c w s
  | .kxAmoswap c w => Sys2Proof.Machine.execKxAmoswap c w s
  | .kxAmoand c w => Sys2Proof.Machine.execKxAmoand c w s
  | .kxAmoor c w => Sys2Proof.Machine.execKxAmoor c w s
  | .kxAmoxor c w => Sys2Proof.Machine.execKxAmoxor c w s
  | .kxAmosmin c w => Sys2Proof.Machine.execKxAmosmin c w s
  | .kxAmosmax c w => Sys2Proof.Machine.execKxAmosmax c w s
  | .kxAmoumin c w => Sys2Proof.Machine.execKxAmoumin c w s
  | .kxAmoumax c w => Sys2Proof.Machine.execKxAmoumax c w s
  | .kxCas c w => Sys2Proof.Machine.execKxCas c w s
  | .kxCrr c w => Sys2Proof.Machine.execKxCrr c w s
  | .kxCwr c w => Sys2Proof.Machine.execKxCwr c w s
  | .kxPredctlFlush c w => Sys2Proof.Machine.execKxPredctlFlush c w s
  | .kxClayctlWrite c w => Sys2Proof.Machine.execKxClayctlWrite c w s
  | .clayEntryDone c => Sys2Proof.Machine.execClayEntryDone c s
  | .kxDvfsctlWrite c w => Sys2Proof.Machine.execKxDvfsctlWrite c w s
  | .dvfsChangeDone c => Sys2Proof.Machine.execDvfsChangeDone c s
  | .kxDvfsstatRead c w => Sys2Proof.Machine.execKxDvfsstatRead c w s
  | .kxSvc c w => Sys2Proof.Machine.execKxSvc c w s
  | .kxHvc c w => Sys2Proof.Machine.execKxHvc c w s
  | .kxBrk c w => Sys2Proof.Machine.execKxBrk c w s
  | .kxEret c w => Sys2Proof.Machine.execKxEret c w s
  | .kxFence c w => Sys2Proof.Machine.execKxFence c w s
  | .kxFenceAck c w => Sys2Proof.Machine.execKxFenceAck c w s
  | .kxIsync c w => Sys2Proof.Machine.execKxIsync c w s
  | .kxRdstrata c w => Sys2Proof.Machine.execKxRdstrata c w s
  | .kxTlbi c w => Sys2Proof.Machine.execKxTlbi c w s
  | .kxWfiDoze c w => Sys2Proof.Machine.execKxWfiDoze c w s
  | .kxWfiSlumber c w => Sys2Proof.Machine.execKxWfiSlumber c w s
  | .coreWake c => Sys2Proof.Machine.execCoreWake c s
  | .interrupt c => Sys2Proof.Machine.execInterrupt c s
  | .secureInt c => Sys2Proof.Machine.execSecureInt c s
  | .storeBufferDrain c => Sys2Proof.Machine.execStoreBufferDrain c s
  | .kxVadd c w => Sys2Proof.Machine.execKxVadd c w s
  | .kxVsub c w => Sys2Proof.Machine.execKxVsub c w s
  | .kxVmul c w => Sys2Proof.Machine.execKxVmul c w s
  | .kxVmulh c w => Sys2Proof.Machine.execKxVmulh c w s
  | .kxVmulhu c w => Sys2Proof.Machine.execKxVmulhu c w s
  | .kxVmin c w => Sys2Proof.Machine.execKxVmin c w s
  | .kxVmax c w => Sys2Proof.Machine.execKxVmax c w s
  | .kxVminu c w => Sys2Proof.Machine.execKxVminu c w s
  | .kxVmaxu c w => Sys2Proof.Machine.execKxVmaxu c w s
  | .kxVabs c w => Sys2Proof.Machine.execKxVabs c w s
  | .kxVneg c w => Sys2Proof.Machine.execKxVneg c w s
  | .kxVand c w => Sys2Proof.Machine.execKxVand c w s
  | .kxVor c w => Sys2Proof.Machine.execKxVor c w s
  | .kxVxor c w => Sys2Proof.Machine.execKxVxor c w s
  | .kxVandn c w => Sys2Proof.Machine.execKxVandn c w s
  | .kxVsll c w => Sys2Proof.Machine.execKxVsll c w s
  | .kxVsrl c w => Sys2Proof.Machine.execKxVsrl c w s
  | .kxVsra c w => Sys2Proof.Machine.execKxVsra c w s
  | .kxVror c w => Sys2Proof.Machine.execKxVror c w s
  | .kxVcmpeq c w => Sys2Proof.Machine.execKxVcmpeq c w s
  | .kxVcmpne c w => Sys2Proof.Machine.execKxVcmpne c w s
  | .kxVcmplt c w => Sys2Proof.Machine.execKxVcmplt c w s
  | .kxVcmpltu c w => Sys2Proof.Machine.execKxVcmpltu c w s
  | .kxVcmple c w => Sys2Proof.Machine.execKxVcmple c w s
  | .kxVcmpleu c w => Sys2Proof.Machine.execKxVcmpleu c w s
  | .kxVsel c w => Sys2Proof.Machine.execKxVsel c w s
  | .kxVperm c w => Sys2Proof.Machine.execKxVperm c w s
  | .kxVbcast c w => Sys2Proof.Machine.execKxVbcast c w s
  | .kxVins c w => Sys2Proof.Machine.execKxVins c w s
  | .kxVext c w => Sys2Proof.Machine.execKxVext c w s
  | .kxVradd c w => Sys2Proof.Machine.execKxVradd c w s
  | .kxVrmin c w => Sys2Proof.Machine.execKxVrmin c w s
  | .kxVrmax c w => Sys2Proof.Machine.execKxVrmax c w s
  | .kxVrand c w => Sys2Proof.Machine.execKxVrand c w s
  | .kxVrorReduction c w => Sys2Proof.Machine.execKxVrorReduction c w s
  | .kxVrxor c w => Sys2Proof.Machine.execKxVrxor c w s
  | .kxPand c w => Sys2Proof.Machine.execKxPand c w s
  | .kxPor c w => Sys2Proof.Machine.execKxPor c w s
  | .kxPxor c w => Sys2Proof.Machine.execKxPxor c w s
  | .kxPnot c w => Sys2Proof.Machine.execKxPnot c w s
  | .kxPrange c w => Sys2Proof.Machine.execKxPrange c w s
  | .kxPcount c w => Sys2Proof.Machine.execKxPcount c w s
  | .kxPfind c w => Sys2Proof.Machine.execKxPfind c w s
  | .kxFftop c w => Sys2Proof.Machine.execKxFftop c w s
  | .kxPtoff c w => Sys2Proof.Machine.execKxPtoff c w s
  | .kxVld c w => Sys2Proof.Machine.execKxVld c w s
  | .kxVlds c w => Sys2Proof.Machine.execKxVlds c w s
  | .kxPld c w => Sys2Proof.Machine.execKxPld c w s
  | .kxVst c w => Sys2Proof.Machine.execKxVst c w s
  | .kxVsts c w => Sys2Proof.Machine.execKxVsts c w s
  | .kxPst c w => Sys2Proof.Machine.execKxPst c w s
  | .kxVgather c w => Sys2Proof.Machine.execKxVgather c w s
  | .kxVscatter c w => Sys2Proof.Machine.execKxVscatter c w s
  | .kxVldff c w => Sys2Proof.Machine.execKxVldff c w s
  | .kxVgatherff c w => Sys2Proof.Machine.execKxVgatherff c w s
  | .kxVadc c w => Sys2Proof.Machine.execKxVadc c w s
  | .kxVsbb c w => Sys2Proof.Machine.execKxVsbb c w s
  | .kxVcshl c w => Sys2Proof.Machine.execKxVcshl c w s
  | .kxVmulw c w => Sys2Proof.Machine.execKxVmulw c w s
  | .kxVmont c w => Sys2Proof.Machine.execKxVmont c w s
  | .kxVredm c w => Sys2Proof.Machine.execKxVredm c w s
  | .readShared line => Sys2Proof.Machine.execReadShared line s
  | .readOwn line => Sys2Proof.Machine.execReadOwn line s
  | .upgrade line => Sys2Proof.Machine.execUpgrade line s
  | .nearAtomic line => Sys2Proof.Machine.execNearAtomic line s
  | .devRead c r => Sys2Proof.Machine.execDevRead c r s
  | .devWrite c => Sys2Proof.Machine.execDevWrite c s
  | .writeBack c line => Sys2Proof.Machine.execWriteBack c line s
  | .cleanEvict c line => Sys2Proof.Machine.execCleanEvict c line s
  | .snpRead x => Sys2Proof.Machine.execSnpRead x s
  | .snpOwn x => Sys2Proof.Machine.execSnpOwn x s
  | .snpInv line c => Sys2Proof.Machine.execSnpInv line c s
  | .snoopAnswer line c => Sys2Proof.Machine.execSnoopAnswer line c s
  | .data line flips => Sys2Proof.Machine.execData line flips s
  | .grant line => Sys2Proof.Machine.execGrant line s
  | .ack line => Sys2Proof.Machine.execAck line s
  | .homeTimeout line holder => Sys2Proof.Machine.execHomeTimeout line holder s
  | .rasHomeStatusRead q h => Sys2Proof.Machine.execRasHomeStatusRead q h s
  | .tiCreate q ti => Sys2Proof.Machine.execTiCreate q ti s
  | .tiRemove q ti => Sys2Proof.Machine.execTiRemove q ti s
  | .tiRemoveDone ti => Sys2Proof.Machine.execTiRemoveDone ti s
  | .tifConfigWrite q ti r v => Sys2Proof.Machine.execTifConfigWrite q ti r v s
  | .tifSqWrite q ti n v => Sys2Proof.Machine.execTifSqWrite q ti n v s
  | .queueRestart q ti n => Sys2Proof.Machine.execQueueRestart q ti n s
  | .tifRingHeadWrite q ti v => Sys2Proof.Machine.execTifRingHeadWrite q ti v s
  | .tiResetGo q ti v => Sys2Proof.Machine.execTiResetGo q ti v s
  | .privilegedResetDone ti => Sys2Proof.Machine.execPrivilegedResetDone ti s
  | .drainTimeout ti => Sys2Proof.Machine.execDrainTimeout ti s
  | .tifCountRead q ti => Sys2Proof.Machine.execTifCountRead q ti s
  | .evhSrcWrite q h id v => Sys2Proof.Machine.execEvhSrcWrite q h id v s
  | .raiseCrossing h => Sys2Proof.Machine.execRaiseCrossing h s
  | .evhRaiseWrite q h v => Sys2Proof.Machine.execEvhRaiseWrite q h v s
  | .evhWithdraw q h id => Sys2Proof.Machine.execEvhWithdraw q h id s
  | .evhSgiWrite q h v => Sys2Proof.Machine.execEvhSgiWrite q h v s
  | .evhClaimK q l => Sys2Proof.Machine.execEvhClaimK q l s
  | .evhClaimV q l => Sys2Proof.Machine.execEvhClaimV q l s
  | .evhSecClaim q l => Sys2Proof.Machine.execEvhSecClaim q l s
  | .evhEoiK q l v => Sys2Proof.Machine.execEvhEoiK q l v s
  | .evhEoiV q l v => Sys2Proof.Machine.execEvhEoiV q l v s
  | .evhSecEoi q l v => Sys2Proof.Machine.execEvhSecEoi q l v s
  | .evhHoldWrite q h v => Sys2Proof.Machine.execEvhHoldWrite q h v s
  | .evhTiqCfgWrite q h ti v => Sys2Proof.Machine.execEvhTiqCfgWrite q h ti v s
  | .evhTiqHeadWrite q h ti v => Sys2Proof.Machine.execEvhTiqHeadWrite q h ti v s
  | .evhEqHeadWrite q l v => Sys2Proof.Machine.execEvhEqHeadWrite q l v s
  | .evhStatRead q h => Sys2Proof.Machine.execEvhStatRead q h s
  | .evhEqOvfRead q l => Sys2Proof.Machine.execEvhEqOvfRead q l s
  | .channelBind q h c v => Sys2Proof.Machine.execChannelBind q h c v s
  | .channelUnbind q h c => Sys2Proof.Machine.execChannelUnbind q h c s
  | .kaolinDoorbell q h c v => Sys2Proof.Machine.execKaolinDoorbell q h c v s
  | .kaolinFetch h c => Sys2Proof.Machine.execKaolinFetch h c s
  | .compress h => Sys2Proof.Machine.execCompress h s
  | .decompress h => Sys2Proof.Machine.execDecompress h s
  | .jobResult h c => Sys2Proof.Machine.execJobResult h c s
  | .jobDoneWrite h c => Sys2Proof.Machine.execJobDoneWrite h c s
  | .channelRestart q h c => Sys2Proof.Machine.execChannelRestart q h c s
  | .slotRelease q h slot => Sys2Proof.Machine.execSlotRelease q h slot s
  | .kaolinTiChange h c => Sys2Proof.Machine.execKaolinTiChange h c s
  | .kaoStatRead q h => Sys2Proof.Machine.execKaoStatRead q h s
  | .dramRead c ca slot act flips => Sys2Proof.Machine.execDramRead c ca slot act flips s
  | .dramWrite c ca slot act => Sys2Proof.Machine.execDramWrite c ca slot act s
  | .zeroFillDone c cb => Sys2Proof.Machine.execZeroFillDone c cb s
  | .refreshOwed c r => Sys2Proof.Machine.execRefreshOwed c r s
  | .refab c r queued => Sys2Proof.Machine.execRefab c r queued s
  | .retrain c r moves => Sys2Proof.Machine.execRetrain c r moves s
  | .dimmTempPoll c t0 t1 => Sys2Proof.Machine.execDimmTempPoll c t0 t1 s
  | .channelTraining c slot0 slot1 rfm raa drfm good delays => Sys2Proof.Machine.execChannelTraining c slot0 slot1 rfm raa drfm good delays s
  | .writePattern q c v => Sys2Proof.Machine.execWritePattern q c v s
  | .readAndCompare q c v => Sys2Proof.Machine.execReadAndCompare q c v s
  | .sweepRd q c v => Sys2Proof.Machine.execSweepRd q c v s
  | .sweepWr q c v => Sys2Proof.Machine.execSweepWr q c v s
  | .sweepVref q c v => Sys2Proof.Machine.execSweepVref q c v s
  | .trainOpDone c errs => Sys2Proof.Machine.execTrainOpDone c errs s
  | .caParityAlert c r again long => Sys2Proof.Machine.execCaParityAlert c r again long s
  | .migrateGo q c v => Sys2Proof.Machine.execMigrateGo q c v s
  | .migrationBlockCopy c => Sys2Proof.Machine.execMigrationBlockCopy c s
  | .dmcCountRead q c => Sys2Proof.Machine.execDmcCountRead q c s
  | .dmcCount2Read q c => Sys2Proof.Machine.execDmcCount2Read q c s
  | .dmcTrainWinRead q c n => Sys2Proof.Machine.execDmcTrainWinRead q c n s
  | .dmcMigrateRead q c => Sys2Proof.Machine.execDmcMigrateRead q c s
  | .errorRecordWrite h => Sys2Proof.Machine.execErrorRecordWrite h s
  | .rasLogWrite q h slog v => Sys2Proof.Machine.execRasLogWrite q h slog v s
  | .rasLogHeadWrite q h slog v => Sys2Proof.Machine.execRasLogHeadWrite q h slog v s
  | .rasCountRead q h => Sys2Proof.Machine.execRasCountRead q h s
  | .rasCount2Read q h => Sys2Proof.Machine.execRasCount2Read q h s
  | .patrolRead c flips => Sys2Proof.Machine.execPatrolRead c flips s
  | .onDiePatrol what inst a flips => Sys2Proof.Machine.execOnDiePatrol what inst a flips s
  | .passGo q h v => Sys2Proof.Machine.execPassGo q h v s
  | .passCancel q h v n flips => Sys2Proof.Machine.execPassCancel q h v n flips s
  | .passDone h flips => Sys2Proof.Machine.execPassDone h flips s
  | .injectGo q h v => Sys2Proof.Machine.execInjectGo q h v s
  | .injectDisarm q h v => Sys2Proof.Machine.execInjectDisarm q h v s
  | .injectApply h => Sys2Proof.Machine.execInjectApply h s
  | .railSet r mv => Sys2Proof.Machine.execRailSet r mv s
  | .railAttemptFail r => Sys2Proof.Machine.execRailAttemptFail r s
  | .railRetry r => Sys2Proof.Machine.execRailRetry r s
  | .pwrRailRead q h r => Sys2Proof.Machine.execPwrRailRead q h r s
  | .powerSample rails fixed => Sys2Proof.Machine.execPowerSample rails fixed s
  | .thermalSample h tj => Sys2Proof.Machine.execThermalSample h tj s
  | .thermalShutdown h => Sys2Proof.Machine.execThermalShutdown h s
  | .domainRequest q h d v => Sys2Proof.Machine.execDomainRequest q h d v s
  | .dormancyAnswer => Sys2Proof.Machine.execDormancyAnswer s
  | .dormancyDelayEnd => Sys2Proof.Machine.execDormancyDelayEnd s
  | .fallowEnter p => Sys2Proof.Machine.execFallowEnter p s
  | .fallowAutoEnter => Sys2Proof.Machine.execFallowAutoEnter s
  | .fallowExit p => Sys2Proof.Machine.execFallowExit p s
  | .pwrFallowRead q h => Sys2Proof.Machine.execPwrFallowRead q h s
  | .watchEnter p => Sys2Proof.Machine.execWatchEnter p s
  | .hpReady q h v => Sys2Proof.Machine.execHpReady q h v s
  | .watchHpTimeout => Sys2Proof.Machine.execWatchHpTimeout s
  | .i3cWakeMatch addr => Sys2Proof.Machine.execI3cWakeMatch addr s
  | .weatheringMeasure h hours readings => Sys2Proof.Machine.execWeatheringMeasure h hours readings s
  | .replan h => Sys2Proof.Machine.execReplan h s
  | .planStoreRetry h => Sys2Proof.Machine.execPlanStoreRetry h s
  | .updateWindowOpen p => Sys2Proof.Machine.execUpdateWindowOpen p s
  | .updateWindowClose p => Sys2Proof.Machine.execUpdateWindowClose p s
  | .backfillGo q h v => Sys2Proof.Machine.execBackfillGo q h v s
  | .backfillSpareTestDone h pass => Sys2Proof.Machine.execBackfillSpareTestDone h pass s
  | .backfillRelease q h v => Sys2Proof.Machine.execBackfillRelease q h v s
  | .meshLinkFail h l => Sys2Proof.Machine.execMeshLinkFail h l s
  | .engineTest q h v => Sys2Proof.Machine.execEngineTest q h v s
  | .engineTestDone h pass => Sys2Proof.Machine.execEngineTestDone h pass s
  | .leaseSend => Sys2Proof.Machine.execLeaseSend s
  | .lease => Sys2Proof.Machine.execLease s
  | .leaseAck => Sys2Proof.Machine.execLeaseAck s
  | .leaseLapse h => Sys2Proof.Machine.execLeaseLapse h s
  | .gritHeartbeat h => Sys2Proof.Machine.execGritHeartbeat h s
  | .gritSilence h => Sys2Proof.Machine.execGritSilence h s
  | .bridgeFailure => Sys2Proof.Machine.execBridgeFailure s
  | .halfLost lost => Sys2Proof.Machine.execHalfLost lost s
  | .handover p dest => Sys2Proof.Machine.execHandover p dest s
  | .takePrimacy p => Sys2Proof.Machine.execTakePrimacy p s
  | .odRead src => Sys2Proof.Machine.execOdRead src s
  | .odWrite src => Sys2Proof.Machine.execOdWrite src s
  | .hello h peer f => Sys2Proof.Machine.execHello h peer f s
  | .finish h f => Sys2Proof.Machine.execFinish h f s
  | .request h f => Sys2Proof.Machine.execRequest h f s
  | .sessionIdleTimeout sid => Sys2Proof.Machine.execSessionIdleTimeout sid s
  | .mctpControl h inst cmd data => Sys2Proof.Machine.execMctpControl h inst cmd data s
  | .mctpVendorRequest h msg => Sys2Proof.Machine.execMctpVendorRequest h msg s
  | .entdaa h addr => Sys2Proof.Machine.execEntdaa h addr s
  | .storeStart p => Sys2Proof.Machine.execStoreStart p s
  | .storeDone => Sys2Proof.Machine.execStoreDone s
  | .calChunkRead p => Sys2Proof.Machine.execCalChunkRead p s
  | .calChunkWrite p bytes => Sys2Proof.Machine.execCalChunkWrite p bytes s
  | .calCommit p => Sys2Proof.Machine.execCalCommit p s
  | .calDiscard p => Sys2Proof.Machine.execCalDiscard p s
  | .tltHpodGo q h v => Sys2Proof.Machine.execTltHpodGo q h v s
  | .pcieLinkChange port rp link => Sys2Proof.Machine.execPcieLinkChange port rp link s
  | .inboundRead p rid bus n => Sys2Proof.Machine.execInboundRead p rid bus n s
  | .inboundWrite p rid bus bs ep => Sys2Proof.Machine.execInboundWrite p rid bus bs ep s
  | .prtIoFaultRead q h => Sys2Proof.Machine.execPrtIoFaultRead q h s
  | .cxlWindowWrite q h j v => Sys2Proof.Machine.execCxlWindowWrite q h j v s
  | .cxlLinkDown h j => Sys2Proof.Machine.execCxlLinkDown h j s
  | .frameReceive h x f => Sys2Proof.Machine.execFrameReceive h x f s
  | .ethTxDoorbell q h n v => Sys2Proof.Machine.execEthTxDoorbell q h n v s
  | .ethRxDoorbell q h n v => Sys2Proof.Machine.execEthRxDoorbell q h n v s
  | .frameTransmit h n => Sys2Proof.Machine.execFrameTransmit h n s
  | .ethQueueDisable q h n => Sys2Proof.Machine.execEthQueueDisable q h n s
  | .prtEthCountRead q h => Sys2Proof.Machine.execPrtEthCountRead q h s
  | .ethRefclkLoss => Sys2Proof.Machine.execEthRefclkLoss s
  | .pcieRefclkLoss h => Sys2Proof.Machine.execPcieRefclkLoss h s
  | .lineTest n r => Sys2Proof.Machine.execLineTest n r s
  | .prtLineRead q h n => Sys2Proof.Machine.execPrtLineRead q h n s
  | .bypass h tdi => Sys2Proof.Machine.execBypass h tdi s
  | .idcode h => Sys2Proof.Machine.execIdcode h s
  | .samplePreload h tdi => Sys2Proof.Machine.execSamplePreload h tdi s
  | .extest h tdi => Sys2Proof.Machine.execExtest h tdi s
  | .dap h w op => Sys2Proof.Machine.execDap h w op s
  | .rootStart straps cold grit recordBad odBad calBad => Sys2Proof.Machine.execRootStart straps cold grit recordBad odBad calBad s
  | .rootRailTimeout => Sys2Proof.Machine.execRootRailTimeout s
  | .coldHoldEnd => Sys2Proof.Machine.execColdHoldEnd s
  | .tilthFirmwareVerified h ok => Sys2Proof.Machine.execTilthFirmwareVerified h ok s
  | .bridgeTrained => Sys2Proof.Machine.execBridgeTrained s
  | .bridgeTrainTimeout => Sys2Proof.Machine.execBridgeTrainTimeout s
  | .prove fails tested => Sys2Proof.Machine.execProve fails tested s
  | .tune => Sys2Proof.Machine.execTune s
  | .hardpanBootTimeout => Sys2Proof.Machine.execHardpanBootTimeout s
  | .knxStartRelease q c v => Sys2Proof.Machine.execKnxStartRelease q c v s
  | .pwrGoodFall => Sys2Proof.Machine.execPwrGoodFall s
  | .powerDown p => Sys2Proof.Machine.execPowerDown p s
  | .holdEnter p => Sys2Proof.Machine.execHoldEnter p s
  | .holdDrained => Sys2Proof.Machine.execHoldDrained s
  | .holdTimeout => Sys2Proof.Machine.execHoldTimeout s
  | .holdExit p => Sys2Proof.Machine.execHoldExit p s
  | .firmwareRegionSelect p region => Sys2Proof.Machine.execFirmwareRegionSelect p region s
  | .firmwareChunk p bytes => Sys2Proof.Machine.execFirmwareChunk p bytes s
  | .firmwareStore p => Sys2Proof.Machine.execFirmwareStore p s
  | .unseal p => Sys2Proof.Machine.execUnseal p s
  | .resetNAssert => Sys2Proof.Machine.execResetNAssert s
  | .packageResetCommand p => Sys2Proof.Machine.execPackageResetCommand p s
  | .vaonLoss => Sys2Proof.Machine.execVaonLoss s
  | .completionTimeout c => Sys2Proof.Machine.execCompletionTimeout c s
  | .ethernetLinkChange h x up => Sys2Proof.Machine.execEthernetLinkChange h x up s
  | .railAcknowledged r sensed => Sys2Proof.Machine.execRailAcknowledged r sensed s
  | .ppsOutPulse rise => Sys2Proof.Machine.execPpsOutPulse rise s
  | .neighbourDiscovery h f => Sys2Proof.Machine.execNeighbourDiscovery h f s
  | .icmpv6Echo h f => Sys2Proof.Machine.execIcmpv6Echo h f s

end Sys2Proof.Machine
end

