-- ==== Sys2Proof/Machine/Timing.lean ====
section
/-!
DEFINITION. Timing: what time brings about on its own and on which tick (R87, R163, R165, R169, R174 to R176, R178, R184). While
nothing is commanded, the machine first takes what is due now, as the commands that stand for it, and only then lets the time
clock tick (log entry 1).
-/
namespace Sys2Proof.Machine

def finsOf (n : Nat) (p : Nat → Bool) : List (Fin n) := (List.finRange n).filter fun i => p i.val

/-- The commands that are due at this tick: changes of the time base first, then what the time reached brings. -/
def State.dueNow (s : State) : List Instr :=
  (if s.changeDue then [Instr.scheduledChange] else []) ++
  (if s.lossDue then [Instr.sourceLost] else []) ++
  (if s.secondDue && s.rf Reg.STR_STATUS.holdover_s s.strP != 0xFFFF then [Instr.holdoverSecond] else []) ++
  (finsOf 64 s.promoteDue).map Instr.promoteBroadcast ++
  (finsOf 17 fun u => (s.applyDue u).isSome).map Instr.promoteApply ++
  (finsOf 64 s.fanDue).map Instr.fanoutPlace ++
  (finsOf 64 s.cmpDue).map Instr.cmpFire ++
  (SMap.keys s.engines).filterMap (fun e => if h : e < 1024 then (s.launchDue e).map fun _ => Instr.launch ⟨e, h⟩ else none) ++
  (finsOf 2 s.batchDue).map Instr.batchTimeClose ++
  (if s.boundaryDue then [Instr.checkpoint] else [])

/-- A step with nothing commanded: what is due is put in the queue; when nothing is, a tick of the time clock passes. -/
def State.idle (s : State) : State :=
  match s.dueNow with
  | [] => s.strataTick
  | cs => { s with pending := cs }

end Sys2Proof.Machine
end

