-- ==== Sys2Proof/Machine/Step.lean ====
section
/-!
DEFINITION. Step: the machine takes the oldest waiting command; while none waits, time passes (R161).
-/
namespace Sys2Proof.Machine

/-- The queue's front is taken and carried out. On an empty queue time passes (DESIGN CHOICE, log entry 1): what is due at this tick
enters the queue as the commands that stand for it, and when nothing is due the Strata time base advances by one tick, 1 ns. -/
def step (s : State) : Out3 :=
  match s.pending with
  | [] => .next s.idle
  | c :: cs => exec c { s with pending := cs }

/-- The state with the command that a word spells at the front of its queue; the same state where the word spells none. -/
def State.withFetchWord (s : State) (nbits w : Nat) : State :=
  match decodeTableWord nbits w with
  | some c => { s with pending := c :: s.pending }
  | none => s

end Sys2Proof.Machine
end

