-- ==== Sys2Proof/Safety.lean ====
section
/-!
DEFINITION. Safety: the terms in which claims speak of states and steps: which part of the state a command may change, and when
a sequencer can carry out the instruction at its pc.
-/
namespace Sys2Proof.Machine

/-! ## Frames -/

/-- `t` is `s` but for one Silt engine, which is `k`. -/
def State.onlyEngine (s t : State) (e : Nat) (k : Engine) : Prop :=
  (∀ j, t.eng j = if j = e then k else s.eng j) ∧ { t with engines := s.engines } = s

/-- `t` is `s` but for one Knaxa core, which is `k`. -/
def State.onlyCore (s t : State) (c : Nat) (k : Core) : Prop :=
  (∀ j, t.core j = if j = c then k else s.core j) ∧ { t with cores := s.cores } = s

/-- `t` is `s` but for the registers of the device register space, the answer to the sender and the values drawn. -/
def State.onlyRegs (s t : State) : Prop := { t with regs := s.regs, out := s.out } = s

/-- Every byte of memory outside `n` bytes at `a` reads as before. -/
def State.bytesKept (s t : State) (a n : Nat) : Prop := ∀ x, x < a ∨ a + n ≤ x → t.peek x = s.peek x

/-! ## Events -/

/-- `t` is `s` but for registers, memory, cached copies, the Event Hub, the error records, what left through the ports and the
marks of refusals reported. -/
def State.evOnly (s t : State) : Prop :=
  ∃ r m c v a o p, t = { s with regs := r, mem := m, coh := c, evh := v, ras := a, out := o, sys := { s.sys with potSpent := p } }

/-- The fields that raising an event may write. -/
def evFields : List Nat := [Reg.RAS_COUNT.uer.id, Reg.EVH_STAT.dropped.id, Reg.EVH_STAT.bad_raise.id, Reg.EVH_EQ_OVF.overflow.id,
  Reg.EVH_EQ_PTR.tail.id, Reg.EVH_TIQ_PTR.tail.id, Reg.POT_FAULT.kind.id, Reg.POT_FAULT.access.id, Reg.POT_FAULT.owner.id,
  Reg.POT_FAULT.invalid.id, Reg.POT_FAULT.tenant.id, Reg.POT_FAULT.count.id, Reg.POT_FAULT_ADDR.addr.id]

/-- Every register field but those reads the same. -/
def State.evRegs (s t : State) : Prop := ∀ (f : Fld) (i j : Nat), f.id ∉ evFields → t.rf f i j = s.rf f i j

/-! ## Access -/

/-- The Page Ownership Table admits the sender's read of the register page (R10, R132). -/
def State.mayRead (s : State) (q : Requester) (cls inst off : Nat) : Prop :=
  (s.potCheck q .read (drsAddr cls inst off)).ok = true ∧ s.cutOff (drsAddr cls inst off) = none

/-- The Page Ownership Table admits the sender's write to the register page, and its half is not lost (R10, R132, R292). -/
def State.mayStore (s : State) (q : Requester) (cls inst off : Nat) : Prop :=
  (s.potCheck q .write (drsAddr cls inst off)).ok = true ∧ s.cutOff (drsAddr cls inst off) = none

/-- The Page Ownership Table admits the sender's write to the register page, and the block is ON (R10, R33). -/
def State.mayWrite (s : State) (q : Requester) (cls inst off : Nat) : Prop :=
  (s.potCheck q .write (drsAddr cls inst off)).ok = true ∧ s.cutOff (drsAddr cls inst off) = none ∧ s.blkOn cls inst = true

/-! ## Silt -/

/-- The engine carries out the instruction at its pc: it runs a task, waits for nothing and has power, its slot is not annulled
and its pc lies in IRAM (R50 to R52), and nothing halts it behind the instruction (R64, R71). -/
def State.sltCan (s : State) (e : Nat) : Prop :=
  (s.eng e).run = .run ∧ (s.eng e).stall = .none ∧ s.clusterUp (engCluster e) = true ∧ (s.eng e).annul = false ∧
    (s.eng e).pc < 0x2000 ∧ (s.eng e).pc % 4 = 0 ∧ (s.eng e).storeFault = none ∧ (s.eng e).stepping = false ∧
    s.rb Reg.SLT_DEBUG.halt e = false

end Sys2Proof.Machine
end

