-- ==== Sys2Proof/Certificates/Slice0/Obligations.lean ====
section
/-!
DEFINITION. Obligations: the statements for the provers.
-/
open Sys2Proof Sys2Proof.Machine

/-! ## The queue -/

/-- A waiting command's step is the command's effect on the state with the rest of the queue. -/
def Obligations.StepRunsFrontCommand : Prop :=
  ∀ (s : State) (c : Instr) (cs : List Instr), step { s with pending := c :: cs } = exec c { s with pending := cs }

/-! ## Silt instructions (R47) -/

namespace Sys2Proof.Claims

/-- One row: the instruction, its command, and what it does to the engine besides moving on to npc. -/
structure SiltRow where
  op : SOp
  cmd : EngineId → IWord → Instr
  act : IWord → Engine → Engine

/-- rd ← f ra rb. -/
def rrr (f : Word → Word → Word) (w : IWord) (k : Engine) : Engine := k.sets (fRd w) (f (k.rs (fRa w)) (k.rs (fRb w)))
/-- rd ← f ra. -/
def rr (f : Word → Word) (w : IWord) (k : Engine) : Engine := k.sets (fRd w) (f (k.rs (fRa w)))
/-- rd ← f ra imm18. -/
def rri (f : Word → BitVec 18 → Word) (w : IWord) (k : Engine) : Engine :=
  k.sets (fRd w) (f (k.rs (fRa w)) (BitVec.ofNat 18 (fImm w)))
/-- wd ← f wa wb. -/
def www (f : Wide → Wide → Wide) (w : IWord) (k : Engine) : Engine := k.setw (fWd w) (f (k.rw (fWa w)) (k.rw (fWb w)))

/-- The scalar and immediate instructions, and the system instructions that only touch registers. -/
def siltScalar : List SiltRow := [
  ⟨.add, .siltAdd, rrr fun a b => a + b⟩,
  ⟨.sub, .siltSub, rrr fun a b => a - b⟩,
  ⟨.and, .siltAnd, rrr fun a b => a &&& b⟩,
  ⟨.or, .siltOr, rrr fun a b => a ||| b⟩,
  ⟨.xor, .siltXor, rrr fun a b => a ^^^ b⟩,
  ⟨.andn, .siltAndn, rrr fun a b => a &&& ~~~b⟩,
  ⟨.sll, .siltSll, rrr fun a b => a <<< (b.toNat % 64)⟩,
  ⟨.srl, .siltSrl, rrr fun a b => a >>> (b.toNat % 64)⟩,
  ⟨.sra, .siltSra, rrr fun a b => a.sshiftRight (b.toNat % 64)⟩,
  ⟨.ror, .siltRor, rrr fun a b => a.rotateRight (b.toNat % 64)⟩,
  ⟨.slt, .siltSlt, rrr fun a b => if a.toInt < b.toInt then 1 else 0⟩,
  ⟨.sltu, .siltSltu, rrr fun a b => if a.toNat < b.toNat then 1 else 0⟩,
  ⟨.mul, .siltMul, rrr fun a b => a * b⟩,
  ⟨.mulhu, .siltMulhu, rrr fun a b => BitVec.ofNat 64 (a.toNat * b.toNat / 2 ^ 64)⟩,
  ⟨.clz, .siltClz, rr fun a => BitVec.ofNat 64 (sltClz a.toNat 64)⟩,
  ⟨.popc, .siltPopc, rr fun a => BitVec.ofNat 64 (sltPopc a.toNat 64)⟩,
  ⟨.bswap, .siltBswap, rr fun a => BitVec.ofNat 64 (ofBe (leBytes 8 a.toNat))⟩,
  ⟨.addi, .siltAddi, rri fun a i => a + i.signExtend 64⟩,
  ⟨.andi, .siltAndi, rri fun a i => a &&& i.zeroExtend 64⟩,
  ⟨.ori, .siltOri, rri fun a i => a ||| i.zeroExtend 64⟩,
  ⟨.xori, .siltXori, rri fun a i => a ^^^ i.zeroExtend 64⟩,
  ⟨.shi, .siltShi, rri fun a i =>
    match i.toNat / 64 % 4 with
    | 0 => a <<< (i.toNat % 64)
    | 1 => a >>> (i.toNat % 64)
    | 2 => a.sshiftRight (i.toNat % 64)
    | _ => a.rotateRight (i.toNat % 64)⟩,
  ⟨.movz, .siltMovz, fun w k => k.sets (fRd w) (BitVec.ofNat 64 (ifld w 15 0) <<< (16 * ifld w 21 20))⟩,
  ⟨.movk, .siltMovk, fun w k => k.sets (fRd w)
    ((k.rs (fRd w) &&& ~~~((0xFFFF : Word) <<< (16 * ifld w 21 20))) |||
      BitVec.ofNat 64 (ifld w 15 0) <<< (16 * ifld w 21 20))⟩,
  ⟨.nop, .siltNop, fun _ k => k⟩,
  ⟨.rdth, .siltRdth, fun w k => k.sets (fRd w) (BitVec.ofNat 64 k.rdth)⟩,
  ⟨.getcf, .siltGetcf, fun w k => k.sets (fRd w) (if k.cf then 1 else 0)⟩,
  ⟨.setcf, .siltSetcf, fun w k => { k with cf := (k.rs (fRa w)).getLsbD 0 }⟩]

/-- The wide and wide-scalar instructions, the hashes of wide registers, GMUL, and the instructions of the engine cache and
the key registers that only touch the engine. -/
def siltWide : List SiltRow := [
  ⟨.wadd, .siltWadd, fun w k =>
    { k.setw (fWd w) (k.rw (fWa w) + k.rw (fWb w)) with
      cf := decide (2 ^ 256 ≤ (k.rw (fWa w)).toNat + (k.rw (fWb w)).toNat) }⟩,
  ⟨.waddc, .siltWaddc, fun w k =>
    { k.setw (fWd w) (k.rw (fWa w) + k.rw (fWb w) + (if k.cf then 1 else 0)) with
      cf := decide (2 ^ 256 ≤ (k.rw (fWa w)).toNat + (k.rw (fWb w)).toNat + (if k.cf then 1 else 0)) }⟩,
  ⟨.wsub, .siltWsub, fun w k =>
    { k.setw (fWd w) (k.rw (fWa w) - k.rw (fWb w)) with cf := decide ((k.rw (fWa w)).toNat < (k.rw (fWb w)).toNat) }⟩,
  ⟨.wsubb, .siltWsubb, fun w k =>
    { k.setw (fWd w) (k.rw (fWa w) - k.rw (fWb w) - (if k.cf then 1 else 0)) with
      cf := decide ((k.rw (fWa w)).toNat < (k.rw (fWb w)).toNat + (if k.cf then 1 else 0)) }⟩,
  ⟨.wand, .siltWand, www fun a b => a &&& b⟩,
  ⟨.wor, .siltWor, www fun a b => a ||| b⟩,
  ⟨.wxor, .siltWxor, www fun a b => a ^^^ b⟩,
  ⟨.wmov, .siltWmov, fun w k => k.setw (fWd w) (k.rw (fWa w))⟩,
  ⟨.wshl1, .siltWshl1, fun w k =>
    { k.setw (fWd w) (k.rw (fWa w) <<< 1 ||| (if k.cf then 1 else 0)) with cf := (k.rw (fWa w)).getLsbD 255 }⟩,
  ⟨.wshr1, .siltWshr1, fun w k =>
    { k.setw (fWd w) (k.rw (fWa w) >>> 1 ||| (if k.cf then 1 else 0) <<< 255) with cf := (k.rw (fWa w)).getLsbD 0 }⟩,
  ⟨.wzero, .siltWzero, fun w k => k.setw (fWd w) 0⟩,
  ⟨.wins, .siltWins, fun w k => k.setw (fX w)
    ((k.rw (fX w) &&& ~~~((0xFFFFFFFFFFFFFFFF : Wide) <<< (64 * fLane w))) |||
      (k.rs (fY w)).zeroExtend 256 <<< (64 * fLane w))⟩,
  ⟨.wext, .siltWext, fun w k => k.sets (fX w) ((k.rw (fY w)).extractLsb' (64 * fLane w) 64)⟩,
  ⟨.wceq, .siltWceq, fun w k => k.sets (fX w) (if k.rw (fY w) = k.rw (fZ w) then 1 else 0)⟩,
  ⟨.wbit, .siltWbit, fun w k =>
    k.sets (fX w) (if (k.rw (fY w)).getLsbD ((k.rs (fZ w)).toNat % 256) then 1 else 0)⟩,
  ⟨.gmul, .siltGmul, gmulOp⟩,
  ⟨.sha256c, .siltSha256c, fun w k => sha256Op (k.wBytes (fWa w) ++ k.wBytes (fWa w + 1)) w k⟩,
  ⟨.sha512c, .siltSha512c, fun _ k => sha512Op (k.wBytes 4 ++ k.wBytes 5 ++ k.wBytes 6 ++ k.wBytes 7) k⟩,
  ⟨.keccak, .siltKeccak, fun _ k => keccakOp k⟩,
  ⟨.kzero, .siltKzero, fun w k => k.setk (fKd w) ⟨0, none⟩⟩,
  ⟨.kzall, .siltKzall, fun _ k => { k with k := [], modulus := none }⟩,
  ⟨.clock, .siltClock, fun w k =>
    if k.locks ||| ifld w 3 0 = 15 then k.sets (fRd w) 1 else { k.sets (fRd w) 0 with locks := k.locks ||| ifld w 3 0 }⟩,
  ⟨.cunlock, .siltCunlock, fun w k => { k with locks := k.locks &&& (15 - ifld w 3 0) }⟩,
  ⟨.cinv, .siltCinv, fun _ k => { k with cache := k.cache.filter fun p => k.locks.testBit (p.1 % 4) }⟩,
  ⟨.cinvl, .siltCinvl, fun w k =>
    match k.findWay ((k.rs (fRa w)).toNat / 64) with
    | some way => k.setLine ((k.rs (fRa w)).toNat / 64 % 64) way none
    | none => k⟩]

/-- The engine completes the row's instruction with the row's effect, and nothing else of the machine changes. -/
def siltRowHolds (r : SiltRow) : Prop :=
  ∀ (e : EngineId) (w : IWord) (s : State), s.sltCan e.val → SOp.of w = some r.op →
    ∃ t, exec (r.cmd e w) s = .next t ∧ s.onlyEngine t e.val (r.act w (s.eng e.val)).advance

end Sys2Proof.Claims

open Sys2Proof.Claims

/-- Every scalar, immediate and register-only system instruction of a Silt engine writes the value its row gives, and no other register,
and goes on to the next instruction (R42, R47, R50). -/
def Sys2Proof.Claims.SiltScalarInstructions : Prop := ∀ r ∈ siltScalar, siltRowHolds r

/-- Every wide instruction and every instruction that only touches the engine's own registers and cache, likewise (R42, R47, R56, R57). -/
def Sys2Proof.Claims.SiltWideInstructions : Prop := ∀ r ∈ siltWide, siltRowHolds r

/-- The Silt instructions that compute a register from registers. -/
def Obligations.SiltArithmetic : Prop :=
  Sys2Proof.Claims.SiltScalarInstructions ∧
  Sys2Proof.Claims.SiltWideInstructions

namespace Sys2Proof.Claims

/-- One row of an instruction with operands that may be absent: the engine after it, when they are all there. -/
structure SiltKeyRow where
  op : SOp
  cmd : EngineId → IWord → Instr
  act : IWord → Engine → Option Engine

/-- The operands of a modular instruction: wa, b and the latch. -/
def modOps (w : IWord) (k : Engine) : Option (Nat × Nat × Nat) :=
  match k.mulB w, k.modulus with
  | some b, some (m, _) => some ((k.rw (fWa w)).toNat, b, m.toNat)
  | _, _ => none

/-- The instructions of R47 whose operand b, key or bit source may be a key register, or that use the modulus latch, with the
algorithms of R49. -/
def siltKeyed : List SiltKeyRow := [
  ⟨.mullo, .siltMullo, fun w k => (k.mulB w).map fun b =>
    k.setw (fWd w) (BitVec.ofNat 256 ((k.rw (fWa w)).toNat * b))⟩,
  ⟨.mulhi, .siltMulhi, fun w k => (k.mulB w).map fun b =>
    k.setw (fWd w) (BitVec.ofNat 256 ((k.rw (fWa w)).toNat * b / 2 ^ 256))⟩,
  ⟨.mmul, .siltMmul, fun w k => (modOps w k).map fun x => k.setw (fWd w) (BitVec.ofNat 256 (montMul x.1 x.2.1 x.2.2))⟩,
  ⟨.madd, .siltMadd, fun w k => (modOps w k).bind fun x =>
    if x.1 < x.2.2 ∧ x.2.1 < x.2.2 then some (k.setw (fWd w) (BitVec.ofNat 256 ((x.1 + x.2.1) % x.2.2))) else none⟩,
  ⟨.msub, .siltMsub, fun w k => (modOps w k).bind fun x =>
    if x.1 < x.2.2 ∧ x.2.1 < x.2.2 then some (k.setw (fWd w) (BitVec.ofNat 256 ((x.1 + x.2.2 - x.2.1) % x.2.2)))
    else none⟩,
  ⟨.msetm, .siltMsetm, fun w k =>
    (if fKsel w then k.mulB w else some (k.rw (fWa w)).toNat).bind fun m =>
      if m % 2 = 1 then
        k.task.map fun t => { k with modulus := some (BitVec.ofNat 256 m, t.tenant) }
      else none⟩,
  ⟨.aese, .siltAese, fun w k => (k.aesKey w).map fun key =>
    k.setw (fWd w) (wOfBytes (Crypto.aesEnc key ((k.wBytes (fWa w)).take 16)))⟩,
  ⟨.aesd, .siltAesd, fun w k => (k.aesKey w).map fun key =>
    k.setw (fWd w) (wOfBytes (Crypto.aesDec key ((k.wBytes (fWa w)).take 16)))⟩,
  ⟨.tdese, .siltTdese, fun w k => (k.tdesKey w).map fun key =>
    k.setw (fWd w) (wOfBytes (Crypto.tdesEnc key ((k.wBytes (fWa w)).take 8)))⟩,
  ⟨.tdesd, .siltTdesd, fun w k => (k.tdesKey w).map fun key =>
    k.setw (fWd w) (wOfBytes (Crypto.tdesDec key ((k.wBytes (fWa w)).take 8)))⟩,
  ⟨.sha256k, .siltSha256k, fun w k => (k.keyBytes (fKb w) (· == 6) 2).map fun b =>
    sha256Op (b.map fun x => x ^^^ (if fSub w = 0 then 0x36 else 0x5C)) w k⟩,
  ⟨.sha512k, .siltSha512k, fun w k => (k.keyBytes (fKb w) (· == 7) 4).map fun b =>
    sha512Op (b.map fun x => x ^^^ (if fSub w = 0 then 0x36 else 0x5C)) k⟩,
  ⟨.wcsel, .siltWcsel, fun w k => (k.rk (fXkb w)).tag.map fun _ =>
    if (k.rk (fXkb w)).val.getLsbD ((k.rs (fY w)).toNat % 256) then k.setw (fX w) (k.rw (fZ w)) else k⟩]

/-- One control transfer: whether it transfers, where to, whether its slot is annulled, and its link register (R47, R51). -/
structure SiltBranchRow where
  op : SOp
  cmd : EngineId → IWord → Instr
  take : IWord → Engine → Bool
  target : IWord → Engine → Nat
  annul : IWord → Engine → Bool
  link : IWord → Bool

/-- The branch's own address + 4 · offset. -/
def siltOffset (n off : Nat) (k : Engine) : Nat :=
  (BitVec.ofNat 64 k.pc + BitVec.ofInt 64 (4 * (BitVec.ofNat n off).toInt)).toNat

/-- The conditions of Bcc and BZcc by their number. -/
def siltCond (cond : Nat) (a b : Word) : Bool :=
  match cond with
  | 0 => decide (a = b)
  | 1 => decide (a ≠ b)
  | 2 => decide (a.toInt < b.toInt)
  | 3 => decide (b.toInt ≤ a.toInt)
  | 4 => decide (a.toNat < b.toNat)
  | 5 => decide (b.toNat ≤ a.toNat)
  | 6 => decide (a &&& b ≠ 0)
  | _ => decide (a &&& b = 0)

def siltZCond (cond : Nat) (a : Word) : Bool :=
  match cond with
  | 0 => decide (a = 0)
  | 1 => decide (a ≠ 0)
  | 2 => decide (a.toInt < 0)
  | 3 => decide (0 ≤ a.toInt)
  | 4 => decide (0 < a.toInt)
  | _ => decide (a.toInt ≤ 0)

def siltBranches : List SiltBranchRow := [
  ⟨.bcc, .siltBcc, fun w k => siltCond (ifld w 24 22) (k.rs (fRa w)) (k.rs (fRb w)),
    fun w k => siltOffset 14 (ifld w 13 0) k,
    fun w k => w.getLsbD 25 && !siltCond (ifld w 24 22) (k.rs (fRa w)) (k.rs (fRb w)), fun _ => false⟩,
  ⟨.bzcc, .siltBzcc, fun w k => siltZCond (ifld w 24 22) (k.rs (fRa w)), fun w k => siltOffset 14 (ifld w 13 0) k,
    fun w k => w.getLsbD 25 && !siltZCond (ifld w 24 22) (k.rs (fRa w)), fun _ => false⟩,
  ⟨.j, .siltJ, fun _ _ => true, fun w k => siltOffset 24 (ifld w 23 0) k, fun w _ => w.getLsbD 25,
    fun w => w.getLsbD 24⟩,
  ⟨.jr, .siltJr, fun _ _ => true, fun w k => (k.rs (ifld w 23 20)).toNat, fun w _ => w.getLsbD 25,
    fun w => w.getLsbD 24⟩]

/-- The engine after a control transfer (R50): the slot comes next, and behind it the target or the next instruction. -/
def siltBranched (r : SiltBranchRow) (w : IWord) (k : Engine) : Engine :=
  { (if r.link w then k.sets 15 (BitVec.ofNat 64 (k.pc + 8)) else k) with
    pc := k.npc, npc := if r.take w k then r.target w k else (k.npc + 4) % 2 ^ 64, slot := true, annul := r.annul w k }

/-- The load instructions with their size and the register they write. -/
def siltLoads : List (SOp × (EngineId → IWord → Instr) × Nat × (IWord → Nat → Engine → Engine)) := [
  (.ld, .siltLd, 8, fun w v k => k.sets (fRd w) (BitVec.ofNat 64 v)),
  (.lw, .siltLw, 4, fun w v k => k.sets (fRd w) (BitVec.ofNat 64 v)),
  (.lh, .siltLh, 2, fun w v k => k.sets (fRd w) (BitVec.ofNat 64 v)),
  (.lb, .siltLb, 1, fun w v k => k.sets (fRd w) (BitVec.ofNat 64 v)),
  (.wld, .siltWld, 32, fun w v k => k.setw (fWd w) (BitVec.ofNat 256 v))]

/-- The store instructions with their size and the value they store. -/
def siltStores : List (SOp × (EngineId → IWord → Instr) × Nat × (IWord → Engine → Nat)) := [
  (.sd, .siltSd, 8, fun w k => (k.rs (fRd w)).toNat),
  (.sw, .siltSw, 4, fun w k => (k.rs (fRd w)).toNat),
  (.sh, .siltSh, 2, fun w k => (k.rs (fRd w)).toNat),
  (.sb, .siltSb, 1, fun w k => (k.rs (fRd w)).toNat),
  (.wst, .siltWst, 32, fun w k => (k.rw (fWd w)).toNat)]

/-- The atomics with the new value of memory. -/
def siltAtomics : List (SOp × (EngineId → IWord → Instr) × (IWord → Engine → Word → Word)) := [
  (.amoadd, .siltAmoadd, fun w k old => old + k.rs (fRb w)),
  (.amoswap, .siltAmoswap, fun w k _ => k.rs (fRb w)),
  (.amocas, .siltAmocas, fun w k old => if old = k.rs (fRd w) then k.rs (fRb w) else old)]

/-- ra + sext(imm18). -/
def siltEa (w : IWord) (k : Engine) : Nat := (k.rs (fRa w) + (BitVec.ofNat 18 (fImm w)).signExtend 64).toNat

/-- An offset of cluster SRAM in a window of the engine's pool that is not being zeroed (R61). -/
def sramOpen (s : State) (e o : Nat) : Prop :=
  o < 0x200000 ∧ s.isMember e = true ∧ s.rb Reg.SVC_SRAM_WIN.assigned (engCluster e) (o / 65536) = true ∧
    s.rf Reg.SVC_SRAM_WIN.pool (engCluster e) (o / 65536) = s.poolOf e ∧
    s.rb Reg.SVC_SRAM_WIN.zeroing (engCluster e) (o / 65536) = false

/-- The bytes of an engine's own IRAM, descriptor image or cluster SRAM at a local address (R43, R488): none where there
are none to read. -/
def localBytes (s : State) (e a n : Nat) (bs : List Byte) : Prop :=
  (∃ o t, a = 2 ^ 63 + 0x01000000 + o ∧ o + n ≤ 128 ∧ (s.eng e).task = some t ∧ bs = (t.entry.desc.drop o).take n) ∨
    (∃ o, a = 2 ^ 63 + 0x02000000 + o ∧ o + n ≤ 0x2000 ∧ bs = (List.range n).map fun i => (s.eng e).iramAt (o + i)) ∨
    (∃ o, a = 2 ^ 63 + o ∧ sramOpen s e o ∧
      bs = ((List.range n).map fun i => SMap.get 0 (s.cluster (engCluster e)).sram (o + i)) ∧
      ∀ i, i < n → SMap.get false (s.cluster (engCluster e)).sramPoison ((o + i) / 32) = false)

/-- The engine waits for the reply that `st` names, and nothing halts it behind the instruction. -/
def sltWaits (s : State) (e : Nat) (st : Stall) : Prop :=
  (s.eng e).run = .run ∧ (s.eng e).stall = st ∧ (s.eng e).storeFault = none ∧ (s.eng e).stepping = false ∧
    s.rb Reg.SLT_DEBUG.halt e = false

/-- The line of an address arrives whole: it is mapped, the task may read it, and no granule of it is poisoned. -/
def lineArrives (s : State) (e a : Nat) : Prop :=
  a < 2 ^ 52 ∧ s.region (a / 64 * 64) ≠ .unmapped ∧ (s.potCheck (s.engReq e) .read (a / 64 * 64)).ok = true ∧
    s.cutOff (a / 64 * 64) = none ∧ (s.eng e).posted = [] ∧ SMap.get false s.mem.poison (a / 64 * 2) = false ∧
    SMap.get false s.mem.poison (a / 64 * 2 + 1) = false

/-- The bytes of memory as the engine's task reads them, under the key that its line's page carries (R139). -/
def taskBytes (s : State) (e a n : Nat) : List Byte :=
  (List.range n).map fun i => s.peekAs (s.tagOf (s.keySlotFor (s.engReq e) (a / 64 * 64))) (a + i)

/-- The copies of an address's line set that the engine cache holds have no symbol errors (R59). -/
def cacheClean (s : State) (e a : Nat) : Prop :=
  ∀ way l, (s.eng e).lineAt (a / 64 % 64) way = some l → l.errs0 = [] ∧ l.errs1 = []

/-- 8 bytes of cluster SRAM. -/
def sramWord (s : State) (e o : Nat) : Word :=
  BitVec.ofNat 64 (ofLe ((List.range 8).map fun i => SMap.get 0 (s.cluster (engCluster e)).sram (o + i)))

/-- The task has ended with a status and a result: its record is the latch's youngest, the engine is free, and the key registers
are kept or zeroed as R41 says; memory apart, nothing else but registers differs. -/
def taskOver (s t : State) (e : Nat) (tk : Task) (status result : Nat) : Prop :=
  (t.eng e).task = none ∧ (t.eng e).run = .idle ∧ (t.eng e).stall = .none ∧
    (t.eng e).latch = (s.eng e).latch ++ [⟨tk.entry.ti, tk.entry.gen, status, tk.late, tk.entry.reissue, tk.entry.ledger,
      false, tk.home != engHalf e, result, 0, e, tk.entry.slot, false⟩] ∧
    (if status = 0x00 ∨ status = 0x01 then (t.eng e).k = (s.eng e).k ∧ (t.eng e).modulus = (s.eng e).modulus
     else (t.eng e).k = [] ∧ (t.eng e).modulus = none) ∧
    (∀ j, j ≠ e → t.eng j = s.eng j) ∧
    { t with engines := s.engines, regs := s.regs, freeCtr := s.freeCtr, mem := s.mem, coh := s.coh } = s ∧
    t.rf Reg.SLT_COUNT.tasks e = min (2 ^ 32 - 1) (s.rf Reg.SLT_COUNT.tasks e + 1)

/-- DONE has ended the task: memory is as it was. -/
def taskEnded (s t : State) (e : Nat) (tk : Task) (status result : Nat) : Prop :=
  taskOver s t e tk status result ∧ t.mem = s.mem ∧ t.coh = s.coh

/-- A fault has ended the task (R64): the pages of its output buffer apart (R111), memory is as it was. -/
def taskFaulted (s t : State) (e : Nat) (tk : Task) (status result : Nat) : Prop :=
  taskOver s t e tk status result ∧ (tk.entry.outLen = 0 → t.mem = s.mem) ∧
    ∀ x, x / 4096 < tk.entry.outAddr / 4096 ∨ (tk.entry.outAddr + tk.entry.outLen + 4095) / 4096 ≤ x / 4096 →
      t.peek x = s.peek x

/-- One way for an instruction to fault, with its cause (R64). -/
structure SiltFaultRow where
  cmd : EngineId → IWord → Instr
  cause : Nat
  cond : State → Nat → IWord → Engine → Prop

/-- Every way an instruction of the tables above faults on its operands alone. -/
def siltFaults : List SiltFaultRow :=
  (siltScalar ++ siltWide).map (fun r => ⟨r.cmd, 0x01, fun _ _ w _ => SOp.of w = none⟩) ++
  siltBranches.map (fun r => ⟨r.cmd, 0x02, fun _ _ w k => SOp.of w = some r.op ∧ k.slot = true⟩) ++
  [⟨.siltDone, 0x02, fun _ _ w k => SOp.of w = some .done ∧ k.slot = true⟩,
   ⟨.siltDone, 0x0D, fun _ _ w k => SOp.of w = some .done ∧ k.slot = false ∧ 0x0D < (k.rs (fRa w)).toNat % 256⟩,
   ⟨.siltBrk, 0x0C, fun s e w _ => SOp.of w = some .brk ∧ s.debugOf (engHalf e) (s.engWorld e) true = false⟩] ++
  siltLoads.map (fun r => ⟨r.2.1, 0x04, fun _ _ w k => SOp.of w = some r.1 ∧ siltEa w k % r.2.2.1 ≠ 0⟩) ++
  siltLoads.map (fun r => ⟨r.2.1, 0x05, fun _ _ w k =>
    SOp.of w = some r.1 ∧ siltEa w k % r.2.2.1 = 0 ∧ 2 ^ 52 ≤ siltEa w k ∧ siltEa w k < 2 ^ 63⟩) ++
  siltStores.map (fun r => ⟨r.2.1, 0x04, fun _ _ w k => SOp.of w = some r.1 ∧ siltEa w k % r.2.2.1 ≠ 0⟩) ++
  siltStores.map (fun r => ⟨r.2.1, 0x03, fun _ _ w k =>
    SOp.of w = some r.1 ∧ siltEa w k % r.2.2.1 = 0 ∧ 2 ^ 63 + 0x02000000 ≤ siltEa w k ∧
      siltEa w k < 2 ^ 63 + 0x02002000⟩) ++
  siltAtomics.map (fun r => ⟨r.2.1, 0x04, fun _ _ w k => SOp.of w = some r.1 ∧ (k.rs (fRa w)).toNat < 2 ^ 52⟩) ++
  [⟨.siltMullo, 0x0A, fun _ _ w k => SOp.of w = some .mullo ∧ k.mulB w = none⟩,
   ⟨.siltMulhi, 0x0A, fun _ _ w k => SOp.of w = some .mulhi ∧ k.mulB w = none⟩,
   ⟨.siltMmul, 0x0A, fun _ _ w k => SOp.of w = some .mmul ∧ k.mulB w = none⟩,
   ⟨.siltMmul, 0x0B, fun _ _ w k => SOp.of w = some .mmul ∧ k.mulB w ≠ none ∧ k.modulus = none⟩,
   ⟨.siltMadd, 0x0B, fun _ _ w k => SOp.of w = some .madd ∧ k.mulB w ≠ none ∧ k.modulus = none⟩,
   ⟨.siltMsub, 0x0B, fun _ _ w k => SOp.of w = some .msub ∧ k.mulB w ≠ none ∧ k.modulus = none⟩,
   ⟨.siltMsetm, 0x0B, fun _ _ w k => SOp.of w = some .msetm ∧ fKsel w = false ∧ (k.rw (fWa w)).toNat % 2 = 0⟩,
   ⟨.siltAese, 0x0A, fun _ _ w k => SOp.of w = some .aese ∧ k.aesKey w = none⟩,
   ⟨.siltAesd, 0x0A, fun _ _ w k => SOp.of w = some .aesd ∧ k.aesKey w = none⟩,
   ⟨.siltTdese, 0x0A, fun _ _ w k => SOp.of w = some .tdese ∧ k.tdesKey w = none⟩,
   ⟨.siltTdesd, 0x0A, fun _ _ w k => SOp.of w = some .tdesd ∧ k.tdesKey w = none⟩,
   ⟨.siltSha256k, 0x0A, fun _ _ w k => SOp.of w = some .sha256k ∧ k.keyBytes (fKb w) (· == 6) 2 = none⟩,
   ⟨.siltSha512k, 0x0A, fun _ _ w k => SOp.of w = some .sha512k ∧ k.keyBytes (fKb w) (· == 7) 4 = none⟩,
   ⟨.siltWcsel, 0x0A, fun _ _ w k => SOp.of w = some .wcsel ∧ (k.rk (fXkb w)).tag = none⟩]

end Sys2Proof.Claims

/-- The instructions with a key register or the modulus latch: ciphers, keyed hashes, products and Montgomery steps write what their
rows give, with a key operand as R49 admits it (R41, R47, R49). -/
def Obligations.SiltKeyedInstructions : Prop :=
  ∀ r ∈ siltKeyed, ∀ (e : EngineId) (w : IWord) (s : State) (k : Engine), s.sltCan e.val → SOp.of w = some r.op →
    r.act w (s.eng e.val) = some k → ∃ t, exec (r.cmd e w) s = .next t ∧ s.onlyEngine t e.val k.advance

/-- MADD and MSUB of operands that are not below m write a value that the model leaves free (log entry 2) and go on. -/
def Obligations.SiltUnreducedSumIsFree : Prop :=
  ∀ (sub : Bool) (e : EngineId) (w : IWord) (s : State) (a b m : Nat), s.sltCan e.val →
    SOp.of w = some (if sub then .msub else .madd) → modOps w (s.eng e.val) = some (a, b, m) → (m ≤ a ∨ m ≤ b) →
    ∃ t, exec (if sub then .siltMsub e w else .siltMadd e w) s = .next t ∧
      t.eng e.val = ((s.eng e.val).setw (fWd w) (BitVec.ofNat 256 (Config.freeNat s.freeCtr))).advance ∧
      t.freeCtr = s.freeCtr + 1 ∧ { t with engines := s.engines, freeCtr := s.freeCtr } = s

/-- Branches and jumps outside a delay slot: the slot comes next, or is annulled, then the target or the instruction after the slot
(R47, R50, R51). -/
def Obligations.SiltControlTransfers : Prop :=
  ∀ r ∈ siltBranches, ∀ (e : EngineId) (w : IWord) (s : State), s.sltCan e.val → (s.eng e.val).slot = false →
    SOp.of w = some r.op →
    ∃ t, exec (r.cmd e w) s = .next t ∧ s.onlyEngine t e.val (siltBranched r w (s.eng e.val))

/-- A load of local bytes completes at once and changes its destination register alone (R43, R47). -/
def Sys2Proof.Claims.SiltLocalLoads : Prop :=
  ∀ r ∈ siltLoads, ∀ (e : EngineId) (w : IWord) (s : State) (bs : List Byte), s.sltCan e.val → SOp.of w = some r.1 →
    siltEa w (s.eng e.val) % r.2.2.1 = 0 → localBytes s e.val (siltEa w (s.eng e.val)) r.2.2.1 bs →
    ∃ t, exec (r.2.1 e w) s = .next t ∧ s.onlyEngine t e.val (r.2.2.2 w (ofLe bs) (s.eng e.val)).advance

/-- A load of a line that the engine cache holds unpoisoned and without errors reads it there (R54); one of a granule whose
errors cannot be corrected invalidates the line (R59). -/
def Sys2Proof.Claims.SiltCachedLoads : Prop :=
  ∀ r ∈ siltLoads, ∀ (e : EngineId) (w : IWord) (s : State) (way : Nat) (l : CacheLine), s.sltCan e.val →
    SOp.of w = some r.1 → siltEa w (s.eng e.val) % r.2.2.1 = 0 → siltEa w (s.eng e.val) < 2 ^ 52 →
    (s.region (siltEa w (s.eng e.val)) = .dram 0 ∨ s.region (siltEa w (s.eng e.val)) = .dram 1) →
    s.cacheOn e.val = true →
    (s.eng e.val).findWay (siltEa w (s.eng e.val) / 64) = some way →
    (s.eng e.val).lineAt (siltEa w (s.eng e.val) / 64 % 64) way = some l →
    (l.poison0 = false → l.poison1 = false → (if siltEa w (s.eng e.val) % 64 / 32 = 0 then l.errs0 else l.errs1) = [] →
      ∃ t, exec (r.2.1 e w) s = .next t ∧
        s.onlyEngine t e.val
          (r.2.2.2 w (ofLe ((l.bytes.drop (siltEa w (s.eng e.val) % 64)).take r.2.2.1)) (s.eng e.val)).advance) ∧
    (decode35 (if siltEa w (s.eng e.val) % 64 / 32 = 0 then l.errs0 else l.errs1) = none →
      ∃ t, exec (r.2.1 e w) s = .next t ∧ (t.eng e.val).lineAt (siltEa w (s.eng e.val) / 64 % 64) way = none)

/-- A load or CPRE of DRAM that misses waits for its line, with nothing else changed (R54, R57). -/
def Sys2Proof.Claims.SiltMissesWait : Prop :=
  ∀ r ∈ siltLoads.map (fun r => (r.1, r.2.1, r.2.2.1)) ++ [(SOp.cpre, Instr.siltCpre, 1)],
    ∀ (e : EngineId) (w : IWord) (s : State), s.sltCan e.val → SOp.of w = some r.1 →
    siltEa w (s.eng e.val) % r.2.2 = 0 → siltEa w (s.eng e.val) < 2 ^ 52 →
    (s.region (siltEa w (s.eng e.val)) = .dram 0 ∨ s.region (siltEa w (s.eng e.val)) = .dram 1) →
    (s.eng e.val).findWay (siltEa w (s.eng e.val) / 64) = none →
    ∃ t, exec (r.2.1 e w) s = .next t ∧ t.eng e.val = { s.eng e.val with stall := .fill w } ∧ t.mem = s.mem ∧
      (∀ j, j ≠ e.val → t.eng j = s.eng j)

/-- The waiting load completes with the bytes of memory when the line arrives, where the rights of the task admit it (R54, R132). -/
def Sys2Proof.Claims.SiltLineFills : Prop :=
  ∀ r ∈ siltLoads, ∀ (e : EngineId) (w : IWord) (flips : List (Fin 2 × Fin 35 × Byte)) (s : State),
    sltWaits s e.val (.fill w) → SOp.of w = some r.1 →
    siltEa w (s.eng e.val) % r.2.2.1 = 0 → lineArrives s e.val (siltEa w (s.eng e.val)) →
    ∃ t, exec (.engineLineFill ⟨e, flips⟩) s = .next t ∧ t.mem = s.mem ∧ (t.eng e.val).pc = (s.eng e.val).npc ∧
      (t.eng e.val).stall = .none ∧
      (∀ x, (t.eng e.val).rs x =
        (r.2.2.2 w (ofLe (taskBytes s e.val (siltEa w (s.eng e.val)) r.2.2.1)) (s.eng e.val)).rs x) ∧
      (∀ x, (t.eng e.val).rw x =
        (r.2.2.2 w (ofLe (taskBytes s e.val (siltEa w (s.eng e.val)) r.2.2.1)) (s.eng e.val)).rw x) ∧
      (s.cacheOn e.val = false →
        s.onlyEngine t e.val (r.2.2.2 w (ofLe (taskBytes s e.val (siltEa w (s.eng e.val)) r.2.2.1)) (s.eng e.val)).advance)

/-- The line of a CPRE goes to the way that it names (R57). -/
def Sys2Proof.Claims.SiltCachePrefetch : Prop :=
  ∀ (e : EngineId) (w : IWord) (flips : List (Fin 2 × Fin 35 × Byte)) (s : State), sltWaits s e.val (.fill w) →
    SOp.of w = some .cpre → lineArrives s e.val (siltEa w (s.eng e.val)) → s.cacheOn e.val = true →
    ∃ t, exec (.engineLineFill ⟨e, flips⟩) s = .next t ∧ { t with engines := s.engines } = s ∧
      (t.eng e.val).pc = (s.eng e.val).npc ∧ (t.eng e.val).stall = .none ∧
      (t.eng e.val).lineAt (siltEa w (s.eng e.val) / 64 % 64) (ifld w 25 24) =
        some (CacheLine.upset
          ⟨siltEa w (s.eng e.val) / 64, taskBytes s e.val (siltEa w (s.eng e.val) / 64 * 64) 64, false, false, [], []⟩ flips)

/-- The Silt loads: from IRAM and SRAM, from the data cache, the wait for a line, its arrival, and a prefetch. -/
def Obligations.SiltLoads : Prop :=
  Sys2Proof.Claims.SiltLocalLoads ∧
  Sys2Proof.Claims.SiltCachedLoads ∧
  Sys2Proof.Claims.SiltMissesWait ∧
  Sys2Proof.Claims.SiltLineFills ∧
  Sys2Proof.Claims.SiltCachePrefetch

/-- A store to DRAM joins the posted stores with the rights of the task (R54, R64); one to cluster SRAM is performed at once. -/
def Sys2Proof.Claims.SiltStores : Prop :=
  ∀ r ∈ siltStores, ∀ (e : EngineId) (w : IWord) (s : State), s.sltCan e.val → SOp.of w = some r.1 →
    siltEa w (s.eng e.val) % r.2.2.1 = 0 →
    (siltEa w (s.eng e.val) < 2 ^ 52 →
      (s.region (siltEa w (s.eng e.val)) = .dram 0 ∨ s.region (siltEa w (s.eng e.val)) = .dram 1) →
      (s.eng e.val).posted.length < 8 → cacheClean s e.val (siltEa w (s.eng e.val)) →
      ∃ t, exec (r.2.1 e w) s = .next t ∧ { t with engines := s.engines } = s ∧
        (∀ j, j ≠ e.val → t.eng j = s.eng j) ∧ (t.eng e.val).s = (s.eng e.val).s ∧ (t.eng e.val).w = (s.eng e.val).w ∧
        (t.eng e.val).pc = (s.eng e.val).npc ∧
        (t.eng e.val).posted = (s.eng e.val).posted ++ [⟨s.engReq e.val, s.nextSend (engCluster e.val), siltEa w (s.eng e.val),
          leBytes r.2.2.1 (r.2.2.2 w (s.eng e.val)), (s.eng e.val).pc, (s.eng e.val).npc, (s.eng e.val).slot⟩]) ∧
    (∀ o, siltEa w (s.eng e.val) = 2 ^ 63 + o → sramOpen s e.val o →
      ∃ t, exec (r.2.1 e w) s = .next t ∧ t.eng e.val = (s.eng e.val).advance ∧ (∀ j, j ≠ e.val → t.eng j = s.eng j) ∧
        { t with engines := s.engines, clusters := s.clusters } = s ∧
        (∀ x, SMap.get 0 (t.cluster (engCluster e.val)).sram x =
          if o ≤ x ∧ x < o + r.2.2.1 then (leBytes r.2.2.1 (r.2.2.2 w (s.eng e.val))).getD (x - o) 0
          else SMap.get 0 (s.cluster (engCluster e.val)).sram x) ∧
        (∀ c, c ≠ engCluster e.val → t.cluster c = s.cluster c))

/-- An atomic reads and writes 8 aligned bytes of cluster SRAM (R44, R47). -/
def Sys2Proof.Claims.SiltAtomics : Prop :=
  ∀ r ∈ siltAtomics, ∀ (e : EngineId) (w : IWord) (s : State) (o : Nat), s.sltCan e.val → SOp.of w = some r.1 →
    ((s.eng e.val).rs (fRa w)).toNat = 2 ^ 63 + o → o % 8 = 0 → sramOpen s e.val o →
    SMap.get false (s.cluster (engCluster e.val)).sramPoison (o / 32) = false →
    ∃ t, exec (r.2.1 e w) s = .next t ∧ t.eng e.val = ((s.eng e.val).sets (fRd w) (sramWord s e.val o)).advance ∧
      (∀ j, j ≠ e.val → t.eng j = s.eng j) ∧ { t with engines := s.engines, clusters := s.clusters } = s ∧
      sramWord t e.val o = r.2.2 w (s.eng e.val) (sramWord s e.val o) ∧
      (∀ x, x < o ∨ o + 8 ≤ x →
        SMap.get 0 (t.cluster (engCluster e.val)).sram x = SMap.get 0 (s.cluster (engCluster e.val)).sram x) ∧
      (∀ c, c ≠ engCluster e.val → t.cluster c = s.cluster c)

/-- FENCE, RDTL, BRK under debug, KLD of a key that is there already, and a key's arrival (R47, R71, R101 to R105). -/
def Sys2Proof.Claims.SiltSystemInstructions : Prop :=
  ∀ (e : EngineId) (w : IWord) (s : State),
    (s.sltCan e.val → SOp.of w = some .fence → (s.eng e.val).posted = [] →
      ∃ t, exec (.siltFence e w) s = .next t ∧ s.onlyEngine t e.val (s.eng e.val).advance) ∧
    (s.sltCan e.val → SOp.of w = some .fence → (s.eng e.val).posted ≠ [] →
      ∃ t, exec (.siltFence e w) s = .next t ∧ s.onlyEngine t e.val { s.eng e.val with stall := .fence w }) ∧
    (s.sltCan e.val → SOp.of w = some .rdtl →
      ∃ t, exec (.siltRdtl e w) s = .next t ∧
        s.onlyEngine t e.val
          ({ (s.eng e.val).sets (fRd w) (BitVec.ofNat 64 (strataBits (s.replica (clusterStop (engCluster e.val))))) with
            rdth := strataBits (s.replica (clusterStop (engCluster e.val))) / 2 ^ 64 }).advance) ∧
    (s.sltCan e.val → SOp.of w = some .brk → s.debugOf (engHalf e.val) (s.engWorld e.val) true = true →
      ∃ t, exec (.siltBrk e w) s = .next t ∧ t.eng e.val = { (s.eng e.val).advance with run := .halt } ∧
        (∀ j, j ≠ e.val → t.eng j = s.eng j) ∧ { t with engines := s.engines, regs := s.regs } = s ∧
        t.rf Reg.SLT_FAULT.epc e.val = (s.eng e.val).npc % 2 ^ 13) ∧
    (∀ tk o, s.sltCan e.val → SOp.of w = some .kld → (s.eng e.val).task = some tk →
      s.keyJudge e.val tk ((s.eng e.val).rs (fSa w)).toNat (fPart w)
        (s.keyFound (engCluster e.val) ((s.eng e.val).rs (fSa w)).toNat) = .ok o →
      ((((s.eng e.val).rk (fKd w)).tag =
          some ⟨((s.eng e.val).rs (fSa w)).toNat,
            s.tagVersion (engCluster e.val) (((s.eng e.val).rs (fSa w)).toNat % 2 ^ 32) o.version, tk.tenant, o.attr⟩ →
        ∃ t, exec (.siltKld e w) s = .next t ∧ s.onlyEngine t e.val (s.eng e.val).advance) ∧
       (((s.eng e.val).rk (fKd w)).tag = none →
        ∃ t, exec (.siltKld e w) s = .next t ∧ s.onlyEngine t e.val { s.eng e.val with stall := .key w o }))) ∧
    (∀ tk found o, sltWaits s e.val (.key w found) → (s.eng e.val).task = some tk →
      s.keyJudge e.val tk ((s.eng e.val).rs (fSa w)).toNat (fPart w)
        (s.keyBrought ((s.eng e.val).rs (fSa w)).toNat found) = .ok o →
      s.keyPoisoned ((s.eng e.val).rs (fSa w)).toNat = false →
      ∃ t, exec (.keyLoadReply e) s = .next t ∧
        s.onlyEngine t e.val ((s.eng e.val).setk (fKd w)
          ⟨BitVec.ofNat 256 (ofLe ((o.image.drop (32 * fPart w)).take 32)),
            some ⟨((s.eng e.val).rs (fSa w)).toNat, o.version, tk.tenant, o.attr⟩⟩).advance)

/-- DONE ends the task once its stores are acknowledged and the output latch has room (R47, R65): the record enters the latch,
and a status other than OK or VERIFY_FAIL zeroes every key register (R41). -/
def Sys2Proof.Claims.SiltDoneEndsTask : Prop :=
  ∀ (e : EngineId) (w : IWord) (s : State) (tk : Task), s.sltCan e.val → SOp.of w = some .done →
    (s.eng e.val).slot = false → ((s.eng e.val).rs (fRa w)).toNat % 256 ≤ 0x0D → (s.eng e.val).task = some tk →
    (s.eng e.val).posted = [] → (s.eng e.val).latch.length < 2 →
    ∃ t, exec (.siltDone e w) s = .next t ∧
      taskEnded s t e.val tk (((s.eng e.val).rs (fRa w)).toNat % 256) ((s.eng e.val).rs (fRb w)).toNat

/-- What stops an instruction: a word of R46, a misaligned or wrong address (R43, R44, R64), a transfer in a slot (R52), a status
past 0x0D, BRK without debug, a missing key operand and a missing or even modulus (R47, R49). Each ends the task with
the cause's status. -/
def Sys2Proof.Claims.SiltFaultsEndTask : Prop :=
  ∀ r ∈ siltFaults, ∀ (e : EngineId) (w : IWord) (s : State) (tk : Task), s.sltCan e.val →
    r.cond s e.val w (s.eng e.val) → (s.eng e.val).task = some tk → (s.eng e.val).posted = [] →
    (s.eng e.val).latch.length < 2 →
    ∃ t v, exec (r.cmd e w) s = .next t ∧ taskFaulted s t e.val tk 0x0A v ∧
      t.rf Reg.SLT_FAULT.cause e.val = r.cause ∧ t.rf Reg.SLT_FAULT.status e.val = 0x0A ∧
      t.rf Reg.SLT_FAULT.epc e.val = (s.eng e.val).pc % 2 ^ 13 ∧
      t.rf Reg.SLT_FAULT.enpc e.val = (s.eng e.val).npc % 2 ^ 13 ∧
      t.rf Reg.SLT_FAULT.in_slot e.val = (if (s.eng e.val).slot then 1 else 0)

/-- The Silt system instructions, the end of a task and its faults. -/
def Obligations.SiltSystem : Prop :=
  Sys2Proof.Claims.SiltSystemInstructions ∧
  Sys2Proof.Claims.SiltDoneEndsTask ∧
  Sys2Proof.Claims.SiltFaultsEndTask

/-! ## Engines, pools and SRAM windows -/

namespace Sys2Proof.Claims

/-- Only the engine `e`, registers and the values drawn may differ. -/
def engAndRegs (s t : State) (e : Nat) : Prop :=
  (∀ j, j ≠ e → t.eng j = s.eng j) ∧ { t with engines := s.engines, regs := s.regs, freeCtr := s.freeCtr } = s

end Sys2Proof.Claims

/-- The watchdog ends a task with WATCHDOG (R64), a lost engine leaves the machine's work (R66), and an engine that does not run or
waits is not found hung (R71; 0 names a hang, log entry 247). -/
def Sys2Proof.Claims.EngineFailures : Prop :=
  (∀ (e : EngineId) (s : State) (tk : Task), (s.eng e.val).run = .run → (s.eng e.val).stall = .none →
    (s.eng e.val).limitOld = none → s.rf Reg.SLT_TASK_LIMIT.limit e.val ≠ 0 → (s.eng e.val).task = some tk →
    (s.eng e.val).posted = [] → (s.eng e.val).latch.length < 2 → (s.eng e.val).storeFault = none →
    ∃ t v, exec (.watchdog e) s = .next t ∧ taskFaulted s t e.val tk 0x0A v ∧ t.rf Reg.SLT_FAULT.cause e.val = 0x09) ∧
  (∀ (e : EngineId) (src : BitVec 8) (s : State), (s.eng e.val).run ≠ .lost → s.isMember e.val = false →
    (s.eng e.val).task = none → (s.eng e.val).stale = false → src ≠ 0 → src.toNat ≠ 0x32 → src.toNat ≠ 0x16 →
    ∃ t, exec (.hwLost e src) s = .next t ∧ (t.eng e.val).run = .lost ∧ (t.eng e.val).k = [] ∧
      (t.eng e.val).deque = [] ∧ (∀ j, j ≠ e.val → t.eng j = s.eng j) ∧ t.custody = s.custody) ∧
  (∀ (e : EngineId) (s : State), (s.eng e.val).run ≠ .run ∨ (s.eng e.val).stall ≠ .none → exec (.hwLost e 0) s = .next s)

/-- The debug registers of an engine (R71): halt at the boundary, one instruction, resume. The debug writer needs invasive debug
for the pool's world. -/
def Sys2Proof.Claims.EngineDebug : Prop :=
  ∀ (q : Requester) (e : EngineId) (s : State), s.mayWrite q 0x02 e.val 0x130 → (q.actor = .t ∨ q.actor = .h) →
    s.debugOf (engHalf e.val) (s.engWorld e.val) true = true → (s.eng e.val).storeFault = none →
    ((s.eng e.val).run = .run → (s.eng e.val).stall = .none →
      ∃ t, exec (.sltDebugHalt q e) s = .next t ∧ t.eng e.val = { s.eng e.val with run := .halt, stepping := false } ∧
        engAndRegs s t e.val ∧ t.rf Reg.SLT_FAULT.epc e.val = (s.eng e.val).pc % 2 ^ 13 ∧
        t.rf Reg.SLT_FAULT.enpc e.val = (s.eng e.val).npc % 2 ^ 13) ∧
    ((s.eng e.val).run = .halt → (s.eng e.val).stall = .none → (s.eng e.val).annul = true →
      ∃ t, exec (.sltDebugStep q e) s = .next t ∧
        t.eng e.val = { (s.eng e.val).advance with run := .halt, stepping := false } ∧ engAndRegs s t e.val) ∧
    ((s.eng e.val).run = .halt → (s.eng e.val).stall = .none → (s.eng e.val).annul = false → (s.eng e.val).pc < 0x2000 →
      (s.eng e.val).pc % 4 = 0 → SOp.of (s.eng e.val).fetchWord = some .nop →
      ∃ t, exec (.sltDebugStep q e) s = .next t ∧
        t.eng e.val = { (s.eng e.val).advance with run := .halt, stepping := false } ∧ engAndRegs s t e.val) ∧
    ((s.eng e.val).run = .halt → (s.eng e.val).stall = .none →
      ∃ t, exec (.sltDebugResume q e) s = .next t ∧ t.eng e.val = { s.eng e.val with run := .run, stepping := false } ∧
        engAndRegs s t e.val ∧ t.rf Reg.SLT_DEBUG.halt e.val = 0)

/-- SLT_CACHE's operations: at once between tasks, at the end of the task otherwise (R72). -/
def Sys2Proof.Claims.EngineCacheRegister : Prop :=
  ∀ (q : Requester) (e : EngineId) (s : State), s.mayWrite q 0x02 e.val 0x120 → (q.actor = .t ∨ q.actor = .h) →
    ((s.eng e.val).task = none →
      (∃ t, exec (.sltCacheInvalidate q e) s = .next t ∧
        s.onlyEngine t e.val
          { s.eng e.val with cache := (s.eng e.val).cache.filter fun p => (s.eng e.val).locks.testBit (p.1 % 4) }) ∧
      (∃ t, exec (.sltCacheUnlockAll q e) s = .next t ∧ s.onlyEngine t e.val { s.eng e.val with locks := 0 })) ∧
    ((s.eng e.val).task ≠ none →
      (∃ t, exec (.sltCacheInvalidate q e) s = .next t ∧ s.onlyEngine t e.val
        (if (s.eng e.val).unlockDue then { s.eng e.val with invalidateAfter := true }
         else { s.eng e.val with invalidateDue := true })) ∧
      (∃ t, exec (.sltCacheUnlockAll q e) s = .next t ∧ s.onlyEngine t e.val { s.eng e.val with unlockDue := true }))

/-- What ends a task from outside, the debug register and the cache register of an engine. -/
def Obligations.EngineControl : Prop :=
  Sys2Proof.Claims.EngineFailures ∧
  Sys2Proof.Claims.EngineDebug ∧
  Sys2Proof.Claims.EngineCacheRegister

/-- An acknowledged store is in memory under the key of its page, and leaves the posted stores (R54, R64, R139). -/
def Sys2Proof.Claims.StoreAcknowledged : Prop :=
  ∀ (e : EngineId) (i : Fin 8) (s : State), ((s.eng e.val).posted[i.val]? = none → exec (.storeAcknowledge e i) s = .next s) ∧
    ∀ p : Posted, (s.eng e.val).posted[i.val]? = some p →
    (s.sendWaits e.val p = true → exec (.storeAcknowledge e i) s = .next s) ∧
    (
    (s.eng e.val).stall = .none → (s.eng e.val).run = .run → (s.eng e.val).storeFault = none →
    (s.eng e.val).stepping = false → s.rb Reg.SLT_DEBUG.halt e.val = false →
    s.sendWaits e.val p = false → 0 < p.bytes.length → p.pa % 4096 + p.bytes.length ≤ 4096 →
    (s.region p.pa = .dram 0 ∨ s.region p.pa = .dram 1) →
    (s.potCheck p.q .write p.pa).ok = true → s.cutOff p.pa = none → s.mem.onDie = [] →
    ∃ t, exec (.storeAcknowledge e i) s = .next t ∧
      t.eng e.val = { s.eng e.val with posted := (s.eng e.val).posted.eraseIdx i.val } ∧
      (∀ j, j ≠ e.val → t.eng j = s.eng j) ∧
      t.mem = (s.pokeHome (s.tagOf (s.keySlotFor p.q p.pa)) p.pa p.bytes).mem ∧ t.regs = s.regs)

/-- The Silt stores and atomics, and the acknowledgement of a posted store. -/
def Obligations.SiltStoresAndAtomics : Prop :=
  Sys2Proof.Claims.SiltStores ∧
  Sys2Proof.Claims.SiltAtomics ∧
  Sys2Proof.Claims.StoreAcknowledged

namespace Sys2Proof.Claims

/-- The window is unassigned or assigned to a Topsoil pool, and the write leaves it so (R63). -/
def winTopsoil (s : State) (c w v : Nat) : Prop :=
  (s.rf Reg.SVC_SRAM_WIN.assigned c w = 0 ∨ s.topsoilPool (c / 8) (s.rf Reg.SVC_SRAM_WIN.pool c w) = true) ∧
  (v % 2 = 0 ∨ s.topsoilPool (c / 8) (v / 2 % 32) = true)

end Sys2Proof.Claims

/-- R63: a T write to SVC_SRAM_WIN takes effect only when the window is unassigned or assigned to a Topsoil pool and the write leaves
it so; any other T write leaves both fields unchanged and sets denied; an accepted write clears denied. -/
def Obligations.SramWindowWrites : Prop :=
  ∀ (q : Requester) (c : ClusterId) (w : Fin 32) (v : Word) (s : State), s.mayWrite q 0x05 c.val (0x800 + 8 * w.val) →
    s.rf Reg.SVC_SRAM_WIN.assigned c.val w.val < 2 →
    (q.actor = .h ∨ (q.actor = .t ∧ Sys2Proof.Claims.winTopsoil s c.val w.val v.toNat) →
      ∃ t, exec (.sramWindowAssign q c w v) s = .next t ∧ { t with regs := s.regs } = s ∧
        t.rf Reg.SVC_SRAM_WIN.assigned c.val w.val = v.toNat % 2 ∧ t.rf Reg.SVC_SRAM_WIN.pool c.val w.val = v.toNat / 2 % 32 ∧
        t.rf Reg.SVC_SRAM_WIN.denied c.val w.val = 0 ∧
        (v.toNat % 2 ≠ s.rf Reg.SVC_SRAM_WIN.assigned c.val w.val → t.rf Reg.SVC_SRAM_WIN.zeroing c.val w.val = 1)) ∧
    (q.actor = .t → ¬ Sys2Proof.Claims.winTopsoil s c.val w.val v.toNat →
      ∃ t, exec (.sramWindowAssign q c w v) s = .next t ∧ { t with regs := s.regs } = s ∧
        t.rf Reg.SVC_SRAM_WIN.denied c.val w.val = 1 ∧
        ∀ f i j, ¬ (f.id = Reg.SVC_SRAM_WIN.denied.id ∧ i = c.val ∧ j = w.val) → t.rf f i j = s.rf f i j)

/-- Zeroing ends with every byte of the window 0, and every other window and cluster as before (R61). -/
def Sys2Proof.Claims.SramZeroing : Prop :=
  ∀ (c : ClusterId) (w : Fin 32) (s : State), s.rb Reg.SVC_SRAM_WIN.zeroing c.val w.val = true →
    (∀ i, i < 64 → ∀ x, (s.eng (64 * c.val + i)).stall ≠ .sram x) →
    ∃ t, exec (.sramZeroingDone c w) s = .next t ∧ t.rf Reg.SVC_SRAM_WIN.zeroing c.val w.val = 0 ∧
      (∀ o, o / 65536 = w.val → SMap.get 0 (t.cluster c.val).sram o = 0) ∧
      (∀ o, o / 65536 ≠ w.val → SMap.get 0 (t.cluster c.val).sram o = SMap.get 0 (s.cluster c.val).sram o) ∧
      (∀ j, j ≠ c.val → t.cluster j = s.cluster j) ∧ { t with regs := s.regs, clusters := s.clusters } = s

/-- A pool's world may change only while it has no member (R67), and an engine moves from pool to pool with its keys and
registers cleared on the way (R41, R68, R69). -/
def Sys2Proof.Claims.PoolMembership : Prop :=
  (∀ (q : Requester) (h : Half) (p : Fin 32) (v : Word) (s : State), s.mayWrite q 0x06 h.val (0x4000 + 8 * p.val) →
    q.actor = .h →
    (s.memberCount h.val p.val = 0 ∧ s.anyLeaving h.val p.val = false →
      ∃ t, exec (.hpnPoolWrite q h p v) s = .next t ∧ { t with regs := s.regs } = s ∧
        t.rf Reg.HPN_POOL.valid h.val p.val = v.toNat % 2 ∧ t.rf Reg.HPN_POOL.world h.val p.val = v.toNat / 2 % 2 ∧
        t.rf Reg.HPN_POOL.busy h.val p.val = 0) ∧
    (s.memberCount h.val p.val ≠ 0 →
      (v.toNat % 2 ≠ s.rf Reg.HPN_POOL.valid h.val p.val ∨ v.toNat / 2 % 2 ≠ s.rf Reg.HPN_POOL.world h.val p.val) →
      exec (.hpnPoolWrite q h p v) s = .next (s.setf Reg.HPN_POOL.busy h.val 1 p.val))) ∧
  (∀ (q : Requester) (e : EngineId) (v : Word) (s : State), s.mayWrite q 0x02 e.val 0x108 → q.actor = .h →
    s.isMember e.val = false → s.leaving e.val = false → (s.eng e.val).capture = none → (s.eng e.val).run ≠ .lost →
    s.rb Reg.PFX_CTL.enable (blkKey 0x02 e.val) = true → s.blkState 0x05 (e.val / 64) ≠ 3 →
    v.toNat / 2 ^ 13 % 2 = 1 → s.rb Reg.HPN_POOL.valid (e.val / 512) (v.toNat / 2 ^ 8 % 32) = true →
    ∃ t, exec (.sltPoolWrite q e v) s = .next t ∧ { t with regs := s.regs } = s ∧
      t.rf Reg.SLT_POOL.target_pool e.val = v.toNat / 2 ^ 8 % 32 ∧ t.rf Reg.SLT_POOL.target_member e.val = 1 ∧
      t.rf Reg.SLT_POOL.leaving e.val = 1) ∧
  (∀ (e : EngineId) (s : State), s.leaving e.val = true → (s.eng e.val).capture = none → (s.eng e.val).deque = [] →
    (s.eng e.val).task = none → (s.eng e.val).run ≠ .lost → s.sys.mode ≠ .seal →
    ∃ t, exec (.poolLeaveCapture e) s = .next t ∧ (t.eng e.val).capture = some (s.poolTarget e.val) ∧
      (t.eng e.val).k = [] ∧ (t.eng e.val).s = [] ∧ (t.eng e.val).w = [] ∧ (t.eng e.val).modulus = none ∧
      (t.eng e.val).cache = [] ∧ (∀ j, j ≠ e.val → t.eng j = s.eng j) ∧ { t with engines := s.engines } = s) ∧
  (∀ (e : EngineId) (m : Bool) (p : Nat) (s : State), (s.eng e.val).capture = some (m, p) → p < 32 →
    (s.eng e.val).stale = false → s.sys.mode ≠ .seal → s.blkOn 0x02 e.val = false → s.blkState 0x02 e.val ≠ 3 →
    ∃ t, exec (.poolImageCopyDone e) s = .next t ∧ (t.eng e.val).run = (if m then .idle else .detached) ∧
      (t.eng e.val).capture = none ∧ t.rf Reg.SLT_POOL.cur_pool e.val = p ∧
      t.rf Reg.SLT_POOL.member e.val = (if m then 1 else 0) ∧ t.rf Reg.SLT_POOL.leaving e.val = 0 ∧
      (∀ j, j ≠ e.val → t.eng j = s.eng j) ∧
      (∀ i, m = true → s.boundImage (engCluster e.val) p = some i → (t.eng e.val).iram = some i))

/-- The zeroing of an SRAM window and the movement of engines between pools. -/
def Obligations.PoolsAndSram : Prop :=
  Sys2Proof.Claims.SramZeroing ∧
  Sys2Proof.Claims.PoolMembership

/-! ## Dispatch and the Collector -/

/-- A doorbell moves its queue's tail (R74) and clears denied (R295); no doorbell acts in SEAL, and none of Tilth's on a TI that is
not its own (R427). -/
def Sys2Proof.Claims.Doorbells : Prop :=
  ∀ (q : Requester) (ti : TiId) (n : Fin 16) (v : Word) (s : State),
    s.mayWrite q 0x0A ti.val (0x1000 + 8 * n.val) →
    s.rb Reg.TIF_STATUS.resetting ti.val = false → s.rb Reg.TIF_SQ.enable ti.val n.val = true →
    Reg.TIF_DB.tail.of v.toNat < s.sqSize ti.val n.val →
    (s.sys.mode ≠ .seal → q.actor ≠ .m ∨ ti.val = s.sys.tilthTi →
      exec (.doorbell q ti n v) s = .next ((s.setf Reg.TIF_SQ_STATE.tail ti.val (Reg.TIF_DB.tail.of v.toNat) n.val).setf
        Reg.TIF_STATUS.denied ti.val 0)) ∧
    (s.sys.mode = .seal ∨ (q.actor = .m ∧ ti.val ≠ s.sys.tilthTi) → exec (.doorbell q ti n v) s = .next s)

/-- A fetch reads from the TI that the weighted round robin picks, from its next queue, as many entries as burst, queue and room
allow (R75), and none from the first whose pool Dispatch holds a descriptor for (R80). -/
def Sys2Proof.Claims.DescriptorFetches : Prop :=
  ∀ (h : Half) (s : State) (ti share q : Nat), s.fetchAllowed h.val = true → s.pickTi h.val = some (ti, share) →
    s.nextQueue ti = some q → 1 ≤ s.rf Reg.DSP_FETCH_CTL.burst h.val → s.rf Reg.DSP_FETCH_CTL.burst h.val ≤ 4 →
    ∃ t n, exec (.descriptorFetch h) s = .next t ∧ n ≤ min (min (s.rf Reg.DSP_FETCH_CTL.burst h.val) (s.sqPending ti q)) (s.tiRoom ti) ∧
      ((s.dspOf h.val).held = [] →
        n = min (min (s.rf Reg.DSP_FETCH_CTL.burst h.val) (s.sqPending ti q)) (s.tiRoom ti)) ∧
      (∀ i x, i < n → x ∈ (s.dspOf h.val).held →
        x.2 ≠ (s.sqEntry ti q ((SMap.get 0 (s.ti ti).fetch q % s.sqSize ti q + i) % s.sqSize ti q)).pool) ∧
      (t.dspOf h.val).reads = (s.dspOf h.val).reads ++ (List.range n).map (fun i =>
        ⟨ti, q, (SMap.get 0 (s.ti ti).fetch q % s.sqSize ti q + i) % s.sqSize ti q, s.tiGen ti⟩) ∧
      SMap.get 0 (t.ti ti).fetch q = (SMap.get 0 (s.ti ti).fetch q % s.sqSize ti q + n) % s.sqSize ti q ∧
      (t.ti ti).lastQueue = q ∧ t.rf Reg.TIF_STATUS.outstanding ti = (s.outstanding ti + n) % 2 ^ 16 ∧
      { t with regs := s.regs, tis := s.tis, dsp := s.dsp } = s

/-- A descriptor read whose TI has a new generation is dropped and counted (R78). One that is read whole is validated: the fetch
register moves past it, and the first check of R78 that fails makes its record. -/
def Sys2Proof.Claims.DescriptorValidation : Prop :=
  ∀ (h : Half) (s : State) (r : Fetch) (rest : List Fetch), (s.dspOf h.val).reads = r :: rest →
    (r.life ≠ s.tiGen r.ti →
      ∃ t, exec (.descriptorValidate h) s = .next t ∧ (t.dspOf h.val).reads = rest ∧
        { t with regs := s.regs, dsp := s.dsp } = s) ∧
    (∀ bs u, r.life = s.tiGen r.ti → u.rb Reg.TIF_SHADOW.enable r.ti = false →
      (s.updDsp h.val fun d => { d with reads := rest }).readMem (s.tiReq r.ti) .read (s.slotAddr r.ti r.queue r.index) 128 =
        (.data bs false, u) →
      exec (.descriptorValidate h) s = .next
        ((u.setf Reg.TIF_SQ_STATE.fetch r.ti ((r.index + 1) % u.sqSize r.ti r.queue) r.queue).admitEntry h.val
          ⟨r.ti, r.queue, r.index, bs, false⟩))

/-- Descriptors move on in order: a held one into a cluster with room, one from the other half into its linked pool, the oldest
of a list into the least loaded member's deque, a due or the newest entry into its free engine (R80 to R82, R87). -/
def Sys2Proof.Claims.DescriptorsMoveOn : Prop :=
  (∀ (h : Half) (p : Fin 32) (e : Entry) (rest : List (Entry × Nat)) (u s : State), (s.dspOf h.val).held = (e, p.val) :: rest →
    s.clusterList h.val p.val ≠ [] → s.routeIn h.val p.val e = some u →
    ∃ t, exec (.heldDescriptorRoute h p) s = .next t ∧ (t.dspOf h.val).held = rest ∧ t.clusters = u.clusters ∧
      { t with dsp := s.dsp, clusters := s.clusters } = s) ∧
  (∀ (h : Half) (p : Nat) (e : Entry) (rest : List (Entry × Nat)) (s : State), (s.dspOf h.val).arriving = (e, p) :: rest →
    exec (.crossRouteArrival h) s = .next ((s.updDsp h.val fun d => { d with arriving := rest }).route h.val p e)) ∧
  (∀ (c : ClusterId) (p : Fin 32) (e : Entry) (rest : List Entry) (m : Nat) (s : State),
    (s.cluster c.val).injList p.val = e :: rest → e.timed = false →
    s.leastLoaded (s.clusterMembers c.val p.val) (SMap.get 0 (s.cluster c.val).lastPick p.val) = some m →
    (s.eng m).deque.length < 32 →
    ∃ t, exec (.injectionToDeque c p) s = .next t ∧ (t.eng m).deque = (s.eng m).deque ++ [e] ∧
      (t.cluster c.val).injList p.val = rest ∧ (∀ j, j ≠ m → t.eng j = s.eng j) ∧
      { t with engines := s.engines, clusters := s.clusters } = s) ∧
  (∀ (e : EngineId) (x : Entry) (s : State), s.engFree e.val = true → s.dueEntry e.val = some x →
    exec (.timedEntryDue e) s = .next ((s.updEng e.val fun k => { k with deque := dropFirst (fun y => y == x) k.deque }).takeEntry e.val x) ∧
    exec (.taskPop e) s = .next ((s.updEng e.val fun k => { k with deque := dropFirst (fun y => y == x) k.deque }).takeEntry e.val x)) ∧
  (∀ (e : EngineId) (x : Entry) (a : Nat) (i : Image) (s : State), s.engFree e.val = true → s.dueEntry e.val = none →
    (s.eng e.val).untimed.getLast? = some x → x.timed = false → x.gen = s.tiGen x.ti → x.queue ≠ 15 →
    (s.eng e.val).iram = some i → i.entryOf x.service = some a → s.rb Reg.SLT_DEBUG.halt e.val = false →
    ∃ t, exec (.taskPop e) s = .next t ∧
      (t.eng e.val).task = some ⟨x, s.rf Reg.TIF_CFG.tenant x.ti, s.tiHome x.ti, false⟩ ∧ (t.eng e.val).run = .run ∧
      (t.eng e.val).pc = a ∧ (t.eng e.val).npc = a + 4 ∧ (t.eng e.val).rs 1 = 0x8000000001000000 ∧
      (t.eng e.val).rs 2 = BitVec.ofNat 64 (s.rf Reg.TIF_CFG.tenant x.ti) ∧
      (t.eng e.val).rs 3 = BitVec.ofNat 64 x.service ∧ (∀ r, r = 0 ∨ 3 < r → (t.eng e.val).rs r = 0) ∧
      (∀ r g, ((t.eng e.val).rk r).tag = some g → g.tenant = s.rf Reg.TIF_CFG.tenant x.ti) ∧ engAndRegs s t e.val) ∧
  (∀ (e : EngineId) (tk : Task) (d : Nat) (s : State), (s.eng e.val).run = .wait → (s.eng e.val).task = some tk →
    tk.entry.due = some d → d ≤ s.replica (clusterStop (engCluster e.val)) → s.sys.mode.serves = true →
    exec (.launch e) s = .next (s.startTask e.val tk.entry tk.late))

/-- A descriptor from its doorbell to the start of its task. -/
def Obligations.DescriptorFlow : Prop :=
  Sys2Proof.Claims.Doorbells ∧
  Sys2Proof.Claims.DescriptorFetches ∧
  Sys2Proof.Claims.DescriptorValidation ∧
  Sys2Proof.Claims.DescriptorsMoveOn

/-- R86: a T write to DSP_POOL_LINK takes effect only when HPN_POOL of this half shows a valid Topsoil pool; else every field keeps
its value and denied is set. An accepted write clears denied. -/
def Obligations.PoolLinks : Prop :=
  ∀ (q : Requester) (h : Half) (p : Fin 32) (v : Word) (s : State), s.mayWrite q 0x03 h.val (0x200 + 8 * p.val) →
    (q.actor = .h ∨ (q.actor = .t ∧ s.rb Reg.HPN_POOL.valid h.val p.val = true ∧ s.topsoilPool h.val p.val = true) →
      ∃ t, exec (.dspPoolLinkWrite q h p v) s = .next t ∧ { t with regs := s.regs } = s ∧
        t.rf Reg.DSP_POOL_LINK.link_valid h.val p.val = v.toNat % 2 ∧
        t.rf Reg.DSP_POOL_LINK.peer_pool h.val p.val = v.toNat / 2 % 32 ∧
        t.rf Reg.DSP_POOL_LINK.steal_out h.val p.val = v.toNat / 2 ^ 8 % 2 ∧
        t.rf Reg.DSP_POOL_LINK.cross_route h.val p.val = v.toNat / 2 ^ 9 % 2 ∧
        t.rf Reg.DSP_POOL_LINK.denied h.val p.val = 0) ∧
    (q.actor = .t → (s.rb Reg.HPN_POOL.valid h.val p.val = false ∨ s.topsoilPool h.val p.val = false) →
      ∃ t, exec (.dspPoolLinkWrite q h p v) s = .next t ∧ { t with regs := s.regs } = s ∧
        t.rf Reg.DSP_POOL_LINK.denied h.val p.val = 1 ∧
        ∀ f i j, ¬ (f.id = Reg.DSP_POOL_LINK.denied.id ∧ i = h.val ∧ j = p.val) → t.rf f i j = s.rf f i j)

/-- Stealing (R83, R84): a request to the next cluster, an answer with the oldest untimed entry of the fullest member, the task's
start, and the back-off's end. -/
def Sys2Proof.Claims.Stealing : Prop :=
  (∀ (e : EngineId) (n : Nat) (s : State), s.mayStealNow e.val = true → s.stealStage e.val = .cluster n →
    ∃ t, exec (.stealAttempt e) s = .next t ∧
      t.steals = s.steals ++ [.request e.val ((s.stealClusters e.val).getD (n % (s.stealClusters e.val).length) 0)
        (s.poolOf e.val) false] ∧
      (t.eng e.val).steal = .cluster (n + 1) ∧ (∀ j, j ≠ e.val → t.eng j = s.eng j)) ∧
  (∀ (e : EngineId) (c pool v : Nat) (x : Entry) (xs : List Entry) (s : State),
    s.steals = [.request e.val c pool false] → s.mostUntimed (s.clusterMembers c pool true) = some v →
    (s.eng v).untimed = x :: xs → max 1 (s.rf Reg.DSP_STEAL_CTL.min_victim (c / 8)) ≤ (x :: xs).length →
    ∃ t, exec (.stealRequest e) s = .next t ∧ t.steals = [.reply e.val c (s.poolOf e.val) (some x) false] ∧
      (t.eng v).deque = dropFirst (fun y => !y.timed) (s.eng v).deque ∧ (∀ j, j ≠ v → t.eng j = s.eng j) ∧
      t.regs = s.regs ∧ t.mem = s.mem) ∧
  (∀ (e : EngineId) (c pool : Nat) (x : Entry) (s : State), s.steals = [.reply e.val c pool (some x) false] →
    s.engFree e.val = true → s.poolOf e.val = pool → s.dueEntry e.val = none →
    exec (.stealReply e) s = .next
      (({ s with steals := [] }.addf Reg.DSP_STEAL_COUNT.cluster (engHalf e.val)).takeEntry e.val x)) ∧
  (∀ (e : EngineId) (s : State), (s.eng e.val).steal = .backoff →
    ∃ t, exec (.stealBackoffEnd e) s = .next t ∧ s.onlyEngine t e.val { s.eng e.val with steal := .local 0 })

/-- A record leaves the latch for its lane with the cluster's time (R88); the Collector numbers it, writes it to the ring and
counts it (R91); the tail follows; and a full ring stalls its TI (R95). -/
def Sys2Proof.Claims.RecordsReachTheRing : Prop :=
  (∀ (e : EngineId) (r : Rec) (rest : List Rec) (s : State), (s.eng e.val).latch = r :: rest →
    (s.eng e.val).stall.ends = none → s.sys.lostHalf = none → s.blkOn 0x04 (s.tiHome r.ti) = true →
    laneFull ((s.cltOf (s.tiHome r.ti)).lane (engCluster e.val % 8)) r = false →
    ∃ t, exec (.recordRelease e) s = .next t ∧ (t.eng e.val).latch = rest ∧
      (t.cltOf (s.tiHome r.ti)).lane (engCluster e.val % 8) = (s.cltOf (s.tiHome r.ti)).lane (engCluster e.val % 8) ++
        [{ r with stamp := strataBits (s.replica (clusterStop (engCluster e.val))) }] ∧
      (∀ j, j ≠ e.val → t.eng j = s.eng j) ∧ { t with engines := s.engines, clt := s.clt } = s) ∧
  (∀ (h : Half) (k a : Nat) (r : Rec) (rest : List Rec) (s : State), s.blkOn 0x04 h.val = true →
    (s.cltOf h.val).pick = some k → (s.cltOf h.val).lane k = r :: rest → (s.dspOf h.val).recs = [] →
    r.gen = s.tiGen r.ti → s.blkState 0x0A r.ti = 2 → (s.ti r.ti).failed = false → r.poison = false → r.ledger = false →
    a = s.rf Reg.TIF_RING.base r.ti * 4096 + 32 * ((s.ti r.ti).nextSeq % s.ringSize r.ti) →
    (s.region a = .dram 0 ∨ s.region a = .dram 1) →
    (s.potCheck (s.tiReq r.ti) .write a).ok = true → s.cutOff a = none → s.mem.onDie = [] →
    ∃ t, exec (.recordAccept h) s = .next t ∧ (t.cltOf h.val).lane k = rest ∧
      (t.ti r.ti).nextSeq = ((s.ti r.ti).nextSeq + 1) % 2 ^ 32 ∧
      t.mem = (s.pokeHome (s.tagOf (s.keySlotFor (s.tiReq r.ti) a)) a (r.bytes (s.ti r.ti).nextSeq)).mem ∧
      (r.bytes (s.ti r.ti).nextSeq).length = 32 ∧
      t.rf Reg.CLT_COUNT.accepted h.val =
        min (2 ^ Reg.CLT_COUNT.accepted.width - 1) (s.rf Reg.CLT_COUNT.accepted h.val + 1) ∧
      t.engines = s.engines ∧ t.custody = s.custody) ∧
  (∀ (ti : TiId) (tail : BitVec 32) (s : State), s.rb Reg.TIF_SHADOW.enable ti.val = false →
    0 < (tail.toNat + 2 ^ 32 - s.rf Reg.TIF_RING_STATE.tail ti.val) % 2 ^ 32 →
    (tail.toNat + 2 ^ 32 - s.rf Reg.TIF_RING_STATE.tail ti.val) % 2 ^ 32 ≤
      ((s.ti ti.val).nextSeq + 2 ^ 32 - s.rf Reg.TIF_RING_STATE.tail ti.val) % 2 ^ 32 →
    ∃ t, exec (.tailPublish ti tail) s = .next t ∧ t.rf Reg.TIF_RING_STATE.tail ti.val = tail.toNat) ∧
  (∀ (ti : TiId) (s : State), s.blkOn 0x0A ti.val = true → s.rb Reg.TIF_STATUS.stalled ti.val = false →
    s.ringFull ti.val = true → s.rb Reg.TIF_SHADOW.enable ti.val = false →
    ∃ t, exec (.ringStall ti) s = .next t ∧ t.rf Reg.TIF_STATUS.stalled ti.val = 1)

/-- Work stealing and the way of a record to its ring. -/
def Obligations.StealingAndRecords : Prop :=
  Sys2Proof.Claims.Stealing ∧
  Sys2Proof.Claims.RecordsReachTheRing

/-! ## Services (R108 to R128) -/

namespace Sys2Proof.Claims

/-- The engine stands before the first instruction of service `code` of its task `tk`, with no store posted and room in its
latch. -/
def svcAt (s : State) (e code : Nat) (tk : Task) : Prop :=
  (s.eng e).task = some tk ∧ s.sltReady e = true ∧ tk.entry.service = code ∧ (s.eng e).posted = [] ∧
    (s.eng e).latch.length < 2 ∧ (s.eng e).storeFault = none ∧
    ∃ i, (s.eng e).iram = some i ∧ i.entryOf code = some (s.eng e).pc

/-- The key that `handle` names is the task's to use for `letter`, of one of the algorithms (R40, R111). -/
def keyIs (s : State) (e : Nat) (tk : Task) (handle letter : Nat) (algs : List Nat) (o : KeyObj) : Prop :=
  s.keyCheck e tk handle 0 = .ok o ∧ s.keyPoisoned handle = false ∧ attrUsage o.attr &&& letter ≠ 0 ∧
    algs.contains (attrAlg o.attr) = true

/-- A buffer reads as these bytes. -/
def bufIs (s : State) (e a n : Nat) (bs : List Nat) : Prop :=
  (n = 0 ∧ bs = []) ∨ (n ≠ 0 ∧ s.noDevice a n = true ∧ ∃ m, s.readMem (s.engReq e) .read a n = (.data m false, s) ∧ bs = natBytes m)

/-- The input and aux buffers of a task read as these bytes. -/
def bufsAre (s : State) (e : Nat) (tk : Task) (inb aux : List Nat) : Prop :=
  bufIs s e tk.entry.inAddr tk.entry.inLen inb ∧ bufIs s e tk.entry.auxAddr tk.entry.auxLen aux

/-- The task ended with OK, its output in memory at `out` and the output's length as its result (R111). -/
def svcWrote (s t : State) (e : Nat) (tk : Task) (out : List Nat) : Prop :=
  (out = [] ∧ taskEnded s t e tk 0 0) ∨
    (out ≠ [] ∧ ∀ u, s.noDevice tk.entry.outAddr out.length = true →
      s.writeMem (s.engReq e) tk.entry.outAddr (toBytes out) = (.data [] false, u) → taskEnded u t e tk 0 out.length)

/-- The task ended with OK or with VERIFY_FAIL. -/
def svcSaid (s t : State) (e : Nat) (tk : Task) (ok : Prop) : Prop :=
  (ok → taskEnded s t e tk 0 0) ∧ (¬ ok → taskEnded s t e tk 1 0)

end Sys2Proof.Claims

open Sys2Proof.Claims Sys2Proof.Machine.Crypto in
/-- The signature services, with a key of custody that fits: a verification ends OK just when the signature holds and
VERIFY_FAIL else, a signing writes the signature (R112 to R114). A key without the usage ends a signing KEY_DENIED. -/
def Sys2Proof.Claims.SignatureServices : Prop :=
  ∀ (e : EngineId) (s : State) (tk : Task) (o : KeyObj) (inb aux : List Nat), bufsAre s e.val tk inb aux →
    (∀ p ∈ [(0x0101, p256, [9], exec (.ecdsaP256Verify e) s), (0x0103, p384, [11, 16], exec (.ecdsaP384Verify e) s)],
      svcAt s e.val p.1 tk → tk.entry.key1 ≠ 0 → keyIs s e.val tk tk.entry.key1 1 p.2.2.1 o →
      digestLenOk tk p.2.1.hash = true → p.2.1.onCurve (o.num 0 p.2.1.size) (o.num p.2.1.size p.2.1.size) = true →
      ∃ t, p.2.2.2 = .next t ∧ svcSaid s t e.val tk (p.2.1.verify (o.num 0 p.2.1.size) (o.num p.2.1.size p.2.1.size)
        (digestOf tk p.2.1.hash inb) (aux.take (2 * p.2.1.size)) = true)) ∧
    (∀ p ∈ [(0x0102, p256, [8], exec (.ecdsaP256Sign e) s), (0x0104, p384, [10], exec (.ecdsaP384Sign e) s)],
      svcAt s e.val p.1 tk → keyIs s e.val tk tk.entry.key1 2 p.2.2.1 o → digestLenOk tk p.2.1.hash = true →
      0 < o.num 0 p.2.1.size → o.num 0 p.2.1.size < p.2.1.n →
      ∃ t, p.2.2.2 = .next t ∧ svcWrote s t e.val tk (p.2.1.sign (o.num 0 p.2.1.size) (digestOf tk p.2.1.hash inb))) ∧
    (svcAt s e.val 0x0105 tk → tk.entry.param = 0 → tk.entry.key1 ≠ 0 → keyIs s e.val tk tk.entry.key1 1 [13] o →
      ∀ a, edDecode (o.bytes 0 32) = some a → ∃ t, exec (.ed25519Verify e) s = .next t ∧
        svcSaid s t e.val tk (edVerify (o.bytes 0 32) a inb (aux.take 64) = true)) ∧
    (svcAt s e.val 0x0106 tk → tk.entry.param = 0 → keyIs s e.val tk tk.entry.key1 2 [12] o →
      ∃ t, exec (.ed25519Sign e) s = .next t ∧ svcWrote s t e.val tk (edSign (o.bytes 0 32) inb)) ∧
    (∀ h k n, svcAt s e.val 0x0107 tk → rsaHash tk = some h → (tk.entry.paramBit 1 = true → tk.entry.inl 0x48 ≤ h.len) →
      digestLenOk tk h = true → tk.entry.key1 = 0 → tk.entry.auxLen = 2 * k → n = natBe (aux.drop k) → n % 2 = 1 →
      2 ^ (8 * k - 1) ≤ n → n < 2 ^ (8 * k) →
      ∃ t, exec (.rsaVerify e) s = .next t ∧ svcSaid s t e.val tk ((aux.take k).length = k ∧ natBe (aux.take k) < n ∧
        rsaEncodes tk h k (digestOf tk h inb) (bytesBe k (powMod (natBe (aux.take k)) 65537 n)) = true)) ∧
    (∀ h k p q em sig, svcAt s e.val 0x0108 tk → rsaHash tk = some h → tk.entry.paramBit 1 = false → digestLenOk tk h = true →
      keyIs s e.val tk tk.entry.key1 2 [14] o → k = attrRsaBytes o.attr → k ≤ tk.entry.outLen →
      p = o.num 0 ((8 * k + 511) / 512 * 32) → q = o.num ((8 * k + 511) / 512 * 32) ((8 * k + 511) / 512 * 32) →
      modulusBits (p * q) k = true → em = pkcs1 h k (digestOf tk h inb) →
      rsaCrt p q (o.num (2 * ((8 * k + 511) / 512 * 32)) ((8 * k + 511) / 512 * 32))
        (o.num (3 * ((8 * k + 511) / 512 * 32)) ((8 * k + 511) / 512 * 32)) (natBe em) = (sig, true) →
      ∃ t, exec (.rsaSign e) s = .next t ∧ svcWrote s t e.val tk (bytesBe k sig)) ∧
    (svcAt s e.val 0x0106 tk → tk.entry.param = 0 → s.keyCheck e.val tk tk.entry.key1 0 = .ok o →
      s.keyPoisoned tk.entry.key1 = false → attrUsage o.attr &&& 2 = 0 →
      ∃ t, exec (.ed25519Sign e) s = .next t ∧ taskEnded s t e.val tk 0x06 0)

open Sys2Proof.Claims Sys2Proof.Machine.Crypto in
/-- The MAC, cipher, hash, PIN, key-block, cryptogram and remap services, with keys of custody that fit (R115 to R124): what
each writes or says. -/
def Sys2Proof.Claims.DataServices : Prop :=
  ∀ (e : EngineId) (s : State) (tk : Task) (o o2 : KeyObj) (inb aux : List Nat), bufsAre s e.val tk inb aux →
    (∀ p ∈ [(0x0201, [6], 32, 16, hmac hSha256, exec (.hmacSha256 e) s), (0x0202, [7], 48, 24, hmac hSha384, exec (.hmacSha384 e) s),
        (0x0203, [1, 2, 3], 16, 8, (fun k m => cmac (aesEnc k) 16 m), exec (.aesCmac e) s)],
      ∀ n, svcAt s e.val p.1 tk → keyIs s e.val tk tk.entry.key1 4 p.2.1 o →
        n = (if tk.entry.param / 2 ^ 8 % 2 ^ 8 = 0 then p.2.2.1 else tk.entry.param / 2 ^ 8 % 2 ^ 8) →
        p.2.2.2.1 ≤ n → n ≤ p.2.2.1 →
        (tk.entry.param % 2 = 0 → n ≤ tk.entry.outLen →
          ∃ t, p.2.2.2.2.2 = .next t ∧ svcWrote s t e.val tk ((p.2.2.2.2.1 o.secret inb).take n)) ∧
        (tk.entry.param % 2 = 1 → tk.entry.outLen = 0 →
          ∃ t, p.2.2.2.2.2 = .next t ∧
            svcSaid s t e.val tk ((p.2.2.2.2.1 o.secret inb).take n = tk.entry.inline 0x48 n))) ∧
    (∀ n, svcAt s e.val 0x0301 tk → keyIs s e.val tk tk.entry.key1 8 [1, 2, 3] o →
      n = (if tk.entry.param / 2 ^ 8 % 2 ^ 8 = 0 then 16 else tk.entry.param / 2 ^ 8 % 2 ^ 8) → 12 ≤ n → n ≤ 16 →
      (tk.entry.param % 2 = 0 → tk.entry.inLen + n ≤ tk.entry.outLen →
        ∃ t, exec (.aesGcm e) s = .next t ∧ svcWrote s t e.val tk (gcmCtr o.secret (tk.entry.inline 0x48 12) inb ++
          (gcmTag o.secret (tk.entry.inline 0x48 12) aux (gcmCtr o.secret (tk.entry.inline 0x48 12) inb)).take n)) ∧
      (tk.entry.param % 2 = 1 → n ≤ tk.entry.inLen → tk.entry.inLen - n ≤ tk.entry.outLen →
        ∃ t, exec (.aesGcm e) s = .next t ∧
          ((gcmTag o.secret (tk.entry.inline 0x48 12) aux (inb.take (inb.length - n))).take n = inb.drop (inb.length - n) →
            svcWrote s t e.val tk (gcmCtr o.secret (tk.entry.inline 0x48 12) (inb.take (inb.length - n)))) ∧
          ((gcmTag o.secret (tk.entry.inline 0x48 12) aux (inb.take (inb.length - n))).take n ≠ inb.drop (inb.length - n) →
            taskEnded s t e.val tk 0x01 0))) ∧
    (∀ p ∈ [(0x0302, 16, [1, 2, 3], aesEnc, aesDec, exec (.aesCbc e) s), (0x0303, 8, [4, 5], tdesEnc, tdesDec, exec (.tdesCbc e) s)],
      svcAt s e.val p.1 tk → keyIs s e.val tk tk.entry.key1 8 p.2.2.1 o → (p.2.1 = 8 → attrLegacy o.attr = true) →
      tk.entry.inLen % p.2.1 = 0 →
      ∃ t, p.2.2.2.2.2 = .next t ∧ svcWrote s t e.val tk (if tk.entry.param % 2 = 1
        then cbcDec (p.2.2.2.2.1 o.secret) p.2.1 (tk.entry.inline 0x48 p.2.1) inb
        else cbcEnc (p.2.2.2.1 o.secret) p.2.1 (tk.entry.inline 0x48 p.2.1) inb)) ∧
    (∀ p ∈ [(0, sha224, 28), (1, sha256, 32), (2, sha384, 48), (3, sha512, 64), (4, sha3_256, 32), (5, sha3_384, 48),
        (6, sha3_512, 64)], svcAt s e.val 0x0401 tk → tk.entry.param % 16 = p.1 → p.2.2 ≤ tk.entry.outLen →
      ∃ t, exec (.hash e) s = .next t ∧ svcWrote s t e.val tk (p.2.1 inb)) ∧
    (∀ src dst pan pin, svcAt s e.val 0x0501 tk → src = tk.entry.param % 16 → dst = tk.entry.param / 16 % 16 →
      src ∈ [0, 1, 3, 4] → dst ∈ [0, 3, 4] → (dst = 4 → 16 ≤ tk.entry.outLen) →
      keyIs s e.val tk tk.entry.key1 16 (if src = 4 then [1, 2, 3] else [4, 5]) o →
      keyIs s e.val tk tk.entry.key2 16 (if dst = 4 then [1, 2, 3] else [4, 5]) o2 →
      panOf (tk.entry.inl 0x58) (tk.entry.inline 0x59 10) = some pan →
      pinOf src (pinIn src o.secret (tk.entry.inline 0x48 16) pan) = some pin →
      ∃ t, exec (.pinTranslate e) s = .next t ∧
        svcWrote s t e.val tk (pinOut dst o2.secret pin pan (tk.entry.inline 0x68 16))) ∧
    (∀ usage alg mode ex hm key u a mat r, svcAt s e.val 0x0601 tk → keyIs s e.val tk tk.entry.key1 32 [1, 2, 3, 4, 5] o →
      kbUnwrap (kbAes o) o.secret inb = .ok usage alg mode ex hm key →
      (kbAsym alg key = none ∧ kbUsage none usage mode = some u ∧ kbAlg alg hm key = some (a, mat)) ∨
        (∃ n, kbAsym alg key = some (a, n, mat) ∧ kbSign (a % 2 == 0) (at0 mode 0) = some u ∧
          usage ∈ [[0x53, 0x30], [0x53, 0x31], [0x53, 0x32]]) → s.kbTarget tk = some r →
      ∃ t b, exec (.keyblockImport e) s = .next t ∧
        t.custody.objs = SMap.set none s.custody.objs (tk.entry.key2 % 2 ^ 32) (some b) ∧ b.version = 1 ∧
        attrAlg b.attr = a ∧ attrUsage b.attr = u + (if ex = [0x4E] then 0 else 64) ∧ (t.eng e.val).task = none ∧ (t.eng e.val).run = .idle ∧
        ((t.eng e.val).latch.getLast?.map fun x => (x.status, x.result)) = some (0, tk.entry.key2 % 2 ^ 32 + 2 ^ 32)) ∧
    (∀ h out, svcAt s e.val 0x0602 tk → keyIs s e.val tk tk.entry.key1 32 [1, 2, 3, 4, 5] o →
      keyIs s e.val tk tk.entry.key2 64 (List.range 17) o2 → kbHeader (if kbAes o then 16 else 8) inb 0 = some h →
      h.len = inb.length → at0 inb 0 = (if kbAes o then 0x44 else 0x42) →
      out = kbWrap (kbAes o) o.secret inb o2.blockData (tk.entry.inline 0x48 16) → out.length ≤ tk.entry.outLen →
      ∃ t, exec (.keyblockExport e) s = .next t ∧ svcWrote s t e.val tk out) ∧
    (∀ aes pan sk, svcAt s e.val 0x0701 tk → aes = tk.entry.paramBit 0 → tk.entry.param / 16 % 4 = 0 →
      keyIs s e.val tk tk.entry.key1 128 (if aes then [1, 2, 3] else [4, 5]) o →
      panOf (tk.entry.inl 0x48) (tk.entry.inline 0x49 10) = some pan →
      sk = emvSession aes (emvMaster aes o.secret pan (tk.entry.inl 0x53)) (tk.entry.inline 0x54 2) →
      ∃ t, exec (.emvArqc e) s = .next t ∧ svcSaid s t e.val tk (emvMac aes sk aux = tk.entry.inline 0x56 8)) ∧
    (∀ out, svcAt s e.val 0x0801 tk → isoRemap aux inb = some out → out.length ≤ tk.entry.outLen →
      ∃ t, exec (.iso8583Remap e) s = .next t ∧ svcWrote s t e.val tk out) ∧
    (svcAt s e.val 0x0801 tk → isoRemap aux inb = none →
      ∃ t, exec (.iso8583Remap e) s = .next t ∧ taskEnded s t e.val tk 0x09 0)

open Sys2Proof.Claims in
/-- An image that loads has the digest, the layout and the world that R125 to R127 ask of it, stands in its slot and shows in
SVC_IMG; a load that fails leaves the slot as it was, records its status and raises EV 0x051; a stale engine takes its pool's
image between tasks; a binding is denied where R126 denies it. -/
def Sys2Proof.Claims.ServiceImages : Prop :=
  (∀ (q : Requester) (c : ClusterId) (v : Word) (s : State), s.mayWrite q 0x05 c.val 0x140 → v.toNat % 2 = 1 → q.actor = .h →
    ((s.cluster c.val).load = none →
      ∃ t l, exec (.svcLoadGo q c v) s = .next t ∧ (t.cluster c.val).load = some l ∧
        l.addr = s.rf Reg.SVC_LOAD_ADDR.addr c.val * 64 ∧ l.slot = Reg.SVC_LOAD.slot.of v.toNat ∧
        (∀ j, j ≠ c.val → t.cluster j = s.cluster j) ∧ t.mem = s.mem ∧ t.engines = s.engines) ∧
    ((s.cluster c.val).load ≠ none → exec (.svcLoadGo q c v) s = .next (s.setf Reg.SVC_LOAD.last_status c.val 0x8E))) ∧
  (∀ (a : Actor) (h body : List Byte) (i : Image), checkImage a h body = .ok i →
    Crypto.sha384 (body.map BitVec.toNat) = ((h.drop 0x120).take 48).map BitVec.toNat ∧ i.body = body ∧
      h.take 8 = [0x47, 0x57, 0x53, 0x49, 0x4C, 0x54, 0x30, 0x31] ∧ (a = .t → i.world = 0) ∧ i.world ≤ 2 ∧
      1 ≤ i.services.length ∧ i.services.length ≤ 64 ∧ (∀ p ∈ i.services, p.2 % 4 = 0)) ∧
  (∀ (c : ClusterId) (l : ImageLoad) (s u : State), (s.cluster c.val).load = some l →
    (∀ i, (s.updCluster c.val fun k => { k with load := none }).stageImage l.actor c.val l.addr = (.ok i, u) →
      ∃ t, exec (.svcLoadStaged c) s = .next t ∧ SMap.get none (t.cluster c.val).images l.slot = some i ∧
        (t.cluster c.val).load = (u.cluster c.val).load ∧ t.rf Reg.SVC_IMG.valid c.val l.slot = 1 ∧
        t.rf Reg.SVC_IMG.world c.val l.slot = i.world % 2 ^ Reg.SVC_IMG.world.width ∧
        t.rf Reg.SVC_LOAD.last_status c.val = 0) ∧
    (∀ st, (s.updCluster c.val fun k => { k with load := none }).stageImage l.actor c.val l.addr = (.error st, u) →
      ∃ t, exec (.svcLoadStaged c) s = .next t ∧ t.clusters = u.clusters ∧
        t.rf Reg.SVC_LOAD.last_status c.val = st % 2 ^ Reg.SVC_LOAD.last_status.width ∧ t.engines = u.engines)) ∧
  (∀ (e : EngineId) (s : State) (i : Image), (s.eng e.val).stale = true → (s.eng e.val).task = none →
    s.boundImage (engCluster e.val) (s.poolOf e.val) = some i →
    ∃ t, exec (.iramReload e) s = .next t ∧ (t.eng e.val).iram = some i ∧ (t.eng e.val).stale = false ∧
      (∀ j, j ≠ e.val → t.eng j = s.eng j)) ∧
  (∀ (q : Requester) (c : ClusterId) (p : Fin 32) (v : Word) (s : State), s.mayWrite q 0x05 c.val (0x200 + 8 * p.val) →
    (q.actor = .h → Reg.SVC_POOL_IMG.bound.of v.toNat = 0 →
      ∃ t, exec (.svcPoolImgWrite q c p v) s = .next t ∧ { t with regs := s.regs } = s ∧
        t.rf Reg.SVC_POOL_IMG.bound c.val p.val = 0 ∧ t.rf Reg.SVC_POOL_IMG.slot c.val p.val = Reg.SVC_POOL_IMG.slot.of v.toNat) ∧
    (q.actor = .t → s.topsoilPool (c.val / 8) p.val = false →
      exec (.svcPoolImgWrite q c p v) s = .next (s.setf Reg.SVC_POOL_IMG.denied c.val 1 p.val)))

/-- The catalogue services on their engines and their images. -/
def Obligations.Services : Prop :=
  Sys2Proof.Claims.SignatureServices ∧
  Sys2Proof.Claims.DataServices ∧
  Sys2Proof.Claims.ServiceImages

/-! ## Knaxa scalar instructions (R196 to R205) -/

namespace Sys2Proof.Claims

/-- Core `c` carries out `op`, spelt by `w`: it takes instructions, its fetch succeeds and leaves `u` (R208), the word is legal,
its level suffices, and no debug agent steps or watches the core. -/
def kxCan (s u : State) (c : CoreId) (op : KxOp) (w : IWord) : Prop :=
  (s.core c.val).ready = true ∧ s.kxFetch c.val = (.ok (), u) ∧ kxOp w = some op ∧ kxMalformed op w = false ∧
    kxLevel op ≤ (s.core c.val).level ∧ (u.core c.val).stepArmed = false ∧ (u.core c.val).watchpoints = []

/-- The core once its instruction has retired: INSTRET counts, clay mode adds the charge and the path, the pc is `next`
(R190, R242, R243). -/
def kxDone (k : Core) (charge : Nat) (vas : List Nat) (next : Word) : Core :=
  { (k.setCr 0x051 (k.cr 0x051 + 1)).clayAccount charge k.pc.toNat vas with pc := next, wait := .none }

/-- One row: the instruction, its command, its clay charge, and what it does to the core besides retiring. -/
structure KxRow where
  op : KxOp
  cmd : CoreId → IWord → Instr
  charge : Nat
  act : IWord → Core → Core

/-- rd ← f ra rb. -/
def ggg (f : Word → Word → Word) (w : IWord) (k : Core) : Core :=
  k.setg (ifld w 25 21) (f (k.rg (ifld w 20 16)) (k.rg (ifld w 15 11)))
/-- rd ← f ra imm16. -/
def ggi (f : Word → BitVec 16 → Word) (w : IWord) (k : Core) : Core :=
  k.setg (ifld w 25 21) (f (k.rg (ifld w 20 16)) (BitVec.ofNat 16 (ifld w 15 0)))

/-- The rows of R196 and R197 that compute a register from registers. -/
noncomputable def kxScalar : List KxRow := [
  ⟨.add, .kxAdd, 1, ggg fun a b => a + b⟩,
  ⟨.sub, .kxSub, 1, ggg fun a b => a - b⟩,
  ⟨.and, .kxAnd, 1, ggg fun a b => a &&& b⟩,
  ⟨.or, .kxOr, 1, ggg fun a b => a ||| b⟩,
  ⟨.xor, .kxXor, 1, ggg fun a b => a ^^^ b⟩,
  ⟨.andn, .kxAndn, 1, ggg fun a b => a &&& ~~~b⟩,
  ⟨.sll, .kxSll, 1, ggg fun a b => a <<< (b.toNat % 64)⟩,
  ⟨.srl, .kxSrl, 1, ggg fun a b => a >>> (b.toNat % 64)⟩,
  ⟨.sra, .kxSra, 1, ggg fun a b => a.sshiftRight (b.toNat % 64)⟩,
  ⟨.ror, .kxRor, 1, ggg fun a b => a.rotateRight (b.toNat % 64)⟩,
  ⟨.slt, .kxSlt, 1, ggg fun a b => if a.toInt < b.toInt then 1 else 0⟩,
  ⟨.sltu, .kxSltu, 1, ggg fun a b => if a.toNat < b.toNat then 1 else 0⟩,
  ⟨.min, .kxMin, 1, ggg fun a b => BitVec.ofInt 64 (min a.toInt b.toInt)⟩,
  ⟨.max, .kxMax, 1, ggg fun a b => BitVec.ofInt 64 (max a.toInt b.toInt)⟩,
  ⟨.minu, .kxMinu, 1, ggg fun a b => BitVec.ofNat 64 (min a.toNat b.toNat)⟩,
  ⟨.maxu, .kxMaxu, 1, ggg fun a b => BitVec.ofNat 64 (max a.toNat b.toNat)⟩,
  ⟨.clz, .kxClz, 1, ggg fun a _ => BitVec.ofNat 64 (sltClz a.toNat 64)⟩,
  ⟨.ctz, .kxCtz, 1, ggg fun a _ => BitVec.ofNat 64 (((List.range 64).find? fun i => a.getLsbD i).getD 64)⟩,
  ⟨.popc, .kxPopc, 1, ggg fun a _ => BitVec.ofNat 64 (((List.range 64).filter fun i => a.getLsbD i).length)⟩,
  ⟨.bswap, .kxBswap, 1, ggg fun a _ => BitVec.ofNat 64 (ofBe (leBytes 8 a.toNat))⟩,
  ⟨.mul, .kxMul, 3, ggg fun a b => a * b⟩,
  ⟨.mulh, .kxMulh, 3, ggg fun a b => BitVec.ofInt 64 (a.toInt * b.toInt / 2 ^ 64)⟩,
  ⟨.mulhu, .kxMulhu, 3, ggg fun a b => BitVec.ofNat 64 (a.toNat * b.toNat / 2 ^ 64)⟩,
  ⟨.div, .kxDiv, 42, ggg fun a b => if b = 0 then BitVec.allOnes 64 else a.sdiv b⟩,
  ⟨.divu, .kxDivu, 42, ggg fun a b => if b = 0 then BitVec.allOnes 64 else a / b⟩,
  ⟨.rem, .kxRem, 42, ggg fun a b => if b = 0 then a else a.srem b⟩,
  ⟨.remu, .kxRemu, 42, ggg fun a b => if b = 0 then a else a % b⟩,
  ⟨.addi, .kxAddi, 1, ggi fun a i => a + i.signExtend 64⟩,
  ⟨.andi, .kxAndi, 1, ggi fun a i => a &&& i.zeroExtend 64⟩,
  ⟨.ori, .kxOri, 1, ggi fun a i => a ||| i.zeroExtend 64⟩,
  ⟨.xori, .kxXori, 1, ggi fun a i => a ^^^ i.zeroExtend 64⟩,
  ⟨.shi, .kxShi, 1, ggi fun a i =>
    match i.toNat / 64 % 4 with
    | 0 => a <<< (i.toNat % 64)
    | 1 => a >>> (i.toNat % 64)
    | 2 => a.sshiftRight (i.toNat % 64)
    | _ => a.rotateRight (i.toNat % 64)⟩,
  ⟨.movz, .kxMovz, 1, fun w k => k.setg (ifld w 25 21) (BitVec.ofNat 64 (ifld w 15 0) <<< (16 * ifld w 20 19))⟩,
  ⟨.movk, .kxMovk, 1, fun w k => k.setg (ifld w 25 21)
    ((k.rg (ifld w 25 21) &&& ~~~((0xFFFF : Word) <<< (16 * ifld w 20 19))) |||
      BitVec.ofNat 64 (ifld w 15 0) <<< (16 * ifld w 20 19))⟩]

/-- A transfer of control trains the predictor while prediction is on (R230), and one that is taken empties the fetch buffer
(R240). -/
def jumped (k : Core) (x : Transfer) (next : Word) : Core :=
  { k.trained next.toNat x with fetchBuf := if x.taken then none else k.fetchBuf }

end Sys2Proof.Claims

open Sys2Proof.Claims in
/-- Every scalar instruction of R196 and R197 writes its result to rd, retires and changes nothing else; a write to g0 is
discarded; no arithmetic instruction raises an exception. -/
def Obligations.KnaxaScalarInstructions : Prop :=
  ∀ r ∈ kxScalar, ∀ (c : CoreId) (w : IWord) (s u : State), kxCan s u c r.op w →
    ∃ t, exec (r.cmd c w) s = .next t ∧
      u.onlyCore t c.val (kxDone (r.act w (u.core c.val)) r.charge [] ((u.core c.val).pc + 4))

open Sys2Proof.Claims in
/-- R197: DIV and DIVU by zero return all ones, REM and REMU by zero return ra, DIV of −2^63 by −1 returns −2^63 and the matching REM
0, and no arithmetic instruction raises an exception: each retires, with no frame pushed. A destination g0 reads 0. -/
def Obligations.KnaxaDivisionCorners : Prop :=
  ∀ (c : CoreId) (w : IWord) (s u : State) (k : Core) (res : Word → Word), k = u.core c.val →
    (∀ v, res v = if rdOf w = 0 then 0 else v) →
    (∀ p ∈ [(KxOp.div, Instr.kxDiv c w), (.divu, .kxDivu c w)], kxCan s u c p.1 w → k.rg (rbOf w) = 0 →
      ∃ t, exec p.2 s = .next t ∧ (t.core c.val).rg (rdOf w) = res 0xFFFFFFFFFFFFFFFF) ∧
    (∀ p ∈ [(KxOp.rem, Instr.kxRem c w), (.remu, .kxRemu c w)], kxCan s u c p.1 w → k.rg (rbOf w) = 0 →
      ∃ t, exec p.2 s = .next t ∧ (t.core c.val).rg (rdOf w) = res (k.rg (raOf w))) ∧
    (k.rg (raOf w) = 0x8000000000000000 → k.rg (rbOf w) = 0xFFFFFFFFFFFFFFFF →
      (kxCan s u c .div w →
        ∃ t, exec (.kxDiv c w) s = .next t ∧ (t.core c.val).rg (rdOf w) = res 0x8000000000000000) ∧
      (kxCan s u c .rem w → ∃ t, exec (.kxRem c w) s = .next t ∧ (t.core c.val).rg (rdOf w) = 0)) ∧
    (∀ r ∈ kxScalar, kxCan s u c r.op w →
      ∃ t, exec (r.cmd c w) s = .next t ∧ (t.core c.val).frames = k.frames ∧ (t.core c.val).level = k.level ∧
        (t.core c.val).pc = k.pc + 4)

open Sys2Proof.Claims in
/-- Branches and jumps (R196): the pc they go to, the link in g31, no delay slot; JR and JLR to a misaligned target save their
own address and raise PC_ALIGN. -/
def Sys2Proof.Claims.KnaxaControlTransfers : Prop :=
  ∀ (c : CoreId) (w : IWord) (s u : State) (k : Core), k = u.core c.val →
    (kxCan s u c .bcc w → ∀ a b, a = k.rg (ifld w 22 18) → b = k.rg (ifld w 17 13) →
      ∃ t taken, exec (.kxBcc c w) s = .next t ∧
        taken = ((ifld w 25 23 = 0 ∧ a = b) ∨ (ifld w 25 23 = 1 ∧ a ≠ b) ∨ (ifld w 25 23 = 2 ∧ a.toInt < b.toInt) ∨
          (ifld w 25 23 = 3 ∧ b.toInt ≤ a.toInt) ∨ (ifld w 25 23 = 4 ∧ a.toNat < b.toNat) ∨
          (ifld w 25 23 = 5 ∧ b.toNat ≤ a.toNat) ∨ (ifld w 25 23 = 6 ∧ a &&& b ≠ 0) ∨ (ifld w 25 23 = 7 ∧ a &&& b = 0)) ∧
        (taken → u.onlyCore t c.val
          (kxDone (jumped k (.conditional true) (k.pc + 4 * (BitVec.ofNat 13 (ifld w 12 0)).signExtend 64)) 2 []
            (k.pc + 4 * (BitVec.ofNat 13 (ifld w 12 0)).signExtend 64))) ∧
        (¬ taken → u.onlyCore t c.val (kxDone (jumped k (.conditional false) (k.pc + 4)) 1 [] (k.pc + 4)))) ∧
    (kxCan s u c .bzcc w → ∀ a : Word, a = k.rg (ifld w 22 18) →
      ∃ t taken, exec (.kxBzcc c w) s = .next t ∧
        taken = ((ifld w 25 23 = 0 ∧ a = 0) ∨ (ifld w 25 23 = 1 ∧ a ≠ 0) ∨ (ifld w 25 23 = 2 ∧ a.toInt < 0) ∨
          (ifld w 25 23 = 3 ∧ 0 ≤ a.toInt) ∨ (ifld w 25 23 = 4 ∧ 0 < a.toInt) ∨ (ifld w 25 23 = 5 ∧ a.toInt ≤ 0)) ∧
        (taken → u.onlyCore t c.val
          (kxDone (jumped k (.conditional true) (k.pc + 4 * (BitVec.ofNat 18 (ifld w 17 0)).signExtend 64)) 2 []
            (k.pc + 4 * (BitVec.ofNat 18 (ifld w 17 0)).signExtend 64))) ∧
        (¬ taken → u.onlyCore t c.val (kxDone (jumped k (.conditional false) (k.pc + 4)) 1 [] (k.pc + 4)))) ∧
    (∀ dst, kxCan s u c .j w → dst = k.pc + 4 * (BitVec.ofNat 26 (ifld w 25 0)).signExtend 64 →
      ∃ t, exec (.kxJ c w) s = .next t ∧ u.onlyCore t c.val (kxDone (jumped k (.direct false) dst) 2 [] dst)) ∧
    (∀ dst, kxCan s u c .jl w → dst = k.pc + 4 * (BitVec.ofNat 26 (ifld w 25 0)).signExtend 64 →
      ∃ t, exec (.kxJl c w) s = .next t ∧
        u.onlyCore t c.val (kxDone (jumped (k.setg 31 (k.pc + 4)) (.direct true) dst) 2 [] dst)) ∧
    (kxCan s u c .jr w → (k.ra w).toNat % 4 = 0 → ∃ t, exec (.kxJr c w) s = .next t ∧
      u.onlyCore t c.val (kxDone (jumped k (.register false (ifld w 20 16)) (k.ra w)) 4 [] (k.ra w))) ∧
    (kxCan s u c .jlr w → (k.ra w).toNat % 4 = 0 → ∃ t, exec (.kxJlr c w) s = .next t ∧
      u.onlyCore t c.val (kxDone (jumped (k.setg 31 (k.pc + 4)) (.register true (ifld w 20 16)) (k.ra w)) 4 [] (k.ra w))) ∧
    (∀ p ∈ [(KxOp.jr, Instr.kxJr c w), (.jlr, .kxJlr c w)], kxCan s u c p.1 w → (k.ra w).toNat % 4 ≠ 0 → k.depth < 13 →
      ∃ t f, exec p.2 s = .next t ∧ (t.core c.val).frames = f :: k.frames ∧ f.pc = k.pc ∧
        f.status.toNat / 2 ^ 16 % 2 ^ 16 = 0x07 ∧ (t.core c.val).cr (0x027 + (t.core c.val).level) = (k.ra w).toNat)

/-- The predictor (R228 to R232): the longest matching history supplies a direction, else the base table; a misprediction
allocates the entry of the next longer one; a jump's target and a call's return address are predicted in the realm that made them
and in no other; with prediction off nothing is learned; and a flush leaves no entry of its realms. The hashes are free values, the
choices log entry 251's. -/
def Sys2Proof.Claims.KnaxaPredictor : Prop :=
  (∀ (p : Pred) (realm pc t : Nat), 1 ≤ t → t ≤ 8 → p.matching realm t pc ≠ none →
    (∀ x, t < x → x ≤ 8 → p.matching realm x pc = none) → p.supplier realm pc = t) ∧
  (∀ (p : Pred) (realm pc : Nat), (∀ x, 1 ≤ x → x ≤ 8 → p.matching realm x pc = none) →
    p.supplier realm pc = 0 ∧ p.predicts realm pc = decide (2 ≤ SMap.get 0 p.base (baseSlot realm pc))) ∧
  (∀ (p : Pred) (realm pc t : Nat) (taken : Bool), p.supplier realm pc = t → t < 8 → p.predicts realm pc ≠ taken →
    (p.trainDirection realm pc taken).matching realm (t + 1) pc = some ⟨p.tag (t + 1) pc, realm, if taken then 2 else 1⟩) ∧
  (∀ (p : Pred) (realm r pc next : Nat) (link : Bool),
    (p.retire realm pc next (.direct link)).btbTarget r pc = if r = realm then some next else none) ∧
  (∀ (p : Pred) (realm r pc next back : Nat),
    (r = realm → (p.retire realm pc next (.direct true)).returnTarget r back = some (pc + 4)) ∧
    (r ≠ realm → (p.retire realm pc next (.direct true)).returnTarget r back =
      (p.retire realm pc next (.direct true)).btbTarget r back)) ∧
  (∀ (k : Core) (next : Nat) (x : Transfer), k.predOff = true → k.trained next x = k) ∧
  (∀ (k : Core) (next : Nat) (x : Transfer), k.predOff = false →
    k.trained next x = { k with pred := k.pred.retire k.realm k.pc.toNat next x }) ∧
  (∀ (p : Pred) (rs : List Nat) (r pc : Nat), (r ∈ rs →
      (p.flush rs).supplier r pc = 0 ∧ SMap.get 0 (p.flush rs).base (baseSlot r pc) = 0 ∧ (p.flush rs).btbTarget r pc = none ∧
        (p.flush rs).indirectTarget r pc = none ∧ (p.flush rs).returnTarget r pc = none) ∧
    (r ∉ rs → SMap.wf none p.btb = true → (p.flush rs).btbTarget r pc = p.btbTarget r pc) ∧ (p.flush rs).hist = [])

namespace Sys2Proof.Claims

/-- The scalar loads: sign extension and bytes. -/
noncomputable def kxLoads : List (KxOp × (CoreId → IWord → Instr) × Bool × Nat) := [
  (.ld, .kxLd, false, 8), (.lw, .kxLw, false, 4), (.lws, .kxLws, true, 4), (.lh, .kxLh, false, 2),
  (.lhs, .kxLhs, true, 2), (.lb, .kxLb, false, 1), (.lbs, .kxLbs, true, 1)]

/-- The scalar stores and their bytes. -/
noncomputable def kxStoresOf : List (KxOp × (CoreId → IWord → Instr) × Nat) := [(.sd, .kxSd, 8), (.sw, .kxSw, 4), (.sh, .kxSh, 2), (.sb, .kxSb, 1)]

/-- The atomics of `n` bytes: the value stored for old value `x`, rb `b` and rd `d` (R205); none stores nothing. -/
noncomputable def kxAtomics : List (KxOp × (CoreId → IWord → Instr) × (Nat → Nat → Nat → Nat → Option Nat)) := [
  (.amoadd, .kxAmoadd, fun n x b _ => some ((x + b) % 2 ^ (8 * n))),
  (.amoswap, .kxAmoswap, fun n _ b _ => some (b % 2 ^ (8 * n))),
  (.amoand, .kxAmoand, fun n x b _ => some (x &&& b % 2 ^ (8 * n))),
  (.amoor, .kxAmoor, fun n x b _ => some (x ||| b % 2 ^ (8 * n))),
  (.amoxor, .kxAmoxor, fun n x b _ => some (x ^^^ b % 2 ^ (8 * n))),
  (.amosmin, .kxAmosmin, fun n x b _ => some (if sext (8 * n) b < sext (8 * n) x then b % 2 ^ (8 * n) else x)),
  (.amosmax, .kxAmosmax, fun n x b _ => some (if sext (8 * n) x < sext (8 * n) b then b % 2 ^ (8 * n) else x)),
  (.amoumin, .kxAmoumin, fun n x b _ => some (min x (b % 2 ^ (8 * n)))),
  (.amoumax, .kxAmoumax, fun n x b _ => some (max x (b % 2 ^ (8 * n)))),
  (.cas, .kxCas, fun n x b d => if x = d % 2 ^ (8 * n) then some (b % 2 ^ (8 * n)) else none)]

/-- No core waits for the accesses that a TLBI awaits (R221). -/
def noTlbi (s : State) : Prop := ∀ j w l, (s.core j).wait ≠ .tlbi w l

/-- Everything but the cores and the requests at the homes is as in `s`. -/
def coreAndAsks (s t : State) (c : Nat) : Prop :=
  (∀ j, j ≠ c → t.core j = s.core j) ∧ t.coh.held = s.coh.held ∧
    { t with cores := s.cores, coh := s.coh } = s

end Sys2Proof.Claims

open Sys2Proof.Claims in
/-- A scalar load writes the bytes at ra + sext(imm16) to rd, extended as its row says, from the youngest store in the store
buffer that covers them, else from memory; a device load leaves for its home once the store buffer is empty, and waits for
its stores before (R196, R270, R276). -/
def Sys2Proof.Claims.KnaxaLoads : Prop :=
  ∀ r ∈ kxLoads, ∀ (c : CoreId) (w : IWord) (s u v : State) (pa : Nat) (dev : Bool), kxCan s u c r.1 w →
    u.kxCheck c.val .load false ((u.core c.val).ea w) r.2.2.2 none = (.ok ⟨(u.core c.val).ea w, pa, dev⟩, v) →
    (v.core c.val).stepArmed = false → (v.core c.val).watchpoints = [] → ((v.core c.val).ea w) = (u.core c.val).ea w →
    (dev = false → ∀ x, (((v.core c.val).sb.find? fun e => e.overlaps pa r.2.2.2) = none ∧
        x = ofLe ((List.range r.2.2.2).map fun i => v.peekAs (v.tagOf (v.keySlotFor (v.coreReq c.val) (pa + i))) (pa + i))) ∨
        (∃ e, (v.core c.val).sb.getLast? = some e ∧ e.pa ≤ pa ∧ pa + r.2.2.2 ≤ e.pa + e.bytes.length ∧
          x = ofLe ((e.bytes.drop (pa - e.pa)).take r.2.2.2)) →
      ∃ t, exec (r.2.1 c w) s = .next t ∧ coreAndAsks v t c.val ∧
        t.core c.val = kxDone ((v.core c.val).setg (ifld w 25 21)
          (if r.2.2.1 then (BitVec.ofNat (8 * r.2.2.2) x).signExtend 64 else BitVec.ofNat 64 x)) 4 [(u.core c.val).ea w]
          ((v.core c.val).pc + 4)) ∧
    (dev = true → (v.core c.val).sb = [] →
      ∃ t, exec (r.2.1 c w) s = .next t ∧
        t.coh.dev = v.coh.dev ++ [⟨c, false, pa, r.2.2.2, 0⟩] ∧
        v.onlyCore { t with coh := v.coh } c.val { v.core c.val with wait := .device w [(pa, 0, true)] [] }) ∧
    (dev = true → (v.core c.val).sb ≠ [] →
      ∃ t, exec (r.2.1 c w) s = .next t ∧ v.onlyCore t c.val { v.core c.val with wait := .instr w })

open Sys2Proof.Claims in
/-- A scalar store enters the store buffer behind the older ones and retires, memory unchanged, and waits while the buffer
holds 64 (R275); in clay mode it is performed at the home (R240). The oldest store leaves the buffer into a line held in D or
X, which enters D, and a prefetch changes no memory. -/
def Sys2Proof.Claims.KnaxaStores : Prop :=
  (∀ r ∈ kxStoresOf, ∀ (c : CoreId) (w : IWord) (s u v : State) (pa : Nat) (bs : List Byte), kxCan s u c r.1 w →
    u.kxCheck c.val .store false ((u.core c.val).ea w) r.2.2 none = (.ok ⟨(u.core c.val).ea w, pa, false⟩, v) →
    (v.core c.val) = u.core c.val → bs = leBytes r.2.2 ((u.core c.val).rg (ifld w 25 21)).toNat →
    ((v.core c.val).clay = false → (v.core c.val).sb.length < 64 →
      ∃ t, exec (r.2.1 c w) s = .next t ∧ coreAndAsks v t c.val ∧
        t.core c.val = kxDone { v.core c.val with sb := (v.core c.val).sb ++ [⟨pa, bs⟩] } 4 [(u.core c.val).ea w]
          ((v.core c.val).pc + 4)) ∧
    ((v.core c.val).clay = false → (v.core c.val).sb.length = 64 →
      ∃ t, exec (r.2.1 c w) s = .next t ∧ v.onlyCore t c.val { v.core c.val with wait := .instr w }) ∧
    ((v.core c.val).clay = true → v.cutOff pa = none →
      ∃ t, exec (r.2.1 c w) s = .next t ∧
        t.mem = (v.pokeHome (v.tagOf (v.keySlotFor (v.coreReq c.val) pa)) pa bs).mem ∧
        t.core c.val = kxDone (v.core c.val) 4 [(u.core c.val).ea w] ((v.core c.val).pc + 4))) ∧
  (∀ (c : CoreId) (s : State) (e : SbEntry) (rest : List SbEntry), (s.core c.val).sb = e :: rest →
    (s.lstate c.val (e.pa / 64) = .d ∨ s.lstate c.val (e.pa / 64) = .x) → s.cutOff e.pa = none →
    (s.core c.val).wait = .none → noTlbi s →
    ∃ t, exec (.storeBufferDrain c) s = .next t ∧ t.core c.val = { s.core c.val with sb := rest } ∧
      t.lstate c.val (e.pa / 64) = .d ∧ t.mem = (s.pokeAs (s.tagOf (s.keySlotFor (s.coreReq c.val) e.pa)) e.pa e.bytes).mem ∧
      t.regs = s.regs ∧ (∀ j, j ≠ c.val → t.core j = s.core j)) ∧
  (∀ (c : CoreId) (w : IWord) (s u : State), kxCan s u c .pref w → (u.core c.val).clay = true →
    ∃ t, exec (.kxPref c w) s = .next t ∧ u.onlyCore t c.val (kxDone (u.core c.val) 4 [] ((u.core c.val).pc + 4))) ∧
  (∀ (c : CoreId) (w : IWord) (s u v : State) (pa : Nat), kxCan s u c .pref w → (u.core c.val).clay = false →
    u.translate c.val (if rdOf w = 1 then .prefWrite else .load) ((u.core c.val).ea w) = (.ok (pa, false), v) →
    v.core c.val = u.core c.val →
    ∃ t, exec (.kxPref c w) s = .next t ∧ coreAndAsks v t c.val ∧
      t.core c.val = kxDone (v.core c.val) 4 [] ((v.core c.val).pc + 4))

open Sys2Proof.Claims in
/-- An atomic returns the old value in rd and stores what its row says: in the line the core holds in D or X, or at the home
when near = 1, once its request has reached it; it waits for the store buffer first and for its line after (R205, R287). -/
def Sys2Proof.Claims.KnaxaAtomics : Prop :=
  ∀ r ∈ kxAtomics, ∀ (c : CoreId) (w : IWord) (s u v : State) (pa n : Nat), kxCan s u c r.1 w →
    n = (if ifld w 9 9 = 1 then 8 else 4) →
    u.kxCheck c.val .atomic true ((u.core c.val).ra w).toNat n none = (.ok ⟨((u.core c.val).ra w).toNat, pa, false⟩, v) →
    v.core c.val = u.core c.val →
    ((v.core c.val).sb ≠ [] →
      ∃ t, exec (r.2.1 c w) s = .next t ∧ v.onlyCore t c.val { v.core c.val with wait := .instr w }) ∧
    ((v.core c.val).sb = [] → ifld w 10 10 = 1 → v.coh.mesh = [] →
      ∃ t, exec (r.2.1 c w) s = .next t ∧ t.core c.val = { v.core c.val with wait := .near w pa } ∧ t.mem = v.mem ∧
        t.regs = v.regs ∧
        (v.homeWaiting (v.homeSlice (pa / 64 * 64) 0) < 256 →
          (t.lineHome (pa / 64)).queue = (v.lineHome (pa / 64)).queue ++ [⟨.nearAtomic, c, false⟩]) ∧
        (256 ≤ v.homeWaiting (v.homeSlice (pa / 64 * 64) 0) → t.coh.mesh = [(pa / 64, ⟨.nearAtomic, c, false⟩)])) ∧
    ((v.core c.val).sb = [] → ifld w 10 10 = 0 → (v.core c.val).clay = false → v.lstate c.val (pa / 64) ≠ .d →
      v.lstate c.val (pa / 64) ≠ .x →
      ∃ t, exec (r.2.1 c w) s = .next t ∧ coreAndAsks v t c.val ∧ t.core c.val = { v.core c.val with wait := .atomic w pa }) ∧
    (∀ x, (v.core c.val).sb = [] → ifld w 10 10 = 0 → (v.core c.val).clay = false →
      (v.lstate c.val (pa / 64) = .d ∨ v.lstate c.val (pa / 64) = .x) → v.cutOff pa = none →
      x = ofLe ((List.range n).map fun i => v.peekAs (v.tagOf (v.keySlotFor (v.coreReq c.val) (pa + i))) (pa + i)) →
      ∃ t, exec (r.2.1 c w) s = .next t ∧
        t.core c.val = kxDone ((v.core c.val).setg (ifld w 25 21) (BitVec.ofNat 64 x)) 8 [((u.core c.val).ra w).toNat]
          ((v.core c.val).pc + 4) ∧
        t.mem = (match r.2.2 n x ((v.core c.val).rb w).toNat ((v.core c.val).rd w).toNat with
          | some y => (v.pokeAs (v.tagOf (v.keySlotFor (v.coreReq c.val) pa)) pa (leBytes n y)).mem
          | none => v.mem) ∧
        t.regs = v.regs ∧ (∀ j, j ≠ c.val → t.core j = v.core j))

/-- The Knaxa loads, stores and atomics. -/
def Obligations.KnaxaMemoryAccesses : Prop :=
  Sys2Proof.Claims.KnaxaLoads ∧
  Sys2Proof.Claims.KnaxaStores ∧
  Sys2Proof.Claims.KnaxaAtomics

/-! ## Knaxa system instructions (R189 to R204, R221, R241 to R247) -/

namespace Sys2Proof.Claims

/-- Core `t` is core `k` after taking an exception: the frame pushed, the level and vector entered (R211, R212). -/
def entered (k t : Core) (pc : Word) (cause syn level off : Nat) : Prop :=
  t.frames = ⟨pc, BitVec.ofNat 64 (k.status + cause * 2 ^ 16 + syn * 2 ^ 32), (List.range 15).map fun i => k.rg (i + 1), k.hard⟩ :: k.frames ∧
    t.level = level ∧ t.hard = (k.hard || level == 3) ∧ t.ie = false ∧ t.guest = (k.guest && level == 1) ∧
    t.sie = (k.sie && level != 3) ∧ t.pc = BitVec.ofNat 64 (k.cr (0x01F + level) + off) ∧ t.wait = .none ∧
    (∀ r, t.rg r = k.rg r) ∧ t.v = k.v ∧ t.p = k.p ∧ t.sb = k.sb

/-- Only the cores of `t` differ from `s`, and of those only `c`. -/
def coreOnly (s t : State) (c : Nat) : Prop := (∀ j, j ≠ c → t.core j = s.core j) ∧ { t with cores := s.cores } = s

/-- The value that a control register reads, but CYCLE and DVFSSTAT (R190, R191). -/
def crShows (s : State) (c : Nat) (k : Core) (x : Nat) : Nat :=
  if x = 0x000 then k.status
  else if x = 0x001 then (k.topFrame.map fun f => f.pc.toNat).getD 0
  else if x = 0x002 then (k.topFrame.map fun f => f.status.toNat).getD 0
  else if x = 0x003 then k.frames.length
  else if 0x010 ≤ x ∧ x ≤ 0x01E then (k.topFrame.map fun f => (f.gs.getD (x - 0x010) 0).toNat).getD 0
  else if x = 0x040 then (s.logicalOf c).getD 0
  else if x = 0x041 then c
  else k.cr x

/-- Control registers that keep the bits of a mask of what is written at level M (R190, R248). -/
def crKept : List (Nat × Nat) := [
  (0x020, 2 ^ 64 - 2 ^ 12), (0x021, 2 ^ 64 - 2 ^ 12), (0x022, 2 ^ 64 - 2 ^ 12), (0x028, 2 ^ 64 - 1), (0x029, 2 ^ 64 - 1),
  (0x02A, 2 ^ 64 - 1), (0x02B, 2 ^ 64 - 1), (0x030, 3), (0x031, 2 ^ 52 - 2 ^ 12), (0x032, 2 ^ 52 - 2 ^ 12), (0x033, 2 ^ 16 - 1),
  (0x038, 2 ^ 52 - 2 ^ 12), (0x039, 2 ^ 16 - 1), (0x060, 3), (0x070, 2 ^ 64 - 1), (0x071, 2 ^ 64 - 1), (0x072, 2 ^ 64 - 1),
  (0x100, 3), (0x101, 0x37)]

end Sys2Proof.Claims

open Sys2Proof.Claims in
/-- CRR reads a control register into rd at the level its row allows, CWR writes it; an unlisted number raises ILLEGAL and a
level too low PRIV (R189, R190). A flush by PREDCTL leaves the predictor no entry of the realms of the core's world (R232), DVFSCTL asks for a clock, DVFSSTAT's change
count clears on a read, CLAYCTL enters and leaves clay mode. -/
def Obligations.KnaxaControlRegisters : Prop :=
  ∀ (c : CoreId) (w : IWord) (s u : State) (k : Core), k = u.core c.val →
    (∀ r wr, kxCan s u c .crr w → crRights k (ifld w 11 0) = some (r, wr) → r ≤ k.level → ifld w 11 0 ≠ 0x050 →
      ifld w 11 0 ≠ 0x121 → ∃ t, exec (.kxCrr c w) s = .next t ∧
        u.onlyCore t c.val
          (kxDone (k.setg (ifld w 25 21) (BitVec.ofNat 64 (crShows u c.val k (ifld w 11 0)))) 2 [] (k.pc + 4))) ∧
    (kxCan s u c .crr w → ifld w 11 0 = 0x121 → 1 ≤ k.level → rdOf w ≠ 0 →
      ∃ t, exec (.kxDvfsstatRead c w) s = .next t ∧ exec (.kxCrr c w) s = .next t ∧ coreOnly u t c.val ∧
        (t.core c.val).rg (rdOf w) = BitVec.ofNat 64 k.dvfsStat ∧ (t.core c.val).changes = 0 ∧ (t.core c.val).pc = k.pc + 4) ∧
    (∀ p ∈ [(KxOp.crr, Instr.kxCrr c w), (.cwr, .kxCwr c w)], kxCan s u c p.1 w → crRights k (ifld w 11 0) = none →
      k.depth < 13 → ∃ t, exec p.2 s = .next t ∧
        entered k (t.core c.val) k.pc 0x01 w.toNat (if k.hard then 3 else if k.level = 2 then 2 else 1) 0) ∧
    (∀ r wr, kxCan s u c .crr w → crRights k (ifld w 11 0) = some (r, wr) → k.level < r → k.depth < 13 →
      ∃ t lv, exec (.kxCrr c w) s = .next t ∧ entered k (t.core c.val) k.pc 0x02 w.toNat lv 0) ∧
    (∀ p ∈ crKept, kxCan s u c .cwr w → k.hard = true → k.level = 3 → p.1 = ifld w 11 0 → k.clay = false →
      ∃ t, exec (.kxCwr c w) s = .next t ∧ coreOnly u t c.val ∧
        (t.core c.val).cr p.1 = (k.cr p.1 &&& (2 ^ 64 - 1 - p.2)) ||| ((k.ra w).toNat &&& p.2) ∧
        (∀ x, x ≠ p.1 → x ≠ 0x051 → (t.core c.val).cr x = k.cr x) ∧ (t.core c.val).pc = k.pc + 4) ∧
    (kxCan s u c .cwr w → ifld w 11 0 = 0x101 → 1 ≤ k.level → (k.ra w).toNat.testBit 8 = true →
      ∃ t, exec (.kxPredctlFlush c w) s = .next t ∧ coreOnly u t c.val ∧
        (t.core c.val).pred = k.pred.flush (if k.hard then [0, 1, 2] else [0, 1])) ∧
    (kxCan s u c .cwr w → ifld w 11 0 = 0x120 → k.hard = true → k.level = 3 → k.guest = false → u.sys.trimmed = true → 3000 ≤ k.capPower →
      3000 ≤ k.capThermal → 3000 ≤ u.rf Reg.WTH_FMAX.fmax_mhz (coreHalf c.val) (coreDom c.val) →
      u.rb Reg.PWR_RAIL.fault (coreHalf c.val) (coreRail c.val) = false → u.rb Reg.PWR_POWER.trip (coreHalf c.val) = false →
      u.rb Reg.PWR_HOLD.hold (coreHalf c.val) (coreDom c.val) = false → 800 ≤ (k.ra w).toNat % 4096 →
      (k.ra w).toNat % 4096 ≤ 3000 →
      ∃ t, exec (.kxDvfsctlWrite c w) s = .next t ∧ (t.core c.val).granted = (k.ra w).toNat % 4096 / 100 * 100 ∧
        (∀ j, j ≠ c.val → t.core j = u.core j) ∧ t.mem = u.mem) ∧
    (kxCan s u c .cwr w → ifld w 11 0 = 0x110 → 1 ≤ k.level → k.clay = false → (k.ra w).toNat % 2 = 1 → k.sb = [] →
      ∃ t, exec (.kxClayctlWrite c w) s = .next t ∧ (t.core c.val).cr 0x110 = 1 ∧ (t.core c.val).wait = .clayEntry ∧
        (∀ line, t.lstate c.val line = .i) ∧ t.regs = u.regs ∧ t.mem = u.mem ∧ (∀ j, j ≠ c.val → t.core j = u.core j)) ∧
    (kxCan s u c .cwr w → ifld w 11 0 = 0x110 → 1 ≤ k.level → k.clay = false → (k.ra w).toNat % 2 = 1 → k.sb ≠ [] →
      ∃ t, exec (.kxClayctlWrite c w) s = .next t ∧ u.onlyCore t c.val { k with wait := .clayDrain w }) ∧
    (kxCan s u c .cwr w → ifld w 11 0 = 0x110 → 1 ≤ k.level → k.clay = true → (k.ra w).toNat % 2 = 0 →
      ∃ t, exec (.kxClayctlWrite c w) s = .next t ∧ (t.core c.val).cr 0x110 = 0 ∧ (t.core c.val).pc = k.pc + 4) ∧
    ((s.core c.val).wait = .clayEntry → (s.core c.val).clay = true → s.sys.mode = .field →
      ∃ t, exec (.clayEntryDone c) s = .next t ∧ t.core c.val = { s.core c.val with wait := .none } ∧ t.sys.mode = .clay ∧
        t.regs = s.regs ∧ (∀ j, j ≠ c.val → t.core j = s.core j)) ∧
    ((s.core c.val).curMhz < (s.core c.val).granted → s.voltageReady c.val = false →
      exec (.dvfsChangeDone c) s = .next s) ∧
    ((s.core c.val).curMhz ≠ (s.core c.val).granted → (s.core c.val).run ≠ .doze → (s.core c.val).run ≠ .slumber →
      ((s.core c.val).granted < (s.core c.val).curMhz ∨ s.voltageReady c.val = true) →
      ∃ t, exec (.dvfsChangeDone c) s = .next t ∧ s.onlyCore t c.val { s.core c.val with
        curMhz := (s.core c.val).granted, changes := min 0xFF ((s.core c.val).changes + 1) })

open Sys2Proof.Claims in
/-- SVC, HVC, BRK and HPCALL take their exceptions with the pc their rows save (R198, R202, R207, R210); in Hardpan world SVC,
HVC and HPCALL are ILLEGAL; HPCALL with Hardpan away returns a status in g1. ERET restores the frame but g1 to g(keep)
(R203). -/
def Sys2Proof.Claims.KnaxaExceptions : Prop :=
  ∀ (c : CoreId) (w : IWord) (s u : State) (k : Core), k = u.core c.val → k.depth < 13 →
    (kxCan s u c .svc w → k.hard = false → k.clay = false →
      ∃ t, exec (.kxSvc c w) s = .next t ∧ coreOnly u t c.val ∧
        entered k (t.core c.val) (k.pc + 4) 0x03 (ifld w 11 0) (if k.level = 2 then 2 else 1) 0 ∧
        (t.core c.val).cr 0x051 = (k.cr 0x051 + 1) % 2 ^ 64) ∧
    (kxCan s u c .hvc w → k.hard = false → k.clay = false →
      ∃ t, exec (.kxHvc c w) s = .next t ∧ coreOnly u t c.val ∧
        entered k (t.core c.val) (k.pc + 4) 0x04 (ifld w 11 0) 2 0) ∧
    (kxCan s u c .brk w → k.clay = false →
      ∃ t, exec (.kxBrk c w) s = .next t ∧ coreOnly u t c.val ∧
        entered k (t.core c.val) k.pc 0x05 (ifld w 11 0) (if k.hard then 3 else if k.level = 2 then 2 else 1) 0 ∧
        (t.core c.val).cr 0x051 = k.cr 0x051) ∧
    (kxCan s u c .hpcall w → k.hard = false → k.guest = false → k.clay = false → u.hpPresent (coreHalf c.val) = true →
      ∃ t, exec (.hpcall c w) s = .next t ∧ coreOnly u t c.val ∧ entered k (t.core c.val) (k.pc + 4) 0x12 0 3 0x300) ∧
    (kxCan s u c .hpcall w → k.hard = false → k.guest = false → u.hpPresent (coreHalf c.val) = false →
      ∃ t, exec (.hpcall c w) s = .next t ∧
        u.onlyCore t c.val (kxDone (k.setg 1 (if u.sys.mode = .seal then 0x87 else 0x80)) 40 [] (k.pc + 4))) ∧
    (∀ p ∈ [(KxOp.svc, Instr.kxSvc c w), (.hvc, .kxHvc c w), (.hpcall, .hpcall c w)], kxCan s u c p.1 w → k.hard = true →
      k.clay = false → ∃ t, exec p.2 s = .next t ∧ coreOnly u t c.val ∧ entered k (t.core c.val) k.pc 0x01 w.toNat 3 0) ∧
    (∀ f rest, kxCan s u c .eret w → k.frames = f :: rest → f.status.toNat % 4 ≤ k.level →
      (k.hard = true ∨ f.status.toNat.testBit 2 = false) →
      ∃ t, exec (.kxEret c w) s = .next t ∧ coreOnly u t c.val ∧ (t.core c.val).frames = rest ∧
        (t.core c.val).pc = f.pc &&& ~~~3#64 ∧ (t.core c.val).hard = f.status.toNat.testBit 2 ∧
        (t.core c.val).ie = f.status.toNat.testBit 3 ∧ (t.core c.val).sie = f.status.toNat.testBit 6 ∧
        (f.status.toNat.testBit 2 = false → f.status.toNat % 4 ≤ 2 → (t.core c.val).level = f.status.toNat % 4) ∧
        (f.status.toNat.testBit 2 = true → (t.core c.val).level = 3) ∧
        (∀ i, 1 ≤ i → i ≤ 15 → (t.core c.val).rg i = if ifld w 3 0 < i then f.gs.getD (i - 1) 0 else k.rg i) ∧
        (∀ i, i = 0 ∨ 15 < i → (t.core c.val).rg i = k.rg i))

/-- Branches, jumps, the predictor, calls of a higher level, breakpoints and returns. -/
def Obligations.KnaxaTransfersAndExceptions : Prop :=
  Sys2Proof.Claims.KnaxaControlTransfers ∧
  Sys2Proof.Claims.KnaxaPredictor ∧
  Sys2Proof.Claims.KnaxaExceptions

open Sys2Proof.Claims in
/-- FENCE, FENCE.ACK and ISYNC retire once the store buffer is empty and wait until then (R200, R201); RDSTRATA reads the 96-bit
time of the core's stop into a pair (R204); TLBI removes the matching translations of every core and no other, and waits for the
accesses translated under them (R221). -/
def Sys2Proof.Claims.KnaxaOrderingAndTime : Prop :=
  ∀ (c : CoreId) (w : IWord) (s u : State) (k : Core), k = u.core c.val →
    (∀ p ∈ [(KxOp.fence, Instr.kxFence c w, 1), (.fenceAck, .kxFenceAck c w, 8), (.isync, .kxIsync c w, 1)],
      kxCan s u c p.1 w →
      (k.sb = [] → ∃ t, exec p.2.1 s = .next t ∧ u.onlyCore t c.val
        (kxDone (if p.1 = .isync then { k with fetchBuf := none } else k) p.2.2 [] (k.pc + 4))) ∧
      (k.sb ≠ [] → ∃ t, exec p.2.1 s = .next t ∧ u.onlyCore t c.val { k with wait := .instr w })) ∧
    (kxCan s u c .rdstrata w → (1 ≤ k.level ∨ (k.cr 0x060).testBit 1 = true) →
      ∃ t, exec (.kxRdstrata c w) s = .next t ∧
        u.onlyCore t c.val (kxDone ((k.setg (rdOf w) (BitVec.ofNat 64 (strataBits (u.replica (coreStop c.val))))).setg (rdOf w + 1)
          (BitVec.ofNat 64 (strataBits (u.replica (coreStop c.val)) / 2 ^ 64))) 20 [] (k.pc + 4))) ∧
    (∀ v, kxCan s u c .tlbi w → k.sb = [] → (ifld w 1 0 = 3 → 2 ≤ k.level) → k.guest = false → v = (k.ra w).toNat →
      ∃ t, exec (.kxTlbi c w) s = .next t ∧ (∀ j, j ≠ c.val → { t.core j with tlb := (u.core j).tlb } = u.core j) ∧
        { t with cores := u.cores } = u ∧
        (u.tlbiLeft k (ifld w 1 0) v = [] → (t.core c.val).pc = k.pc + 4 ∧ (t.core c.val).wait = .none) ∧
        (u.tlbiLeft k (ifld w 1 0) v ≠ [] →
          (t.core c.val).pc = k.pc ∧ (t.core c.val).wait = .tlbi w (u.tlbiLeft k (ifld w 1 0) v)) ∧
        ∀ j e, e ∈ (t.core j).tlb ↔ e ∈ (u.core j).tlb ∧ ¬ (match ifld w 1 0 with
          | 0 => e.vpn * 4096 % 2 ^ 48 / e.leafSize = v % 2 ^ 48 / e.leafSize ∧ (e.asid = none ∨ e.asid = some (v / 2 ^ 48 % 2 ^ 16))
          | 1 => e.asid = some (v % 2 ^ 16)
          | 2 => e.vmid = none ∨ e.vmid = some (k.cr 0x039 % 2 ^ 16)
          | _ => e.vmid = some (v % 2 ^ 16)))

open Sys2Proof.Claims in
/-- WFI puts the core to doze or slumber once its stores are done, slumber with its caches written back and no translation kept
(R246); a wake source that is pending, enabled and aimed at the core wakes it (R326); a takeable interrupt is taken to its
level at the boundary, a WFI that waits for its stores having retired (R208, R210, R237). -/
def Sys2Proof.Claims.KnaxaSleepAndInterrupts : Prop :=
  ∀ (c : CoreId) (w : IWord) (s u : State) (k : Core), k = u.core c.val →
    (kxCan s u c .wfiDoze w → k.sb = [] →
      ∃ t, exec (.kxWfiDoze c w) s = .next t ∧ u.onlyCore t c.val { kxDone k 40 [] (k.pc + 4) with run := .doze }) ∧
    (kxCan s u c .wfiSlumber w → k.sb = [] → k.guest = false →
      u.rb Reg.PWR_HOLD.hold (coreHalf c.val) (coreDom c.val) = false →
      ∃ t, exec (.kxWfiSlumber c w) s = .next t ∧ (t.core c.val).run = .slumber ∧ (t.core c.val).tlb = [] ∧
        (t.core c.val).pc = k.pc + 4 ∧ (t.core c.val).g = k.g ∧ (∀ line, t.lstate c.val line = .i) ∧ t.mem = u.mem ∧
        (∀ f i j, f.id ≠ Reg.PWR_HOLD.last_status.id → t.rf f i j = u.rf f i j) ∧ (∀ j, j ≠ c.val → t.core j = u.core j)) ∧
    (∀ l key, s.logicalOf c.val = some l → ((s.core c.val).run = .doze ∨ (s.core c.val).run = .slumber) →
      key ∈ SMap.keys s.evh.pend → (s.evPend key).pending = true → s.rb Reg.EVH_SRC.enable (s.keyHalf key) (keyId key) = true →
      s.queued (s.keyHalf key) (keyId key) = false → s.keyTarget key = l → s.keyLevel key ≠ 2 →
      s.rb Reg.EVH_HOLD.hold (l / 128) = false →
      ∃ t, exec (.coreWake c) s = .next t ∧ (t.core c.val).run = .running ∧ (∀ j, j ≠ c.val → t.core j = s.core j) ∧
        t.evh = s.evh) ∧
    (∀ x, (s.core c.val).atBoundary = true → (s.core c.val).wait = .instr x →
      (kxOp x = some .wfiDoze ∨ kxOp x = some .wfiSlumber) → (s.core c.val).clay = false → (s.core c.val).stepArmed = false →
      (s.core c.val).watchpoints = [] → s.takeable c.val = some 2 →
      ∃ t, exec (.secureInt c) s = .next t ∧ coreOnly s t c.val ∧
        entered (s.core c.val) (t.core c.val) ((s.core c.val).pc + 4) 0x11 0 3 0x200) ∧
    ((s.core c.val).atBoundary = true → (s.core c.val).clay = false →
      (∀ x, (s.core c.val).wait = .instr x → kxOp x ≠ some .wfiDoze ∧ kxOp x ≠ some .wfiSlumber) →
      (s.takeable c.val = some 1 →
        ∃ t, exec (.interrupt c) s = .next t ∧ coreOnly s t c.val ∧
          entered (s.core c.val) (t.core c.val) (s.core c.val).pc 0x10 0 2 0x100) ∧
      (s.takeable c.val = some 0 →
        ∃ t, exec (.interrupt c) s = .next t ∧ coreOnly s t c.val ∧
          entered (s.core c.val) (t.core c.val) (s.core c.val).pc 0x10 0 (if (s.core c.val).guest then 2 else 1) 0x100) ∧
      (s.takeable c.val = some 2 →
        ∃ t, exec (.secureInt c) s = .next t ∧ coreOnly s t c.val ∧
          entered (s.core c.val) (t.core c.val) (s.core c.val).pc 0x11 0 3 0x200))

/-- Fences, the time base, TLBI, sleep and interrupts of the Knaxa cores. -/
def Obligations.KnaxaOrderingAndSleep : Prop :=
  Sys2Proof.Claims.KnaxaOrderingAndTime ∧
  Sys2Proof.Claims.KnaxaSleepAndInterrupts

/-! ## Knaxa vectors and big integers (R249 to R265) -/

namespace Sys2Proof.Claims

/-- Element `i` of `n` bytes of a group. -/
def el (n v i : Nat) : Nat := v / 2 ^ (8 * n * i) % 2 ^ (8 * n)

/-- Group factor, element size and element count of a word (R249, R250). -/
def wF (w : IWord) : Nat := 2 ^ ifld w 7 6
def wSz (w : IWord) : Nat := 2 ^ ifld w 5 4
def wN (w : IWord) : Nat := 32 * wF w / wSz w

/-- Element `i` is active under pg (R251). -/
def active (k : Core) (w : IWord) (i : Nat) : Bool := (k.pgrp (ifld w 10 8) (wF w)).testBit (wSz w * i)

/-- The operand groups of a word. -/
def gvd (k : Core) (w : IWord) : Nat := k.grp (ifld w 25 21) (wF w)
def gva (k : Core) (w : IWord) : Nat := k.grp (ifld w 20 16) (wF w)
def gvb (k : Core) (w : IWord) : Nat := k.grp (ifld w 15 11) (wF w)

/-- A clay charge by group factor. -/
def wLat (w : IWord) (a b c : Nat) : Nat := if ifld w 7 6 = 0 then a else if ifld w 7 6 = 1 then b else c

/-- A row whose elements are computed one by one: `f` of the element size, the core, the word and the index. -/
structure VRow where
  op : KxOp
  cmd : CoreId → IWord → Instr
  charge : Nat
  f : Nat → Core → IWord → Nat → Nat

/-- An operation on elements under pg; an inactive element keeps its value (R252). -/
def vOp (f : Nat → Nat → Nat → Int) (sz : Nat) (k : Core) (w : IWord) (i : Nat) : Nat :=
  if active k w i then (f sz (el sz (gva k w) i) (el sz (gvb k w) i) % 2 ^ (8 * sz)).toNat else el sz (gvd k w) i

/-- The element-wise rows and the moves (R253). -/
noncomputable def kxElementwise : List VRow := [
  ⟨.vadd, .kxVadd, 2, vOp fun _ a b => a + b⟩,
  ⟨.vsub, .kxVsub, 2, vOp fun _ a b => a - b⟩,
  ⟨.vmul, .kxVmul, 4, vOp fun _ a b => a * b⟩,
  ⟨.vmulh, .kxVmulh, 4, vOp fun n a b => sext (8 * n) a * sext (8 * n) b / 2 ^ (8 * n)⟩,
  ⟨.vmulhu, .kxVmulhu, 4, vOp fun n a b => a * b / 2 ^ (8 * n)⟩,
  ⟨.vmin, .kxVmin, 2, vOp fun n a b => min (sext (8 * n) a) (sext (8 * n) b)⟩,
  ⟨.vmax, .kxVmax, 2, vOp fun n a b => max (sext (8 * n) a) (sext (8 * n) b)⟩,
  ⟨.vminu, .kxVminu, 2, vOp fun _ a b => min a b⟩,
  ⟨.vmaxu, .kxVmaxu, 2, vOp fun _ a b => max a b⟩,
  ⟨.vabs, .kxVabs, 2, vOp fun n a _ => (sext (8 * n) a).natAbs⟩,
  ⟨.vneg, .kxVneg, 2, vOp fun _ a _ => -a⟩,
  ⟨.vand, .kxVand, 1, vOp fun _ a b => (a &&& b : Nat)⟩,
  ⟨.vor, .kxVor, 1, vOp fun _ a b => (a ||| b : Nat)⟩,
  ⟨.vxor, .kxVxor, 1, vOp fun _ a b => (a ^^^ b : Nat)⟩,
  ⟨.vandn, .kxVandn, 1, vOp fun n a b => (a &&& (b ^^^ (2 ^ (8 * n) - 1)) : Nat)⟩,
  ⟨.vsll, .kxVsll, 2, vOp fun n a b => (a <<< (b % (8 * n)) : Nat)⟩,
  ⟨.vsrl, .kxVsrl, 2, vOp fun n a b => (a >>> (b % (8 * n)) : Nat)⟩,
  ⟨.vsra, .kxVsra, 2, vOp fun n a b => sext (8 * n) a >>> (b % (8 * n))⟩,
  ⟨.vror, .kxVror, 2, vOp fun n a b => ((BitVec.ofNat (8 * n) a).rotateRight (b % (8 * n))).toNat⟩,
  ⟨.vsel, .kxVsel, 1, fun n k w i => if active k w i then el n (gva k w) i else el n (gvb k w) i⟩,
  ⟨.vperm, .kxVperm, 3, fun n k w i => if active k w i then el n (gva k w) (el n (gvb k w) i % wN w) else el n (gvd k w) i⟩,
  ⟨.vbcast, .kxVbcast, 3, fun n k w i =>
    if active k w i then (k.rg (ifld w 20 16)).toNat % 2 ^ (8 * n) else el n (gvd k w) i⟩,
  ⟨.vins, .kxVins, 3, fun n k w i =>
    if active k w i ∧ i = (k.rg (ifld w 15 11)).toNat % wN w then (k.rg (ifld w 20 16)).toNat % 2 ^ (8 * n) else el n (gvd k w) i⟩]

/-- The comparisons (R253). -/
noncomputable def kxCompares : List (KxOp × (CoreId → IWord → Instr) × (Nat → Nat → Nat → Bool)) := [
  (.vcmpeq, .kxVcmpeq, fun _ a b => decide (a = b)), (.vcmpne, .kxVcmpne, fun _ a b => decide (a ≠ b)),
  (.vcmplt, .kxVcmplt, fun n a b => decide (sext (8 * n) a < sext (8 * n) b)), (.vcmpltu, .kxVcmpltu, fun _ a b => decide (a < b)),
  (.vcmple, .kxVcmple, fun n a b => decide (sext (8 * n) a ≤ sext (8 * n) b)), (.vcmpleu, .kxVcmpleu, fun _ a b => decide (a ≤ b))]

/-- The active elements of va. -/
def actives (k : Core) (w : IWord) : List Nat :=
  ((List.range (wN w)).filter (active k w)).map fun i => el (wSz w) (gva k w) i

/-- The reductions (R254): the value of gd for no active element too. -/
noncomputable def kxReductions : List (KxOp × (CoreId → IWord → Instr) × (Nat → List Nat → Int)) := [
  (.vradd, .kxVradd, fun _ l => l.sum),
  (.vrmin, .kxVrmin, fun n l => (l.map (sext (8 * n))).foldl min (2 ^ (8 * n - 1) - 1)),
  (.vrmax, .kxVrmax, fun n l => (l.map (sext (8 * n))).foldl max (-2 ^ (8 * n - 1))),
  (.vrand, .kxVrand, fun n l => (l.foldl (· &&& ·) (2 ^ (8 * n) - 1) : Nat)),
  (.vrorReduction, .kxVrorReduction, fun _ l => (l.foldl (· ||| ·) 0 : Nat)),
  (.vrxor, .kxVrxor, fun _ l => (l.foldl (· ^^^ ·) 0 : Nat))]

/-- The predicate instructions that write pd: bit `b` of it. -/
noncomputable def kxPredicates : List (KxOp × (CoreId → IWord → Instr) × Nat × (Core → IWord → Nat → Bool)) := [
  (.pand, .kxPand, 1, fun k w b => (k.pgrp (ifld w 20 16) (wF w)).testBit b && (k.pgrp (ifld w 15 11) (wF w)).testBit b &&
    (k.pgrp (ifld w 10 8) (wF w)).testBit b),
  (.por, .kxPor, 1, fun k w b => ((k.pgrp (ifld w 20 16) (wF w)).testBit b || (k.pgrp (ifld w 15 11) (wF w)).testBit b) &&
    (k.pgrp (ifld w 10 8) (wF w)).testBit b),
  (.pxor, .kxPxor, 1, fun k w b => ((k.pgrp (ifld w 20 16) (wF w)).testBit b ^^ (k.pgrp (ifld w 15 11) (wF w)).testBit b) &&
    (k.pgrp (ifld w 10 8) (wF w)).testBit b),
  (.pnot, .kxPnot, 1, fun k w b => !(k.pgrp (ifld w 20 16) (wF w)).testBit b && (k.pgrp (ifld w 10 8) (wF w)).testBit b),
  (.prange, .kxPrange, 2, fun k w b =>
    b % wSz w == 0 && decide ((k.rg (ifld w 20 16)).toNat + b / wSz w < (k.rg (ifld w 15 11)).toNat)),
  (.fftop, .kxFftop, 1, fun k w b => b % wSz w == 0 && active k w (b / wSz w) && k.ffr.getLsbD (b / wSz w))]

/-- The elements active in pa and in pg. -/
def bothActive (k : Core) (w : IWord) : List Nat :=
  (List.range (wN w)).filter fun i => (k.pgrp (ifld w 20 16) (wF w)).testBit (wSz w * i) && active k w i

end Sys2Proof.Claims

open Sys2Proof.Claims in
/-- The element-wise instructions and the moves write every element of vd as their row says, and no other register; comparisons
and predicate instructions write pd bit by bit; reductions, counts, finds and extracts write gd; PTOFF writes ffr (R249 to
R254). -/
def Sys2Proof.Claims.KnaxaVectorInstructions : Prop :=
  ∀ (c : CoreId) (w : IWord) (s u : State) (k : Core), k = u.core c.val →
    (∀ r ∈ kxElementwise, kxCan s u c r.op w →
      ∃ t m, exec (r.cmd c w) s = .next t ∧ u.onlyCore t c.val (kxDone m r.charge [] (k.pc + 4)) ∧ { m with v := k.v } = k ∧
        (∀ i, i < wN w → el (wSz w) (gvd m w) i = r.f (wSz w) k w i) ∧
        (∀ j, j < ifld w 25 21 ∨ ifld w 25 21 + wF w ≤ j → m.rv j = k.rv j)) ∧
    (∀ r ∈ kxCompares, kxCan s u c r.1 w →
      ∃ t m, exec (r.2.1 c w) s = .next t ∧ u.onlyCore t c.val (kxDone m 2 [] (k.pc + 4)) ∧ { m with p := k.p } = k ∧
        (∀ b, b < 32 * wF w → (m.pgrp (ifld w 25 21) (wF w)).testBit b =
          (b % wSz w == 0 && active k w (b / wSz w) &&
            r.2.2 (wSz w) (el (wSz w) (gva k w) (b / wSz w)) (el (wSz w) (gvb k w) (b / wSz w)))) ∧
        (∀ j, j < ifld w 25 21 ∨ ifld w 25 21 + wF w ≤ j → m.rp j = k.rp j)) ∧
    (∀ r ∈ kxReductions, kxCan s u c r.1 w →
      ∃ t, exec (r.2.1 c w) s = .next t ∧ u.onlyCore t c.val
        (kxDone (k.setg (ifld w 25 21) (BitVec.ofInt 64 (r.2.2 (wSz w) (actives k w)))) (wLat w 5 6 7) [] (k.pc + 4))) ∧
    (∀ r ∈ kxPredicates, kxCan s u c r.1 w →
      ∃ t m, exec (r.2.1 c w) s = .next t ∧ u.onlyCore t c.val (kxDone m r.2.2.1 [] (k.pc + 4)) ∧ { m with p := k.p } = k ∧
        (∀ b, b < 32 * wF w → (m.pgrp (ifld w 25 21) (wF w)).testBit b = r.2.2.2 k w b) ∧
        (∀ j, j < ifld w 25 21 ∨ ifld w 25 21 + wF w ≤ j → m.rp j = k.rp j)) ∧
    (kxCan s u c .pcount w → ∃ t, exec (.kxPcount c w) s = .next t ∧ u.onlyCore t c.val
      (kxDone (k.setg (ifld w 25 21) (BitVec.ofNat 64 (bothActive k w).length)) 3 [] (k.pc + 4))) ∧
    (kxCan s u c .pfind w → ∃ t, exec (.kxPfind c w) s = .next t ∧ u.onlyCore t c.val
      (kxDone (k.setg (ifld w 25 21) (BitVec.ofNat 64 ((bothActive k w).head?.getD (wN w)))) 3 [] (k.pc + 4))) ∧
    (kxCan s u c .ptoff w → ∃ t m, exec (.kxPtoff c w) s = .next t ∧ u.onlyCore t c.val (kxDone m 1 [] (k.pc + 4)) ∧
      { m with ffr := k.ffr } = k ∧ ∀ i, i < 128 → m.ffr.getLsbD i =
        (decide (i < wN w) && (k.pgrp (ifld w 20 16) (wF w)).testBit (wSz w * i))) ∧
    (kxCan s u c .vext w → ∃ t, exec (.kxVext c w) s = .next t ∧ u.onlyCore t c.val
      (kxDone (k.setg (ifld w 25 21) (BitVec.ofNat 64 (el (wSz w) (gva k w) ((k.rg (ifld w 15 11)).toNat % wN w)))) 4 []
        (k.pc + 4)))

namespace Sys2Proof.Claims

/-- The address of element `i` of a vector access (R256). -/
def elAddr (k : Core) (w : IWord) : VAddr → Nat → Word
  | .contiguous, i => k.rg (ifld w 20 16) + k.rg (ifld w 15 11) + BitVec.ofNat 64 (wSz w * i)
  | .strided, i => k.rg (ifld w 20 16) + BitVec.ofNat 64 i * k.rg (ifld w 15 11)
  | .indexed, i => k.rg (ifld w 20 16) + BitVec.ofInt 64 (sext (8 * wSz w) (el (wSz w) (gvb k w) i) * wSz w)
  | .predicate, i => k.rg (ifld w 20 16) + k.rg (ifld w 15 11) + BitVec.ofNat 64 (4 * i)

/-- The access takes element `i`: it is active, or a predicate of PLD or PST. -/
def takes (k : Core) (w : IWord) : VAddr → Nat → Bool
  | .predicate, i => decide (i < wF w)
  | _, i => decide (i < wN w) && active k w i

/-- The bytes that core `c` reads at `pa`, as a number. -/
def coreReads (s : State) (c pa n : Nat) : Nat :=
  ofLe ((List.range n).map fun i => s.peekAs (s.tagOf (s.keySlotFor (s.coreReq c) (pa + i))) (pa + i))

/-- Every element's check succeeds and changes nothing: element `i` lies at `pa i` in memory that is no device (R208, R262). -/
def elemsOk (u : State) (c : Nat) (w : IWord) (form : VAddr) (acc : KxAcc) (noDev : Bool) (pa : Nat → Nat) : Prop :=
  ∀ i, takes (u.core c) w form i = true →
    u.kxCheck c acc noDev (elAddr (u.core c) w form i).toNat (if form = .predicate then 4 else wSz w)
      (if form = .predicate then none else some i) = (.ok ⟨(elAddr (u.core c) w form i).toNat, pa i, false⟩, u)

/-- The vector loads. -/
noncomputable def kxVLoads : List (KxOp × (CoreId → IWord → Instr) × VAddr × Bool) := [
  (.vld, .kxVld, .contiguous, false), (.vlds, .kxVlds, .strided, false), (.vgather, .kxVgather, .indexed, true),
  (.vldff, .kxVldff, .contiguous, true), (.vgatherff, .kxVgatherff, .indexed, true)]

/-- The vector stores. -/
noncomputable def kxVStores : List (KxOp × (CoreId → IWord → Instr) × VAddr × Bool) := [
  (.vst, .kxVst, .contiguous, false), (.vsts, .kxVsts, .strided, false), (.vscatter, .kxVscatter, .indexed, true)]

end Sys2Proof.Claims

open Sys2Proof.Claims in
/-- A vector load gives each active element its bytes of memory and every other element 0; a vector store puts the active
elements into the store buffer of 64 in ascending order, once every one is checked, and waits for room with the rest (R275);
PLD and PST move whole predicates; a first-fault
load that faults above its lowest active element clears the ffr bits from there on and retires (R256 to R263). -/
def Sys2Proof.Claims.KnaxaVectorMemory : Prop :=
  ∀ (c : CoreId) (w : IWord) (s u : State) (k : Core) (pa : Nat → Nat), k = u.core c.val → k.sb = [] →
    (∀ r ∈ kxVLoads, kxCan s u c r.1 w → elemsOk u c.val w r.2.2.1 .load r.2.2.2 pa →
      ∃ t, exec (r.2.1 c w) s = .next t ∧ coreAndAsks u t c.val ∧ (t.core c.val).pc = k.pc + 4 ∧
        (∀ i, i < wN w → el (wSz w) (gvd (t.core c.val) w) i =
          if active k w i then coreReads u c.val (pa i) (wSz w) else 0) ∧
        (∀ j, j < ifld w 25 21 ∨ ifld w 25 21 + wF w ≤ j → (t.core c.val).rv j = k.rv j) ∧
        (t.core c.val).g = k.g ∧ (t.core c.val).p = k.p ∧ (t.core c.val).ffr = k.ffr) ∧
    (kxCan s u c .pld w → elemsOk u c.val w .predicate .load false pa →
      ∃ t, exec (.kxPld c w) s = .next t ∧ coreAndAsks u t c.val ∧ (t.core c.val).pc = k.pc + 4 ∧
        (∀ i, i < wF w → (t.core c.val).rp (ifld w 25 21 + i) = BitVec.ofNat 32 (coreReads u c.val (pa i) 4)) ∧
        (∀ j, j < ifld w 25 21 ∨ ifld w 25 21 + wF w ≤ j → (t.core c.val).rp j = k.rp j) ∧ (t.core c.val).v = k.v) ∧
    (∀ r ∈ kxVStores, kxCan s u c r.1 w → elemsOk u c.val w r.2.2.1 .store r.2.2.2 pa → k.clay = false →
      ∃ (t : State) (es : List (Nat × List Byte)), exec (r.2.1 c w) s = .next t ∧ coreAndAsks u t c.val ∧
        es = (((List.range (wN w)).filter (active k w)).map fun i => (pa i, leBytes (wSz w) (el (wSz w) (gvd k w) i))) ∧
        (t.core c.val).sb = ((es.take 64).map fun e => ⟨e.1, e.2⟩) ∧
        (es.length ≤ 64 → (t.core c.val).pc = k.pc + 4) ∧
        (64 < es.length → (t.core c.val).pc = k.pc ∧ (t.core c.val).wait = .vstore w (es.drop 64))) ∧
    (kxCan s u c .pst w → elemsOk u c.val w .predicate .store false pa → k.clay = false →
      ∃ t, exec (.kxPst c w) s = .next t ∧ coreAndAsks u t c.val ∧ (t.core c.val).pc = k.pc + 4 ∧
        (t.core c.val).sb = (List.range (wF w)).map fun i => ⟨pa i, leBytes 4 (k.rp (ifld w 25 21 + i)).toNat⟩) ∧
    (∀ (e : Nat) (f : Flt) (v : State), kxCan s u c .vldff w → e < wN w → active k w e = true →
      (∃ i, i < e ∧ active k w i = true) →
      (∀ i, i < e → active k w i = true → u.kxCheck c.val .load true (elAddr k w .contiguous i).toNat (wSz w) (some i) =
        (.ok ⟨(elAddr k w .contiguous i).toNat, pa i, false⟩, u)) →
      u.kxCheck c.val .load true (elAddr k w .contiguous e).toNat (wSz w) (some e) = (.error f, v) →
      ∃ t, exec (.kxVldff c w) s = .next t ∧ coreAndAsks u t c.val ∧ (t.core c.val).pc = k.pc + 4 ∧
        (∀ i, i < wN w → (t.core c.val).ffr.getLsbD i = (decide (i < e) && k.ffr.getLsbD i)) ∧
        (∀ i, i < wN w → el (wSz w) (gvd (t.core c.val) w) i =
          if i < e ∧ active k w i then coreReads u c.val (pa i) (wSz w) else 0))

/-- The vector instructions and vector memory accesses. -/
def Obligations.KnaxaVectors : Prop :=
  Sys2Proof.Claims.KnaxaVectorInstructions ∧
  Sys2Proof.Claims.KnaxaVectorMemory

open Sys2Proof.Claims in
/-- The big-integer instructions over groups read as one number, with carry and borrow in a predicate's bit 0: the sums,
differences and products exactly, the Montgomery step of R265 under its conditions, and the final subtraction (R264, R265). -/
def Obligations.KnaxaBigIntegers : Prop :=
  ∀ (c : CoreId) (w : IWord) (s u : State) (k : Core) (cin : Nat), k = u.core c.val →
    cin = (k.rp (ifld w 10 8)).toNat % 2 →
    (kxCan s u c .vadc w → ∃ t m, exec (.kxVadc c w) s = .next t ∧ { m with v := k.v, p := k.p } = k ∧
      u.onlyCore t c.val (kxDone m (wLat w 2 2 3) [] (k.pc + 4)) ∧ (m.rp (ifld w 10 8)).toNat < 2 ∧
      gvd m w + 2 ^ (256 * wF w) * (m.rp (ifld w 10 8)).toNat = gva k w + gvb k w + cin) ∧
    (kxCan s u c .vsbb w → ∃ t m, exec (.kxVsbb c w) s = .next t ∧ { m with v := k.v, p := k.p } = k ∧
      u.onlyCore t c.val (kxDone m (wLat w 2 2 3) [] (k.pc + 4)) ∧ (m.rp (ifld w 10 8)).toNat < 2 ∧
      gvd m w + gvb k w + cin = gva k w + 2 ^ (256 * wF w) * (m.rp (ifld w 10 8)).toNat) ∧
    (kxCan s u c .vcshl w → ∃ t m, exec (.kxVcshl c w) s = .next t ∧ { m with v := k.v, p := k.p } = k ∧
      u.onlyCore t c.val (kxDone m (wLat w 2 2 3) [] (k.pc + 4)) ∧ (m.rp (ifld w 10 8)).toNat < 2 ∧
      gvd m w + 2 ^ (256 * wF w) * (m.rp (ifld w 10 8)).toNat = 2 * gva k w + cin) ∧
    (kxCan s u c .vmulw w → ∃ t m, exec (.kxVmulw c w) s = .next t ∧ { m with v := k.v } = k ∧
      u.onlyCore t c.val (kxDone m (wLat w 6 8 12) [] (k.pc + 4)) ∧ m.grp (ifld w 25 21) (2 * wF w) = gva k w * gvb k w) ∧
    (∀ a N N' T, kxCan s u c .vmont w → T = gvd k w + 2 ^ (256 * wF w) * cin → a = (k.rv (ifld w 25 21 + wF w)).toNat →
      N = gvb k w → N' = (k.rv (ifld w 15 11 + wF w)).toNat → N % 2 = 1 → N * N' % 2 ^ 256 = 2 ^ 256 - 1 →
      gva k w < N → T < 2 * N →
      ∃ t m R, exec (.kxVmont c w) s = .next t ∧ { m with v := k.v, p := k.p } = k ∧
        u.onlyCore t c.val (kxDone m (wLat w 8 10 14) [] (k.pc + 4)) ∧ (m.rp (ifld w 10 8)).toNat < 2 ∧
        R = gvd m w + 2 ^ (256 * wF w) * (m.rp (ifld w 10 8)).toNat ∧ R * 2 ^ 256 % N = (T + a * gva k w) % N ∧ R < 2 * N) ∧
    (kxCan s u c .vmont w → ∃ t m, exec (.kxVmont c w) s = .next t ∧ { m with v := k.v, p := k.p } = k ∧
      (t.core c.val) = kxDone m (wLat w 8 10 14) [] (k.pc + 4) ∧
      (∀ j, j < ifld w 25 21 ∨ ifld w 25 21 + wF w ≤ j → m.rv j = k.rv j)) ∧
    (kxCan s u c .vredm w → ∃ t m, exec (.kxVredm c w) s = .next t ∧ { m with v := k.v, p := k.p } = k ∧
      u.onlyCore t c.val (kxDone m (wLat w 2 2 3) [] (k.pc + 4)) ∧ m.rp (ifld w 10 8) = 0 ∧
      gvd m w = (if gvb k w ≤ gvd k w + 2 ^ (256 * wF w) * cin then gvd k w + 2 ^ (256 * wF w) * cin - gvb k w
        else gvd k w + 2 ^ (256 * wF w) * cin) % 2 ^ (256 * wF w))

/-! ## Registers, blocks and claims (R7, R10, R25, R31 to R37) -/

namespace Sys2Proof.Claims

/-- The commands that read a register: the sender, block class, instance, register and index. -/
def readCmds : Instr → Option (Requester × Nat × Nat × RegDef × Nat)
  | .prtBlockEvtRead q h => some (q, 0x12, h.val, Reg.PRT_BLOCK_EVT.reg, 0)
  | .sltFaultRead q e => some (q, 0x02, e.val, Reg.SLT_FAULT.reg, 0)
  | .sltCountRead q e => some (q, 0x02, e.val, Reg.SLT_COUNT.reg, 0)
  | .dspCountRead q h => some (q, 0x03, h.val, Reg.DSP_COUNT.reg, 0)
  | .dspStealCountRead q h => some (q, 0x03, h.val, Reg.DSP_STEAL_COUNT.reg, 0)
  | .cltLaneRead q h k => some (q, 0x04, h.val, Reg.CLT_LANE.reg, k.val)
  | .cltCountRead q h => some (q, 0x04, h.val, Reg.CLT_COUNT.reg, 0)
  | .potFaultRead q h => some (q, 0x07, h.val, Reg.POT_FAULT.reg, 0)
  | .strStatusRead q h => some (q, 0x08, h.val, Reg.STR_STATUS.reg, 0)
  | .vrvStatusRead q h => some (q, 0x09, h.val, Reg.VRV_STATUS.reg, 0)
  | .tifCountRead q t => some (q, 0x0A, t.val, Reg.TIF_COUNT.reg, 0)
  | .evhStatRead q h => some (q, 0x0B, h.val, Reg.EVH_STAT.reg, 0)
  | .evhEqOvfRead q l => some (q, 0x0B, l.val / 128, Reg.EVH_EQ_OVF.reg, l.val % 128)
  | .kaoStatRead q h => some (q, 0x0C, h.val, Reg.KAO_STAT.reg, 0)
  | .dmcCountRead q c => some (q, 0x0D, c.val, Reg.DMC_COUNT.reg, 0)
  | .dmcCount2Read q c => some (q, 0x0D, c.val, Reg.DMC_COUNT2.reg, 0)
  | .dmcTrainWinRead q c n => some (q, 0x0D, c.val, Reg.DMC_TRAIN_WIN.reg, n.val)
  | .dmcMigrateRead q c => some (q, 0x0D, c.val, Reg.DMC_MIGRATE.reg, 0)
  | .rasHomeStatusRead q h => some (q, 0x0E, h.val, Reg.RAS_HOME_STATUS.reg, 0)
  | .rasCountRead q h => some (q, 0x0E, h.val, Reg.RAS_COUNT.reg, 0)
  | .rasCount2Read q h => some (q, 0x0E, h.val, Reg.RAS_COUNT2.reg, 0)
  | .pwrRailRead q h r => some (q, 0x0F, h.val, Reg.PWR_RAIL.reg, r.val)
  | .pwrFallowRead q h => some (q, 0x0F, h.val, Reg.PWR_FALLOW.reg, 0)
  | .prtIoFaultRead q h => some (q, 0x12, h.val, Reg.PRT_IO_FAULT.reg, 0)
  | .prtEthCountRead q h => some (q, 0x12, h.val, Reg.PRT_ETH_COUNT.reg, 0)
  | .prtLineRead q h n => some (q, 0x12, h.val, Reg.PRT_LINE.reg, n.val)
  | _ => none

/-- What a read of the fault registers and of RAS_COUNT2 does besides: the event of R135, R378 or R437 may be raised again. -/
def readAfter (s : State) : Instr → State
  | .potFaultRead _ h => { s with sys := { s.sys with potSpent := SMap.set false s.sys.potSpent h.val false } }
  | .prtIoFaultRead _ h => { s with sys := { s.sys with ioSpent := SMap.set false s.sys.ioSpent h.val false } }
  | .rasCount2Read _ h => s.updRas h.val fun x => { x with a6Spent := false }
  | _ => s

/-- The registers of chapters whose stores act in no way beside their fields: class and offsets that act otherwise. -/
def plainReg (cls off : Nat) : Prop :=
  (cls = 0x01 ∧ off ≠ 0x100) ∨ (cls = 0x03 ∧ off ≠ 0x180 ∧ off ≠ 0x200) ∨
    (cls = 0x0D ∧ off ∉ [0x100, 0x118, 0x200, 0x400]) ∨ (cls = 0x0F ∧ off ∉ [0x480, 0x600, 0x800, 0x1000, 0x2000])

/-- Block classes that start nothing of their own on reaching ON. -/
def quietOn : List Nat := [0x01, 0x03, 0x04, 0x06, 0x07, 0x08, 0x0D, 0x0F, 0x10, 0x11, 0x12]

/-- Claims on the two shared lands, whose features hold nothing but the entry. -/
def landActor (n : Nat) (a : Actor) : Prop := (n = 64 ∧ (a = .t ∨ a = .h)) ∨ (n = 65 ∧ (a = .m ∨ a = .t ∨ a = .h))

end Sys2Proof.Claims

open Sys2Proof.Claims in
/-- A read of a register that the page admits answers its word, clears its RC fields alone (R7) and changes nothing else but
what R135, R378 and R437 attach to it; one that the page refuses is refused (R10, R132), and one of the lost half logs a UEr (R292). PRT_CLAIM exists in the primary
half's instance alone (R37). -/
def Obligations.RegisterReads : Prop :=
  (∀ (c : Instr) (q : Requester) (cls inst j : Nat) (r : RegDef) (s : State), readCmds c = some (q, cls, inst, r, j) →
    (s.mayRead q cls inst (r.off + r.stride * j) →
      ∃ u, exec c s = .next (readAfter u c) ∧ u.out.value = s.regWord inst j r.fields ∧ u.out.status = 0 ∧
        { u with regs := s.regs, out := s.out } = s ∧
        (∀ f ∈ r.fields, f.ty = .rc → u.rf f inst j = 0) ∧
        (∀ f i k, ¬ (i = inst ∧ k = j ∧ ∃ g ∈ r.fields, g.ty = .rc ∧ g.id = f.id) → u.rf f i k = s.rf f i k)) ∧
    (s.cutOff (drsAddr cls inst (r.off + r.stride * j)) = none →
      (s.potCheck q .read (drsAddr cls inst (r.off + r.stride * j))).ok = false →
      exec c s = .next (s.refuse q .read (drsAddr cls inst (r.off + r.stride * j))
        (s.potCheck q .read (drsAddr cls inst (r.off + r.stride * j))))) ∧
    (∀ src, s.cutOff (drsAddr cls inst (r.off + r.stride * j)) = some src →
      exec c s = .next (s.drsLost q (drsAddr cls inst (r.off + r.stride * j)) src))) ∧
  (∀ (q : Requester) (h : Half) (n : Fin 130) (s : State), s.mayRead q 0x12 h.val (0x1000 + 8 * n.val) →
    (s.sys.primary = h →
      ∃ t, exec (.prtClaimRead q h n) s = .next t ∧ t.out.value = s.regWord 0 n.val Reg.PRT_CLAIM.reg.fields ∧
        s.onlyRegs t ∧ t.rf Reg.PRT_CLAIM.claims_lost 0 n.val = 0 ∧
        t.rf Reg.PRT_CLAIM.held 0 n.val = s.rf Reg.PRT_CLAIM.held 0 n.val) ∧
    (s.sys.primary ≠ h →
      ∃ t, exec (.prtClaimRead q h n) s = .next t ∧ t.out.value = 0 ∧ { t with out := s.out } = s))

open Sys2Proof.Claims in
/-- A store of 8 bytes to a plain register sets each RW field that names its writer and no other field (R7 to R10); a store to
any other register beyond the header has that register's effect, or waits until its block is ON (R33); a store that the page
refuses changes no register but POT_FAULT and what its event writes; one of a wrong size or place is discarded with EV 0x022
(R25); one to the lost half logs a UEr (R292). -/
def Obligations.RegisterStores : Prop :=
  (∀ (q : Requester) (cls inst off j : Nat) (r : RegDef) (v : Word) (s : State) (size : Fin 33), size.val = 8 →
    cls < 19 → inst < clsCount cls → 0x40 ≤ off → off < clsEnd cls → off % 8 = 0 → regAt cls inst off = some (r, inst, j) →
    plainReg cls r.off → primaryOnly r = false → s.mayWrite q cls inst off →
    s.region (drsAddr cls inst off) = .drs → r.fields.any (fun f => f.writers != 0) = true →
    ∃ t, exec (.registerWrite q (BitVec.ofNat 52 (drsAddr cls inst off)) size v) s = .next t ∧ { t with regs := s.regs } = s ∧
      (∀ f ∈ r.fields, f.ty = .rw → t.rf f inst j = if f.admits q.actor then f.of v.toNat else s.rf f inst j) ∧
      (∀ f ∈ r.fields, f.ty = .ro → t.rf f inst j = s.rf f inst j) ∧
      (∀ f i k, (i ≠ inst ∨ k ≠ j) → t.rf f i k = s.rf f i k)) ∧
  (∀ (q : Requester) (cls inst off i j : Nat) (r : RegDef) (v : Word) (s : State) (size : Fin 33), size.val = 8 →
    cls < 19 → inst < clsCount cls → 0x40 ≤ off → off < clsEnd cls → off % 8 = 0 → regAt cls inst off = some (r, i, j) →
    (s.potCheck q .write (drsAddr cls inst off)).ok = true → s.cutOff (drsAddr cls inst off) = none →
    s.region (drsAddr cls inst off) = .drs → r.fields.any (fun f => f.writers != 0) = true →
    exec (.registerWrite q (BitVec.ofNat 52 (drsAddr cls inst off)) size v) s = .next
      (if s.blkOn cls inst = true ∨ neverHeld cls r.off = true then
        s.applyWrite q cls (if primaryOnly r = true then 0 else i) j v.toNat r
      else { s with heldWrites := SMap.upd [] s.heldWrites (blkKey cls inst) (· ++ [⟨q, off, 8, v.toNat⟩]) })) ∧
  (∀ (q : Requester) (a : BitVec 52) (size : Fin 33) (v : Word) (s : State) (src : Nat), s.region a.toNat = .drs →
    s.cutOff a.toNat = some src → exec (.registerWrite q a size v) s = .next (s.drsLost q a.toNat src)) ∧
  (∀ (q : Requester) (a : BitVec 52) (size : Fin 33) (v : Word) (s : State), s.region a.toNat = .drs →
    s.cutOff a.toNat = none → (s.potCheck q .write a.toNat).ok = false →
    ∃ t, exec (.registerWrite q a size v) s = .next t ∧ s.evOnly t ∧ s.evRegs t ∧
      (SMap.get false s.sys.potSpent (s.checkerOf q a.toNat).1 = true →
        t.rf Reg.POT_FAULT_ADDR.addr (s.checkerOf q a.toNat).1 = a.toNat % 2 ^ Reg.POT_FAULT_ADDR.addr.width)) ∧
  (∀ (q : Requester) (a : BitVec 52) (size : Fin 33) (v : Word) (s : State), s.region a.toNat = .drs →
    s.cutOff a.toNat = none → (s.potCheck q .write a.toNat).ok = true → drsWellFormed a.toNat size.val = false →
    ∃ t, exec (.registerWrite q a size v) s = .next t ∧ s.evOnly t ∧ s.evRegs t)

open Sys2Proof.Claims in
/-- The state table of R31, for a block of every class: enable writes, start done, stop done, faults and time limits, with
EV 0x010 counted in PRT_BLOCK_EVT of the block's half (R32). A status that R38 does not list is none that a block ends with. -/
def Sys2Proof.Claims.BlockStateTable : Prop :=
  (∀ (q : Requester) (cls : Fin 19) (inst : Fin 4096) (en : Bool) (s : State) (k : Nat), k = blkKey cls.val inst.val →
    inst.val < clsCount cls.val → (s.potCheck q .write (drsAddr cls.val inst.val 8)).ok = true →
    s.cutOff (drsAddr cls.val inst.val 8) = none → s.region (drsAddr cls.val inst.val 8) = .drs →
    (cls.val = 0x0A → exec (.enableWrite q cls inst en) s = .next
      (if en = true then s.tifEnable (s.tifActor q inst.val) inst.val q else s.tifDisable (s.tifActor q inst.val) inst.val q)) ∧
    (cls.val ≠ 0x0A → enableWriters cls.val &&& q.actor.bit = 0 → exec (.enableWrite q cls inst en) s = .next s) ∧
    (cls.val ≠ 0x0A → s.rf Reg.PFX_STATE.state k = 4 → en = true → exec (.enableWrite q cls inst en) s = .next s) ∧
    (cls.val ≠ 0x0A → enableWriters cls.val &&& q.actor.bit ≠ 0 → ¬ (s.rf Reg.PFX_STATE.state k = 4 ∧ en = true) →
      ∃ t, exec (.enableWrite q cls inst en) s = .next t ∧ t.rf Reg.PFX_CTL.enable k = b2n en ∧
        t.rf Reg.PFX_STATE.state k = (match en, s.rf Reg.PFX_STATE.state k with
          | true, 0 => 1 | false, 1 => 3 | false, 2 => 3 | false, 4 => 3 | _, x => x) ∧
        t.rf Reg.PFX_STATE.restart_pending k = (match en, s.rf Reg.PFX_STATE.state k with
          | true, 3 => 1 | false, 3 => 0 | _, _ => s.rf Reg.PFX_STATE.restart_pending k) ∧
        (en = true → s.rf Reg.PFX_STATE.state k = 0 → t.rf Reg.PFX_STATE.generation k =
          (s.rf Reg.PFX_STATE.generation k + 1) % 2 ^ Reg.PFX_STATE.generation.width) ∧
        (¬ (en = true ∧ s.rf Reg.PFX_STATE.state k = 0) →
          t.rf Reg.PFX_STATE.generation k = s.rf Reg.PFX_STATE.generation k))) ∧
  (∀ (cls : Fin 19) (inst : Fin 4096) (s : State) (k : Nat), k = blkKey cls.val inst.val → inst.val < clsCount cls.val →
    (s.rf Reg.PFX_STATE.state k = 1 → SMap.get [] s.heldWrites k = [] →
      (cls.val = 0x0A → s.rb Reg.TIF_SHADOW.enable inst.val = false) →
      ∃ t, exec (.startDone cls inst) s = .next t ∧ t.rf Reg.PFX_STATE.state k = 2 ∧ t.rf Reg.PFX_STATE.last_status k = 0 ∧
        (cls.val ∈ quietOn → t.cores = s.cores ∧ t.engines = s.engines)) ∧
    (s.rf Reg.PFX_STATE.state k = 3 → s.stopReady cls.val inst.val = true →
      (cls.val = 0x0A → exec (.stopDone cls inst) s = .next (s.tiOff inst.val)) ∧
      (cls.val ≠ 0x0A → ∃ t, exec (.stopDone cls inst) s = .next t ∧
        t.rf Reg.PFX_STATE.state k = (if s.rb Reg.PFX_STATE.restart_pending k then 1 else 0) ∧
        t.rf Reg.PFX_STATE.restart_pending k = 0 ∧ (cls.val ∈ quietOn → cls.val ≠ 0x01 → t.mem = s.mem))) ∧
    (∀ st : Byte, 1 ≤ s.rf Reg.PFX_STATE.state k → s.rf Reg.PFX_STATE.state k ≤ 3 → Status.listed st.toNat = true →
      ∃ t, exec (.blockFault cls inst st) s = .next t ∧ t.rf Reg.PFX_STATE.state k = 4 ∧
        t.rf Reg.PFX_STATE.last_status k = st.toNat ∧ t.rf Reg.PFX_STATE.restart_pending k = 0 ∧
        t.rf Reg.PRT_BLOCK_EVT.instance (s.blkHalf cls.val inst.val) = inst.val ∧
        t.rf Reg.PRT_BLOCK_EVT.count (s.blkHalf cls.val inst.val) =
          min 0xFFFF (s.rf Reg.PRT_BLOCK_EVT.count (s.blkHalf cls.val inst.val) + 1)) ∧
    (∀ st : Byte, Status.listed st.toNat = false → exec (.blockFault cls inst st) s = .next s) ∧
    (s.blkLimited cls.val inst.val = true →
      ∃ t, exec (.blockTimeout cls inst) s = .next t ∧ t.rf Reg.PFX_STATE.state k = 4 ∧
        t.rf Reg.PFX_STATE.last_status k = 0x83))

/-- A claim on a free entry takes it; one on an entry that is held is lost, with the count and EV 0x020, but that a Hardpan claim
takes a pre-emptible entry of T (R34, R35); claims that arrive together are ordered H, M, T (R36); the owner alone releases. -/
def Sys2Proof.Claims.LandClaims : Prop :=
  ∀ (n : Fin 130) (s : State), n.val = 64 ∨ n.val = 65 →
    (∀ (q : Requester) (ch : Fin 64), Sys2Proof.Claims.landActor n.val q.actor →
      (s.rb Reg.PRT_CLAIM.held 0 n.val = false →
        ∃ t, exec (.resourceClaim n [(q, ch)]) s = .next t ∧ { t with regs := s.regs, prt := s.prt } = s ∧
          t.rf Reg.PRT_CLAIM.held 0 n.val = 1 ∧ t.rf Reg.PRT_CLAIM.owner_actor 0 n.val = q.actor.code) ∧
      (s.rb Reg.PRT_CLAIM.held 0 n.val = true → s.rf Reg.PRT_CLAIM.owner_actor 0 n.val ≠ q.actor.code →
        (s.rb Reg.PRT_CLAIM.preemptible 0 n.val = false ∨ q.actor ≠ .h ∨ 2 ≤ s.rf Reg.PRT_CLAIM.owner_actor 0 n.val) →
        ∃ t, exec (.resourceClaim n [(q, ch)]) s = .next t ∧ s.evOnly t ∧
          t.rf Reg.PRT_CLAIM.owner_actor 0 n.val = s.rf Reg.PRT_CLAIM.owner_actor 0 n.val ∧
          t.rf Reg.PRT_CLAIM.claims_lost 0 n.val = min 0xFFFF (s.rf Reg.PRT_CLAIM.claims_lost 0 n.val + 1)) ∧
      (s.rb Reg.PRT_CLAIM.held 0 n.val = true → s.rf Reg.PRT_CLAIM.owner_actor 0 n.val = 0 →
        s.rb Reg.PRT_CLAIM.preemptible 0 n.val = true → q.actor = .h →
        ∃ t, exec (.resourceClaim n [(q, ch)]) s = .next t ∧ t.rf Reg.PRT_CLAIM.held 0 n.val = 1 ∧
          t.rf Reg.PRT_CLAIM.owner_actor 0 n.val = 2) ∧
      (s.rb Reg.PRT_CLAIM.held 0 n.val = true → s.rf Reg.PRT_CLAIM.owner_actor 0 n.val = q.actor.code →
        ∃ t, exec (.resourceRelease n q) s = .next t ∧ t.rf Reg.PRT_CLAIM.held 0 n.val = 0 ∧ t.mem = s.mem ∧
          t.cores = s.cores)) ∧
    (∀ l : List (Requester × Fin 64), l ≠ [] → (∀ p ∈ l, Sys2Proof.Claims.landActor n.val p.1.actor) →
      s.rb Reg.PRT_CLAIM.held 0 n.val = false →
      ∃ t, exec (.resourceClaim n l) s = .next t ∧ t.rf Reg.PRT_CLAIM.held 0 n.val = 1 ∧
        t.rf Reg.PRT_CLAIM.owner_actor 0 n.val =
          if l.any (fun p => p.1.actor == .h) then 2 else if l.any (fun p => p.1.actor == .m) then 3 else 0)

/-- The same of the comparators (R34, R35, R173): the enable of a claim that is won reads 1; a claim lost shows CONFLICT. -/
def Sys2Proof.Claims.ComparatorClaims : Prop :=
  ∀ (n : Fin 130) (s : State) (q : Requester) (ch : Fin 64), n.val < 64 →
    s.mayWrite q 0x08 s.strP (0x1010 + 32 * n.val) → Reg.STR_CMP_CTL.enable.admits q.actor = true →
    (s.rb Reg.PRT_CLAIM.held 0 n.val = false →
      ∃ t, exec (.resourceClaim n [(q, ch)]) s = .next t ∧ s.onlyRegs t ∧ t.rf Reg.PRT_CLAIM.held 0 n.val = 1 ∧
        t.rf Reg.PRT_CLAIM.owner_actor 0 n.val = q.actor.code ∧ t.rf Reg.PRT_CLAIM.owner_class 0 n.val = 0x08 ∧
        t.rf Reg.STR_CMP_CTL.enable 0 n.val = 1) ∧
    (s.rb Reg.PRT_CLAIM.held 0 n.val = true → s.rf Reg.PRT_CLAIM.owner_actor 0 n.val ≠ q.actor.code →
      (s.rb Reg.PRT_CLAIM.preemptible 0 n.val = false ∨ q.actor ≠ .h ∨ 2 ≤ s.rf Reg.PRT_CLAIM.owner_actor 0 n.val) →
      ∃ t, exec (.resourceClaim n [(q, ch)]) s = .next t ∧ s.evOnly t ∧
        t.rf Reg.PRT_CLAIM.owner_actor 0 n.val = s.rf Reg.PRT_CLAIM.owner_actor 0 n.val ∧
        t.rf Reg.STR_CMP_CTL.enable 0 n.val = s.rf Reg.STR_CMP_CTL.enable 0 n.val ∧
        t.rf Reg.STR_CMP_CTL.last_status 0 n.val = Status.conflict ∧
        t.rf Reg.PRT_CLAIM.claims_lost 0 n.val = min 0xFFFF (s.rf Reg.PRT_CLAIM.claims_lost 0 n.val + 1)) ∧
    (s.rb Reg.PRT_CLAIM.held 0 n.val = true → s.rf Reg.PRT_CLAIM.owner_actor 0 n.val < 2 →
      s.rb Reg.PRT_CLAIM.preemptible 0 n.val = true → q.actor = .h →
      ∃ t, exec (.resourceClaim n [(q, ch)]) s = .next t ∧ t.rf Reg.PRT_CLAIM.held 0 n.val = 1 ∧
        t.rf Reg.PRT_CLAIM.owner_actor 0 n.val = 2 ∧ t.rf Reg.STR_CMP_CTL.enable 0 n.val = 1 ∧
        t.rf Reg.STR_CMP_CTL.armed 0 n.val = 0 ∧ t.rf Reg.STR_CMP_CTL.last_status 0 n.val = Status.conflict ∧
        t.rf Reg.PRT_CLAIM.claims_lost 0 n.val = min 0xFFFF (s.rf Reg.PRT_CLAIM.claims_lost 0 n.val + 1)) ∧
    (s.rb Reg.PRT_CLAIM.held 0 n.val = true → s.rf Reg.PRT_CLAIM.owner_actor 0 n.val = q.actor.code →
      s.rf Reg.PRT_CLAIM.owner_class 0 n.val = 0x08 →
      ∃ t, exec (.resourceRelease n q) s = .next t ∧ t.rf Reg.PRT_CLAIM.held 0 n.val = 0 ∧
        t.rf Reg.STR_CMP_CTL.enable 0 n.val = 0 ∧ t.rf Reg.STR_CMP_CTL.armed 0 n.val = 0 ∧ t.mem = s.mem ∧ t.cores = s.cores)

/-- The same of Kaolin's save slots (R336): the channel's enable is 1, the writer may use its TI, and the TI holds fewer slots than
its quota; one that is held is lost to another channel. -/
def Sys2Proof.Claims.SlotClaims : Prop :=
  ∀ (n : Fin 130) (s : State) (q : Requester) (ch : Fin 64) (h slot ti used : Nat), 66 ≤ n.val → h = (n.val - 66) / 32 →
    slot = (n.val - 66) % 32 → s.mayWrite q 0x0C h (0xC00 + 8 * slot) → Reg.KAO_SLOT.enable.admits q.actor = true →
    ti = s.rf Reg.KAO_CHAN_BIND.ti h ch.val →
    used = ((List.range 32).filter fun m => s.rb Reg.KAO_SLOT.enable h m &&
      s.rf Reg.KAO_CHAN_BIND.ti h (s.rf Reg.KAO_SLOT.chan h m) == ti).length →
    (s.rb Reg.KAO_CHAN_CFG.enable h ch.val = true → s.mayUse q.actor ti = true → used < min 32 (s.rf Reg.TIF_QUOTA.kao_slots ti) →
      s.rb Reg.KAO_SLOT.enable h slot = false → s.rb Reg.PRT_CLAIM.held 0 n.val = false →
      ∃ t, exec (.resourceClaim n [(q, ch)]) s = .next t ∧ s.onlyRegs t ∧ t.rf Reg.PRT_CLAIM.held 0 n.val = 1 ∧
        t.rf Reg.PRT_CLAIM.owner_actor 0 n.val = q.actor.code ∧ t.rf Reg.PRT_CLAIM.owner_class 0 n.val = 0x0C ∧
        t.rf Reg.PRT_CLAIM.owner_instance 0 n.val = h ∧ t.rf Reg.KAO_SLOT.enable h slot = 1 ∧
        t.rf Reg.KAO_SLOT.chan h slot = ch.val ∧ t.rf Reg.KAO_SLOT.status h slot = 0) ∧
    (s.rb Reg.KAO_CHAN_CFG.enable h ch.val = true → s.mayUse q.actor ti = true → min 32 (s.rf Reg.TIF_QUOTA.kao_slots ti) ≤ used →
      s.rb Reg.KAO_SLOT.enable h slot = false →
      ∃ t, exec (.resourceClaim n [(q, ch)]) s = .next t ∧ s.onlyRegs t ∧ t.rf Reg.KAO_SLOT.enable h slot = 0 ∧
        t.rf Reg.KAO_SLOT.status h slot = Status.quota ∧
        t.rf Reg.PRT_CLAIM.held 0 n.val = s.rf Reg.PRT_CLAIM.held 0 n.val) ∧
    (s.rb Reg.KAO_CHAN_CFG.enable h ch.val = true → s.mayUse q.actor ti = true → used < min 32 (s.rf Reg.TIF_QUOTA.kao_slots ti) →
      s.rb Reg.KAO_SLOT.enable h slot = true → s.rf Reg.KAO_SLOT.chan h slot ≠ ch.val →
      ∃ t, exec (.resourceClaim n [(q, ch)]) s = .next t ∧ s.evOnly t ∧
        t.rf Reg.PRT_CLAIM.owner_actor 0 n.val = s.rf Reg.PRT_CLAIM.owner_actor 0 n.val ∧
        t.rf Reg.KAO_SLOT.chan h slot = s.rf Reg.KAO_SLOT.chan h slot ∧ t.rf Reg.KAO_SLOT.status h slot = Status.conflict ∧
        t.rf Reg.PRT_CLAIM.claims_lost 0 n.val = min 0xFFFF (s.rf Reg.PRT_CLAIM.claims_lost 0 n.val + 1)) ∧
    (s.rb Reg.KAO_SLOT.enable h slot = true → (s.kchan h (s.rf Reg.KAO_SLOT.chan h slot)).job = none →
      ∃ t, exec (.resourceRelease n q) s = .next t ∧ t.rf Reg.PRT_CLAIM.held 0 n.val = 0 ∧
        t.rf Reg.KAO_SLOT.enable h slot = 0 ∧ t.kslot h slot = none ∧ t.mem = s.mem ∧ t.cores = s.cores)

/-- Claims and releases of every entry of the table. -/
def Sys2Proof.Claims.ResourceClaims : Prop :=
  Sys2Proof.Claims.LandClaims ∧
  Sys2Proof.Claims.ComparatorClaims ∧
  Sys2Proof.Claims.SlotClaims

/-- The states of a block and the claim table. -/
def Obligations.BlocksAndClaims : Prop :=
  Sys2Proof.Claims.BlockStateTable ∧
  Sys2Proof.Claims.ResourceClaims

/-! ## Coherence and device accesses (R270, R280 to R289, R434) -/

namespace Sys2Proof.Claims

/-- A load has its value: the register, and the core past it. -/
def loaded (k t : Core) (w : IWord) (v : Word) : Prop :=
  (∀ r, t.rg r = if r = rdOf w ∧ r ≠ 0 then v else k.rg r) ∧ t.pc = k.pc + 4 ∧ t.wait = .none ∧ t.v = k.v ∧ t.sb = k.sb

end Sys2Proof.Claims

/-- A home serves the first request of a line that runs no transaction (R283, R284), once its directory and the far filter have
room (R280, R290): a read of a line no cache holds makes the reader its exclusive owner, a read of an owned line snoops the
owner, a request for ownership snoops every other holder, and a near atomic first invalidates every copy. -/
def Sys2Proof.Claims.HomesServeRequests : Prop :=
  ∀ (line : BitVec 46) (n : Nat) (s : State) (l : LineHome) (r : HomeReq) (rest : List HomeReq), n = line.toNat →
    l = s.lineHome n → l.txn = none → l.queue = r :: rest →
    (∀ u, s.allocLine n r.core = some u → r.kind = .readShared → s.homeAdmits r .read n = true →
      (l.owner = none → l.sharers = [] →
        ∃ t, exec (.readShared line) s = .next t ∧ (t.lineHome n).owner = some r.core ∧
          (t.lineHome n).recorded = .x ∧ (s.coh.mesh = [] → (t.lineHome n).queue = rest) ∧
          (t.lineHome n).txn = some ⟨r, s.strata.tick, [], [], [], true, some .x, none, false, false, false⟩ ∧ t.mem = s.mem ∧
          t.cores = s.cores) ∧
      (l.owner = none → (∃ c ∈ l.sharers, c ≠ r.core) →
        ∃ t, exec (.readShared line) s = .next t ∧ (t.lineHome n).owner = some r.core ∧ (t.lineHome n).recorded = .l ∧
          (∀ c ∈ l.sharers, c ≠ r.core → c ∈ (t.lineHome n).sharers) ∧
          (t.lineHome n).txn = some ⟨r, s.strata.tick, [], [], [], true, some .l, none, false, false, false⟩ ∧ t.mem = s.mem) ∧
      (∀ o, l.owner = some o → o ≠ r.core →
        ∃ t, exec (.readShared line) s = .next t ∧ (t.lineHome n).owner = some o ∧ r.core ∈ (t.lineHome n).sharers ∧
          (t.lineHome n).txn =
            some ⟨r, s.strata.tick, [(o, .read)], [o], [], true, none, none, false, false, false⟩ ∧ t.mem = s.mem)) ∧
    (r.kind = .readShared → s.homeAdmits r .read n = false →
      ∃ t, exec (.readShared line) s = .next t ∧ t.cores = s.cores ∧ s.evRegs t) ∧
    (∀ u, s.allocLine n r.core = some u →
      ∀ p ∈ [(HomeKind.readOwn, exec (.readOwn line) s), (.upgrade, exec (.upgrade line) s)], r.kind = p.1 →
      ∃ t x, p.2 = .next t ∧ (t.lineHome n).txn = some x ∧ x.req = r ∧ x.since = s.strata.tick ∧
        (s.coh.mesh = [] → (t.lineHome n).queue = rest) ∧ (∀ c, c ∈ x.waiting ↔ c ∈ l.holders ∧ c ≠ r.core) ∧
        (x.grantMsg = true ↔ ∀ c ∈ l.holders, c = r.core) ∧ t.mem = s.mem ∧ t.cores = s.cores) ∧
    (s.allocLine n r.core = none →
      (r.kind = .readShared → s.homeAdmits r .read n = true → exec (.readShared line) s = .next s) ∧
      (r.kind = .readOwn → exec (.readOwn line) s = .next s) ∧ (r.kind = .upgrade → exec (.upgrade line) s = .next s)) ∧
    (r.kind = .nearAtomic → (∀ w pa, (s.core r.core.val).wait ≠ .near w pa) →
      ∃ t, exec (.nearAtomic line) s = .next t ∧ (s.coh.mesh = [] → (t.lineHome n).queue = rest) ∧
        (∀ c ∈ l.holders, t.lstate c.val n = .i) ∧ t.mem = s.mem ∧ t.cores = s.cores) ∧
    (∀ a ∈ Sys2Proof.Claims.kxAtomics, ∀ (w : IWord) (pa m x : Nat) (u v : State), r.kind = .nearAtomic →
      (s.core r.core.val).wait = .near w pa →
      Sys2Proof.Claims.kxCan ((((s.takeReq n).dropLine n).fillL3 n).updCore r.core.val fun k => { k with wait := .none })
        u r.core a.1 w → m = (if ifld w 9 9 = 1 then 8 else 4) →
      u.kxCheck r.core.val .atomic true ((u.core r.core.val).ra w).toNat m none =
        (.ok ⟨((u.core r.core.val).ra w).toNat, pa, false⟩, v) → v.core r.core.val = u.core r.core.val →
      (v.core r.core.val).sb = [] → v.cutOff pa = none →
      x = ofLe ((List.range m).map fun i =>
        v.peekAs (v.tagOf (v.keySlotFor (v.coreReq r.core.val) (pa + i))) (pa + i)) →
      ∃ t, exec (.nearAtomic line) s = .next t ∧
        t.core r.core.val = Sys2Proof.Claims.kxDone ((v.core r.core.val).setg (ifld w 25 21) (BitVec.ofNat 64 x)) 8
          [((u.core r.core.val).ra w).toNat] ((v.core r.core.val).pc + 4) ∧
        t.mem = (match a.2.2 m x ((v.core r.core.val).rb w).toNat ((v.core r.core.val).rd w).toNat with
          | some y => (v.pokeHome (v.tagOf (v.keySlotFor (v.coreReq r.core.val) pa)) pa (leBytes m y)).mem
          | none => v.mem))

/-- Snoops, answers, data, grants and acks of a running transaction, each once no older message of its class stands before it
(R18), and evictions (R283, R285, R286): a snooped sharer or owner gives up its copy, unless it still holds the line for its
Grant's access, a reader enters the state sent, an owner enters D only after every other holder has answered and performs the
access that waited, and the Ack ends the transaction; a holder or a memory read that gives no answer within the limit is logged
and the transaction goes on without it (R289). -/
def Sys2Proof.Claims.TransactionsProceed : Prop :=
  ∀ (line : BitVec 46) (s : State) (x : HomeTxn) (n h : Nat), n = line.toNat → (s.lineHome n).txn = some x →
    h = s.homeSlice (n * 64) 0 / 64 →
    (∀ o rest waited, x.snoops = (o, .read) :: rest →
      (s.arrives (.snoop n o) = true → (s.lineHome n).hold ≠ some o ∨ waited = true →
        ∃ t y, exec (.snpRead ⟨line, waited⟩) s = .next t ∧ (s.lstate o.val n ≠ .i → t.lstate o.val n = .l) ∧
          (t.lineHome n).recorded = .l ∧ (t.lineHome n).txn = some y ∧ y.answers = x.answers ++ [o] ∧ y.snoops = rest ∧
          (x.needData = true → y.dataMsg = some .s ∧ y.dataFrom = some o) ∧ t.mem = s.mem ∧ t.regs = s.regs ∧
          t.cores = s.cores) ∧
      ((s.lineHome n).hold = some o → waited = false → exec (.snpRead ⟨line, waited⟩) s = .next s)) ∧
    (∀ o rest waited, x.snoops = (o, .own) :: rest →
      (s.arrives (.snoop n o) = true → (s.lineHome n).hold ≠ some o ∨ waited = true →
        ∃ t y, exec (.snpOwn ⟨line, waited⟩) s = .next t ∧ t.lstate o.val n = .i ∧ (t.lineHome n).txn = some y ∧
          y.answers = x.answers ++ [o] ∧ y.snoops = rest ∧ (x.needData = true → y.dataMsg = some .d ∧ y.dataFrom = some o) ∧
          t.mem = s.mem ∧ t.regs = s.regs ∧ t.cores = s.cores) ∧
      ((s.lineHome n).hold = some o → waited = false → exec (.snpOwn ⟨line, waited⟩) s = .next s)) ∧
    (∀ c, (c, SnpKind.inv) ∈ x.snoops → s.arrives (.snoop n c) = true →
      ∃ t y, exec (.snpInv line c) s = .next t ∧ t.lstate c.val n = .i ∧ (t.lineHome n).txn = some y ∧
        y.answers = x.answers ++ [c] ∧ y.dataMsg = x.dataMsg ∧ t.mem = s.mem ∧ t.regs = s.regs) ∧
    (∀ c, c ∈ x.answers → s.arrives (if coreHalf c.val = h then .answer n c else .farAnswer n) = true →
      ∃ t y, exec (.snoopAnswer line c) s = .next t ∧ (t.lineHome n).txn = some y ∧
        (∀ d, d ∈ y.waiting ↔ d ∈ x.waiting ∧ ¬ (if coreHalf c.val = h then d = c else d ∈ x.answers ∧ coreHalf d.val ≠ h)) ∧
        y.grantMsg = (x.grantMsg || (x.req.owns && y.waiting.isEmpty && !x.ackMsg)) ∧ { t with coh := s.coh } = s) ∧
    (∀ st, x.dataMsg = some st → s.arrives (.data n) = true → s.mem.onDie = [] →
      (s.rasHalf (s.homeHalf (64 * n) 0)).inject = none →
      (x.req.owns = false → (s.core x.req.core.val).clay = false →
        ∃ t y, exec (.data line []) s = .next t ∧ t.lstate x.req.core.val n = st ∧ (t.lineHome n).txn = some y ∧
          y.ackMsg = true ∧ y.dataMsg = none ∧ t.mem = s.mem ∧ t.regs = s.regs) ∧
      (x.req.owns = true →
        ∃ t y, exec (.data line []) s = .next t ∧ (t.lineHome n).txn = some y ∧ y.gotData = true ∧ y.dataMsg = none ∧
          y.ackMsg = x.ackMsg ∧ t.coh.held = s.coh.held ∧ { t with coh := s.coh } = s)) ∧
    (x.grantMsg = true → s.arrives (.grant n) = true → (x.needData = true → x.gotData = true) →
      (s.core x.req.core.val).wait = .none → (s.core x.req.core.val).clay = false → Sys2Proof.Claims.noTlbi s →
      ((s.core x.req.core.val).sb = [] →
        ∃ t y, exec (.grant line) s = .next t ∧ t.lstate x.req.core.val n = .d ∧ (t.lineHome n).owner = some x.req.core ∧
          (t.lineHome n).recorded = .d ∧ (t.lineHome n).sharers = [] ∧ (t.lineHome n).txn = some y ∧ y.ackMsg = true ∧
          t.mem = s.mem) ∧
      (∀ e rest, (s.core x.req.core.val).sb = e :: rest → e.pa / 64 = n → s.cutOff e.pa = none →
        ∃ t, exec (.grant line) s = .next t ∧ t.lstate x.req.core.val n = .d ∧ (t.lineHome n).owner = some x.req.core ∧
          (t.lineHome n).recorded = .d ∧ (t.core x.req.core.val).sb = rest ∧
          t.mem = (s.pokeAs (s.tagOf (s.keySlotFor (s.coreReq x.req.core.val) e.pa)) e.pa e.bytes).mem)) ∧
    (x.ackMsg = true → s.arrives (.ack n) = true →
      ∃ t, exec (.ack line) s = .next t ∧ (t.lineHome n).txn = none ∧
        (∀ c ∈ (s.lineHome n).evicted, (t.lineHome n).owner ≠ some c) ∧ t.coh.held = s.coh.held ∧ { t with coh := s.coh } = s) ∧
    (∀ c limit, c ∈ x.waiting →
      limit = 1000 * (if coreHalf c.val = h then max 1 (s.rf Reg.RAS_HOME_CTL.limit_us h)
        else max (max 1 (s.rf Reg.RAS_HOME_CTL.limit_us h)) (s.rf Reg.RAS_HOME_CTL.far_limit_us h)) →
      (x.since + limit ≤ s.strata.tick → c ≠ x.req.core →
        ∃ t, exec (.homeTimeout line (some c)) s = .next t ∧ c ∉ (t.lineHome n).holders ∧
          t.rf Reg.RAS_HOME_ADDR.addr h = n % 2 ^ Reg.RAS_HOME_ADDR.addr.width ∧
          t.rf Reg.RAS_HOME_STATUS.timeouts h =
            min (2 ^ Reg.RAS_HOME_STATUS.timeouts.width - 1) (s.rf Reg.RAS_HOME_STATUS.timeouts h + 1)) ∧
      (s.strata.tick < x.since + limit → exec (.homeTimeout line (some c)) s = .next s)) ∧
    (x.needData = true → x.dataMsg ≠ none → x.dataFrom = none →
      x.since + 1000 * max 1 (s.rf Reg.RAS_HOME_CTL.limit_us h) ≤ s.strata.tick →
      ∃ t, exec (.homeTimeout line none) s = .next t ∧ t.cores = s.cores ∧
        t.rf Reg.RAS_HOME_ADDR.addr h = n % 2 ^ Reg.RAS_HOME_ADDR.addr.width ∧
        t.rf Reg.RAS_HOME_STATUS.timeouts h =
          min (2 ^ Reg.RAS_HOME_STATUS.timeouts.width - 1) (s.rf Reg.RAS_HOME_STATUS.timeouts h + 1))

open Sys2Proof.Claims in
/-- Evictions leave a core without the line and memory as it is (R283). A device read that its home has accepted gives the
waiting load its value, and a device write performs it (R270); a read of a PCIe window that fails is POISON, and a
configuration read of no function is all ones (R434). -/
def Sys2Proof.Claims.EvictionsAndDeviceAccesses : Prop :=
  (∀ (c : CoreId) (line : BitVec 46) (s : State) (n : Nat) (dirty : Prop), n = line.toNat →
    (dirty ↔ s.lstate c.val n = .d ∨ (s.lstate c.val n = .l ∧ (s.lineHome n).stale ≠ none)) →
    ∀ cmd, ((dirty ∧ cmd = .writeBack c line) ∨
        (¬ dirty ∧ (s.lstate c.val n = .x ∨ s.lstate c.val n = .l) ∧ cmd = .cleanEvict c line)) →
      ∃ t, exec cmd s = .next t ∧ t.lstate c.val n = .i ∧
        (∀ d m, (d ≠ c.val ∨ m ≠ n) → t.lstate d m = s.lstate d m) ∧ { t with coh := s.coh } = s ∧
        ((s.lineHome n).txn = none → (s.lineHome n).owner = some c → (t.lineHome n).owner = none)) ∧
  (∀ (c : CoreId) (w : IWord) (a v : Nat) (r : Completion) (s u : State) (rest : List DevAcc), kxOp w = some .ld →
    (s.core c.val).wait = .device w [(a, 0, true)] [] → s.coh.dev = ⟨c, false, a, 8, 0⟩ :: rest → s.region a = .drs →
    (s.core c.val).stepArmed = false → (s.core c.val).watchpoints = [] → s.cutOff a = none → noTlbi s →
    u = { s with coh := { s.coh with dev := rest } } → (u.potCheck (s.coreReq c.val) .read a).ok = true →
    (u.drsLoad (s.coreReq c.val) a 8).1 = v →
    ∃ t, exec (.devRead c r) s = .next t ∧ loaded (s.core c.val) (t.core c.val) w (BitVec.ofNat 64 v) ∧ t.coh.dev = rest) ∧
  (∀ (c : CoreId) (w : IWord) (a v : Nat) (s u : State) (rest : List DevAcc), kxOp w = some .sd →
    (s.core c.val).wait = .device w [(a, v, true)] [] → s.coh.dev = ⟨c, true, a, 8, v⟩ :: rest → s.cutOff a = none →
    (s.core c.val).stepArmed = false → (s.core c.val).watchpoints = [] → noTlbi s →
    u = { s with coh := { s.coh with dev := rest } } →
    (s.region a = .drs → (u.potCheck (s.coreReq c.val) .write a).ok = true →
      (u.drsStore (s.coreReq c.val) a 8 v).core c.val = s.core c.val →
      ∃ t, exec (.devWrite c) s = .next t ∧ (t.core c.val).pc = (s.core c.val).pc + 4 ∧ (t.core c.val).wait = .none ∧
        t.regs = (u.drsStore (s.coreReq c.val) a 8 v).regs) ∧
    (∀ p, s.region a = .pcie p →
      ∃ t, exec (.devWrite c) s = .next t ∧ (t.core c.val).pc = (s.core c.val).pc + 4 ∧ (t.core c.val).wait = .none ∧
        t.regs = s.regs ∧ t.out.frames = (leBytes 8 a ++ leBytes 8 v) :: s.out.frames)) ∧
  (∀ (c : CoreId) (w : IWord) (a : Nat) (s : State) (rest : List DevAcc) (p : Nat), kxOp w = some .ld →
    (s.core c.val).wait = .device w [(a, 0, true)] [] → s.coh.dev = ⟨c, false, a, 8, 0⟩ :: rest → s.region a = .pcie p →
    (s.core c.val).stepArmed = false → (s.core c.val).watchpoints = [] → s.cutOff a = none → noTlbi s →
    (∀ x : Word, ∃ t, exec (.devRead c (.data x)) s = .next t ∧ loaded (s.core c.val) (t.core c.val) w x ∧ t.regs = s.regs) ∧
    (a < 0xD000080000000 → ∃ t, exec (.devRead c .unsupported) s = .next t ∧
      loaded (s.core c.val) (t.core c.val) w 0xFFFFFFFFFFFFFFFF) ∧
    (a < 0xD000080000000 → ∃ t x, exec (.completionTimeout c) s = .next t ∧ loaded (s.core c.val) (t.core c.val) w x) ∧
    (0xD000080000000 ≤ a → (s.core c.val).depth < 13 → (s.core c.val).clay = false →
      ∃ t f, exec (.completionTimeout c) s = .next t ∧ (t.core c.val).frames = f :: (s.core c.val).frames ∧
        f.pc = (s.core c.val).pc ∧ f.status.toNat / 2 ^ 16 % 2 ^ 16 = 0x0E ∧
        t.rf Reg.RAS_COUNT.uer (coreHalf c.val) =
          min (2 ^ Reg.RAS_COUNT.uer.width - 1) (s.rf Reg.RAS_COUNT.uer (coreHalf c.val) + 1)))

/-- The home slices, their snoops, and accesses to devices. -/
def Obligations.CoherentHomes : Prop :=
  Sys2Proof.Claims.HomesServeRequests ∧
  Sys2Proof.Claims.TransactionsProceed ∧
  Sys2Proof.Claims.EvictionsAndDeviceAccesses

/-! ## Key custody (R140, R154 to R156, R176, R492, R493) -/

namespace Sys2Proof.Claims

/-- The sender may start a custody command now: the primary's HPN_KEY_CMD, Hardpan, not busy, not SEAL (R156). -/
def keyCan (q : Requester) (h : Half) (s : State) : Prop :=
  s.mayWrite q 0x06 h.val 0x300 ∧ q.actor = .h ∧ h = s.sys.primary ∧ s.rb Reg.HPN_KEY_CMD.busy h.val = false ∧
    s.sys.mode ≠ .seal

/-- The state in which command `op` looks at its arguments: its code stands in HPN_KEY_CMD. -/
def keyAt (h : Half) (s : State) (op : Nat) : State := s.setf Reg.HPN_KEY_CMD.op h.val op

/-- HPN_KEY_CMD.last_status after the command. -/
def keyEnded (t : State) (h : Half) (st : Nat) : Prop := t.rf Reg.HPN_KEY_CMD.last_status h.val = st

/-- The object `k` is filled, of the version the handle gives, and its slot is not poisoned. -/
def keyFilled (s : State) (k : Nat) (o : KeyObj) : Prop :=
  s.argObj 0 (some true) = some (k, o) ∧ s.keyPoisoned (s.keyArg 0) = false

/-- The slot of object `k` is written, and no other byte of memory, wherever the unit may write it (R154). -/
def slotKept (s t : State) (k : Nat) : Prop :=
  ∀ a, a = s.rf Reg.HPN_STORE_BASE.base s.strP * 4096 + 4096 * k →
    s.firstBad (hwReq s.sys.primary (hStop s.strP)) .write (pagesOf a 4096) = none → s.region a ≠ .drs → s.bytesKept t a 4096

/-- The custody commands with their codes (R156). -/
def keyCmds (q : Requester) (h : Half) : List Instr :=
  [.create q h, .reserve q h, .install q h, .stage q h, .promote q h, .promoteAt q h, .destroy q h, .narrow q h, .wrap q h,
    .unwrap q h, .mekGen q h, .mekClear q h]

end Sys2Proof.Claims

open Sys2Proof.Claims in
/-- What the twelve commands of the key custody unit do when they end OK (R154 to R156, R140, R176, R493), what SEAL, a busy unit
and another writer make of them, and how a promotion at a time reaches the unit and the clusters. -/
def Obligations.CustodyCommands : Prop :=
  ∀ (q : Requester) (h : Half) (s : State),
    (keyCan q h s →
      (∀ attr, s.keyArg 0 = attr → attrOk attr = true → algRandom (attrAlg attr) = true → s.freeObjs ≠ [] →
        (attrAlg attr ≠ 14 → ∃ t k img, exec (.create q h) s = .next t ∧ k ≠ 0 ∧ s.custodyObj k = none ∧
          t.custodyObj k = some ⟨attr, 1, img, none⟩ ∧ t.rf Reg.HPN_KEY_ARG.arg h.val 0 = (2 ^ 32 + k) % 2 ^ 64 ∧
          (∀ j, j ≠ k → t.custodyObj j = s.custodyObj j) ∧ keyEnded t h 0 ∧ slotKept s t k) ∧
        (attrAlg attr = 14 → ∃ t, exec (.create q h) s = .next t ∧ t.custody.generating = some (.create attr) ∧
          t.rf Reg.HPN_KEY_CMD.busy h.val = 1 ∧ t.custody.objs = s.custody.objs ∧ t.mem = s.mem)) ∧
      (s.freeObjs ≠ [] → ∃ t k, exec (.reserve q h) s = .next t ∧ k ≠ 0 ∧ s.custodyObj k = none ∧
        t.custodyObj k = some ⟨s.keyArg 0 % 4096 * 2 ^ 26, 0, [], none⟩ ∧ t.rf Reg.HPN_KEY_ARG.arg h.val 0 = k % 2 ^ 64 ∧
        keyEnded t h 0 ∧ slotKept s t k) ∧
      (∀ k o bs u, s.argObj 0 (some false) = some (k, o) → attrOk (s.keyArg 1) = true → attrAlg (s.keyArg 1) ≠ 0 →
        (keyAt h s 3).custodyRead (s.keyArg 2) (32 * algParts (s.keyArg 1)) = (.ok bs, u) →
        ∃ t, exec (.install q h) s = .next t ∧ t.custodyObj k = some ⟨s.keyArg 1, 1, bs, none⟩ ∧ keyEnded t h 0 ∧
          slotKept u t k) ∧
      (∀ k o, keyFilled s k o →
        (∀ bs u, s.keyArg 1 ≠ 0 → (keyAt h s 4).custodyRead (s.keyArg 1) (32 * algParts o.attr) = (.ok bs, u) →
          ∃ t, exec (.stage q h) s = .next t ∧ t.custodyObj k = some { o with staged := some bs } ∧ keyEnded t h 0 ∧
            slotKept u t k) ∧
        (s.keyArg 1 = 0 → algRandom (attrAlg o.attr) = true → attrAlg o.attr ≠ 14 →
          ∃ t img, exec (.stage q h) s = .next t ∧ t.custodyObj k = some { o with staged := some img } ∧ keyEnded t h 0 ∧
            slotKept s t k) ∧
        (s.keyArg 1 = 0 → attrAlg o.attr = 14 →
          ∃ t, exec (.stage q h) s = .next t ∧ t.custody.generating = some (.stage k) ∧ t.custody.objs = s.custody.objs ∧
            t.rf Reg.HPN_KEY_CMD.busy h.val = 1 ∧ t.mem = s.mem) ∧
        (∀ img, o.staged = some img → ∃ t, exec (.promote q h) s = .next t ∧
          t.custodyObj k = some ⟨o.attr, if o.version = 0xFFFF then 1 else o.version + 1, img, none⟩ ∧ keyEnded t h 0 ∧
          slotKept s t k) ∧
        (o.staged = none → ∃ t, exec (.promote q h) s = .next t ∧ t.custody = s.custody ∧ keyEnded t h 6) ∧
        (∀ n v, s.keyArg 3 = n → n < 64 → o.staged ≠ none → s.cmpOwner n .h = true →
          s.rb Reg.STR_CMP_CTL.armed 0 n = false → strataOf (s.keyArg 1 + s.keyArg 2 % 2 ^ 32 * 2 ^ 64) = some v →
          ∃ t, exec (.promoteAt q h) s = .next t ∧ (k, v, n) ∈ t.custody.promotes ∧ t.custody.objs = s.custody.objs ∧
            t.rf Reg.STR_CMP_CTL.armed 0 n = 1 ∧ t.rf Reg.STR_CMP_CTL.action 0 n = 2 ∧ keyEnded t h 0 ∧ t.mem = s.mem) ∧
        (∃ t, exec (.narrow q h) s = .next t ∧
          t.custodyObj k = some { o with attr := o.attr - (attrUsage o.attr &&& bitsOf (s.keyArg 1) 23 16) * 2 ^ 16 } ∧
          (∀ e, ∀ p ∈ (t.eng e).k, ∀ g, p.2.tag = some g → g.handle % 2 ^ 32 ≠ k) ∧ keyEnded t h 0 ∧ slotKept s t k) ∧
        (∀ n u, n = Config.wrapLength o.image.length % 65536 + 1 → (keyAt h s 9).hardpanPages (s.keyArg 1) n = true →
          ((keyAt h s 9).drawFree.2.writeMem (keyAt h s 9).custodyReq (s.keyArg 1)
            ((List.range n).map (Config.wrapByte (keyAt h s 9).drawFree.1))) = (.data [] false, u) →
          ∃ t, exec (.wrap q h) s = .next t ∧ t.mem = u.mem ∧ t.custody.objs = u.custody.objs ∧
            t.custody.wraps = u.custody.wraps ++ [((List.range n).map (Config.wrapByte (keyAt h s 9).drawFree.1), o)] ∧
            keyEnded t h 0)) ∧
      (∀ k o, s.argObj 0 none = some (k, o) → ∃ t, exec (.destroy q h) s = .next t ∧ t.custodyObj k = none ∧
        (∀ j, j ≠ k → t.custodyObj j = s.custodyObj j) ∧ (∀ p ∈ t.custody.promotes, p.1 ≠ k) ∧
        (∀ e, ∀ p ∈ (t.eng e).k, ∀ g, p.2.tag = some g → g.handle % 2 ^ 32 ≠ k) ∧ keyEnded t h 0 ∧ slotKept s t k) ∧
      (∀ o n bs u, (keyAt h s 10).hardpanPages (s.keyArg 0) 1 = true → (keyAt h s 10).unwrapAt (s.keyArg 0) = some (o, n) →
        (keyAt h s 10).custodyRead (s.keyArg 0) n = (.ok bs, u) → u.sys = s.sys → u.freeObjs ≠ [] →
        ∃ t k, exec (.unwrap q h) s = .next t ∧ u.custodyObj k = none ∧ t.custodyObj k = some o ∧
          t.rf Reg.HPN_KEY_ARG.arg h.val 0 = (o.version * 2 ^ 32 + k) % 2 ^ 64 ∧ keyEnded t h 0 ∧ slotKept u t k) ∧
      (s.keyArg 0 < 1028 → s.keyArg 0 ≠ 1025 →
        (∃ t, exec (.mekGen q h) s = .next t ∧ SMap.get 0 t.keySlots (s.keyArg 0) = s.keyGen + 1 ∧
          (∀ j, j ≠ s.keyArg 0 → SMap.get 0 t.keySlots j = SMap.get 0 s.keySlots j) ∧ keyEnded t h 0 ∧ t.mem = s.mem) ∧
        (∃ t, exec (.mekClear q h) s = .next t ∧ SMap.get 0 t.keySlots (s.keyArg 0) = 0 ∧
          (∀ j, j ≠ s.keyArg 0 → SMap.get 0 t.keySlots j = SMap.get 0 s.keySlots j) ∧ keyEnded t h 0 ∧ t.mem = s.mem)) ∧
      (s.keyArg 0 = 1025 → ∃ t, exec (.mekGen q h) s = .next t ∧ t.keySlots = s.keySlots ∧ keyEnded t h 0x85)) ∧
    (s.mayWrite q 0x06 h.val 0x300 → ∀ c ∈ keyCmds q h,
      ((q.actor ≠ .h ∨ h ≠ s.sys.primary) → exec c s = .next s) ∧
      (q.actor = .h → h = s.sys.primary → s.rb Reg.HPN_KEY_CMD.busy h.val = true →
        ∃ t, exec c s = .next t ∧ t.custody = s.custody ∧ t.keySlots = s.keySlots ∧ keyEnded t h 0x8E ∧ s.onlyRegs t) ∧
      (q.actor = .h → h = s.sys.primary → s.rb Reg.HPN_KEY_CMD.busy h.val = false → s.sys.mode = .seal →
        ∃ t, exec c s = .next t ∧ keyEnded t h 0x87 ∧ s.onlyRegs t)) ∧
    (∀ attr, s.custody.generating = some (.create attr) → s.freeObjs ≠ [] →
      ∃ t, exec .randomGenerationDone s = .next t ∧
        if s.rsaDrawn attr = true then
          ∃ k img, s.custodyObj k = none ∧ t.custodyObj k = some ⟨attr, 1, img, none⟩ ∧ t.custody.generating = none ∧
            t.rf Reg.HPN_KEY_CMD.busy s.strP = 0 ∧ t.rf Reg.HPN_KEY_CMD.last_status s.strP = 0 ∧ slotKept s t k
        else { t with freeCtr := s.freeCtr } = s) ∧
    (∀ k o, s.custody.generating = some (.stage k) → s.custodyObj k = some o →
      ∃ t, exec .randomGenerationDone s = .next t ∧
        if s.rsaDrawn o.attr = true then
          ∃ img, t.custodyObj k = some { o with staged := some img } ∧ t.rf Reg.HPN_KEY_CMD.busy s.strP = 0 ∧ slotKept s t k
        else { t with freeCtr := s.freeCtr } = s) ∧
    (∀ (n : Fin 64) k v o, s.custody.promotes.find? (fun p => p.2.2 == n.val) = some (k, v, n.val) →
      v ≤ s.strata.time + 200 * 65536 → s.rb Reg.STR_CMP_CTL.armed 0 n.val = true → s.custodyObj k = some o →
      ∃ t, exec (.promoteBroadcast n) s = .next t ∧
        t.custody.cuts = s.custody.cuts ++ [⟨k, o.version, nextVersion o.version, v, true, List.range 16⟩] ∧
        (∀ p ∈ t.custody.promotes, p.2.2 ≠ n.val) ∧ { t with custody := s.custody } = s) ∧
    (∀ c rest o img, s.custody.cuts = c :: rest → c.custody = true → c.time ≤ s.replica (hStop s.strP) →
      s.custodyObj c.obj = some o → o.staged = some img →
      ∃ t, exec (.promoteApply 16) s = .next t ∧
        t.custodyObj c.obj = some ⟨o.attr, nextVersion o.version, img, none⟩ ∧ (∀ x ∈ t.custody.cuts, x ≠ c) ∧
        t.cores = s.cores ∧ t.engines = s.engines ∧ slotKept s t c.obj) ∧
    (∀ (u : Fin 17) c rest, u.val < 16 → s.custody.cuts = c :: rest → u.val ∈ c.clusters → c.time ≤ s.replica (clusterStop u.val) →
      ∃ t, exec (.promoteApply u) s = .next t ∧ t.custody.objs = s.custody.objs ∧ (∀ x ∈ t.custody.cuts, x ≠ c) ∧
        { t with custody := s.custody } = s)

/-! ## Hardpan (R131, R134 to R138, R144, R146 to R153, R158, R491) -/

open Sys2Proof.Claims in
/-- The commands on the Page Ownership Table: arming is for good (R136), a walk fills the checker's cache with the entries of one
line (R134), and an invalidation leaves no cached entry of its range in either half (R137). -/
def Obligations.PageTableCommands : Prop :=
  (∀ (q : Requester) (h : Half) (v : Word) (s : State), s.mayWrite q 0x07 h.val 0x100 →
    (q.actor = .h → v.toNat % 2 = 1 → ∃ t, exec (.potArm q h v) s = .next t ∧ t.rf Reg.POT_CTL.armed h.val = 1 ∧ s.onlyRegs t) ∧
    (s.rf Reg.POT_CTL.armed h.val = 1 → ∃ t, exec (.potArm q h v) s = .next t ∧ t.rf Reg.POT_CTL.armed h.val = 1)) ∧
  (∀ (q : Requester) (a : Word) (s : State) (t i h c : Nat), s.potIndex a.toNat = some (t, i) → s.checkerOf q a.toNat = (h, c) →
    s.rb Reg.POT_CTL.armed h = true →
    ∃ u, exec (.potWalk q a) s = .next u ∧ { u with potCache := s.potCache } = s ∧
      (∀ k ∈ potLine t i, SMap.get 0 (SMap.get [] u.potCache c) (t * 2 ^ 40 + k) =
        (if (s.potWalk h t k).2 = true ∨ potInvalid t (s.potWalk h t k).1 = true then w64 (2 ^ 32)
          else w64 (s.potWalk h t k).1)) ∧
      (∀ d, d ≠ c → SMap.get [] u.potCache d = SMap.get [] s.potCache d)) ∧
  (∀ (q : Requester) (h : Half) (v : Word) (s : State), s.mayWrite q 0x07 h.val 0x148 → q.actor = .h →
    (s.rb Reg.POT_INVAL.busy h.val = false →
      ∃ t, exec (.potInvalGo q h v) s = .next t ∧ t.rf Reg.POT_INVAL.busy h.val = 1 ∧
        t.rf Reg.POT_INVAL.count h.val = v.toNat % 2 ^ 20 ∧ t.rf Reg.POT_INVAL.table h.val = v.toNat / 2 ^ 20 % 4 ∧
        t.rf Reg.POT_INVAL.flush h.val = v.toNat / 2 ^ 24 % 2 ∧ t.rf Reg.POT_INVAL.all h.val = v.toNat / 2 ^ 25 % 2 ∧
        s.onlyRegs t) ∧
    (s.rb Reg.POT_INVAL.busy h.val = true →
      ∃ t, exec (.potInvalGo q h v) s = .next t ∧ t.rf Reg.POT_INVAL.last_status h.val = 0x8E ∧
        t.rf Reg.POT_INVAL.count h.val = s.rf Reg.POT_INVAL.count h.val ∧ s.onlyRegs t)) ∧
  (∀ (h : Half) (s : State), s.rb Reg.POT_INVAL.busy h.val = true →
    ∃ t, exec (.potInvalDone h) s = .next t ∧ t.rf Reg.POT_INVAL.busy h.val = 0 ∧ t.rf Reg.POT_INVAL.last_status h.val = 0 ∧
      (∀ c k, SMap.get 0 (SMap.get [] t.potCache c) k =
        if s.invalHits h.val (k / 2 ^ 40) (k % 2 ^ 40) = true then 0 else SMap.get 0 (SMap.get [] s.potCache c) k) ∧
      t.mem = s.mem ∧ t.cores = s.cores ∧
      (s.rb Reg.POT_INVAL.flush h.val = false → t.coh = s.coh ∧ t.engines = s.engines))

namespace Sys2Proof.Claims

/-- SEAL is entered with a first cause: keys, tasks and custody are gone, the Hardpan cores are in core reset, and no debug
is enabled (R158). -/
def sealedBy (s t : State) (cause : Nat) : Prop :=
  t.sys.mode = .seal ∧ t.custody = Custody.empty ∧ t.keySlots = [] ∧
    (∀ h, h < 2 → t.rf Reg.HPN_TAMPER.latch h = 1 ∧ t.rf Reg.HPN_TAMPER.first_cause h = cause ∧
      t.rf Reg.HPN_STATUS.state h = 4 ∧ t.rf Reg.HPN_DEBUG.t_noninv h = 0 ∧ t.rf Reg.HPN_DEBUG.t_inv h = 0 ∧
      t.rf Reg.HPN_DEBUG.h_noninv h = 0 ∧ t.rf Reg.HPN_DEBUG.h_inv h = 0) ∧
    (∀ e, (t.eng e).k = [] ∧ (t.eng e).modulus = none ∧ (t.eng e).task = none ∧ (t.eng e).deque = []) ∧
    (∀ l, s.isHardpanCore l = true → (t.core (s.physOf l)).run = .reset)

/-- A core is thrown out of Hardpan world through the frame that entered it, as an ERET with keep 1 returns, with a status in g1
(R144, R188, R202). -/
def unwound (s t : State) (c st : Nat) (f : Frame) (rest : List Frame) : Prop :=
  ∃ k, s.onlyCore t c k ∧ k.frames = rest ∧ k.pc = f.pc &&& ~~~3#64 ∧ k.hard = bitOf f.status.toNat 2 ∧ k.rg 1 = w64 st ∧
    k.level = (if bitOf f.status.toNat 2 = true then 3 else min 2 (f.status.toNat % 4)) ∧
    (∀ i, 2 ≤ i → i < 16 → k.rg i = f.gs.getD (i - 1) 0) ∧ (k.hard = false → k.inStub = false) ∧ k.v = (s.core c).v

/-- Both halves' instances of a field. -/
def bothAre (t : State) (f : Fld) (v : Nat) : Prop := t.rf f 0 = v ∧ t.rf f 1 = v

/-- A restart of Hardpan has begun (R153). -/
def restarted (s t : State) : Prop :=
  bothAre t Reg.HPN_STATUS.state 3 ∧ bothAre t Reg.HPN_STATUS.restarts (min 255 (s.rf Reg.HPN_STATUS.restarts 0 + 1))

end Sys2Proof.Claims

open Sys2Proof.Claims in
/-- Hardpan's presence: the first heartbeat makes it PRESENT, silence ABSENT, a restart resets its cores, an image that passes its
check starts the boot core, and a third failed restart ends automatic ones (R151 to R153, R491); a core in Hardpan world is
unwound at its limit or when Hardpan is gone (R144). -/
def Obligations.HardpanLifecycle : Prop :=
  (∀ (q : Requester) (h : Half) (v : Word) (s : State), s.mayWrite q 0x06 h.val 0x108 → q.actor = .h →
    ∀ c ∈ [Instr.heartbeat q h v, .hardpanFirstHeartbeat q h v],
      (h = s.sys.primary → s.rf Reg.HPN_HEARTBEAT.count h.val ≠ v.toNat % 2 ^ 32 →
        (s.rf Reg.HPN_STATUS.state h.val = 0 ∨ s.rf Reg.HPN_STATUS.state h.val = 3) →
        ∃ t, exec c s = .next t ∧ bothAre t Reg.HPN_STATUS.state 1 ∧ bothAre t Reg.HPN_RESTART.fails 0 ∧
          t.rf Reg.HPN_HEARTBEAT.count h.val = v.toNat % 2 ^ 32) ∧
      (s.rf Reg.HPN_STATUS.state h.val = 1 →
        ∃ t, exec c s = .next t ∧ t.rf Reg.HPN_HEARTBEAT.count h.val = v.toNat % 2 ^ 32 ∧ s.onlyRegs t ∧
          ∀ f i j, f.id ≠ Reg.HPN_HEARTBEAT.count.id → t.rf f i j = s.rf f i j)) ∧
  (∀ s : State, s.hpPresent s.strP = true → ∃ t, exec .hardpanAbsent s = .next t ∧ bothAre t Reg.HPN_STATUS.state 2) ∧
  (∀ s : State, s.rf Reg.HPN_STATUS.state s.strP = 2 → s.rb Reg.HPN_RESTART.auto s.strP = true →
    ∃ t, exec .hardpanAutoRestart s = .next t ∧ restarted s t) ∧
  (∀ (q : Requester) (h : Half) (v : Word) (s : State), s.mayWrite q 0x06 h.val 0x110 → q.actor = .m →
    s.rf Reg.HPN_STATUS.state h.val = 2 →
    ∃ t, exec (.hpnRestartGo q h v) s = .next t ∧ restarted s t ∧ t.rf Reg.HPN_RESTART.auto h.val = v.toNat % 2) ∧
  (∀ s : State, (s.rf Reg.HPN_STATUS.state s.strP = 3 ∨ (s.rf Reg.HPN_STATUS.state s.strP = 0 ∧ s.sys.mode = .tune)) →
    (s.core s.bootCore).run = .reset →
    ∃ t k, exec .hardpanImageVerified s = .next t ∧ (∀ j, t.core j = if j = s.bootCore then k else s.core j) ∧
      k.run = .running ∧ k.level = (if s.coreIsHardpan s.bootCore then 3 else 2) ∧ k.hard = s.coreIsHardpan s.bootCore ∧
      k.ie = false ∧ k.curMhz = (if s.sys.trimmed then 2600 else 2400) ∧ t.engines = s.engines ∧ t.custody = s.custody ∧
      t.sys.mode = s.sys.mode) ∧
  (∀ s : State, s.rf Reg.HPN_STATUS.state s.strP = 3 →
    ∃ t, exec .restartTimeout s = .next t ∧ bothAre t Reg.HPN_STATUS.state 2 ∧
      bothAre t Reg.HPN_RESTART.fails (min 3 (s.rf Reg.HPN_RESTART.fails s.strP + 1)) ∧
      (2 ≤ s.rf Reg.HPN_RESTART.fails s.strP → bothAre t Reg.HPN_RESTART.auto 0) ∧ s.onlyRegs t) ∧
  (∀ (c : CoreId) (s : State) (f : Frame) (rest : List Frame), (s.core c.val).hard = true → s.coreIsHardpan c.val = false →
    (s.core c.val).frames.dropWhile (fun x => x.hard) = f :: rest →
    (∃ t, exec (.forcedUnwindTimeout c) s = .next t ∧ unwound s t c.val 0x83 f rest) ∧
    ((s.core c.val).inStub = true → s.hpPresent (coreHalf c.val) = false →
      ∃ t, exec (.forcedUnwindAbsent c) s = .next t ∧ unwound s t c.val 0x80 f rest))

open Sys2Proof.Claims in
/-- Tamper, SEAL and debug (R146, R158): an armed loop or a written seal_now seals, a loop that is not armed is only recorded, one
that trips in WATCH wakes the device with the latch set, and TAMPER_AUX counts once it has held its land for 10 µs (R454); the debug enables follow their locks. -/
def Sys2Proof.Claims.TamperAndDebug : Prop :=
  (∀ (l : Fin 5) (s : State),
    (s.sys.mode ≠ .watch → s.sys.mode ≠ .off → (l.val < 4 ∨ (s.tamperAux = true ∧ s.prt.landFrom + 10000 ≤ s.strata.tick)) →
      ((s.rf Reg.HPN_TAMPER.arm 0).testBit l.val = true → s.rb Reg.HPN_TAMPER.latch 0 = false →
        ∃ t, exec (.tamperTrip l) s = .next t ∧ sealedBy s t (l.val + 1)) ∧
      ((s.rf Reg.HPN_TAMPER.arm 0).testBit l.val = false →
        ∃ t, exec (.tamperTrip l) s = .next t ∧
          bothAre t Reg.HPN_TAMPER.tripped ((s.rf Reg.HPN_TAMPER.tripped 0 ||| 2 ^ l.val) % 32) ∧ t.sys.mode = s.sys.mode ∧
          t.custody = s.custody ∧ t.keySlots = s.keySlots)) ∧
    (s.sys.mode = .watch → l.val < 4 → s.tlt.vaonArm.testBit l.val = true →
      ∃ t, exec (.tamperTrip l) s = .next t ∧ t.sys.mode = .root ∧ bothAre t Reg.HPN_TAMPER.latch 1 ∧
        bothAre t Reg.HPN_TAMPER.first_cause (l.val + 1) ∧ bothAre t Reg.PWR_WATCH.wake_cause 2)) ∧
  (∀ (q : Requester) (h : Half) (v : Word) (s : State), s.mayWrite q 0x06 h.val 0x150 → q.actor = .h → s.sys.mode ≠ .watch →
    s.sys.mode ≠ .off → s.rb Reg.HPN_TAMPER.latch 0 = false →
    ∃ t, exec (.sealNow q h v) s = .next t ∧ sealedBy s t 6 ∧ bothAre t Reg.HPN_TAMPER.arm (v.toNat % 32)) ∧
  (∀ (q : Requester) (h : Half) (v : Word) (s : State), s.mayWrite q 0x06 h.val 0x140 →
    ∀ i, i < 2 → ∃ t, exec (.hpnDebugWrite q h v) s = .next t ∧ s.onlyRegs t ∧
      (∀ p ∈ [(Reg.HPN_DEBUG.t_noninv, Reg.HPN_DEBUG.t_lock, 0, [Actor.t, .h]), (Reg.HPN_DEBUG.t_inv, Reg.HPN_DEBUG.t_lock, 1, [.t, .h]),
          (Reg.HPN_DEBUG.h_noninv, Reg.HPN_DEBUG.h_lock, 2, [.h]), (Reg.HPN_DEBUG.h_inv, Reg.HPN_DEBUG.h_lock, 3, [.h])],
        t.rf p.1 i = if s.sys.mode = .seal ∨ s.rb p.2.1 0 = true ∨ q.actor ∉ p.2.2.2 then s.rf p.1 i
          else v.toNat / 2 ^ p.2.2.1 % 2) ∧
      (q.actor = .h → v.toNat / 2 ^ 8 % 2 = 1 → t.rf Reg.HPN_DEBUG.t_lock i = 1) ∧
      (q.actor = .h → v.toNat / 2 ^ 9 % 2 = 1 → t.rf Reg.HPN_DEBUG.h_lock i = 1) ∧
      (s.rf Reg.HPN_DEBUG.t_lock i = 1 → t.rf Reg.HPN_DEBUG.t_lock i = 1) ∧
      (s.rf Reg.HPN_DEBUG.h_lock i = 1 → t.rf Reg.HPN_DEBUG.h_lock i = 1))

open Sys2Proof.Claims in
/-- Hardpan's holds on power domains (R148 to R150): a held domain is brought up and what held it down is latched, a released one
takes its latched requests, and a held domain that loses power is marked lost with its keys gone, sealing the device when
the rail is VAON or feeds a Hardpan core. -/
def Sys2Proof.Claims.PowerHolds : Prop :=
  (∀ (q : Requester) (h : Half) (d : Fin 159) (v : Word) (s : State), s.mayWrite q 0x0F h.val (0x2000 + 8 * d.val) →
    q.actor = .h → 136 ≤ d.val →
    ∃ t, exec (.pwrHoldWrite q h d v) s = .next t ∧ t.rf Reg.PWR_HOLD.hold h.val d.val = v.toNat % 2 ∧
      t.rf Reg.PWR_HOLD.floor_mhz h.val d.val = v.toNat / 2 ^ 4 % 2 ^ 12 ∧ t.cores = s.cores ∧ t.mem = s.mem ∧
      (v.toNat % 2 = 0 → s.onlyRegs t ∧ t.domState h.val d.val = s.domState h.val d.val) ∧
      (v.toNat % 2 = 1 → d.val = 144 → SMap.get false s.sys.meshSlow h.val = true → 1500 < v.toNat / 2 ^ 4 % 2 ^ 12 →
        t.rf Reg.PWR_HOLD.pend_scale h.val 144 = 1 ∧ t.rf Reg.PWR_HOLD.pend_mhz h.val 144 = 1500) ∧
      (v.toNat % 2 = 1 → d.val ≠ 144 → t.domState h.val d.val = 0 ∧
        (s.domState h.val d.val = 1 → t.rf Reg.PWR_HOLD.pend_gate h.val d.val = 1) ∧
        (2 ≤ s.domState h.val d.val → t.rf Reg.PWR_HOLD.pend_off h.val d.val = 1))) ∧
  (∀ (h : Half) (d : Fin 159) (s : State), s.held h.val d.val = false → s.hasPend h.val d.val = true →
    ∃ t, exec (.latchedRequestApply h d) s = .next t ∧ t.rf Reg.PWR_HOLD.pend_gate h.val d.val = 0 ∧
      t.rf Reg.PWR_HOLD.pend_off h.val d.val = 0 ∧ t.rf Reg.PWR_HOLD.pend_scale h.val d.val = 0 ∧
      (136 ≤ d.val → s.rb Reg.PWR_HOLD.pend_off h.val d.val = true → t.domState h.val d.val = 2) ∧
      (136 ≤ d.val → s.rb Reg.PWR_HOLD.pend_off h.val d.val = false → s.rb Reg.PWR_HOLD.pend_gate h.val d.val = true →
        t.domState h.val d.val = 1)) ∧
  (∀ (h : Half) (d : Fin 159) (rail : Fin 15) (s : State), s.held h.val d.val = true → 136 ≤ d.val →
    (rail.val ≠ 11 → s.railFeedsHardpan rail.val = false →
      ∃ t, exec (.domainPowerLoss h d rail) s = .next t ∧ t.rf Reg.PWR_HOLD.lost h.val d.val = 1 ∧ t.domState h.val d.val = 2 ∧
        t.rf Reg.PWR_HOLD.hold h.val d.val = s.rf Reg.PWR_HOLD.hold h.val d.val ∧ t.sys.mode = s.sys.mode ∧
        (∀ e, 136 ≤ d.val → d.val < 144 → e / 64 = 8 * h.val + (d.val - 136) →
          (t.eng e).k = [] ∧ (t.eng e).modulus = none ∧ (t.eng e).cache = [])) ∧
    ((rail.val = 11 ∨ s.railFeedsHardpan rail.val = true) → s.rb Reg.HPN_TAMPER.latch 0 = false → s.sys.mode ≠ .off →
      s.sys.mode ≠ .watch →
      ∃ t, exec (.domainPowerLoss h d rail) s = .next t ∧ sealedBy s t 7 ∧ t.rf Reg.PWR_HOLD.lost h.val d.val = 1))

/-- Tamper, SEAL and debug access, and the Hardpan holds on power requests. -/
def Obligations.TamperDebugAndHolds : Prop :=
  Sys2Proof.Claims.TamperAndDebug ∧
  Sys2Proof.Claims.PowerHolds

/-! ## Strata (R159 to R176) -/

namespace Sys2Proof.Claims

/-- The writer may discipline the time base (R167). -/
def strMay (q : Requester) (s : State) : Prop :=
  q.actor = .h ∨ q.actor = .m ∨ (q.actor = .t ∧ s.rb Reg.STR_CTL.t_discipline s.strP = true)

/-- The time base stands but for changes waiting and the tick of the last write. -/
def timeKept (s t : State) : Prop :=
  t.strata.time = s.strata.time ∧ t.strata.sub = s.strata.sub ∧ t.strata.tick = s.strata.tick ∧ t.strata.rate = s.strata.rate

end Sys2Proof.Claims

open Sys2Proof.Claims in
/-- Disciplining the time base (R163 to R169): the register writes, the changes they schedule 128 ticks ahead and their effect, the
1PPS edge, the loss of the source and holdover, the 10 MHz input, and a replica found out of bounds. -/
def Obligations.StrataDiscipline : Prop :=
  (∀ (q : Requester) (h : Half) (v : Word) (s : State), h = s.sys.primary → s.mayWrite q 0x08 h.val 0x100 → q.actor = .h →
    ∃ t, exec (.strCtlWrite q h v) s = .next t ∧ t.strSource = srcOf (v.toNat % 4) ∧
      t.rf Reg.STR_CTL.t_discipline h.val = v.toNat / 2 ^ 4 % 2 ∧
      t.rf Reg.STR_CTL.hold_timeout h.val = v.toNat / 2 ^ 8 % 2 ^ 8 ∧
      (s.strSource = srcOf (v.toNat % 4) → t.strState = s.strState) ∧
      (s.strSource ≠ srcOf (v.toNat % 4) → t.strState = (if srcOf (v.toNat % 4) = 0 then 0 else 1)) ∧ timeKept s t) ∧
  (∀ (q : Requester) (h : Half) (v : Word) (s : State), h = s.sys.primary → strMay q s →
    (s.mayWrite q 0x08 h.val 0x120 →
      ∃ t, exec (.strRateWrite q h v) s = .next t ∧ timeKept s t ∧
        t.rf Reg.STR_RATE.rate h.val = v.toNat % 2 ^ 32 ∧
        (¬ (s.strSource = 2 ∧ s.strState = 3) → t.strata.changes = s.strata.changes ++ [.rate (s.strata.tick + 128)
          (max (-549755814) (min 549755814 (Reg.STR_RATE.rate.signed (v.toNat % 2 ^ 32))))]) ∧
        (s.strSource = 2 → s.strState = 3 → t.strata.changes = s.strata.changes) ∧
        t.strState = (if s.strSource = 1 ∧ (s.strState = 1 ∨ s.strState = 3) then 2 else s.strState)) ∧
    (s.mayWrite q 0x08 h.val 0x128 → bitOf v.toNat 63 = true →
      ∃ t, exec (.strStepGo q h v) s = .next t ∧ timeKept s t ∧
        t.strata.changes = s.strata.changes ++ [.step (s.strata.tick + 128) (Reg.STR_STEP.step.signed (v.toNat % 2 ^ 48))] ∧
        t.strState = (if s.strSource = 1 ∧ s.strState = 3 then 2 else s.strState)) ∧
    (s.mayWrite q 0x08 h.val 0x138 → bitOf v.toNat 63 = true →
      (∀ x, strataOf (v.toNat % 2 ^ 32 * 2 ^ 64 + s.rf Reg.STR_SET_LO.value h.val) = some x →
        ∃ t, exec (.strSetGo q h v) s = .next t ∧ timeKept s t ∧ t.rf Reg.STR_STATUS.bad_write h.val = 0 ∧
          (s.strSource ≠ 2 → t.strata.changes = s.strata.changes ++ [.set (s.strata.tick + 128) x]) ∧
          (s.strSource = 2 → t.strata.changes = s.strata.changes ∧ t.strata.setAtEdge = some x)) ∧
      (strataOf (v.toNat % 2 ^ 32 * 2 ^ 64 + s.rf Reg.STR_SET_LO.value h.val) = none →
        ∃ t, exec (.strSetGo q h v) s = .next t ∧ t.strata = s.strata ∧ t.rf Reg.STR_STATUS.bad_write h.val = 1))) ∧
  (∀ (q : Requester) (h : Half) (v : Word) (s : State), h = s.sys.primary → q.actor = .t →
    s.rb Reg.STR_CTL.t_discipline h.val = false → bitOf v.toNat 63 = true →
    ∀ p ∈ [(0x120, Instr.strRateWrite q h v), (0x128, .strStepGo q h v), (0x138, .strSetGo q h v)],
      s.mayWrite q 0x08 h.val p.1 →
      ∃ t, exec p.2 s = .next t ∧ t.strata = s.strata ∧ t.rf Reg.STR_STATUS.denied h.val = 1 ∧ s.onlyRegs t) ∧
  (∀ (s : State) (c : StrataChange) (rest : List StrataChange), s.strata.changes = c :: rest → c.tick ≤ s.strata.tick →
    ∃ t, exec .scheduledChange s = .next t ∧ t.strata.changes = rest ∧ t.strata.tick = s.strata.tick ∧
      (match c with
        | .rate _ r => t.strata.rate = r ∧ t.strata.time = s.strata.time ∧
            t.rf Reg.STR_STATUS.epoch s.strP = s.rf Reg.STR_STATUS.epoch s.strP
        | .step _ d => t.strata.time = ((s.strata.time : Int) + d).toNat ∧ t.strata.rate = s.strata.rate ∧
            t.rf Reg.STR_STATUS.epoch s.strP = (s.rf Reg.STR_STATUS.epoch s.strP + 1) % 2 ^ 16
        | .set _ x => t.strata.time = x ∧ t.strata.rate = s.strata.rate ∧
            t.rf Reg.STR_STATUS.epoch s.strP = (s.rf Reg.STR_STATUS.epoch s.strP + 1) % 2 ^ 16)) ∧
  (∀ (s : State) (e : Int), e = s.edgeError →
    (s.strSource ≠ 2 → s.strata.setAtEdge = none →
      ∃ t, exec .ppsEdge s = .next t ∧ t.rf Reg.STR_STATUS.pps s.strP = 1 ∧ t.strata.lastEdge = s.strata.tick ∧ timeKept s t ∧
        t.strata.changes = s.strata.changes) ∧
    (s.strSource = 2 → s.strata.setAtEdge = none →
      ∃ t, exec .ppsEdge s = .next t ∧ t.rf Reg.STR_STATUS.pps s.strP = 1 ∧ timeKept s t ∧
        t.strata.base = (if s.rb Reg.STR_STATUS.ref10 s.strP = true then 0 else s.strata.base + (ppbRate (-e)).tdiv 16) ∧
        (max 1 (s.rf Reg.STR_PPS.step_thr_ns s.strP) ≤ e.natAbs →
          t.strata.changes = s.strata.changes ++ [.step (s.strata.tick + 128) (-e * 65536)]) ∧
        (e.natAbs < max 1 (s.rf Reg.STR_PPS.step_thr_ns s.strP) →
          t.strata.changes = s.strata.changes ++ [.rate (s.strata.tick + 128) (t.strata.base +
            ppbRate (max (-(s.rf Reg.STR_PPS.slew_ppb s.strP : Int)) (min (s.rf Reg.STR_PPS.slew_ppb s.strP : Int) (-e))))]) ∧
        (s.strState = 1 → e.natAbs ≤ 20 → 2 ≤ s.strata.goodEdges → t.strState = 2) ∧
        (s.strState = 1 → 20 < e.natAbs → t.strState = 1 ∧ t.strata.goodEdges = 0) ∧ (s.strState = 3 → t.strState = 1)) ∧
    (∀ v, s.strSource = 2 → s.strata.setAtEdge = some v →
      ∃ t, exec .ppsEdge s = .next t ∧ t.strata.setAtEdge = none ∧
        t.strata.time = ((v / (65536 * 1000000000) * (65536 * 1000000000) : Nat) +
          Reg.STR_PPS.offset_ns.signed (s.rf Reg.STR_PPS.offset_ns s.strP) * 65536 : Int).toNat)) ∧
  (∀ s : State, s.strState = 2 → s.sourceSilent = true →
    ∃ t, exec .sourceLost s = .next t ∧ t.strState = 3 ∧ t.rf Reg.STR_STATUS.holdover_s s.strP = 0 ∧
      t.strata.holdStart = s.strata.tick ∧ t.strata.rate = (if s.strSource = 2 then s.strata.base else s.rateOf) ∧
      (s.strSource = 2 → ∀ x y, StrataChange.rate x y ∉ t.strata.changes) ∧ t.strata.time = s.strata.time) ∧
  (∀ s : State, s.strState = 3 →
    s.strata.holdStart + (s.rf Reg.STR_STATUS.holdover_s s.strP + 1) * 1000000000 ≤ s.strata.tick →
    ∃ t, exec .holdoverSecond s = .next t ∧
      t.rf Reg.STR_STATUS.holdover_s s.strP = min 0xFFFF (s.rf Reg.STR_STATUS.holdover_s s.strP + 1) ∧ s.onlyRegs t) ∧
  (∀ (b : Bool) (s : State), ∃ t, exec (.ref10mChange b) s = .next t ∧ t.rf Reg.STR_STATUS.ref10 s.strP = b2n b ∧
    t.strata = (if b = true then { s.strata with base := 0 } else s.strata) ∧ t.strState = s.strState) ∧
  (∀ (h : Half) (d : Word) (s : State), (if s.sys.trimmed then 65536 else 4 * 65536) < d.toInt.natAbs →
    ∃ t, exec (.strataBroadcast h d) s = .next t ∧ t.strata = s.strata ∧
      t.rf Reg.STR_STATUS.sync_errors h.val = min 0xFFFF (s.rf Reg.STR_STATUS.sync_errors h.val + 1))

open Sys2Proof.Claims in
/-- The comparators (R173, R174): what arming answers, disarming, firing, and the next time of a periodic one; and the three steps of
an epoch action (R175). -/
def Obligations.Comparators : Prop :=
  (∀ (q : Requester) (n : Fin 64) (v : Word) (s : State) (act : Nat), s.mayWrite q 0x08 s.strP (0x1010 + 32 * n.val) →
    (q.actor = .t ∨ q.actor = .v ∨ q.actor = .h) →
    (s.cmpOwner n.val q.actor = true → v.toNat % 2 = 1 → v.toNat / 4 % 2 = 0 →
      act = (if v.toNat / 16 % 8 = 2 then s.rf Reg.STR_CMP_CTL.action 0 n.val else v.toNat / 16 % 8) →
      (s.rb Reg.STR_CMP_CTL.armed 0 n.val = true →
        ∃ t, exec (.cmpArm q n v) s = .next t ∧ t.rf Reg.STR_CMP_CTL.last_status 0 n.val = 0x8E ∧ s.onlyRegs t) ∧
      (s.rb Reg.STR_CMP_CTL.armed 0 n.val = false →
        (∀ x, strataOf (s.cmpTime n.val) = some x →
          (act = 0 ∨ (act = 2 ∧ s.cmpPromotes n.val = true) →
            ∃ t, exec (.cmpArm q n v) s = .next t ∧ t.rf Reg.STR_CMP_CTL.armed 0 n.val = 1 ∧
              t.rf Reg.STR_CMP_CTL.last_status 0 n.val = 0 ∧
              t.rf Reg.STR_CMP_CTL.late 0 n.val = (if x ≤ s.strata.time then 1 else 0) ∧
              t.strata = { s.strata with armed := SMap.set 0 s.strata.armed n.val (s.strata.tick + 1) } ∧
              { t with regs := s.regs, strata := s.strata } = s) ∧
          (act = 1 →
            (s.blkOn 0x0A (s.cmpTi n.val) = true → s.rb Reg.TIF_STATUS.resetting (s.cmpTi n.val) = false →
              (s.logRoom (s.tiHome (s.cmpTi n.val)) = true →
                ∃ t, exec (.cmpArm q n v) s = .next t ∧ t.rf Reg.STR_CMP_CTL.armed 0 n.val = 1 ∧
                  t.rf Reg.STR_CMP_CTL.copies 0 n.val = 0 ∧ t.rf Reg.STR_CMP_CTL.late_copies 0 n.val = 0 ∧
                  SMap.get Fan.empty t.fans n.val = Fan.empty) ∧
              (s.logRoom (s.tiHome (s.cmpTi n.val)) = false →
                ∃ t, exec (.cmpArm q n v) s = .next t ∧ t.rf Reg.STR_CMP_CTL.last_status 0 n.val = 0x44 ∧ s.onlyRegs t)) ∧
            (s.blkOn 0x0A (s.cmpTi n.val) = false →
              ∃ t, exec (.cmpArm q n v) s = .next t ∧ t.rf Reg.STR_CMP_CTL.last_status 0 n.val = 0x45 ∧ s.onlyRegs t))) ∧
        (strataOf (s.cmpTime n.val) = none →
          ∃ t, exec (.cmpArm q n v) s = .next t ∧ t.rf Reg.STR_CMP_CTL.last_status 0 n.val = 0x05 ∧
            t.rf Reg.STR_CMP_CTL.armed 0 n.val = s.rf Reg.STR_CMP_CTL.armed 0 n.val ∧ s.onlyRegs t))) ∧
    (s.cmpOwner n.val q.actor = true → v.toNat % 2 = 1 → v.toNat / 2 % 2 = 0 →
      ∃ t, exec (.cmpDisarm q n v) s = .next t ∧ t.rf Reg.STR_CMP_CTL.armed 0 n.val = 0 ∧
        ((SMap.get Fan.empty s.fans n.val).placed = false → SMap.get Fan.empty t.fans n.val = Fan.empty) ∧
        ((SMap.get Fan.empty s.fans n.val).placed = true → t.fans = s.fans) ∧ t.mem = s.mem) ∧
    (s.claimHeld n.val = false → v.toNat % 2 = 1 →
      ∃ t, exec (.cmpArm q n v) s = .next t ∧ t.cmpOwner n.val q.actor = true ∧ t.rf Reg.STR_CMP_CTL.enable 0 n.val = 1 ∧
        t.rf Reg.STR_CMP_CTL.denied 0 n.val = 1 ∧
        t.rf Reg.STR_CMP_CTL.armed 0 n.val = s.rf Reg.STR_CMP_CTL.armed 0 n.val ∧ s.onlyRegs t)) ∧
  (∀ (n : Fin 64) (s : State) (x : Nat), strataOf (s.cmpTime n.val) = some x → x ≤ s.strata.time →
    s.rb Reg.STR_CMP_CTL.armed 0 n.val = true → SMap.get 0 s.strata.armed n.val ≤ s.strata.tick →
    ∃ t, exec (.cmpFire n) s = .next t ∧ t.rf Reg.STR_CMP_CTL.fired 0 n.val = 1 ∧ t.strata = s.strata ∧
      (s.rf Reg.STR_CMP_CTL.action 0 n.val ≠ 0 → t.rf Reg.STR_CMP_CTL.armed 0 n.val = 0 ∧ s.onlyRegs t) ∧
      (s.rf Reg.STR_CMP_CTL.action 0 n.val = 0 → s.rf Reg.STR_CMP_ARG.arg 0 n.val % 2 ^ 32 = 0 →
        t.rf Reg.STR_CMP_CTL.armed 0 n.val = 0) ∧
      (s.rf Reg.STR_CMP_CTL.action 0 n.val = 0 → s.rf Reg.STR_CMP_ARG.arg 0 n.val % 2 ^ 32 ≠ 0 →
        t.rf Reg.STR_CMP_CTL.armed 0 n.val = s.rf Reg.STR_CMP_CTL.armed 0 n.val ∧
        ∃ y p, p = max 1000 (s.rf Reg.STR_CMP_ARG.arg 0 n.val % 2 ^ 32) * 65536 ∧ t.cmpTime n.val = strataBits y ∧
          s.strata.time < y ∧ y ≤ s.strata.time + p ∧ (y - x) % p = 0)) ∧
  (∀ (n : Fin 64) (s u : State) (x m : Nat) (bs : List Byte) (e : Entry), s.rb Reg.STR_CMP_CTL.armed 0 n.val = true →
    s.rf Reg.STR_CMP_CTL.action 0 n.val = 1 → (SMap.get Fan.empty s.fans n.val).entry = none → s.sys.mode ≠ .seal →
    strataOf (s.cmpTime n.val) = some x →
    s.readMem (s.tiReq (s.cmpTi n.val)) .read (s.rf Reg.STR_CMP_ARG.arg 0 n.val / 128 % 2 ^ 45 * 128) 128 = (.data bs false, u) →
    e = ⟨s.cmpTi n.val, 15, 0xFC0 + n.val, bs, false⟩ →
    (u.fanCheck n.val x e = (0, m) → ∃ t, exec (.fanoutValidate n) s = .next t ∧
      SMap.get Fan.empty t.fans n.val = ⟨m, some e, false, 0, []⟩ ∧
      t.rf Reg.TIF_STATUS.outstanding e.ti =
        (u.rf Reg.TIF_STATUS.outstanding e.ti + m) % 2 ^ Reg.TIF_STATUS.outstanding.width) ∧
    (∀ st, st ≠ 0 → u.fanCheck n.val x e = (st, m) → ∃ t, exec (.fanoutValidate n) s = .next t ∧
      t.rf Reg.STR_CMP_CTL.armed 0 n.val = 0 ∧ t.rf Reg.STR_CMP_CTL.last_status 0 n.val = st % 256 ∧ t.fans = u.fans)) ∧
  (∀ (n : Fin 64) (s : State) (f : Fan) (e : Entry) (x : Nat) (es : List Nat), f = SMap.get Fan.empty s.fans n.val →
    f.entry = some e → e.due = some x → f.placed = false →
    x ≤ s.strata.time + max 2 (s.rf Reg.STR_CMP_CTL.lead_us 0 n.val) * 1000 * 65536 →
    es = (s.fanEngines n.val e).take f.reserved →
    (e.gen = s.tiGen e.ti → (∀ m ∈ es, s.dequeRoom m e = true) →
      ∃ t, exec (.fanoutPlace n) s = .next t ∧ SMap.get Fan.empty t.fans n.val = ⟨0, some e, true, es.length, []⟩ ∧
        t.rf Reg.STR_CMP_CTL.copies 0 n.val = es.length % 2 ^ 10 ∧
        (∀ m, (t.eng m).deque = if m ∈ es then (s.eng m).deque ++ [e] else (s.eng m).deque) ∧ t.mem = s.mem) ∧
    (e.gen ≠ s.tiGen e.ti →
      ∃ t, exec (.fanoutPlace n) s = .next t ∧ SMap.get Fan.empty t.fans n.val = Fan.empty ∧
        t.rf Reg.STR_CMP_CTL.last_status 0 n.val = 0x45 ∧ t.engines = s.engines)) ∧
  (∀ (n : Fin 64) (s : State) (f : Fan) (e : Entry) (m : Nat), f = SMap.get Fan.empty s.fans n.val → f.entry = some e →
    f.deferred.find? (fun m => s.dequeRoom m e) = some m → e.gen = s.tiGen e.ti →
    ∃ t, exec (.fanoutDeferredPlace n) s = .next t ∧
      SMap.get Fan.empty t.fans n.val = { f with deferred := dropFirst (· == m) f.deferred } ∧
      t.rf Reg.STR_CMP_CTL.copies 0 n.val = min 1023 (s.rf Reg.STR_CMP_CTL.copies 0 n.val + 1) ∧
      (∀ j, (t.eng j).deque = if j = m then (s.eng j).deque ++ [e] else (s.eng j).deque) ∧ t.mem = s.mem)

open Sys2Proof.Claims in
/-- The ledger (R177 to R184): a copy becomes a leaf, batches close by count and by time, merge in the order of their close stamps into
one chain, and checkpoints are numbered by millisecond boundaries and signed; the archiver moves its positions forward only. -/
def Obligations.LedgerCommands : Prop :=
  (∀ (h : Half) (s u : State) (c : LedgerCopy) (rest : List LedgerCopy), s.blkOn 0x09 h.val = true →
    (s.vrv h.val).copies = c :: rest →
    s.varveWrite h.val (s.rf Reg.VRV_LEAF.base h.val * 4096 + 8 * (s.rf Reg.VRV_NEXT_LEAF.value h.val % s.leafLog h.val))
      (c.bytes.take 4 ++ leBytes 2 c.ti ++ leBytes 2 c.gen) = (true, u) →
    ∃ t, exec (.ledgerCopy h) s = .next t ∧ (t.vrv h.val).copies = rest ∧
      t.rf Reg.VRV_NEXT_LEAF.value h.val = (u.rf Reg.VRV_NEXT_LEAF.value h.val + 1) % 2 ^ 64 ∧
      ((u.vrv h.val).opened = none → (t.vrv h.val).opened =
        some ⟨u.rf Reg.VRV_NEXT_LEAF.value h.val, u.replica (hStop h.val), u.strata.tick, [sha384Bytes (0#8 :: leBytes 2 c.ti ++ c.bytes)]⟩) ∧
      (∀ o, (u.vrv h.val).opened = some o → o.tick + 1000 ≤ u.strata.tick → (t.vrv h.val).opened =
        some ⟨u.rf Reg.VRV_NEXT_LEAF.value h.val, u.replica (hStop h.val), u.strata.tick, [sha384Bytes (0#8 :: leBytes 2 c.ti ++ c.bytes)]⟩ ∧
        (t.vrv h.val).nextBatch = (u.vrv h.val).nextBatch + 1) ∧
      (∀ o, (u.vrv h.val).opened = some o → u.strata.tick < o.tick + 1000 → o.leaves.length < 255 →
        (t.vrv h.val).opened = some { o with leaves := o.leaves ++ [sha384Bytes (0#8 :: leBytes 2 c.ti ++ c.bytes)] }) ∧
      (∀ o, (u.vrv h.val).opened = some o → u.strata.tick < o.tick + 1000 → 255 ≤ o.leaves.length → (t.vrv h.val).opened = none ∧
        (t.vrv h.val).nextBatch = (u.vrv h.val).nextBatch + 1)) ∧
  (∀ (h : Half) (s : State) (o : OpenBatch), (s.vrv h.val).opened = some o → o.tick + 1000 ≤ s.strata.tick →
    s.blkOn 0x09 h.val = true →
    ∃ t b, exec (.batchTimeClose h) s = .next t ∧ (t.vrv h.val).opened = none ∧ b.half = h.val ∧
      b.number = (s.vrv h.val).nextBatch ∧ b.count = o.leaves.length ∧ b.first = o.first ∧ b.opened = o.time ∧
      b.closed = s.replica (hStop h.val) ∧ b.root = merkleRoot 9 o.leaves ∧
      b.flags = (if s.strState = 2 then 2 else 6) ∧
      (h = s.sys.primary → (t.vrv h.val).queue = (s.vrv h.val).queue ++ [b]) ∧
      (h ≠ s.sys.primary → (t.vrv h.val).outbox = (s.vrv h.val).outbox ++ [.batch b, .mark b.closed]) ∧ t.mem = s.mem) ∧
  (∀ (h : Nat) (s : State), s.secondary = some h →
    (s.blkOn 0x09 h = true → (s.vrv h).outbox = [] →
      ∃ t, exec .watermark s = .next t ∧ (t.vrv h).mark = some (s.replica (hStop h)) ∧ (t.vrv h).queue = (s.vrv h).queue) ∧
    (∀ b, (s.vrv h).outbox = [.batch b, .mark b.closed] →
      ∃ t, exec .batchReceive s = .next t ∧ (t.vrv h).queue = (s.vrv h).queue ++ [b] ∧ (t.vrv h).outbox = [] ∧
        (t.vrv h).mark = some b.closed)) ∧
  (∀ (s u : State) (h : Nat) (b : Batch) (j : Nat) (head : List Byte), s.blkOn 0x09 s.strP = true →
    s.mergePick = some (h, b) → j = s.rf Reg.VRV_NEXT_POS.value s.strP → head = b.head j (s.prevChain j) →
    s.varveWrite s.strP (s.rf Reg.VRV_LOG.base s.strP * 4096 + 256 * (j % s.batchLog s.strP))
      (head ++ sha384Bytes (2#8 :: head) ++ List.replicate 48 0) = (true, u) →
    ∃ t, exec .batchMerge s = .next t ∧ t.ledger.chain = sha384Bytes (2#8 :: head) ∧
      t.rf Reg.VRV_NEXT_POS.value s.strP = (j + 1) % 2 ^ 64 ∧ (t.vrv h).queue = (u.vrv h).queue.drop 1) ∧
  (∀ (s u w x : State) (b p a slot : Nat), b = s.strata.time / (65536 * 1000000) * (65536 * 1000000) →
    s.ledger.boundary.getD 0 ≠ b → p = s.strP → u = { s with ledger := { s.ledger with ckptNo := s.ledger.ckptNo + 1, boundary := some b } } →
    (s.hpPresent p = false → exec .checkpoint s = .next u) ∧
    (s.blkOn 0x09 p = true → s.rb Reg.VRV_CTL.ckpt_en p = true → s.hpPresent p = true → s.rf Reg.VRV_NEXT_POS.value p ≠ 0 →
      a = s.rf Reg.VRV_CKPT_LOG.base p * 4096 + 256 * ((s.ledger.ckptNo + 1) % s.ckptLog p) →
      u.varveWrite p a (u.ckptBytes (s.ledger.ckptNo + 1) b (s.rf Reg.VRV_NEXT_POS.value p - 1)) = (true, w) → w.strP = p →
      slot = w.rf Reg.TIF_SQ_STATE.tail (w.rf Reg.VRV_CKPT_CTL.ti p) 15 →
      w.varveWrite p (w.slotAddr (w.rf Reg.VRV_CKPT_CTL.ti p) 15 slot)
        (ckptDesc (w.tiGen (w.rf Reg.VRV_CKPT_CTL.ti p)) (w.rf Reg.VRV_CKPT_CTL.pool p) (w.rf Reg.VRV_CKPT_KEY.handle p) a) = (true, x) →
      ∃ t g, exec .checkpoint s = .next t ∧ t.ledger.ckptNo = x.ledger.ckptNo ∧ t.ledger.signs = x.ledger.signs ++ [g] ∧
        g.addr = a ∧ g.slot = slot ∧ g.chain = x.ledger.chain ∧ g.status = none)) ∧
  (∀ (s : State) (g : Sign) (st : Nat), s.ledger.signs.find? (fun g => g.status.isSome) = some g → g.status = some st →
    ∃ t, exec .checkpointSignDone s = .next t ∧ t.ledger.signs = dropFirst (· == g) s.ledger.signs ∧
      (st = 0 → t.ledger.signed = some (g.pos, g.chain)) ∧
      (st ≠ 0 → t.ledger.signed = s.ledger.signed ∧
        t.rf Reg.VRV_STATUS.ckpt_fail s.strP = min 0xFFFF (s.rf Reg.VRV_STATUS.ckpt_fail s.strP + 1))) ∧
  (∀ (q : Requester) (h : Half) (leaf : Bool) (v : Word) (s : State) (cons next : Fld),
    (cons, next) = (if leaf = true then (Reg.VRV_CONS_LEAF.value, Reg.VRV_NEXT_LEAF.value)
      else (Reg.VRV_CONS_POS.value, Reg.VRV_NEXT_POS.value)) →
    s.mayStore q 0x09 h.val (if leaf then 0x138 else 0x130) → (q.actor = .t ∨ q.actor = .h) →
    (s.rf cons h.val ≤ v.toNat → v.toNat ≤ s.rf next h.val →
      ∃ t, exec (.vrvConsWrite q h leaf v) s = .next t ∧ t.rf cons h.val = v.toNat) ∧
    ((v.toNat < s.rf cons h.val ∨ s.rf next h.val < v.toNat) → exec (.vrvConsWrite q h leaf v) s = .next s))

/-! ## Tenant interfaces (R293 to R310) -/

namespace Sys2Proof.Claims

/-- The Page Ownership Table admits the sender's write to the TI's page, and the sender's rights there are those of T, V or H. -/
def tifCan (q : Requester) (ti : TiId) (off : Nat) (s : State) : Prop :=
  s.mayStore q 0x0A ti.val off ∧
    (s.tifActor q ti.val = .t ∨ s.tifActor q ti.val = .v ∨ s.tifActor q ti.val = .h)

/-- The step of R305 has run: the next generation, nothing outstanding, queues and ring at 0, and not stalled. -/
def tiFresh (s t : State) (ti : Nat) : Prop :=
  t.rf Reg.TIF_GEN.gen ti = (if 0xFFFF ≤ s.rf Reg.TIF_GEN.gen ti then 1 else s.rf Reg.TIF_GEN.gen ti + 1) ∧
    t.rf Reg.TIF_STATUS.outstanding ti = 0 ∧ t.rf Reg.TIF_STATUS.stalled ti = 0 ∧ t.rf Reg.TIF_STATUS.resetting ti = 0 ∧
    t.rf Reg.TIF_RING_STATE.head ti = 0 ∧ t.rf Reg.TIF_RING_STATE.tail ti = 0 ∧
    (∀ n, n < 16 → t.rf Reg.TIF_SQ_STATE.fetch ti n = 0 ∧ t.rf Reg.TIF_SQ_STATE.tail ti n = 0)

end Sys2Proof.Claims

open Sys2Proof.Claims in
/-- The commands of a tenant interface: creation with its checks, removal, the frozen registers, queues and their restart, the ring's
head, and resets, plain and privileged (R295 to R306). -/
def Obligations.TenantInterfaces : Prop :=
  ∀ (q : Requester) (ti : TiId) (v : Word) (s : State),
    (tifCan q ti 0x8 s →
      (s.blkState 0x0A ti.val = 0 →
        ∃ w, exec (.tiCreate q ti) s =
            .next (if w.tiChecks ti.val = 0 then w else w.blockFault 0x0A ti.val (w.tiChecks ti.val)) ∧
          w.blkState 0x0A ti.val = 1 ∧ w.rf Reg.PFX_CTL.enable (blkKey 0x0A ti.val) = 1 ∧ tiFresh s w ti.val ∧
          w.rf Reg.PFX_STATE.generation (blkKey 0x0A ti.val) =
            (s.rf Reg.PFX_STATE.generation (blkKey 0x0A ti.val) + 1) % 2 ^ Reg.PFX_STATE.generation.width) ∧
      (s.blkState 0x0A ti.val = 0 → s.rf Reg.TIF_CFG.priv ti.val = 0 → s.rf Reg.TIF_RING.log2_size ti.val < 7 →
        ∃ t, exec (.tiCreate q ti) s = .next t ∧ t.blkState 0x0A ti.val = 4 ∧
          t.rf Reg.PFX_STATE.last_status (blkKey 0x0A ti.val) = 0x05) ∧
      (s.blkState 0x0A ti.val = 2 → s.rf Reg.TIF_CFG.priv ti.val = 0 → s.rb Reg.TIF_SHADOW.enable ti.val = false →
        ∃ t, exec (.tiRemove q ti) s = .next t ∧ t.blkState 0x0A ti.val = 3 ∧
          t.rf Reg.PFX_CTL.enable (blkKey 0x0A ti.val) = 0 ∧ tiFresh s t ti.val ∧ t.mem = s.mem) ∧
      (s.blkState 0x0A ti.val = 4 →
        ∃ t, exec (.tiRemove q ti) s = .next t ∧ t.blkState 0x0A ti.val = 3 ∧ t.mem = s.mem ∧
          t.rf Reg.TIF_GEN.gen ti.val = s.rf Reg.TIF_GEN.gen ti.val)) ∧
    (s.tiStopOk ti.val = true → s.rb Reg.PFX_STATE.restart_pending (blkKey 0x0A ti.val) = false →
      ∃ t, exec (.tiRemoveDone ti) s = .next t ∧ t.blkState 0x0A ti.val = 0) ∧
    (∀ r : Fin 3, s.mayStore q 0x0A ti.val (0x100 + 8 * r.val) →
      (s.tifActor q ti.val = .m → r.val ≠ 0 → exec (.tifConfigWrite q ti r v) s = .next s) ∧
      (tifCan q ti (0x100 + 8 * r.val) s ∨ (s.tifActor q ti.val = .m ∧ r.val = 0) → s.blkState 0x0A ti.val ≠ 0 →
        ∃ t, exec (.tifConfigWrite q ti r v) s = .next t ∧ t.rf Reg.TIF_STATUS.denied ti.val = 1 ∧ s.onlyRegs t ∧
          ∀ f i j, f.id ≠ Reg.TIF_STATUS.denied.id → t.rf f i j = s.rf f i j) ∧
      (s.blkState 0x0A ti.val = 0 → q.actor = .h →
        ∃ t, exec (.tifConfigWrite q ti r v) s = .next t ∧ t.rf Reg.TIF_STATUS.denied ti.val = 0 ∧ s.onlyRegs t ∧
          (r.val = 0 → t.rf Reg.TIF_CFG.home ti.val = v.toNat % 2 ∧ t.rf Reg.TIF_CFG.quota_lock ti.val = v.toNat / 2 ^ 3 % 2 ∧
            t.rf Reg.TIF_CFG.tenant ti.val = v.toNat / 2 ^ 16 % 2 ^ 12 ∧
            (v.toNat / 2 % 4 ≤ 1 → t.rf Reg.TIF_CFG.priv ti.val = v.toNat / 2 % 4)) ∧
          (r.val = 1 → t.rf Reg.TIF_RING.log2_size ti.val = v.toNat % 2 ^ 5 ∧
            t.rf Reg.TIF_RING.base ti.val = v.toNat / 2 ^ 12 % 2 ^ 40) ∧
          (r.val = 2 → t.rf Reg.TIF_SHADOW.enable ti.val = v.toNat % 2 ∧
            t.rf Reg.TIF_SHADOW.addr ti.val = v.toNat / 2 ^ 6 % 2 ^ 46))) ∧
    (∀ n : Fin 16, tifCan q ti (0x200 + 8 * n.val) s →
      (s.rb Reg.TIF_SQ.enable ti.val n.val = true →
        ∃ t, exec (.tifSqWrite q ti n v) s = .next t ∧ t.rf Reg.TIF_SQ.enable ti.val n.val = v.toNat % 2 ∧
          t.rf Reg.TIF_SQ.log2_size ti.val n.val = s.rf Reg.TIF_SQ.log2_size ti.val n.val ∧
          t.rf Reg.TIF_SQ.base ti.val n.val = s.rf Reg.TIF_SQ.base ti.val n.val ∧ s.onlyRegs t ∧
          t.rf Reg.TIF_STATUS.denied ti.val = (if v.toNat / 2 % 2 ^ 4 = s.rf Reg.TIF_SQ.log2_size ti.val n.val ∧
            v.toNat / 2 ^ 12 % 2 ^ 40 = s.rf Reg.TIF_SQ.base ti.val n.val then 0 else 1)) ∧
      (s.rb Reg.TIF_SQ.enable ti.val n.val = false →
        ∃ t, exec (.tifSqWrite q ti n v) s = .next t ∧ t.rf Reg.TIF_SQ.log2_size ti.val n.val = v.toNat / 2 % 2 ^ 4 ∧
          t.rf Reg.TIF_SQ.base ti.val n.val = v.toNat / 2 ^ 12 % 2 ^ 40 ∧
          (s.blkState 0x0A ti.val = 0 → t.rf Reg.TIF_SQ.enable ti.val n.val = v.toNat % 2 ∧ s.onlyRegs t))) ∧
    (∀ n : Fin 16, tifCan q ti (0x280 + 8 * n.val) s →
      ∃ t, exec (.queueRestart q ti n) s = .next t ∧ s.onlyRegs t ∧
        t.rf Reg.TIF_SQ_STATE.status ti.val n.val =
          if s.rf Reg.TIF_SQ_STATE.status ti.val n.val = 0x42 ∨ s.rf Reg.TIF_SQ_STATE.status ti.val n.val = 0x02 then 0
          else s.rf Reg.TIF_SQ_STATE.status ti.val n.val) ∧
    (s.mayStore q 0x0A ti.val 0x1080 → q.actor = .m → ti.val ≠ s.sys.tilthTi → exec (.tifRingHeadWrite q ti v) s = .next s) ∧
    (s.mayStore q 0x0A ti.val 0x1080 → (q.actor ≠ .m ∨ ti.val = s.sys.tilthTi) →
      (headOk (s.rf Reg.TIF_RING_STATE.head ti.val) (s.rf Reg.TIF_RING_STATE.tail ti.val) (v.toNat % 2 ^ 32) = true →
        ∃ t, exec (.tifRingHeadWrite q ti v) s = .next t ∧ t.rf Reg.TIF_RING_STATE.head ti.val = v.toNat % 2 ^ 32 ∧
          (s.rb Reg.TIF_STATUS.stalled ti.val = true → v.toNat % 2 ^ 32 ≠ s.rf Reg.TIF_RING_STATE.head ti.val →
            t.rf Reg.TIF_STATUS.stalled ti.val = 0)) ∧
      (headOk (s.rf Reg.TIF_RING_STATE.head ti.val) (s.rf Reg.TIF_RING_STATE.tail ti.val) (v.toNat % 2 ^ 32) = false →
        ∃ t, exec (.tifRingHeadWrite q ti v) s = .next t ∧ s.onlyRegs t ∧
          t.rf Reg.TIF_RING_STATE.head ti.val = s.rf Reg.TIF_RING_STATE.head ti.val ∧
          t.rf Reg.TIF_COUNT.bad_doorbell ti.val = min 0xFFFF (s.rf Reg.TIF_COUNT.bad_doorbell ti.val + 1))) ∧
    (tifCan q ti 0x130 s →
      ((s.rb Reg.TIF_STATUS.resetting ti.val = true ∨ s.blkState 0x0A ti.val ≠ 2) →
        ∃ t, exec (.tiResetGo q ti v) s = .next t ∧ t.rf Reg.TIF_STATUS.last_status ti.val = 0x8E ∧ s.onlyRegs t ∧
          t.rf Reg.TIF_GEN.gen ti.val = s.rf Reg.TIF_GEN.gen ti.val) ∧
      (s.rb Reg.TIF_STATUS.resetting ti.val = false → s.blkState 0x0A ti.val = 2 → s.rf Reg.TIF_CFG.priv ti.val = 0 →
        ∃ t, exec (.tiResetGo q ti v) s = .next t ∧ tiFresh s t ti.val ∧ t.cores = s.cores) ∧
      (s.rb Reg.TIF_STATUS.resetting ti.val = false → s.blkState 0x0A ti.val = 2 → s.rf Reg.TIF_CFG.priv ti.val ≠ 0 →
        ∃ t, exec (.tiResetGo q ti v) s = .next t ∧ t.rf Reg.TIF_GEN.gen ti.val = s.rf Reg.TIF_GEN.gen ti.val ∧
          (s.rb Reg.TIF_SHADOW.enable ti.val = false → t.rf Reg.TIF_STATUS.resetting ti.val = 1) ∧
          (v.toNat / 2 ^ 17 % 2 = 0 → ∀ e, ∀ x ∈ (t.eng e).deque, x.ti = ti.val → x.gen ≠ s.tiGen ti.val))) ∧
    (s.rb Reg.TIF_STATUS.resetting ti.val = true →
      (s.outstanding ti.val = 0 → ∃ t, exec (.privilegedResetDone ti) s = .next t ∧ tiFresh s t ti.val) ∧
      ((s.ti ti.val).draining = true →
        ∃ t, exec (.drainTimeout ti) s = .next t ∧ t.rf Reg.TIF_GEN.gen ti.val = s.rf Reg.TIF_GEN.gen ti.val ∧
          ∀ e, ∀ x ∈ (t.eng e).deque, x.ti = ti.val → x.gen ≠ s.tiGen ti.val))

/-! ## The Event Hub (R311 to R327) -/

namespace Sys2Proof.Claims

/-- The secure bit that the write of `v` would leave: H alone changes it, of IDs from 0x400 (R312). -/
def srcSecure (s : State) (a : Actor) (h id v : Nat) : Bool :=
  if a = .h ∧ 0x400 ≤ id then v.testBit 1 else s.rb Reg.EVH_SRC.secure h id

/-- R313: the write of `v` to EVH_SRC[id] of half `h` is ignored: it comes from T or V and the source is secure; it would leave a
Topsoil source targeting a Hardpan core; an own-half ID would target the other half; a secure source would target a Topsoil core
with level or mode; H would change secure while the ID is active; or H would give one of 0x300 to 0x3FF a mode. -/
def srcIgnored (s : State) (a : Actor) (h id v : Nat) : Prop :=
  ((a = .t ∨ a = .v) ∧ s.rb Reg.EVH_SRC.secure h id = true) ∨
  (¬ (0x200 ≤ id ∧ id < 0x400) ∧ srcSecure s a h id v = false ∧ s.isHardpanCore (v / 2 ^ 16 % 2 ^ 8) = true) ∨
  (id < 0x200 ∧ v / 2 ^ 16 % 2 ^ 8 / 128 ≠ h) ∨
  (¬ (0x200 ≤ id ∧ id < 0x400) ∧ srcSecure s a h id v = true ∧ s.isHardpanCore (v / 2 ^ 16 % 2 ^ 8) = false ∧
    (v / 2 ^ 2 % 2 ≠ 0 ∨ v / 2 ^ 3 % 2 ≠ 0)) ∨
  (a = .h ∧ srcSecure s a h id v ≠ s.rb Reg.EVH_SRC.secure h id ∧ s.isActive (evKey h id 0) = true) ∨
  (a = .h ∧ 0x300 ≤ id ∧ id < 0x400 ∧ v / 2 ^ 3 % 2 ≠ 0)

end Sys2Proof.Claims

open Sys2Proof.Claims in
/-- R313: a write of EVH_SRC is ignored as a whole, and denied is set, exactly in the cases of `srcIgnored`; else it is stored and
denied clears, and one by H that changes secure clears pending. A write of EVH_SGI that names an ID in 0x200 to 0x2FF and a Hardpan
core is dropped and counted in bad_raise. -/
def Obligations.EventSourceWrites : Prop :=
  ∀ (q : Requester) (h : Half) (s : State) (v : Word), (q.actor = .t ∨ q.actor = .v ∨ q.actor = .h) →
    (∀ id : Fin 4096, s.mayWrite q 0x0B h.val (0x8000 + 8 * id.val) → id.val ≠ 0 → id.val ≠ 0xFFF →
      (srcIgnored s q.actor h.val id.val v.toNat →
        ∃ t, exec (.evhSrcWrite q h id v) s = .next t ∧ t.rf Reg.EVH_SRC.denied h.val id.val = 1 ∧ t.mem = s.mem ∧
          t.evh.pend = s.evh.pend ∧ t.evh.active = s.evh.active ∧
          ∀ f i j, f.id ≠ Reg.EVH_SRC.denied.id → t.rf f i j = s.rf f i j) ∧
      (¬ srcIgnored s q.actor h.val id.val v.toNat →
        ∃ t, exec (.evhSrcWrite q h id v) s = .next t ∧ t.mem = s.mem ∧ t.evh.active = s.evh.active ∧
          (srcSecure s q.actor h.val id.val v.toNat ≠ s.rb Reg.EVH_SRC.secure h.val id.val →
            (t.evPend (evKey h.val id.val 0)).pending = false) ∧
          ∀ i, (i = h.val ∨ (0x400 ≤ id.val ∧ i < 2)) → t.rf Reg.EVH_SRC.enable i id.val = v.toNat % 2 ∧
            t.rf Reg.EVH_SRC.level i id.val = v.toNat / 2 ^ 2 % 2 ∧ t.rf Reg.EVH_SRC.mode i id.val = v.toNat / 2 ^ 3 % 2 ∧
            t.rf Reg.EVH_SRC.priority i id.val = v.toNat / 2 ^ 8 % 2 ^ 8 ∧
            t.rf Reg.EVH_SRC.target i id.val = v.toNat / 2 ^ 16 % 2 ^ 8 ∧ t.rf Reg.EVH_SRC.denied i id.val = 0 ∧
            (i = h.val → t.rb Reg.EVH_SRC.secure i id.val = srcSecure s q.actor h.val id.val v.toNat))) ∧
    (s.mayWrite q 0x0B h.val 0x108 → 0x200 ≤ v.toNat % 2 ^ 12 → v.toNat % 2 ^ 12 < 0x300 →
      s.isHardpanCore (v.toNat / 2 ^ 16 % 2 ^ 8) = true →
      ∃ t, exec (.evhSgiWrite q h v) s = .next t ∧ t.evh = s.evh ∧ s.onlyRegs t ∧
        t.rf Reg.EVH_STAT.bad_raise h.val = min 0xFFFF (s.rf Reg.EVH_STAT.bad_raise h.val + 1))

open Sys2Proof.Claims in
/-- Raising (R311, R312, R320, R327): what a raise, a software interrupt, a withdrawal and a raise that crosses the bridge leave
pending. -/
def Obligations.EventRaising : Prop :=
  ∀ (q : Requester) (h : Half) (s : State), (q.actor = .t ∨ q.actor = .v ∨ q.actor = .h) →
    (∀ (v : Word) (id qual : Nat), s.mayWrite q 0x0B h.val 0x1000 → id = v.toNat % 2 ^ 12 → qual = v.toNat / 2 ^ 12 % 2 ^ 12 →
      v.toNat / 2 ^ 31 % 2 = 0 →
      (s.badRaise q.actor h.val id = true →
        ∃ t, exec (.evhRaiseWrite q h v) s = .next t ∧ t.evh = s.evh ∧ s.onlyRegs t ∧
          t.rf Reg.EVH_STAT.bad_raise h.val = min 0xFFFF (s.rf Reg.EVH_STAT.bad_raise h.val + 1)) ∧
      (s.badRaise q.actor h.val id = false → s.sys.lostHalf = none →
        (s.rf Reg.EVH_SRC.target h.val id / 128 = h.val → s.rb Reg.EVH_SRC.mode h.val id = false →
          ∃ t, exec (.evhRaiseWrite q h v) s = .next t ∧ { t with evh := s.evh } = s ∧
            t.evPend (evKey h.val id 0) = (if (s.evPend (evKey h.val id 0)).pending = true ∧
                (s.evPend (evKey h.val id 0)).raised = true then
                { s.evPend (evKey h.val id 0) with
                  multi := (s.evPend (evKey h.val id 0)).multi || (s.evPend (evKey h.val id 0)).qual != qual }
              else ⟨true, qual, false, h.val, true⟩)) ∧
        (s.rf Reg.EVH_SRC.target h.val id / 128 ≠ h.val →
          ∃ t, exec (.evhRaiseWrite q h v) s = .next t ∧
            t.evh.crossing = s.evh.crossing ++ [⟨h.val, id, qual, s.rf Reg.EVH_SRC.target h.val id, s.nsAt (tStop h.val), false⟩] ∧
            { t with evh := s.evh } = s))) ∧
    (∀ id : Fin 4096, s.mayWrite q 0x0B h.val 0x1000 → s.badRaise q.actor h.val id.val = false → s.sys.lostHalf = none →
      (s.rf Reg.EVH_SRC.target h.val id.val / 128 = h.val →
        ∃ t, exec (.evhWithdraw q h id) s = .next t ∧ t.evh.active = s.evh.active ∧ { t with evh := s.evh } = s ∧
          t.evPend (evKey h.val id.val 0) = (if s.levelHolds id.val = true then s.evPend (evKey h.val id.val 0) else EvPend.none)) ∧
      (s.rf Reg.EVH_SRC.target h.val id.val / 128 ≠ h.val →
        ∃ t, exec (.evhWithdraw q h id) s = .next t ∧ { t with evh := s.evh } = s ∧ t.evh.pend = s.evh.pend ∧
          t.evh.crossing = s.evh.crossing ++ [⟨h.val, id.val, 0, s.rf Reg.EVH_SRC.target h.val id.val, 0, true⟩])) ∧
    (∀ (v : Word) (id target : Nat), s.mayWrite q 0x0B h.val 0x108 → id = v.toNat % 2 ^ 12 → target = v.toNat / 2 ^ 16 % 2 ^ 8 →
      ((id < 0x200 ∨ 0x400 ≤ id ∨ (0x300 ≤ id ∧ q.actor ≠ .h) ∨
          (id < 0x300 ∧ s.isHardpanCore target = true ∧ (q.actor ≠ .h ∨ v.toNat / 2 ^ 32 % 2 = 0))) →
        ∃ t, exec (.evhSgiWrite q h v) s = .next t ∧ t.evh = s.evh ∧
          t.rf Reg.EVH_STAT.bad_raise h.val = min 0xFFFF (s.rf Reg.EVH_STAT.bad_raise h.val + 1)) ∧
      (0x200 ≤ id → id < 0x300 → v.toNat / 2 ^ 32 % 2 = 0 → s.isHardpanCore target = false → target / 128 = h.val →
        s.sys.lostHalf = none → s.rb Reg.EVH_SRC.mode h.val id = false →
        ∃ t, exec (.evhSgiWrite q h v) s = .next t ∧ (t.evPend (evKey h.val id target)).pending = true ∧
          { t with evh := s.evh } = s)) ∧
    (∀ e : Crossing, s.evh.crossing.find? (fun e => e.half == h.val) = some e → 0x400 ≤ e.id →
      (e.withdraw = false → s.sys.lostHalf = none → s.rb Reg.EVH_SRC.mode h.val e.id = false →
        ∃ t, exec (.raiseCrossing h) s = .next t ∧ (t.evPend (evKey h.val e.id e.target)).pending = true ∧
          t.evh.crossing = s.evh.crossing.erase e ∧ { t with evh := s.evh } = s) ∧
      (e.withdraw = true → s.levelHolds e.id = false →
        ∃ t, exec (.raiseCrossing h) s = .next t ∧ t.evPend (evKey h.val e.id 0) = EvPend.none ∧
          t.evh.crossing = s.evh.crossing.erase e ∧ { t with evh := s.evh } = s))

open Sys2Proof.Claims in
/-- Claiming and completing at the three levels (R317, R318, R321), the hold of both halves (R319), and the pointers of the event queues
(R323, R324). -/
def Obligations.EventClaims : Prop :=
  (∀ (q : Requester) (l : Fin 256) (v : Word) (s : State),
    ∀ p ∈ [(0, 0x10000 + 0x1000 * (l.val % 128), 0x10008 + 0x1000 * (l.val % 128), Instr.evhClaimK q l, Instr.evhEoiK q l v),
        (1, 0x10010 + 0x1000 * (l.val % 128), 0x10018 + 0x1000 * (l.val % 128), .evhClaimV q l, .evhEoiV q l v),
        (2, 0x4000 + 0x40 * (l.val % 128), 0x4008 + 0x40 * (l.val % 128), .evhSecClaim q l, .evhSecEoi q l v)],
      (s.mayRead q 0x0B (l.val / 128) p.2.1 →
        (16 ≤ (s.activeOf l.val p.1).length →
          ∃ t, exec p.2.2.2.1 s = .next t ∧ t.out.value = 0xFFF ∧ { t with out := s.out } = s) ∧
        ((s.activeOf l.val p.1).length < 16 →
          (s.candidate l.val p.1 = none →
            ∃ t, exec p.2.2.2.1 s = .next t ∧ { t with out := s.out } = s ∧
              t.out.value = if SMap.get false s.evh.signalled (l.val * 3 + p.1) = true then 0xFFF else 0) ∧
          (∀ key, s.candidate l.val p.1 = some key →
            ∃ t, exec p.2.2.2.1 s = .next t ∧ t.evh.active = ⟨key, l.val, p.1, s.keyPrio key⟩ :: s.evh.active ∧
              t.out.value = key % 4096 + (s.evPend key).qual % 4096 * 2 ^ 12 + b2n (s.evPend key).multi * 2 ^ 24 +
                (s.evPend key).half % 2 * 2 ^ 25 ∧
              SMap.get false t.evh.signalled (l.val * 3 + p.1) = false ∧
              (s.levelHolds (key % 4096) = false → (t.evPend key).pending = false) ∧
              (s.levelHolds (key % 4096) = true →
                t.evPend key = { s.evPend key with qual := 0, multi := false, raised := false }) ∧
              { t with evh := s.evh, out := s.out } = s))) ∧
      (s.mayWrite q 0x0B (l.val / 128) p.2.2.1 → (q.actor = .h ∨ (q.actor = .v ∧ p.1 < 2) ∨ (q.actor = .t ∧ p.1 = 0)) →
        (∀ a, (s.activeOf l.val p.1).find? (fun a => keyId a.key == v.toNat % 4096) = some a →
          ∃ t, exec p.2.2.2.2 s = .next t ∧ t.evh.active = s.evh.active.erase a ∧ { t with evh := s.evh } = s) ∧
        ((s.activeOf l.val p.1).find? (fun a => keyId a.key == v.toNat % 4096) = none →
          ∃ t, exec p.2.2.2.2 s = .next t ∧ t.evh = s.evh ∧
            t.rf Reg.EVH_STAT.bad_eoi (l.val / 128) = min 0xFFFF (s.rf Reg.EVH_STAT.bad_eoi (l.val / 128) + 1)))) ∧
  (∀ (q : Requester) (h : Half) (v : Word) (s : State), s.mayWrite q 0x0B h.val 0x100 → q.actor ≠ .io →
    ∃ t, exec (.evhHoldWrite q h v) s = .next t ∧ t.rf Reg.EVH_HOLD.hold 0 = v.toNat % 2 ∧
      t.rf Reg.EVH_HOLD.hold 1 = v.toNat % 2 ∧ t.evh.pend = s.evh.pend ∧ t.evh.active = s.evh.active ∧ t.mem = s.mem) ∧
  (∀ (q : Requester) (h : Half) (ti : TiId) (v : Word) (s : State), (q.actor = .t ∨ q.actor = .v ∨ q.actor = .h) →
    (s.mayWrite q 0x0B h.val (0x90000 + 16 * ti.val) →
      ∃ t, exec (.evhTiqCfgWrite q h ti v) s = .next t ∧ t.rf Reg.EVH_TIQ_CFG.log2_size h.val ti.val = v.toNat % 2 ^ 5 ∧
        t.rf Reg.EVH_TIQ_CFG.base h.val ti.val = v.toNat / 2 ^ 12 % 2 ^ 40 ∧ t.rf Reg.EVH_TIQ_PTR.head h.val ti.val = 0 ∧
        t.rf Reg.EVH_TIQ_PTR.tail h.val ti.val = 0 ∧ t.mem = s.mem) ∧
    (s.mayWrite q 0x0B h.val (0x90008 + 16 * ti.val) →
      (headOk (s.rf Reg.EVH_TIQ_PTR.head h.val ti.val) (s.rf Reg.EVH_TIQ_PTR.tail h.val ti.val) (v.toNat % 2 ^ 32) = true →
        ∃ t, exec (.evhTiqHeadWrite q h ti v) s = .next t ∧ t.rf Reg.EVH_TIQ_PTR.head h.val ti.val = v.toNat % 2 ^ 32 ∧
          t.rf Reg.EVH_TIQ_PTR.tail h.val ti.val = s.rf Reg.EVH_TIQ_PTR.tail h.val ti.val ∧ t.mem = s.mem) ∧
      (headOk (s.rf Reg.EVH_TIQ_PTR.head h.val ti.val) (s.rf Reg.EVH_TIQ_PTR.tail h.val ti.val) (v.toNat % 2 ^ 32) = false →
        exec (.evhTiqHeadWrite q h ti v) s = .next s))) ∧
  (∀ (q : Requester) (l : Fin 256) (v : Word) (s : State) (h k : Nat), (q.actor = .t ∨ q.actor = .v ∨ q.actor = .h) →
    h = l.val / 128 → k = l.val % 128 → s.mayWrite q 0x0B h (0x10048 + 0x1000 * k) →
    (headOk (s.rf Reg.EVH_EQ_PTR.head h k) (s.rf Reg.EVH_EQ_PTR.tail h k) (v.toNat % 2 ^ 32) = true →
      ∃ t, exec (.evhEqHeadWrite q l v) s = .next t ∧ t.rf Reg.EVH_EQ_PTR.head h k = v.toNat % 2 ^ 32 ∧
        t.rf Reg.EVH_EQ_PTR.tail h k = s.rf Reg.EVH_EQ_PTR.tail h k ∧ t.mem = s.mem) ∧
    (headOk (s.rf Reg.EVH_EQ_PTR.head h k) (s.rf Reg.EVH_EQ_PTR.tail h k) (v.toNat % 2 ^ 32) = false →
      exec (.evhEqHeadWrite q l v) s = .next s))

/-! ## Kaolin (R328 to R344) -/

namespace Sys2Proof.Claims

/-- The next fetched job of the half starts: the unit is ON with a free pipe, the channel in rotation is bound as it was, and
its oldest job has the command's op. -/
def kaoStarts (s : State) (h c : Nat) (op : Bool) (i : Nat) (d : List Byte) (rest : List (Nat × List Byte)) : Prop :=
  s.blkOn 0x0C h = true ∧ s.holding = false ∧ s.kaoBusy h < 16 ∧ s.kaoNext h = some c ∧ (s.kchan h c).fetched = (i, d) :: rest ∧
    s.kaoTiOk h c = true ∧ (s.rb Reg.TIF_STATUS.resetting (s.kaoTi h c) = false ∨ (s.ti (s.kaoTi h c)).draining = true) ∧
    ((d.getD 0 0).toNat == 1) = op

/-- The unit when the job has left the queue, its restored slot empty. -/
def kaoTaken (s : State) (h c : Nat) (d : List Byte) (rest : List (Nat × List Byte)) : State :=
  let u := (s.updKao h fun k => { k with rotor := c }).updKchan h c fun k => { k with fetched := rest }
  if jobFlag d 3 then u.setKslot h (jobSlot d) none else u

end Sys2Proof.Claims

open Sys2Proof.Claims in
/-- Kaolin's channels and jobs (R328 to R344): binding with its checks, unbinding, doorbells, restarts and fetches; a job's run through
its codec, its result fields and its done word; slots, and a channel whose TI has changed. -/
def Obligations.KaolinCommands : Prop :=
  (∀ (q : Requester) (h : Half) (c : Fin 64) (v : Word) (s : State), q.actor ≠ .io →
    (s.mayWrite q 0x0C h.val (0x400 + 32 * c.val) →
      (s.rb Reg.KAO_CHAN_CFG.enable h.val c.val = true →
        (∃ t, exec (.channelBind q h c v) s = .next t ∧ t.rf Reg.KAO_CHAN_STATE.denied h.val c.val = 1 ∧ s.onlyRegs t ∧
          t.rf Reg.KAO_CHAN_CFG.base h.val c.val = s.rf Reg.KAO_CHAN_CFG.base h.val c.val) ∧
        (∃ t, exec (.channelUnbind q h c) s = .next t ∧ t.rf Reg.KAO_CHAN_CFG.enable h.val c.val = 0 ∧
          (t.kchan h.val c.val).fetched = [] ∧ (t.kchan h.val c.val).stream = none ∧
          (t.kchan h.val c.val).job = (s.kchan h.val c.val).job ∧ t.mem = s.mem)) ∧
      (s.rb Reg.KAO_CHAN_CFG.enable h.val c.val = false →
        ((v.toNat / 2 % 16 < 5 ∨ 12 < v.toNat / 2 % 16) →
          ∃ t, exec (.channelBind q h c v) s = .next t ∧ t.rf Reg.KAO_CHAN_STATE.status h.val c.val = 0x05 ∧ s.onlyRegs t) ∧
        (5 ≤ v.toNat / 2 % 16 → v.toNat / 2 % 16 ≤ 12 →
          ((s.blkOn 0x0A (s.kaoTi h.val c.val) = false ∨ s.tiHome (s.kaoTi h.val c.val) ≠ h.val) →
            ∃ t, exec (.channelBind q h c v) s = .next t ∧ t.rf Reg.KAO_CHAN_STATE.status h.val c.val = 0x45 ∧ s.onlyRegs t) ∧
          (s.blkOn 0x0A (s.kaoTi h.val c.val) = true → s.tiHome (s.kaoTi h.val c.val) = h.val →
            (s.mayUse q.actor (s.kaoTi h.val c.val) = false →
              ∃ t, exec (.channelBind q h c v) s = .next t ∧ t.rf Reg.KAO_CHAN_STATE.status h.val c.val = 0x85 ∧ s.onlyRegs t) ∧
            (s.mayUse q.actor (s.kaoTi h.val c.val) = true →
              ∃ t, exec (.channelBind q h c v) s = .next t ∧ t.rf Reg.KAO_CHAN_CFG.enable h.val c.val = 1 ∧
                t.rf Reg.KAO_CHAN_CFG.log2_size h.val c.val = v.toNat / 2 % 16 ∧
                t.rf Reg.KAO_CHAN_CFG.base h.val c.val = v.toNat / 2 ^ 12 % 2 ^ 40 ∧
                t.rf Reg.KAO_CHAN_BIND.gen h.val c.val = s.tiGen (s.kaoTi h.val c.val) % 2 ^ 16 ∧
                t.rf Reg.KAO_CHAN_STATE.status h.val c.val = 0 ∧ t.rf Reg.KAO_CHAN_STATE.fetch h.val c.val = 0 ∧
                t.rf Reg.KAO_CHAN_STATE.tail h.val c.val = 0 ∧ (t.kchan h.val c.val).fetched = [] ∧ t.mem = s.mem))))) ∧
    (s.mayWrite q 0x0C h.val (0x10000 + 0x1000 * c.val) →
      (s.rb Reg.KAO_CHAN_CFG.enable h.val c.val = true → v.toNat % 4096 < 2 ^ s.rf Reg.KAO_CHAN_CFG.log2_size h.val c.val →
        ∃ t, exec (.kaolinDoorbell q h c v) s = .next t ∧ t.rf Reg.KAO_CHAN_STATE.tail h.val c.val = v.toNat % 4096 ∧ s.onlyRegs t) ∧
      ((s.rb Reg.KAO_CHAN_CFG.enable h.val c.val = false ∨ 2 ^ s.rf Reg.KAO_CHAN_CFG.log2_size h.val c.val ≤ v.toNat % 4096) →
        ∃ t, exec (.kaolinDoorbell q h c v) s = .next t ∧ s.onlyRegs t ∧
          t.rf Reg.KAO_STAT.bad_doorbell h.val = min 0xFF (s.rf Reg.KAO_STAT.bad_doorbell h.val + 1))) ∧
    (s.mayWrite q 0x0C h.val (0x410 + 32 * c.val) →
      ((s.kchan h.val c.val).stopped = true →
        ∃ t, exec (.channelRestart q h c) s = .next t ∧ (t.kchan h.val c.val).stopped = false ∧
          t.rf Reg.KAO_CHAN_STATE.status h.val c.val = 0 ∧ (t.kchan h.val c.val).fetched = (s.kchan h.val c.val).fetched) ∧
      ((s.kchan h.val c.val).stopped = false → exec (.channelRestart q h c) s = .next s))) ∧
  (∀ (h : Half) (c : Fin 64) (s u : State) (i : Nat) (bs : List Byte) (p : Bool), s.blkOn 0x0C h.val = true →
    s.rb Reg.KAO_CHAN_CFG.enable h.val c.val = true → (s.kchan h.val c.val).stopped = false →
    (s.kchan h.val c.val).fetched.length < 4 → s.kaoTiOk h.val c.val = true →
    s.rb Reg.TIF_STATUS.resetting (s.kaoTi h.val c.val) = false → i = s.rf Reg.KAO_CHAN_STATE.fetch h.val c.val →
    i ≠ s.rf Reg.KAO_CHAN_STATE.tail h.val c.val →
    s.readMem (s.kaoReq h.val c.val) .read (s.rf Reg.KAO_CHAN_CFG.base h.val c.val * 4096 + 64 * i) 64 = (.data bs p, u) →
    ∃ t, exec (.kaolinFetch h c) s = .next t ∧
      (p = false → (t.kchan h.val c.val).fetched = (u.kchan h.val c.val).fetched ++ [(i, bs)] ∧
        t.rf Reg.KAO_CHAN_STATE.fetch h.val c.val = (i + 1) % 2 ^ u.rf Reg.KAO_CHAN_CFG.log2_size h.val c.val % 4096 ∧ t.mem = u.mem) ∧
      (p = true → (t.kchan h.val c.val).stopped = true ∧ t.rf Reg.KAO_CHAN_STATE.status h.val c.val = 0x02)) ∧
  (∀ (h : Half) (s : State) (c i : Nat) (d : List Byte) (rest : List (Nat × List Byte)),
    ∀ p ∈ [(false, exec (.compress h) s), (true, exec (.decompress h) s)], kaoStarts s h.val c p.1 i d rest →
      (∀ st x, ((s.updKao h.val fun k => { k with rotor := c }).updKchan h.val c fun k => { k with fetched := rest }).jobStream
          h.val c d = .error (st, x) →
        ∃ t, p.2 = .next t ∧ (t.kchan h.val c).job = some ⟨s.kaoBinding h.val c, i, d, st, x, 0, 0, 0, 0, false⟩ ∧
          (t.kchan h.val c).stream = none ∧ (t.kchan h.val c).fetched = rest ∧
          ((∀ b ∈ s.jobBuffers (s.kaoReq h.val c) d, b.2 = 0) → t.mem = s.mem)) ∧
      (∀ x bs stop u r w, ((s.updKao h.val fun k => { k with rotor := c }).updKchan h.val c fun k => { k with fetched := rest }).jobStream
          h.val c d = .ok x →
        State.kaoInput (s.kaoReq h.val c) (jobLe d 0x10 4 / 32 + 2) (jobLe d 8 8) (jobLe d 0x10 4) (kaoTaken s h.val c d rest) =
          (bs, stop, u) →
        r = x.run (jobFlag d 1) stop.isSome bs → w = u.kaoOutput (s.kaoReq h.val c) d r.out → w.status = 0 → r.err = 0 →
        (stop = none ∨ (r.stream.op = 1 ∧ r.stream.ended = true)) →
        (r.stream.op = 1 → jobFlag d 1 = true → r.stream.ended = true) →
        (jobFlag d 2 = true → w.s.slotHeld h.val c (jobSlot d) = true ∧ w.s.kslot h.val (jobSlot d) = none ∧
          SMap.get false (w.s.kaoOf h.val).releaseDue (jobSlot d) = false) →
        ∃ t j, p.2 = .next t ∧ (t.kchan h.val c).job = some j ∧ j.bind = w.s.kaoBinding h.val c ∧ j.index = i ∧ j.desc = d ∧ j.status = 0 ∧ j.consumed = r.used ∧
          j.produced = r.out.length ∧ j.crc = r.stream.crc ∧ j.chainUsed = w.entries ∧ j.written = false ∧ t.mem = w.s.mem ∧
          (t.kchan h.val c).stream = (if jobFlag d 2 = true ∨ jobFlag d 1 = true then none else some r.stream) ∧
          (jobFlag d 2 = true → t.kslot h.val (jobSlot d) = some r.stream))) ∧
  (∀ (h : Half) (c : Fin 64) (s u : State) (j : KaoJob), (s.kchan h.val c.val).job = some j →
    (j.written = false →
      s.writeMem (s.jobReq h.val j) (j.bind.base * 4096 + 64 * j.index + 0x28)
        (leBytes 4 j.consumed ++ leBytes 4 j.produced ++ leBytes 4 j.crc ++ [BitVec.ofNat 8 j.chainUsed, 0, 0, 0] ++
          leBytes 8 (strataBits (s.replica (tStop h.val)))) = (.data [] false, u) →
      ∃ t, exec (.jobResult h c) s = .next t ∧ t.mem = u.mem ∧ (t.kchan h.val c.val).job = some { j with written := true }) ∧
    (∀ a, j.written = false → (s.potCheck (s.jobReq h.val j) .write (j.bind.base * 4096 + 64 * j.index + 0x28)).ok = false →
      s.cutOff (j.bind.base * 4096 + 64 * j.index + 0x28) = none → s.region (j.bind.base * 4096 + 64 * j.index + 0x28) = .dram a →
      ∃ t, exec (.jobResult h c) s = .next t ∧ (t.kchan h.val c.val).stream = none ∧
        (t.kchan h.val c.val).job = some { j with status := 0x42, detail := 0, written := true }) ∧
    (j.written = true →
      s.writeMem (s.jobReq h.val j) (j.bind.base * 4096 + 64 * j.index)
        (j.desc.take 5 ++ [BitVec.ofNat 8 j.status, BitVec.ofNat 8 j.detail, 1]) = (.data [] false, u) →
      ∃ t, exec (.jobDoneWrite h c) s = .next t ∧ (t.kchan h.val c.val).job = none ∧
        t.rf Reg.KAO_STAT.jobs h.val = min (2 ^ 32 - 1) (u.rf Reg.KAO_STAT.jobs h.val + 1) ∧
        t.rf Reg.KAO_CHAN_STATE.running h.val c.val = 0 ∧
        (j.status = 0 → jobFlag j.desc 4 = false → t.mem = u.mem ∧ t.evh = u.evh))) ∧
  (∀ (q : Requester) (h : Half) (slot : Fin 32) (s : State), q.actor ≠ .io → s.mayWrite q 0x0C h.val (0xC00 + 8 * slot.val) →
    s.rb Reg.KAO_SLOT.enable h.val slot.val = true →
    ((s.kchan h.val (s.rf Reg.KAO_SLOT.chan h.val slot.val)).job = none →
      ∃ t, exec (.slotRelease q h slot) s = .next t ∧ t.rf Reg.KAO_SLOT.enable h.val slot.val = 0 ∧
        t.kslot h.val slot.val = none ∧ t.rf Reg.KAO_SLOT.full h.val slot.val = 0 ∧
        t.rf Reg.PRT_CLAIM.held 0 (66 + 32 * h.val + slot.val) = 0 ∧ t.mem = s.mem) ∧
    (∀ j, (s.kchan h.val (s.rf Reg.KAO_SLOT.chan h.val slot.val)).job = some j → jobSlot j.desc = slot.val →
      (jobFlag j.desc 2 = true ∨ jobFlag j.desc 3 = true) →
      ∃ t, exec (.slotRelease q h slot) s = .next t ∧ t.regs = s.regs ∧
        SMap.get false (t.kaoOf h.val).releaseDue slot.val = true ∧ t.mem = s.mem)) ∧
  (∀ (h : Half) (c : Fin 64) (s : State), s.rb Reg.KAO_CHAN_CFG.enable h.val c.val = true → s.kaoTiOk h.val c.val = false →
    ∃ t, exec (.kaolinTiChange h c) s = .next t ∧ t.rf Reg.KAO_CHAN_CFG.enable h.val c.val = 0 ∧
      t.rf Reg.KAO_CHAN_STATE.status h.val c.val = 0x45 ∧ (t.kchan h.val c.val).fetched = [] ∧
      (t.kchan h.val c.val).stream = none ∧
      (t.kchan h.val c.val).job = (s.kchan h.val c.val).job.filter fun j => s.jobTiOk j)

/-! ## DDR5 channels (R345 to R365, R391) -/

namespace Sys2Proof.Claims

/-- The physical ranks of a slot's DIMM: one or two (R346). -/
def slotRanks (d : Option Dimm) : Nat :=
  match d with
  | none => 0
  | some d => 2 ^ min 2 d.ranks - 1

/-- A channel's DIMMs can serve (R345): there is one, every one is a supported RDIMM, and they have one density. -/
def dimmsServe (ds : List Dimm) : Prop :=
  ds ≠ [] ∧ (∀ d ∈ ds, ∀ e ∈ ds, d.density = e.density) ∧
  ∀ d ∈ ds, d.rdimm = true ∧ 6400 ≤ d.speed ∧ d.width = 4 ∧ d.devices = 10 ∧ (d.density = 16 ∨ d.density = 32) ∧ d.stacked = false ∧
    (d.ranks = 1 ∨ d.ranks = 2) ∧ d.groups = 8 ∧ d.banks = 4

end Sys2Proof.Claims

open Sys2Proof.Claims in
/-- Lines, refresh and training of a channel (R351 to R361, R391): what a read answers and a write leaves, the zero fill of a block,
refreshes owed and made, the retraining of a lane, a DIMM's temperature, channel training and its helper operations. -/
def Sys2Proof.Claims.DramCommands : Prop :=
  (∀ (c : ChannelId) (ca : BitVec 38) (slot : Option (Fin 1028)) (act : Bool) (flips : List (Fin 2 × Fin 20 × BitVec 16)) (s : State)
      (a : Nat), s.blkOn 0x0D c.val = true → a = ca.toNat / 64 * 64 →
    (s.chanWaits c.val a = true → flips = [] → act = false →
      (∃ t, exec (.dramRead c ca slot act flips) s = .next t ∧ t.out = s.out ∧ t.mem = s.mem ∧
        (t.chan c.val).waiting = (s.chan c.val).waiting ++ [⟨false, a, slot.map Fin.val⟩]) ∧
      (∃ t, exec (.dramWrite c ca slot act) s = .next t ∧ t.mem = s.mem ∧
        (t.chan c.val).waiting = (s.chan c.val).waiting ++ [⟨true, a, slot.map Fin.val⟩])) ∧
    (s.chanWaits c.val a = false → s.chanFenced c.val a = false →
      (s.blockWritten c.val a = false →
        ∃ t, exec (.dramRead c ca slot act flips) s = .next t ∧ t.out.resp = List.replicate 64 0 ∧ t.out.value = 0 ∧
          t.out.status = 0 ∧ t.mem = s.mem) ∧
      (s.blockWritten c.val a = true → a < s.reserveBase c.val → s.lineGarbage c.val a = false → flips = [] → act = false →
        s.granErrs c.val a 0 = ([], false) → s.granErrs c.val a 1 = ([], false) →
        (s.lineHome (s.chanPa c.val a / 32 / 2)).stale = none → s.chanPa c.val a % 64 = 0 →
        ∃ t, exec (.dramRead c ca slot act flips) s = .next t ∧ t.mem = s.mem ∧ t.out.status = 0 ∧
          t.out.resp = (List.range 64).map (fun k => s.peekAs
            (if SMap.get false s.mem.poison (s.chanPa c.val a / 32 + k / 32) = true then 1 else s.tagOf (slot.map Fin.val))
            (s.chanPa c.val a + k)) ∧
          t.out.value = b2n (SMap.get false s.mem.poison (s.chanPa c.val a / 32)) +
            2 * b2n (SMap.get false s.mem.poison (s.chanPa c.val a / 32 + 1))) ∧
      (a < s.reserveBase c.val → (∀ g, s.persistFor c.val a g = none) →
        ∃ t, exec (.dramWrite c ca slot act) s = .next t ∧ t.granErrs c.val a 0 = ([], false) ∧
          t.granErrs c.val a 1 = ([], false) ∧ t.mem.bytes = s.mem.bytes ∧
          SMap.get false (t.chan c.val).filling (a / 4096) = !s.blockWritten c.val a ∧
          ((s.lineHome (s.chanPa c.val a / 64)).stale = none →
            t.mem.tagAt (s.chanPa c.val a) = s.tagOf (slot.map Fin.val)))) ∧
    (s.chanFenced c.val a = true → s.chanWaits c.val a = false →
      ∃ t, exec (.dramRead c ca slot act flips) s = .next t ∧ t.out.resp = List.replicate 64 0 ∧ t.out.value = 3 ∧
        t.rf Reg.RAS_COUNT.uer (c.val / 8) = min 0xFFFF (s.rf Reg.RAS_COUNT.uer (c.val / 8) + 1))) ∧
  (∀ (c : ChannelId) (cb : BitVec 26) (s : State), SMap.get false (s.chan c.val).filling cb.toNat = true →
    ∃ t, exec (.zeroFillDone c cb) s = .next t ∧
      t.rf Reg.DMC_COUNT2.zero_fills c.val = min (2 ^ 32 - 1) (s.rf Reg.DMC_COUNT2.zero_fills c.val + 1) ∧
      ((∀ r ∈ (s.chan c.val).waiting, r.ca / 4096 ≠ cb.toNat → SMap.get false (s.chan c.val).filling (r.ca / 4096) = true) →
        (∀ r, SMap.get false (s.chan c.val).refDue r = false) →
        (t.chan c.val).waiting = (s.chan c.val).waiting.filter (fun r => !(r.ca / 4096 == cb.toNat)) ∧
        ((∀ r ∈ (s.chan c.val).waiting, r.ca / 4096 ≠ cb.toNat) → SMap.get false (t.chan c.val).filling cb.toNat = false ∧
          SMap.get false (t.chan c.val).written cb.toNat = true ∧ t.mem = s.mem))) ∧
  (∀ (c : ChannelId) (r : Fin 4) (b : Bool) (s : State), s.blkOn 0x0D c.val = true →
    ((s.rankState c.val r.val = 1 ∨ s.rankState c.val r.val = 2 ∨ s.rankState c.val r.val = 3) →
      ∃ t, exec (.refreshOwed c r) s = .next t ∧ SMap.get 0 (t.chan c.val).owed r.val = min 8 (SMap.get 0 (s.chan c.val).owed r.val + 1) ∧
        (min 8 (s.rf Reg.DMC_REFRESH.postpone_max c.val) ≤ SMap.get 0 (s.chan c.val).owed r.val →
          SMap.get false (t.chan c.val).refDue r.val = true) ∧ t.mem = s.mem) ∧
    (∃ t, exec (.refab c r b) s = .next t ∧ ((s.chan c.val).waiting = [] → t.mem = s.mem) ∧
      (0 < SMap.get 0 (s.chan c.val).owed r.val → SMap.get false (t.chan c.val).refDue r.val = false) ∧ SMap.get 0 (t.chan c.val).owed r.val =
      SMap.get 0 (s.chan c.val).owed r.val - (if b = true then 1 else SMap.get 0 (s.chan c.val).owed r.val)) ∧
    (∀ moves : List (Fin 20 × Fin 3 × Fin 3),
      (s.rf Reg.DMC_RETRAIN.interval_ms c.val = 0 → exec (.retrain c r moves) s = .next s) ∧
      (s.rf Reg.DMC_RETRAIN.interval_ms c.val ≠ 0 →
        ∃ t, exec (.retrain c r moves) s = .next t ∧
          SMap.get 0 (t.chan c.val).owed r.val = SMap.get 0 (s.chan c.val).owed r.val - 1 ∧
          ((moves.map (·.1)).Nodup →
            (∀ n x y, (n, x, y) ∈ moves →
              t.rf Reg.DMC_DELAY.rd c.val n.val = min 1023 (if x.val = 1 then s.rf Reg.DMC_DELAY.rd c.val n.val + 1
                else if x.val = 2 then s.rf Reg.DMC_DELAY.rd c.val n.val - 1 else s.rf Reg.DMC_DELAY.rd c.val n.val) ∧
              t.rf Reg.DMC_DELAY.wr c.val n.val = min 1023 (if y.val = 1 then s.rf Reg.DMC_DELAY.wr c.val n.val + 1
                else if y.val = 2 then s.rf Reg.DMC_DELAY.wr c.val n.val - 1 else s.rf Reg.DMC_DELAY.wr c.val n.val)) ∧
            ∀ n : Fin 20, n ∉ moves.map (·.1) → t.rf Reg.DMC_DELAY.rd c.val n.val = s.rf Reg.DMC_DELAY.rd c.val n.val ∧
              t.rf Reg.DMC_DELAY.wr c.val n.val = s.rf Reg.DMC_DELAY.wr c.val n.val)))) ∧
  (∀ (c : ChannelId) (t0 t1 : Int) (s : State), ∃ t, exec (.dimmTempPoll c t0 t1) s = .next t ∧
    (85 < max t0 t1 → t.rf Reg.DMC_STATUS.hot c.val = 1 ∧ t.rf Reg.DMC_REFRESH.hot c.val = 1) ∧
    (max t0 t1 < 82 → t.rf Reg.DMC_STATUS.hot c.val = 0 ∧ t.rf Reg.DMC_REFRESH.hot c.val = 0) ∧
    (t.chan c.val).throttle = (if 95 ≤ max t0 t1 then 2 else if 90 ≤ max t0 t1 then 1 else 0)) ∧
  (∀ (c : ChannelId) (d0 d1 : Option Dimm) (rfm : Bool) (raa : Nat × Nat) (drfm good : Bool)
      (ds : List (Fin 20 × Fin 1024 × Fin 1024 × Fin 256)) (s : State) (p dn : Nat), s.sys.mode = .tune → s.blkState 0x0D c.val < 2 →
    p = slotRanks d0 + 4 * slotRanks d1 → dn = (if ∃ d ∈ d0.toList ++ d1.toList, d.density = 32 then 1 else 0) →
    ((¬ dimmsServe (d0.toList ++ d1.toList) ∨ (s.chan c.val).failed = true) →
      ∃ t, exec (.channelTraining c d0 d1 rfm raa drfm good ds) s = .next t ∧
        t.rf Reg.DMC_STATUS.last_status c.val = 0x0C ∧ t.blkState 0x0D c.val = s.blkState 0x0D c.val) ∧
    (dimmsServe (d0.toList ++ d1.toList) → (s.chan c.val).failed = false →
      ((((s.setf Reg.DMC_CFG.present c.val p).setf Reg.DMC_CFG.density c.val dn).assignRanks c.val).rf
        Reg.DMC_CFG.active c.val) ≠ 0 →
      ∃ t, exec (.channelTraining c d0 d1 rfm raa drfm good ds) s = .next t ∧ t.rf Reg.DMC_CFG.present c.val = p ∧
        t.rf Reg.DMC_CFG.density c.val = dn ∧ (t.chan c.val).rfmReq = rfm ∧
        (good = true → t.blkState 0x0D c.val = 1 ∧ t.rf Reg.DMC_STATUS.last_status c.val = 0) ∧
        (good = false → t.blkState 0x0D c.val = s.blkState 0x0D c.val ∧ t.rf Reg.DMC_STATUS.last_status c.val = 0x83))) ∧
  (∀ (q : Requester) (c : ChannelId) (v : Word) (s : State), s.mayStore q 0x0D c.val 0x200 →
    q.actor = .m → ∀ p ∈ [(1, Instr.writePattern q c v), (2, .readAndCompare q c v), (3, .sweepRd q c v), (4, .sweepWr q c v),
        (5, .sweepVref q c v)],
      (s.blkState 0x0D c.val < 2 → s.rb Reg.DMC_TRAIN_CTL.busy c.val = false →
        ∃ t, exec p.2 s = .next t ∧ t.rf Reg.DMC_TRAIN_CTL.busy c.val = 1 ∧ t.rf Reg.DMC_TRAIN_CTL.op c.val = p.1 ∧
          t.rf Reg.DMC_TRAIN_CTL.rank c.val = v.toNat / 2 ^ 4 % 4 ∧ (t.chan c.val).helper = p.1 ∧
          (p.1 ≠ 2 → SMap.get false (t.chan c.val).scrambled (v.toNat / 2 ^ 4 % 4) = true) ∧ t.mem = s.mem) ∧
      ((2 ≤ s.blkState 0x0D c.val ∨ s.rb Reg.DMC_TRAIN_CTL.busy c.val = true) →
        ∃ t, exec p.2 s = .next t ∧ t.rf Reg.DMC_STATUS.last_status c.val = 0x8E ∧ s.onlyRegs t)) ∧
  (∀ (c : ChannelId) (errs : List (Fin 20 × Fin 256 × Nat)) (s : State), (s.chan c.val).helper ≠ 0 →
    ∃ t, exec (.trainOpDone c errs) s = .next t ∧ (t.chan c.val).helper = 0 ∧ t.rf Reg.DMC_TRAIN_CTL.busy c.val = 0 ∧
      t.rf Reg.DMC_STATUS.last_status c.val = 0 ∧ t.mem = s.mem ∧
      (∀ n, n < 20 → errs = [] → 3 ≤ (s.chan c.val).helper → bitOf (s.rf Reg.DMC_TRAIN_CTL.lanes c.val) n = true →
        t.rf Reg.DMC_TRAIN_WIN.left c.val n = 0 ∧
        t.rf Reg.DMC_TRAIN_WIN.right c.val n = (max 1 (s.rf Reg.DMC_TRAIN_CTL.steps c.val) - 1) % 256))

open Sys2Proof.Claims in
/-- Command errors and migration (R362 to R365): replays are counted, a command error without a spare fences the rank, a migration
moves its pointer block by block and gives the rank over at the end. -/
def Sys2Proof.Claims.RankMigration : Prop :=
  (∀ (c : ChannelId) (r : Fin 4) (again long : Bool) (s : State), s.blkOn 0x0D c.val = true →
    (long = false → (again = false ∨ (s.chan c.val).replays < 4) →
      ∃ t, exec (.caParityAlert c r again long) s = .next t ∧ t.mem = s.mem ∧
        t.rf Reg.DMC_COUNT.replays c.val = min 0xFF (s.rf Reg.DMC_COUNT.replays c.val + 1) ∧
        (t.chan c.val).replays = (if again = true then (s.chan c.val).replays + 1 else 1)) ∧
    (∀ l, (long = true ∨ (again = true ∧ 4 ≤ (s.chan c.val).replays)) → (s.chan c.val).migration = none →
      s.rb Reg.DMC_MIGRATE.auto c.val = true →
      (List.range 4).find? (fun l => l < s.rf Reg.DMC_CFG.active c.val && s.mapRank c.val l == r.val) = some l →
      (∀ p, p < 4 → s.rankState c.val p ≠ 2) →
      ∃ t, exec (.caParityAlert c r again long) s = .next t ∧ (t.chan c.val).replays = 0 ∧
        SMap.get 0 (t.chan c.val).fence l = s.rankBytes c.val)) ∧
  (∀ (q : Requester) (c : ChannelId) (v : Word) (s : State), s.mayWrite q 0x0D c.val 0x400 → q.actor = .m →
    ((s.chan c.val).migration ≠ none →
      ∃ t, exec (.migrateGo q c v) s = .next t ∧ t.rf Reg.DMC_MIGRATE.status c.val = 0x8E ∧ s.onlyRegs t) ∧
    ((s.chan c.val).migration = none → v.toNat % 4 < s.rf Reg.DMC_CFG.active c.val →
      (∀ d, (List.range 4).find? (fun r => s.rankState c.val r == 2) = some d →
        ∃ t, exec (.migrateGo q c v) s = .next t ∧ (t.chan c.val).migration = some ⟨v.toNat % 4, d, 0, false⟩ ∧
          t.rf Reg.DMC_MIGRATE.active c.val = 1 ∧ t.rf Reg.DMC_STATUS.migrating c.val = 1 ∧
          t.rf Reg.DMC_MIGRATE.status c.val = 0 ∧ t.rf Reg.DMC_MIG_PTR.p c.val = 0) ∧
      ((List.range 4).find? (fun r => s.rankState c.val r == 2) = none →
        ∃ t, exec (.migrateGo q c v) s = .next t ∧ (t.chan c.val).migration = none ∧
          t.rf Reg.DMC_MIGRATE.status c.val = 0x8D))) ∧
  (∀ (c : ChannelId) (s : State) (m : Migration), (s.chan c.val).migration = some m →
    (m.ptr + 4096 < s.rankBytes c.val →
      ∃ t, exec (.migrationBlockCopy c) s = .next t ∧ (t.chan c.val).migration = some { m with ptr := m.ptr + 4096 } ∧
        t.rf Reg.DMC_MIG_PTR.p c.val = (m.ptr + 4096) / 4096 % 2 ^ 24) ∧
    (s.rankBytes c.val ≤ m.ptr + 4096 →
      ∃ t, exec (.migrationBlockCopy c) s = .next t ∧ (t.chan c.val).migration = none ∧
        t.rf Reg.DMC_MIGRATE.active c.val = 0 ∧ t.rf Reg.DMC_STATUS.migrating c.val = 0 ∧
        t.rf Reg.DMC_MIGRATE.status c.val = 0))

/-- The DRAM channels: accesses, refresh, training and the migration of a rank (R345, R351, R354, R356, R361 to R365). -/
def Obligations.DramAndRanks : Prop :=
  Sys2Proof.Claims.DramCommands ∧
  Sys2Proof.Claims.RankMigration

/-! ## RAS (R372, R376 to R386) -/

namespace Sys2Proof.Claims

/-- An applied injection (R386): fired reads 1, and armed clears unless persist is set. -/
def injectDone (s t : State) (h : Nat) (i : Inject) : Prop :=
  t.rf Reg.RAS_INJ_CTL.fired h = 1 ∧
  (i.persist = false → t.rf Reg.RAS_INJ_CTL.armed h = 0 ∧ (t.rasHalf h).inject = none) ∧
  (i.persist = true → t.rf Reg.RAS_INJ_CTL.armed h = s.rf Reg.RAS_INJ_CTL.armed h ∧
    (t.rasHalf h).inject = some { i with applied := true })

end Sys2Proof.Claims

open Sys2Proof.Claims in
/-- Error records, logs, patrols, directed passes and injection (R376 to R386). -/
def Obligations.RasCommands : Prop :=
  (∀ (h : Half) (s : State) (r : ErrRec) (rest : List ErrRec), (s.rasHalf h.val).detected = r :: rest →
    (r.cls = 0 → s.rf Reg.RAS_CTL.ce_max h.val ≤ (if (s.rasHalf h.val).ceMs = s.strata.tick / 1000000 then (s.rasHalf h.val).ceCount else 0) →
      ∃ t, exec (.errorRecordWrite h) s = .next t ∧ (t.rasHalf h.val).detected = rest ∧ t.mem = s.mem ∧
        t.rf Reg.RAS_COUNT2.suppressed h.val = min (2 ^ 32 - 1) (s.rf Reg.RAS_COUNT2.suppressed h.val + 1)) ∧
    ((r.cls = 1 ∨ r.cls = 2) → r.hardpan = false → s.recEntry h.val r = none → s.rasRoom h.val false = false →
      (s.rasHalf h.val).buffer = [] →
      ∃ t x, exec (.errorRecordWrite h) s = .next t ∧ (t.rasHalf h.val).detected = rest ∧ (t.rasHalf h.val).buffer = [x] ∧
        x.cls = r.cls ∧ x.source = r.source ∧ x.addr = r.addr ∧ t.mem = s.mem)) ∧
  (∀ (q : Requester) (h : Half) (slog : Bool) (v : Word) (s : State) (size base head tail : Fld),
    (size, base, head, tail) = (if slog = true then (Reg.RAS_SLOG.log2_entries, Reg.RAS_SLOG.base, Reg.RAS_SLOG_PTR.head, Reg.RAS_SLOG_PTR.tail)
      else (Reg.RAS_LOG.log2_entries, Reg.RAS_LOG.base, Reg.RAS_LOG_PTR.head, Reg.RAS_LOG_PTR.tail)) →
    q.actor = (if slog = true then .h else .t) → (s.rasHalf h.val).buffer = [] →
    (s.mayWrite q 0x0E h.val (if slog = true then 0x118 else 0x108) →
      ∃ t, exec (.rasLogWrite q h slog v) s = .next t ∧ t.rf size h.val = v.toNat % 2 ^ 5 ∧
        t.rf base h.val = v.toNat / 2 ^ 12 % 2 ^ 40 ∧ t.rf head h.val = 0 ∧ t.rf tail h.val = 0 ∧ t.mem = s.mem) ∧
    (s.mayWrite q 0x0E h.val (if slog = true then 0x120 else 0x110) →
      ∃ t, exec (.rasLogHeadWrite q h slog v) s = .next t ∧ t.rf tail h.val = s.rf tail h.val ∧ t.mem = s.mem ∧
        t.rf head h.val = (if (s.rf tail h.val + 2 ^ 32 - s.rf head h.val) % 2 ^ 32 < (v.toNat % 2 ^ 32 + 2 ^ 32 - s.rf head h.val) % 2 ^ 32
          then s.rf head h.val else v.toNat % 2 ^ 32))) ∧
  (∀ (c : ChannelId) (flips : List (Fin 2 × Fin 20 × BitVec 16)) (s : State) (ca : Nat),
    ca = SMap.get 0 (s.rasHalf (c.val / 8)).patrol (c.val % 8) → s.blkOn 0x0E (c.val / 8) = true → s.blkOn 0x0D c.val = true →
    s.rb Reg.RAS_PATROL.enable (c.val / 8) = true → (s.chan c.val).waiting = [] →
    (s.patrolPaced c.val = false → exec (.patrolRead c flips) s = .next s) ∧
    (s.patrolPaced c.val = true → s.blockWritten c.val ca = false → (ca / 4096 + 1) * 4096 < s.chanBytes c.val →
      ∃ t, exec (.patrolRead c flips) s = .next t ∧ t.mem = s.mem ∧
        SMap.get 0 (t.rasHalf (c.val / 8)).patrol (c.val % 8) = (ca / 4096 + 1) * 4096 ∧
        t.rf Reg.RAS_LAP.progress (c.val / 8) (c.val % 8) = (ca / 4096 + 1) * 4096 * 65536 / s.chanBytes c.val % 2 ^ 16) ∧
    (s.patrolPaced c.val = true → s.blockWritten c.val ca = true → ca + 64 < s.chanBytes c.val →
      (s.chanFenced c.val ca = true ∨ (flips = [] ∧ ca < s.reserveBase c.val ∧ s.lineGarbage c.val ca = false ∧
        s.granErrs c.val ca 0 = ([], false) ∧ s.granErrs c.val ca 1 = ([], false))) →
      ∃ t, exec (.patrolRead c flips) s = .next t ∧ t.mem = s.mem ∧
        SMap.get 0 (t.rasHalf (c.val / 8)).patrol (c.val % 8) = ca + 64 ∧
        t.rf Reg.RAS_LAP.progress (c.val / 8) (c.val % 8) = (ca + 64) * 65536 / s.chanBytes c.val % 2 ^ 16)) ∧
  (∀ (inst : Fin 1024) (a : Word) (flips : List (Fin 35 × Byte)) (e : ErrPat) (s : State),
    e = flips.foldl (fun e f => errAdd e (f.1.val, f.2.toNat)) [] → e ≠ [] →
    (decode35 e = none →
      ∃ t, exec (.onDiePatrol 0 inst a flips) s = .next t ∧ SMap.get false t.mem.poison (a.toNat / 32) = true ∧
        t.rf Reg.RAS_COUNT.de (coreHalf inst.val) = min 0xFFFF (s.rf Reg.RAS_COUNT.de (coreHalf inst.val) + 1)) ∧
    (∀ c x, decode35 e = some (c :: x) →
      ∃ t, exec (.onDiePatrol 0 inst a flips) s = .next t ∧ t.mem.poison = s.mem.poison ∧
        t.rf Reg.RAS_COUNT.ce (coreHalf inst.val) = min (2 ^ 32 - 1) (s.rf Reg.RAS_COUNT.ce (coreHalf inst.val) + 1)) ∧
    (inst.val < 128 → SMap.get ([], false) s.mem.onDie (a.toNat / 32) = ([], false) →
      (decode35 e = none →
        ∃ t, exec (.onDiePatrol 1 inst a flips) s = .next t ∧ SMap.get false t.mem.poison (a.toNat / 32) = true ∧
          t.rf Reg.RAS_COUNT.de (inst.val / 64) = min 0xFFFF (s.rf Reg.RAS_COUNT.de (inst.val / 64) + 1)) ∧
      (∀ c x, decode35 e = some (c :: x) →
        ∃ t, exec (.onDiePatrol 1 inst a flips) s = .next t ∧ t.mem.poison = s.mem.poison ∧
          t.rf Reg.RAS_COUNT.ce (inst.val / 64) = min (2 ^ 32 - 1) (s.rf Reg.RAS_COUNT.ce (inst.val / 64) + 1))) ∧
    (decode35 e = none →
      ∃ t, exec (.onDiePatrol 2 inst a flips) s = .next t ∧ t.mem = s.mem ∧
        SMap.get false (t.cluster (inst.val % 16)).sramPoison (a.toNat / 32) = true ∧
        t.rf Reg.RAS_COUNT.de (inst.val % 16 / 8) = min 0xFFFF (s.rf Reg.RAS_COUNT.de (inst.val % 16 / 8) + 1)) ∧
    (decode35 e = none → (s.eng inst.val).run ≠ .lost → s.isMember inst.val = false → (s.eng inst.val).task = none →
      (s.eng inst.val).stale = false →
      ∃ t, exec (.onDiePatrol 3 inst a flips) s = .next t ∧ t.mem = s.mem ∧ (t.eng inst.val).run = .lost ∧
        ∀ j, j ≠ inst.val → t.eng j = s.eng j) ∧
    (∀ i, SMap.get none (s.cluster (inst.val % 16)).images (a.toNat / 2 ^ 32) = some i → decode35 e = none →
      ∃ t, exec (.onDiePatrol 4 inst a flips) s = .next t ∧ t.mem = s.mem ∧
        t.rf Reg.SVC_IMG.valid (inst.val % 16) (a.toNat / 2 ^ 32) = 0 ∧
        t.rf Reg.SVC_LOAD.last_status (inst.val % 16) = 0x02 ∧
        t.rf Reg.RAS_COUNT.uer (inst.val % 16 / 8) = min 0xFFFF (s.rf Reg.RAS_COUNT.uer (inst.val % 16 / 8) + 1)) ∧
    (∀ k : Fin 3, ∀ c x h, decode35 e = some (c :: x) → h = (if k.val = 1 then engCluster inst.val / 8 else inst.val % 16 / 8) →
      (k.val = 2 → SMap.get none (s.cluster (inst.val % 16)).images (a.toNat / 2 ^ 32) ≠ none) →
      ∃ t, exec (.onDiePatrol ⟨k.val + 2, by omega⟩ inst a flips) s = .next t ∧ t.mem = s.mem ∧
        t.rf Reg.RAS_COUNT.ce h = min (2 ^ 32 - 1) (s.rf Reg.RAS_COUNT.ce h + 1)) ∧
    (∀ k : Fin 3, ∀ h, h = (if k.val = 0 then coreHalf inst.val else inst.val / 64 % 2) →
      ∃ t, exec (.onDiePatrol ⟨k.val + 5, by omega⟩ inst a flips) s = .next t ∧ t.mem = s.mem ∧
        (flips.length = 1 → t.rf Reg.RAS_COUNT.ce h = min (2 ^ 32 - 1) (s.rf Reg.RAS_COUNT.ce h + 1)) ∧
        (flips.length ≠ 1 → t.rf Reg.RAS_COUNT2.uef h = min 0xFFFF (s.rf Reg.RAS_COUNT2.uef h + 1)))) ∧
  (∀ (q : Requester) (h : Half) (v : Word) (s : State) (start n lo hi : Nat), s.mayWrite q 0x0E h.val 0x310 → q.actor ≠ .io →
    start = s.rf Reg.RAS_PASS_START.addr h.val → n = s.rf Reg.RAS_PASS_LEN.lines h.val → lo = (if h.val = 0 then 0 else s.sys.s0) →
    hi = (if h.val = 0 then s.sys.s0 else s.sys.s0 + s.sys.s1) →
    (Reg.RAS_PASS_CTL.cancel.of v.toNat = 1 →
      ∃ t, exec (.passGo q h v) s = .next t ∧ (t.rasHalf h.val).pass = none ∧
        ((s.rasHalf h.val).pass ≠ none → t.rf Reg.RAS_PASS_CTL.busy h.val = 0 ∧ t.rf Reg.RAS_PASS_SUM0.cancelled h.val = 1)) ∧
    (Reg.RAS_PASS_CTL.cancel.of v.toNat = 0 → s.rb Reg.RAS_PASS_CTL.busy h.val = true →
      ∃ t, exec (.passGo q h v) s = .next t ∧ t.rf Reg.RAS_PASS_CTL.last_status h.val = 0x8E ∧ s.onlyRegs t) ∧
    (Reg.RAS_PASS_CTL.cancel.of v.toNat = 0 → s.rb Reg.RAS_PASS_CTL.busy h.val = false →
      (n ≠ 0 → lo ≤ 64 * start → 64 * (start + n) ≤ hi →
        ∃ t, exec (.passGo q h v) s = .next t ∧ t.rf Reg.RAS_PASS_CTL.busy h.val = 1 ∧
          t.rf Reg.RAS_PASS_CTL.last_status h.val = 0 ∧ t.rf Reg.RAS_PASS_CTL.by h.val = q.actor.code ∧
          (t.rasHalf h.val).pass = some ⟨start, n, q.actor⟩ ∧ t.rf Reg.RAS_PASS_SUM0.lines h.val = 0 ∧
          (∀ i, i < 8 → t.rf Reg.RAS_PASS_UE.valid h.val i = 0) ∧ t.mem = s.mem) ∧
      ((n = 0 ∨ 64 * start < lo ∨ hi < 64 * (start + n)) →
        ∃ t, exec (.passGo q h v) s = .next t ∧ t.rf Reg.RAS_PASS_CTL.last_status h.val = 0x05 ∧
          t.rf Reg.RAS_PASS_CTL.busy h.val = s.rf Reg.RAS_PASS_CTL.busy h.val ∧ s.onlyRegs t)) ∧
    (∀ k fl p, (s.rasHalf h.val).pass = some p →
      ∃ t, exec (.passCancel q h v k fl) s = .next t ∧ (t.rasHalf h.val).pass = none ∧ t.rf Reg.RAS_PASS_CTL.busy h.val = 0 ∧
        t.rf Reg.RAS_PASS_SUM0.cancelled h.val = 1)) ∧
  (∀ (h : Half) (fl : List (Nat × Fin 2 × Fin 20 × BitVec 16)) (s : State) (p : Pass), (s.rasHalf h.val).pass = some p →
    s.blkOn 0x0E h.val = true →
    ∃ t, exec (.passDone h fl) s = .next t ∧ (t.rasHalf h.val).pass = none ∧ t.rf Reg.RAS_PASS_CTL.busy h.val = 0 ∧
      t.rf Reg.RAS_PASS_SUM0.cancelled h.val = 0) ∧
  (∀ (q : Requester) (h : Half) (v : Word) (s : State), s.mayWrite q 0x0E h.val 0x508 → q.actor ≠ .io →
    (∀ st, v.toNat / 2 ^ 49 % 2 = 0 → s.injectRefused q h.val (v.toNat ||| 2 ^ 48) = some st →
      ∃ t, exec (.injectGo q h v) s = .next t ∧ t.rf Reg.RAS_INJ_CTL.last_status h.val = st % 256 ∧
        t.rf Reg.RAS_INJ_CTL.armed h.val = 0 ∧ (t.rasHalf h.val).inject = none) ∧
    (v.toNat / 2 ^ 49 % 2 = 0 → s.injectRefused q h.val (v.toNat ||| 2 ^ 48) = none →
      ∃ t i, exec (.injectGo q h v) s = .next t ∧ t.rf Reg.RAS_INJ_CTL.last_status h.val = 0 ∧
        t.rf Reg.RAS_INJ_CTL.armed h.val = 1 ∧ (t.rasHalf h.val).inject = some i ∧ i.line = s.rf Reg.RAS_INJ_ADDR.addr h.val ∧
        i.granule = v.toNat / 2 ^ 3 % 2 ∧ i.poison = (v.toNat / 2 ^ 4 % 2 == 1) ∧ i.target = v.toNat % 4 ∧ i.applied = false ∧
        t.mem = s.mem) ∧
    (∃ t, exec (.injectDisarm q h v) s = .next t ∧ t.rf Reg.RAS_INJ_CTL.armed h.val = 0 ∧ (t.rasHalf h.val).inject = none ∧
      t.mem = s.mem)) ∧
  (∀ (h : Half) (s : State),
    ((∀ i, (s.rasHalf h.val).inject = some i → i.applied = true) → exec (.injectApply h) s = .next s) ∧
    ∀ i : Inject, (s.rasHalf h.val).inject = some i → i.applied = false →
      (i.target = 0 → (s.chanOf h.val (64 * i.line)).2 < s.reserveBase (s.chanOf h.val (64 * i.line)).1 →
        (s.blockWritten (s.chanOf h.val (64 * i.line)).1 (s.chanOf h.val (64 * i.line)).2 = true →
          s.lineGarbage (s.chanOf h.val (64 * i.line)).1 (s.chanOf h.val (64 * i.line)).2 = false ∧
          s.granErrs (s.chanOf h.val (64 * i.line)).1 (s.chanOf h.val (64 * i.line)).2 0 = ([], false) ∧
          s.granErrs (s.chanOf h.val (64 * i.line)).1 (s.chanOf h.val (64 * i.line)).2 1 = ([], false)) →
        ∃ t, exec (.injectApply h) s = .next t ∧ injectDone s t h.val i ∧ t.mem.bytes = s.mem.bytes ∧
          t.granErrs (s.chanOf h.val (64 * i.line)).1 (s.chanOf h.val (64 * i.line)).2 i.granule = (i.syms, !i.syms.isEmpty) ∧
          t.blockWritten (s.chanOf h.val (64 * i.line)).1 (s.chanOf h.val (64 * i.line)).2 = true ∧
          (i.poison = true → t.dramPoison (2 * i.line + i.granule) = true)) ∧
      (i.target = 1 → SMap.get ([], false) s.mem.onDie (2 * i.line + i.granule) = ([], false) →
        ∃ t, exec (.injectApply h) s = .next t ∧ injectDone s t h.val i ∧ t.mem.bytes = s.mem.bytes ∧
          (i.poison = true → SMap.get false t.mem.poison (2 * i.line + i.granule) = true) ∧
          (i.poison = false →
            SMap.get ([], false) t.mem.onDie (2 * i.line + i.granule) = (i.syms, !i.syms.isEmpty) ∧ t.mem.poison = s.mem.poison)) ∧
      (i.target = 2 → s.homeHalf (64 * i.line) 0 = h.val → i.granule < 2 →
        (∀ g, g < 2 → SMap.get ([], false) s.mem.onDie (2 * i.line + g) = ([], false)) →
        (i.poison = true ∧ i.syms = [] ∨ i.poison = false ∧ errXor [] i.syms ≠ [] ∧ decode35 (errXor [] i.syms) = none) →
        ∃ t, exec (.injectApply h) s = .next t ∧ injectDone s t h.val i ∧ t.mem.bytes = s.mem.bytes ∧
          SMap.get false t.mem.poison (2 * i.line + i.granule) = true ∧
          (i.poison = false → t.rf Reg.RAS_COUNT.de h.val = min 0xFFFF (s.rf Reg.RAS_COUNT.de h.val + 1))))

/-! ## Rails, power and temperature (R387 to R391) -/

namespace Sys2Proof.Claims

/-- Only one rail's request and registers differ. -/
def railOnly (s t : State) (r : Nat) : Prop :=
  { t with pwr := { t.pwr with rails := s.pwr.rails }, regs := s.regs } = s ∧ ∀ k, k ≠ r → t.rail k = s.rail k

/-- A write of a parameter of the object dictionary that passes every check of R418 to R423. -/
def odGranted (s : State) (p : Principal) (idx sub : Nat) (v : List Byte) : Prop :=
  s.dark = false ∧ ∃ q, odParam idx sub = some q ∧ s.odCheck p ⟨2, q.ty.code, idx, sub, 0, v.length, v⟩ = 0

/-- The OD write completes with a status. -/
def odEnds (t : State) (status : Nat) : Prop := t.out.status = status

end Sys2Proof.Claims

open Sys2Proof.Claims in
/-- Requests on the AVS rails (R245, R388, R389): a voltage asked for, the one that the domains on the rail need, the repeated attempts
and the fault after the fourth, the retry, and the regulator's good answer, whose tolerance allows for the monitor that replaces a
broken sense pair (R452). -/
def Sys2Proof.Claims.RailRequests : Prop :=
  ∀ (r : Fin 8) (s : State) (h : Nat), h = s.railHalf r.val →
    ((railRange r.val).1 ≤ s.railNeed r.val ∧ s.railNeed r.val ≤ (railRange r.val).2) ∧
    (∀ mv : BitVec 12, mv.toNat ≠ s.railNeed r.val → exec (.railSet r mv) s = .next s) ∧
    (∀ mv : BitVec 12, mv.toNat = s.railNeed r.val →
      (s.rail r.val = none →
        ∃ t, exec (.railSet r mv) s = .next t ∧ t.rail r.val = some ⟨mv.toNat, 0, none⟩ ∧
          t.rf Reg.PWR_RAIL.retries h r.val = 0 ∧ railOnly s t r.val) ∧
      (∀ x, s.rail r.val = some x → x.fails < 4 →
        ∃ t, exec (.railSet r mv) s = .next t ∧
          t.rail r.val = some { x with next := some (max mv.toNat (x.next.getD 0)) } ∧ t.regs = s.regs ∧ railOnly s t r.val)) ∧
    (s.rail r.val = none → exec (.railAttemptFail r) s = .next s ∧ exec (.railRetry r) s = .next s ∧
      ∀ v, exec (.railAcknowledged r v) s = .next s) ∧
    (∀ x, s.rail r.val = some x →
      (x.fails < 3 →
        ∃ t, exec (.railAttemptFail r) s = .next t ∧ t.rail r.val = some { x with fails := x.fails + 1 } ∧
          t.rf Reg.PWR_RAIL.retries h r.val = x.fails + 1 ∧ railOnly s t r.val) ∧
      (x.fails = 3 →
        ∃ t, exec (.railAttemptFail r) s = .next t ∧ t.rail r.val = some { x with fails := 4 } ∧
          t.rf Reg.PWR_RAIL.last_status h r.val = 0x8A ∧ t.rf Reg.PWR_RAIL.fault h r.val = 1) ∧
      (4 ≤ x.fails →
        ∃ t, exec (.railRetry r) s = .next t ∧ t.rail r.val = some ⟨max x.target (x.next.getD 0), 0, none⟩ ∧
          t.rf Reg.PWR_RAIL.retries h r.val = 0 ∧ railOnly s t r.val) ∧
      (x.fails < 4 → ∀ v : BitVec 12,
        ((x.target ≤ v.toNat + s.railTolerance r.val ∧ v.toNat ≤ x.target + s.railTolerance r.val) →
          ∃ t, exec (.railAcknowledged r v) s = .next t ∧
            t.rf Reg.PWR_RAIL.set_mv h r.val = x.target % 2 ^ 12 ∧ t.rf Reg.PWR_RAIL.sense_mv h r.val = v.toNat ∧
            t.rf Reg.PWR_RAIL.last_status h r.val = 0 ∧ t.rf Reg.PWR_RAIL.fault h r.val = 0 ∧
            (s.rb Reg.PWR_RAIL.fault h r.val = false →
              t.rail r.val = x.next.map (fun n => ⟨n, 0, none⟩) ∧ railOnly s t r.val)) ∧
        ((v.toNat + s.railTolerance r.val < x.target ∨ x.target + s.railTolerance r.val < v.toNat) →
          exec (.railAcknowledged r v) s = .next s))) ∧
    s.railTolerance r.val = 10 + (if s.rf Reg.PRT_LINE.state 0 r.val = 1 ∨ s.rf Reg.PRT_LINE.state 0 r.val = 2
      then Config.monitorOffset r.val else 0)

open Sys2Proof.Claims in
/-- Package power and temperature (R390, R391): the running average of the last ten samples against the limit, the rows for 88 °C to
95 °C of a half's hottest junction, and the shutdown at 100 °C, which ends in SEAL. -/
def Sys2Proof.Claims.PowerAndTemperature : Prop :=
  (∀ (rails : List (Fin 14 × BitVec 12 × BitVec 16)) (fixed : BitVec 16) (s : State) (p : Nat), s.dark = false →
    p = s.sys.primary.val →
    ∃ t, exec (.powerSample rails fixed) s = .next t ∧
      t.pwr.sums = (((rails.foldl State.railSample s).avsPower + fixed.toNat * 1000) :: s.pwr.sums).take 10 ∧
      t.rf Reg.PWR_POWER.pkg_w p = t.pwr.average / 1000 % 2 ^ 16 ∧
      (t.pwr.average ≤ s.rf Reg.PWR_POWER.limit_w p * 1000 → t.rf Reg.PWR_POWER.over p = 0) ∧
      (s.rf Reg.PWR_POWER.limit_w p * 1000 < t.pwr.average → (∃ c ∈ SMap.keys s.cores, 3000 < (s.core c).granted) →
        ∀ c ∈ SMap.keys s.cores, (t.core c).capPower ≤ 3000) ∧
      (∀ x ∈ rails, rails.filter (fun y => y.1 == x.1) = [x] →
        t.rf Reg.PWR_RAIL.sense_mv (s.railHalf x.1.val) x.1.val = x.2.1.toNat)) ∧
  (∀ (h : Half) (tj : BitVec 8) (s : State), s.dark = false →
    ∃ t, exec (.thermalSample h tj) s = .next t ∧ t.rf Reg.PWR_POWER.tj_c h.val = tj.toNat ∧
      (t.rb Reg.PWR_POWER.trip h.val = true ↔
        95 ≤ tj.toNat ∨ (s.rb Reg.PWR_POWER.trip h.val = true ∧ 90 ≤ tj.toNat)) ∧
      (t.rb Reg.PWR_POWER.throttle h.val = true ↔
        90 ≤ tj.toNat ∨ (s.rb Reg.PWR_POWER.throttle h.val = true ∧ 88 ≤ tj.toNat)) ∧
      t.sys.mode = s.sys.mode ∧ t.tlt = s.tlt) ∧
  (∀ (h : Half) (s : State), s.dark = false →
    (s.rf Reg.PWR_POWER.tj_c h.val < 100 → exec (.thermalShutdown h) s = .next s) ∧
    (100 ≤ s.rf Reg.PWR_POWER.tj_c h.val → s.rb Reg.HPN_TAMPER.latch 0 = false →
      ∃ t, exec (.thermalShutdown h) s = .next t ∧ SMap.get false t.tlt.pins 1 = true ∧ t.sys.mode = .seal ∧
        t.custody = Custody.empty ∧ t.keySlots = [] ∧ bothAre t Reg.HPN_TAMPER.latch 1 ∧
        bothAre t Reg.HPN_TAMPER.first_cause 7)) ∧
  (∀ (c : Instr) (s : State), s.dark = true →
    (∃ h tj, c = .thermalSample h tj) ∨ (∃ h, c = .thermalShutdown h) ∨ (∃ rails fixed, c = .powerSample rails fixed) →
    exec c s = .next s)

/-- Rails, power and temperature. -/
def Obligations.RailsAndPower : Prop :=
  Sys2Proof.Claims.RailRequests ∧
  Sys2Proof.Claims.PowerAndTemperature

/-! ## Domain requests and the Dormancy handshake (R392 to R394) -/

open Sys2Proof.Claims in
/-- A request on a domain (R392, R147, R148): the domain runs again, or the request is refused, meets another, is latched on a held
domain, or starts a handshake with the blocks of the domain. -/
def Sys2Proof.Claims.DomainRequests : Prop :=
  ∀ (q : Requester) (h : Half) (d : Fin 159) (v : Word) (s : State) (want : Nat), s.mayWrite q 0x0F h.val (0x1000 + 8 * d.val) →
    q.actor ≠ .io → want = (if v.toNat / 2 % 2 = 1 then 2 else v.toNat % 2) →
    (want = 0 →
      ∃ t, exec (.domainRequest q h d v) s = .next t ∧ t.rf Reg.PWR_DOM.last_status h.val d.val = 0 ∧
        t.rf Reg.PWR_DOM.gate h.val d.val = 0 ∧ t.rf Reg.PWR_DOM.off h.val d.val = 0 ∧
        t.rf Reg.PWR_HOLD.pend_gate h.val d.val = 0 ∧ t.rf Reg.PWR_HOLD.pend_off h.val d.val = 0 ∧
        t.rf Reg.PWR_HOLD.last_status h.val d.val = 0 ∧
        (136 ≤ d.val → t.domState h.val d.val = 0) ∧ t.pwr = s.pwr ∧ t.mem = s.mem) ∧
    (want ≠ 0 → (d.val = 155 ∨ d.val = 156 ∨ (d.val < 136 ∧ (s.core (domCore h.val d.val)).run = .running)) →
      ∃ t, exec (.domainRequest q h d v) s = .next t ∧ t.rf Reg.PWR_DOM.last_status h.val d.val = 0x88 ∧ s.onlyRegs t ∧
        t.rf Reg.PWR_DOM.gate h.val d.val = s.rf Reg.PWR_DOM.gate h.val d.val ∧
        t.rf Reg.PWR_DOM.off h.val d.val = s.rf Reg.PWR_DOM.off h.val d.val) ∧
    (want ≠ 0 → s.domRefused h.val d.val = false →
      (s.pwr.dorm.isSome = true →
        ∃ t, exec (.domainRequest q h d v) s = .next t ∧ t.rf Reg.PWR_DOM.last_status h.val d.val = 0x8E ∧ s.onlyRegs t) ∧
      (s.pwr.dorm = none → s.held h.val d.val = true → q.actor ≠ .h →
        ∃ t, exec (.domainRequest q h d v) s = .next t ∧ t.rf Reg.PWR_DOM.last_status h.val d.val = 0x82 ∧
          t.rf Reg.PWR_HOLD.last_status h.val d.val = 0x82 ∧
          t.rf (if want = 2 then Reg.PWR_HOLD.pend_off else Reg.PWR_HOLD.pend_gate) h.val d.val = 1 ∧ s.onlyRegs t) ∧
      (s.pwr.dorm = none → (s.held h.val d.val = false ∨ q.actor = .h) →
        (domScope h.val d.val ≠ [] →
          ∃ t, exec (.domainRequest q h d v) s = .next t ∧
            t.pwr.dorm = some ⟨0, h.val, d.val, want, q.actor.code, domScope h.val d.val, domScope h.val d.val, [], [], 0⟩ ∧
            t.rf Reg.PWR_DORM.busy s.sys.primary.val = 1 ∧ t.rf Reg.PWR_DORM.kind s.sys.primary.val = 0 ∧
            { t with pwr := s.pwr, regs := s.regs } = s) ∧
        (domScope h.val d.val = [] →
          ∃ t, exec (.domainRequest q h d v) s = .next t ∧ t.pwr.dorm = none ∧ t.domState h.val d.val = want ∧
            t.rf Reg.PWR_DOM.last_status h.val d.val = 0 ∧ t.rf Reg.PWR_DORM.busy s.sys.primary.val = 0)))

open Sys2Proof.Claims in
/-- The handshake (R393, R394): each block of the scope answers in turn; a refusal ends the entry, a delay and a hold are noted, and
the last answer applies it, which latches the request on every held domain; the delays are waited for once all have answered, up to the longest that is allowed. -/
def Sys2Proof.Claims.DormancyHandshake : Prop :=
  (∀ s : State, s.pwr.dorm = none → exec .dormancyAnswer s = .next s ∧ exec .dormancyDelayEnd s = .next s) ∧
  (∀ (s : State) (d : Dorm) (b : Nat × Nat) (rest : List (Nat × Nat)) (p : Nat), s.pwr.dorm = some d → d.ask = b :: rest →
    p = s.sys.primary.val →
    (s.dormAnswer d b = .refuse →
      ∃ t, exec .dormancyAnswer s = .next t ∧ t.pwr.dorm = none ∧ t.rf Reg.PWR_DORM.busy p = 0 ∧
        t.rf Reg.PWR_DORM.last_status p = 0x88 ∧ t.rf Reg.PWR_DORM.ref_class p = b.1 % 2 ^ 8 ∧
        t.rf Reg.PWR_DORM.ref_instance p = b.2 % 2 ^ 12 ∧ (d.kind = 1 → bothAre t Reg.PWR_FALLOW.state 0) ∧
        (d.kind = 2 → t.pwr.watch = .none) ∧ t.sys.mode = s.sys.mode) ∧
    (∀ n, s.dormAnswer d b = .delay n →
      ∃ t, exec .dormancyAnswer s = .next t ∧ t.pwr.dorm = some { d with ask := rest, delayed := d.delayed ++ [(b, n)] } ∧
        t.rf Reg.PWR_DORM.ref_class p = b.1 % 2 ^ 8 ∧ t.rf Reg.PWR_DORM.ref_instance p = b.2 % 2 ^ 12 ∧
        { t with pwr := s.pwr, regs := s.regs } = s) ∧
    ((rest ≠ [] ∨ d.delayed ≠ []) →
      (s.dormAnswer d b = .accept →
        ∃ t, exec .dormancyAnswer s = .next t ∧ t.pwr.dorm = some { d with ask := rest } ∧
          { t with pwr := s.pwr, regs := s.regs } = s) ∧
      (∀ n, s.dormAnswer d b = .held → blkDomain b.1 b.2 = some n →
        ∃ t, exec .dormancyAnswer s = .next t ∧
          t.pwr.dorm = some { d with ask := rest, held := d.held ++ [s.blkHalf b.1 b.2 * 256 + n] } ∧
          { t with pwr := s.pwr, regs := s.regs } = s)) ∧
    (rest = [] → d.delayed = [] → s.dormAnswer d b = .accept →
      (d.kind = 0 →
        ∃ t, exec .dormancyAnswer s = .next t ∧ t.pwr.dorm = none ∧ t.rf Reg.PWR_DORM.busy p = 0 ∧
          t.rf Reg.PWR_DORM.last_status p = 0 ∧
          t.rf Reg.PWR_DOM.last_status d.half d.dom = (if d.held = [] then 0 else 0x82) ∧
          (d.held = [] → 136 ≤ d.dom → t.domState d.half d.dom = d.want % 4) ∧
          (d.held ≠ [] → t.domState d.half d.dom = s.domState d.half d.dom ∧
            ∀ x ∈ d.held, t.rf Reg.PWR_HOLD.last_status (x / 256) (x % 256) = 0x82 ∧
              t.rf (if d.want = 2 then Reg.PWR_HOLD.pend_off else Reg.PWR_HOLD.pend_gate) (x / 256) (x % 256) = 1)) ∧
      (d.kind = 1 → s.sys.mode = .field →
        ∃ t, exec .dormancyAnswer s = .next t ∧ t.pwr.dorm = none ∧ t.sys.mode = .fallow ∧
          bothAre t Reg.PWR_FALLOW.state 2 ∧ t.rf Reg.PWR_DORM.busy p = 0) ∧
      (2 ≤ d.kind → s.tlt.storing = none → s.railsOut = false →
        ∃ t, exec .dormancyAnswer s = .next t ∧ t.sys.mode = .watch ∧ t.pwr.dorm = none ∧ t.mem = State.reset.mem))) ∧
  (∀ (s : State) (d : Dorm) (p : Nat), s.pwr.dorm = some d → d.ask = [] → d.delayed ≠ [] → p = s.sys.primary.val →
    ∀ n, n = d.waited + d.delayed.foldl (fun m x => max m x.2) 0 →
      (n ≤ max 1 (s.rf Reg.PWR_DORM.max_delay_us p) →
        ∃ t, exec .dormancyDelayEnd s = .next t ∧
          t.pwr.dorm = some { d with ask := d.delayed.map Prod.fst, delayed := [], waited := n }) ∧
      (max 1 (s.rf Reg.PWR_DORM.max_delay_us p) < n →
        ∃ t, exec .dormancyDelayEnd s = .next t ∧ t.pwr.dorm = none ∧ t.rf Reg.PWR_DORM.busy p = 0 ∧
          t.rf Reg.PWR_DORM.last_status p = 0x89 ∧ t.sys.mode = s.sys.mode))

/-- Requests on power domains and the Dormancy handshake. -/
def Obligations.DomainsAndDormancy : Prop :=
  Sys2Proof.Claims.DomainRequests ∧
  Sys2Proof.Claims.DormancyHandshake

/-! ## FALLOW and WATCH (R395 to R400) -/

namespace Sys2Proof.Claims

/-- A FALLOW entry of an actor has begun. -/
def fallowBegun (s t : State) (actor : Nat) : Prop :=
  ∃ d, t.pwr.dorm = some d ∧ d.kind = 1 ∧ d.want = 2 ∧ d.actor = actor ∧ d.scope = s.fallowScope ∧ d.ask = s.fallowScope ∧
    bothAre t Reg.PWR_FALLOW.state 1 ∧ t.od 0x0410 1 = 1 ∧ t.sys.mode = s.sys.mode

/-- FALLOW has been left for FIELD. -/
def fallowLeft (t : State) : Prop :=
  t.sys.mode = .field ∧ bothAre t Reg.PWR_FALLOW.state 0 ∧ bothAre t Reg.PWR_FALLOW.off_mask 0 ∧ t.od 0x0410 1 = 0

end Sys2Proof.Claims

open Sys2Proof.Claims in
/-- FALLOW is entered from FIELD alone, by its parameter or after a second of low power, and left by its parameter or by a trigger of
Dispatch (R395 to R397). -/
def Sys2Proof.Claims.FallowCommands : Prop :=
  (∀ (p : Principal) (s : State), odGranted s p 0x0410 1 [1] →
    (s.sys.mode = .field → s.pwr.dorm = none →
      ∃ t, exec (.fallowEnter p) s = .next t ∧ odEnds t 0 ∧ fallowBegun s t (if p.world = .topsoil then 0 else 2)) ∧
    (s.sys.mode = .fallow →
      ∃ t, exec (.fallowEnter p) s = .next t ∧ odEnds t 0 ∧ { t with out := s.out } = s) ∧
    ((s.sys.mode ≠ .fallow ∧ (s.sys.mode ≠ .field ∨ s.pwr.dorm.isSome = true)) →
      ∃ t, exec (.fallowEnter p) s = .next t ∧ odEnds t 0x8E ∧ { t with out := s.out } = s)) ∧
  (∀ s : State, s.od 0x0410 4 = 1 → s.pwr.lowPower ≠ 0 → s.pwr.lowPower - 1 + 1000000000 ≤ s.strata.tick → s.sys.mode = .field →
    s.pwr.dorm = none → ∃ t, exec .fallowAutoEnter s = .next t ∧ fallowBegun s t 3) ∧
  (∀ s : State, s.od 0x0410 4 ≠ 1 → exec .fallowAutoEnter s = .next s) ∧
  (∀ (p : Principal) (s : State), odGranted s p 0x0410 1 [0] → s.sys.mode = .fallow →
    ∃ t, exec (.fallowExit (some p)) s = .next t ∧ odEnds t 0 ∧ fallowLeft t) ∧
  (∀ s : State, s.sys.mode = .fallow →
    (s.fallowFull = true → ∃ t, exec (.fallowExit none) s = .next t ∧ fallowLeft t) ∧
    (s.fallowFull = false → exec (.fallowExit none) s = .next s))

open Sys2Proof.Claims in
/-- WATCH (R399, R400): its entry waits for Hardpan, which answers or is too late; then every block is asked, or the device goes OFF;
in WATCH an address match alone wakes it. -/
def Sys2Proof.Claims.WatchCommands : Prop :=
  (∀ (p : Principal) (s : State), odGranted s p 0x0420 1 [0x57] →
    ((s.sys.mode = .field ∨ s.sys.mode = .fallow) → s.pwr.watch = .none → s.pwr.dorm = none →
      ∃ t, exec (.watchEnter p) s = .next t ∧ odEnds t 0 ∧
        t.pwr.watch = .hardpan false (if p.world = .topsoil then 0 else 2) ∧ t.pwr.dorm = none ∧ t.sys.mode = s.sys.mode) ∧
    (((s.sys.mode ≠ .field ∧ s.sys.mode ≠ .fallow) ∨ s.pwr.watch ≠ .none ∨ s.pwr.dorm.isSome = true) →
      ∃ t, exec (.watchEnter p) s = .next t ∧ odEnds t 0x8E ∧ { t with out := s.out } = s)) ∧
  (∀ (q : Requester) (h : Half) (v : Word) (s : State), s.mayWrite q 0x0F h.val 0x480 → q.actor = .h →
    (∀ a, s.pwr.watch = .hardpan false a →
      (s.pwr.dorm = none →
        ∃ t d, exec (.hpReady q h v) s = .next t ∧ t.pwr.watch = .handshake a ∧ t.pwr.dorm = some d ∧ d.kind = 2 ∧
          d.want = 2 ∧ d.actor = a ∧ d.ask = d.scope ∧ d.delayed = [] ∧ d.held = []) ∧
      (s.pwr.dorm.isSome = true →
        ∃ t, exec (.hpReady q h v) s = .next t ∧ t.pwr.watch = .none ∧
          t.rf Reg.PWR_DORM.last_status s.sys.primary.val = 0x8E)) ∧
    (∀ a, s.pwr.watch = .hardpan true a → s.tlt.storing = none → s.railsOut = false →
      ∃ t, exec (.hpReady q h v) s = .next t ∧ t.sys.mode = .off ∧ t.tlt.poweredDown = true) ∧
    ((s.pwr.watch = .none ∨ ∃ a, s.pwr.watch = .handshake a) →
      ∃ t, exec (.hpReady q h v) s = .next t ∧ t.rf Reg.PWR_WATCH.hp_ready h.val = 1 ∧ s.onlyRegs t)) ∧
  (∀ (s : State) (b : Bool) (a : Nat), s.pwr.watch = .hardpan b a →
    ∃ t, exec .watchHpTimeout s = .next t ∧ t.pwr.watch = .none ∧ t.rf Reg.PWR_DORM.kind s.sys.primary.val = 2 ∧
      t.rf Reg.PWR_DORM.last_status s.sys.primary.val = 0x82 ∧ t.sys.mode = s.sys.mode) ∧
  (∀ (addr : Fin 128) (s : State),
    (s.sys.mode ≠ .watch → exec (.i3cWakeMatch addr) s = .next s) ∧
    (s.sys.mode = .watch → addr.val = s.rf Reg.PWR_WATCH.wake_addr 0 → 8 ≤ addr.val → addr.val ≤ 0x77 →
      ∃ t, exec (.i3cWakeMatch addr) s = .next t ∧ t.sys.mode = .root ∧ bothAre t Reg.PWR_WATCH.wake_cause 1 ∧
        t.out.value = 1) ∧
    (s.sys.mode = .watch → (addr.val ≠ s.rf Reg.PWR_WATCH.wake_addr 0 ∨ addr.val < 8 ∨ 0x77 < addr.val) →
      ∃ t, exec (.i3cWakeMatch addr) s = .next t ∧ t.out.value = 0 ∧ { t with out := s.out } = s))

/-- FALLOW, WATCH and the power-down. -/
def Obligations.FallowAndWatch : Prop :=
  Sys2Proof.Claims.FallowCommands ∧
  Sys2Proof.Claims.WatchCommands

/-! ## Weathering and repairs in service (R401 to R408) -/

namespace Sys2Proof.Claims

/-- A repair of a kind (its bit of PWR_MEND.kinds) has begun (R404). -/
def repairBegun (s t : State) (bit : Nat) : Prop :=
  bothAre t Reg.PWR_MEND.count (min 255 (s.rf Reg.PWR_MEND.count 0 + 1)) ∧
    (t.rf Reg.PWR_MEND.kinds 0).testBit bit = true ∧
    ((s.sys.mode = .field ∨ s.sys.mode = .fallow ∨ s.sys.mode = .clay) → t.sys.mode = .mend) ∧
    (s.sys.mode ≠ .field → s.sys.mode ≠ .fallow → s.sys.mode ≠ .clay → t.sys.mode = s.sys.mode)

/-- A repair has ended; with the last one the device leaves MEND. -/
def repairEnded (s t : State) : Prop :=
  bothAre t Reg.PWR_MEND.count ((s.rf Reg.PWR_MEND.count 0 - 1) % 256) ∧
    (s.sys.mode = .mend → s.rf Reg.PWR_MEND.count 0 ≤ 1 → t.sys.mode = if s.anyClay = true then .clay else .field) ∧
    ((s.sys.mode ≠ .mend ∨ 1 < s.rf Reg.PWR_MEND.count 0) → t.sys.mode = s.sys.mode)

end Sys2Proof.Claims

open Sys2Proof.Claims in
/-- Weathering (R401 to R403): a measurement records slack and temperature and computes the margin; a new plan never raises a frequency
and never lowers a voltage; a plan that could not be stored is stored again. -/
def Sys2Proof.Claims.Weathering : Prop :=
  (∀ (h : Half) (hours : BitVec 32) (rs : List (Fin 256 × BitVec 16 × BitVec 8)) (s : State), s.dark = false →
    ∃ t, exec (.weatheringMeasure h hours rs) s = .next t ∧ t.pwr.hours = max s.pwr.hours hours.toNat ∧
      t.tlt.cal.version = s.tlt.cal.version + 1 ∧ t.tlt.cal.base = s.tlt.cal.base ∧
      t.rf Reg.WTH_CTL.busy h.val = b2n (SMap.get false s.pwr.replan h.val) ∧
      (∀ x ∈ rs, rs.filter (fun y => y.1 == x.1) = [x] →
        t.rf Reg.WTH_SLACK.slack h.val x.1.val = x.2.1.toNat ∧ t.rf Reg.WTH_SLACK.temp_c h.val x.1.val = x.2.2.toNat ∧
        t.rf Reg.WTH_SLACK.valid h.val x.1.val = 1 ∧
        t.readingsOf (h.val * 256 + x.1.val) = s.readingsOf (h.val * 256 + x.1.val) ++ [(t.pwr.hours, x.2.1.toInt)]) ∧
      (∀ i, t.worstStop h.val = some i →
        t.rf Reg.WTH_MARGIN.worst_stop h.val = (h.val * 256 + i) % 2 ^ 9 ∧
        t.rf Reg.WTH_MARGIN.years h.val =
          marginOf (t.factoryOf (h.val * 256 + i)) t.pwr.hours (t.readingsOf (h.val * 256 + i)) % 2 ^ 32)) ∧
  (∀ (h : Half) (s : State), s.dark = false →
    ∃ t, exec (.replan h) s = .next t ∧ t.rf Reg.WTH_CTL.busy h.val = 0 ∧
      SMap.get false t.pwr.replan h.val = false ∧ t.tlt.cal.version = s.tlt.cal.version + 1 ∧
      (∀ c, c < 136 →
        t.rf Reg.WTH_FMAX.fmax_mhz h.val c = min (s.rf Reg.WTH_FMAX.fmax_mhz h.val c) (t.planTop h.val c) % 2 ^ 12 ∧
        t.rf Reg.WTH_FMAX.dv_mv h.val c = min 0xFF (t.planAdded h.val c
          (min (s.rf Reg.WTH_FMAX.fmax_mhz h.val c) (t.planTop h.val c)))) ∧
      t.tlt.cal.plans = s.tlt.cal.plans ++ [⟨h.val, s.pwr.hours, s.tlt.cal.readings⟩] ∧
      (SMap.wf Core.empty s.cores = true → ∀ c ∈ SMap.keys s.cores, coreHalf c = h.val → s.held h.val (coreDom c) = false →
        (t.core c).granted ≤ t.rf Reg.WTH_FMAX.fmax_mhz h.val (coreDom c)) ∧
      (∀ d mhz, s.planMv h.val d mhz ≤ t.planMv h.val d mhz ∧ t.planTop h.val d ≤ max 800 (s.planTop h.val d) ∧
        ∀ i, i ≠ h.val → t.planMv i d mhz = s.planMv i d mhz) ∧
      (∀ i c, i ≠ h.val → t.rf Reg.WTH_FMAX.fmax_mhz i c = s.rf Reg.WTH_FMAX.fmax_mhz i c ∧
        t.rf Reg.WTH_FMAX.dv_mv i c = s.rf Reg.WTH_FMAX.dv_mv i c)) ∧
  (∀ (h : Half) (s : State),
    (SMap.get false s.pwr.unstored h.val = false → exec (.planStoreRetry h) s = .next s) ∧
    (SMap.get false s.pwr.unstored h.val = true →
      (s.tlt.storing = none → s.railsOut = true →
        ∃ t, exec (.planStoreRetry h) s = .next t ∧ t.rf Reg.WTH_CTL.last_status h.val = 0x8B ∧
          SMap.get false t.pwr.unstored h.val = true ∧ t.tlt.storing = none) ∧
      (s.tlt.storing = none → s.railsOut = false →
        ∃ t, exec (.planStoreRetry h) s = .next t ∧ t.rf Reg.WTH_CTL.last_status h.val = 0 ∧
          SMap.get false t.pwr.unstored h.val = false ∧ t.tlt.storing = some (.cal s.tlt.cal) ∧ t.mem = s.mem) ∧
      (∀ w, s.tlt.storing = some w →
        ∃ t, exec (.planStoreRetry h) s = .next t ∧ t.rf Reg.WTH_CTL.last_status h.val = 0 ∧ t.tlt.storing = some w ∧
          t.tlt.storeAgain = s.tlt.storeAgain ++ [.cal s.tlt.cal] ∧ t.mem = s.mem))) ∧
  (∀ (s : State) (h : Half), s.dark = true →
    exec (.replan h) s = .next s ∧ ∀ hours rs, exec (.weatheringMeasure h hours rs) s = .next s)

open Sys2Proof.Claims in
/-- Update windows, reroutes and engine tests are repairs (R404, R407, R408): each is counted while it runs, and MEND is left with the
last. A triple's route switches once no message of the triple is in flight (R19). -/
def Sys2Proof.Claims.Repairs : Prop :=
  (∀ (p : Principal) (s : State),
    (odGranted s p 0x0220 1 [1] →
      (s.pwr.updating = false →
        ∃ t, exec (.updateWindowOpen p) s = .next t ∧ odEnds t 0 ∧ t.pwr.updating = true ∧ repairBegun s t 4) ∧
      (s.pwr.updating = true →
        ∃ t, exec (.updateWindowOpen p) s = .next t ∧ odEnds t 0 ∧ { t with out := s.out } = s)) ∧
    (odGranted s p 0x0220 1 [0] →
      (s.pwr.updating = true →
        ∃ t, exec (.updateWindowClose p) s = .next t ∧ odEnds t 0 ∧ t.pwr.updating = false ∧ repairEnded s t) ∧
      (s.pwr.updating = false →
        ∃ t, exec (.updateWindowClose p) s = .next t ∧ odEnds t 0 ∧ { t with out := s.out } = s))) ∧
  (∀ (h : Half) (l : Fin 161) (s : State),
    ((s.dark = true ∨ s.linkFailed h.val l.val = true) → exec (.meshLinkFail h l) s = .next s) ∧
    (s.dark = false → s.linkFailed h.val l.val = false →
      ∃ t, exec (.meshLinkFail h l) s = .next t ∧
        (∀ k, k < 161 → t.linkFailed h.val k = if k = l.val then true else s.linkFailed h.val k) ∧
        ((s.failedLinks h.val).length < 2 →
          (∀ k ∈ s.failedLinks h.val, ∀ e ∈ linkEnds k, e ∉ linkEnds l.val) →
          t.pwr.reroutes = s.pwr.reroutes ++ [(h.val, l.val)] ∧ repairBegun s t 2) ∧
        ((2 ≤ (s.failedLinks h.val).length ∨ ∃ k ∈ s.failedLinks h.val, ∃ e ∈ linkEnds k, e ∈ linkEnds l.val) →
          t.pwr.reroutes = s.pwr.reroutes ∧ t.sys.mode = s.sys.mode))) ∧
  (∀ (h : Half) (src dst : BitVec 8) (cls : Fin 5) (s : State) (done : List (Nat × Nat)),
    done = s.pwr.reroutes.filter (fun r => r.1 == h.val) →
    ((done = [] ∨ s.tripleBusy h.val src.toNat dst.toNat cls.val = true) →
      ∀ b, exec (.rerouteSwitch h src dst cls b) s = .next s) ∧
    (done ≠ [] → s.tripleBusy h.val src.toNat dst.toNat cls.val = false →
      (∃ t, exec (.rerouteSwitch h src dst cls false) s = .next t ∧
        ((h.val, src.toNat, dst.toNat, cls.val) ∈ t.pwr.routed ↔
          ((h.val, src.toNat, dst.toNat, cls.val) ∈ s.pwr.routed ∨ s.crossesFailed h.val src.toNat dst.toNat = true)) ∧
        (s.crossesFailed h.val src.toNat dst.toNat = true →
          t.meshRoute h.val src.toNat dst.toNat cls.val = avoidLinks (s.linkFailed h.val) (triplePath src.toNat dst.toNat)) ∧
        (∀ x ∈ s.pwr.routed, x ∈ t.pwr.routed) ∧ t.pwr.reroutes = s.pwr.reroutes ∧ { t with pwr := s.pwr } = s) ∧
      (∃ t, exec (.rerouteSwitch h src dst cls true) s = .next t ∧
        (s.crossesFailed h.val src.toNat dst.toNat = true → (h.val, src.toNat, dst.toNat, cls.val) ∈ t.pwr.routed) ∧
        t.pwr.reroutes = s.pwr.reroutes.filter (fun r => r.1 != h.val) ∧
        (s.sys.mode = .mend → s.rf Reg.PWR_MEND.count 0 = done.length → done.length ≤ 255 →
          t.sys.mode = if s.anyClay = true then .clay else .field)))) ∧
  (∀ (q : Requester) (h : Half) (v : Word) (s : State) (e : Nat), s.mayWrite q 0x0F h.val 0x800 → q.actor = .m →
    e = v.toNat % 2 ^ 10 →
    ((s.rb Reg.PWR_ENG_TEST.busy h.val = true ∨ engHalf e ≠ h.val ∨ (s.eng e).run ≠ .lost) →
      ∃ t, exec (.engineTest q h v) s = .next t ∧ t.rf Reg.PWR_ENG_TEST.last_status h.val = 0x8E ∧ s.onlyRegs t ∧
        t.rb Reg.PWR_ENG_TEST.busy h.val = s.rb Reg.PWR_ENG_TEST.busy h.val) ∧
    (s.rb Reg.PWR_ENG_TEST.busy h.val = false → engHalf e = h.val → (s.eng e).run = .lost →
      ∃ t, exec (.engineTest q h v) s = .next t ∧ t.rf Reg.PWR_ENG_TEST.busy h.val = 1 ∧
        t.rf Reg.PWR_ENG_TEST.engine h.val = e ∧ repairBegun s t 3)) ∧
  (∀ (h : Half) (pass : Bool) (s : State),
    (s.rb Reg.PWR_ENG_TEST.busy h.val = false → exec (.engineTestDone h pass) s = .next s) ∧
    (s.rb Reg.PWR_ENG_TEST.busy h.val = true →
      (∃ t, exec (.engineTestDone h true) s = .next t ∧ t.rf Reg.PWR_ENG_TEST.busy h.val = 0 ∧
        t.rf Reg.PWR_ENG_TEST.last_status h.val = 0 ∧ repairEnded s t ∧
        (∀ j, t.eng j = if j = s.rf Reg.PWR_ENG_TEST.engine h.val then { Engine.empty with run := .detached } else s.eng j)) ∧
      (∃ t, exec (.engineTestDone h false) s = .next t ∧ t.rf Reg.PWR_ENG_TEST.busy h.val = 0 ∧
        t.rf Reg.PWR_ENG_TEST.last_status h.val = 3 ∧ repairEnded s t ∧ t.engines = s.engines)))

open Sys2Proof.Claims in
/-- Backfill (R405, R406): the checks of a go, the spare that is chosen, its test, the takeover of the logical ID, and the release. -/
def Sys2Proof.Claims.Backfills : Prop :=
  (∀ (q : Requester) (h : Half) (v : Word) (s : State) (l : Nat), s.mayWrite q 0x0F h.val 0x600 →
    (q.actor = .t ∨ q.actor = .v ∨ q.actor = .h) → v.toNat / 2 ^ 11 % 2 = 0 → l = v.toNat % 2 ^ 8 →
    ((s.rb Reg.PWR_BACKFILL.busy h.val = true ∨ l / 128 ≠ h.val ∨ (s.isHardpanCore l = true ∧ q.actor ≠ .h) ∨
        (s.core (s.physOf l)).run = .running ∨ s.nextSpare h.val = none) →
      ∃ t, exec (.backfillGo q h v) s = .next t ∧ s.onlyRegs t ∧
        t.rf Reg.PWR_BACKFILL.last_status h.val =
          (if s.rb Reg.PWR_BACKFILL.busy h.val = true then 0x8E else if l / 128 ≠ h.val then 0x88
            else if s.isHardpanCore l = true ∧ q.actor ≠ .h then 0x85
            else if (s.core (s.physOf l)).run = .running then 0x88 else 0x8D)) ∧
    (∀ p, s.rb Reg.PWR_BACKFILL.busy h.val = false → l / 128 = h.val → (s.isHardpanCore l = true → q.actor = .h) →
      (s.core (s.physOf l)).run ≠ .running → s.nextSpare h.val = some p →
      ∃ t, exec (.backfillGo q h v) s = .next t ∧ t.backfill h.val = some ⟨l, p, q.actor.code⟩ ∧
        t.rf Reg.PWR_BACKFILL.busy h.val = 1 ∧ t.rf Reg.PWR_BACKFILL.spare h.val = p ∧
        t.rf Reg.PWR_BACKFILL.ready h.val = 0 ∧ repairBegun s t 0)) ∧
  (∀ (h : Half) (s : State) (b : Backfill), s.backfill h.val = some b → s.rb Reg.PWR_BACKFILL.busy h.val = true →
    (s.physOf b.logical ≠ b.spare →
      ∃ t, exec (.backfillSpareTestDone h true) s = .next t ∧ t.physOf b.logical = b.spare ∧
        t.rf Reg.PWR_BACKFILL.ready h.val = 1 ∧ t.rf Reg.PWR_BACKFILL.busy h.val = 0 ∧
        t.rf Reg.PWR_BACKFILL.last_status h.val = 0 ∧ (t.core (s.physOf b.logical)).run = .off ∧
        t.blkState 0x01 b.spare = 2 ∧ t.blkState 0x01 (s.physOf b.logical) = 4 ∧ t.backfill h.val = some b) ∧
    (∀ p, (s.spareTake b.spare).nextSpare h.val = some p →
      ∃ t, exec (.backfillSpareTestDone h false) s = .next t ∧ t.backfill h.val = some { b with spare := p } ∧
        t.rf Reg.PWR_BACKFILL.spare h.val = p % 2 ^ 9 ∧ t.physOf b.logical = s.physOf b.logical ∧
        t.rb Reg.PWR_BACKFILL.busy h.val = true) ∧
    ((s.spareTake b.spare).nextSpare h.val = none →
      ∃ t, exec (.backfillSpareTestDone h false) s = .next t ∧ t.backfill h.val = none ∧
        t.rf Reg.PWR_BACKFILL.last_status h.val = 0x8D ∧ t.rf Reg.PWR_BACKFILL.busy h.val = 0 ∧
        t.physOf b.logical = s.physOf b.logical)) ∧
  (∀ (h : Half) (pass : Bool) (s : State), (s.backfill h.val = none ∨ s.rb Reg.PWR_BACKFILL.busy h.val = false) →
    exec (.backfillSpareTestDone h pass) s = .next s) ∧
  (∀ (q : Requester) (h : Half) (v : Word) (s : State), s.mayWrite q 0x0F h.val 0x600 →
    (q.actor = .t ∨ q.actor = .v ∨ q.actor = .h) → v.toNat / 2 ^ 8 % 2 = 0 →
    (∀ b, s.backfill h.val = some b → s.rb Reg.PWR_BACKFILL.ready h.val = true →
      (s.isHardpanCore b.logical = true → q.actor = .h) → (s.core b.spare).run = .reset →
      ∃ t, exec (.backfillRelease q h v) s = .next t ∧ (t.core b.spare).run = .running ∧
        (t.core b.spare).pc = w64 (4 * s.rf Reg.PWR_BACKFILL_PC.pc h.val) ∧ t.rf Reg.PWR_BACKFILL.ready h.val = 0 ∧
        t.backfill h.val = none ∧ ∀ j, j ≠ b.spare → t.core j = s.core j) ∧
    ((s.backfill h.val = none ∨ s.rb Reg.PWR_BACKFILL.ready h.val = false ∨
        (∃ b, s.backfill h.val = some b ∧ s.isHardpanCore b.logical = true ∧ q.actor ≠ .h)) →
      ∃ t, exec (.backfillRelease q h v) s = .next t ∧ s.onlyRegs t))

/-- Weathering measurements, mesh and engine repair, and backfill. -/
def Obligations.WeatheringAndRepair : Prop :=
  Sys2Proof.Claims.Weathering ∧
  Sys2Proof.Claims.Repairs ∧
  Sys2Proof.Claims.Backfills

/-! ## Primacy, the lease and the grit line (R409 to R415) -/

namespace Sys2Proof.Claims

/-- The device goes on without a half (R414, R415): the other half is primary, the bridge is down, the cores and engines of the lost
half hold nothing, and a serving device is in HUSK. -/
def huskEntered (s t : State) (lost : Half) : Prop :=
  t.sys.lostHalf = some lost ∧ t.sys.bridgeUp = false ∧ t.sys.primary = halfOf (1 - lost.val) ∧ t.tlt.holdFrom = none ∧
    (s.sys.primary = lost → bothAre t Reg.TLT_PRIM.epoch ((s.rf Reg.TLT_PRIM.epoch 0 + 1) % 2 ^ 16)) ∧
    (s.sys.primary ≠ lost → ∀ i, t.rf Reg.TLT_PRIM.epoch i = s.rf Reg.TLT_PRIM.epoch i) ∧
    (s.sys.mode ∈ [Mode.tune, .field, .clay, .mend, .hold, .fallow] → t.sys.mode = .husk) ∧
    (s.sys.mode ∉ [Mode.tune, .field, .clay, .mend, .hold, .fallow] → t.sys.mode = s.sys.mode) ∧
    (∀ c, coreHalf c = lost.val → (t.core c).run = .reset) ∧ (∀ e, engHalf e = lost.val → (t.eng e).task = none)

end Sys2Proof.Claims

open Sys2Proof.Claims in
/-- The lease and the grit line (R410, R412): LEASE messages and their acknowledgements, and what follows when either falls silent or
the bridge or a half fails. -/
def Sys2Proof.Claims.LeaseAndGrit : Prop :=
  (∀ s : State, s.paired = false → exec .leaseSend s = .next s ∧ exec .lease s = .next s ∧ exec .leaseAck s = .next s ∧
    exec .bridgeFailure s = .next s ∧ ∀ h, exec (.leaseLapse h) s = .next s) ∧
  (∀ s : State, s.paired = true →
    (∃ t, exec .leaseSend s = .next t ∧ t.tlt.leaseSeq = (s.tlt.leaseSeq + 1) % 2 ^ 32 ∧
      t.tlt.leases = s.tlt.leases ++ [⟨s.rf Reg.TLT_PRIM.epoch s.sys.primary.val, (s.tlt.leaseSeq + 1) % 2 ^ 32, s.ledger.signed⟩] ∧
      { t with tlt := s.tlt } = s) ∧
    (∀ l rest, s.tlt.leases = l :: rest →
      ∃ t, exec .lease s = .next t ∧ t.tlt.leases = rest ∧ t.tlt.acks = s.tlt.acks ++ [l.seq] ∧ t.tlt.lastLease = l ∧
        t.rf Reg.TLT_PRIM.lease_ok s.second.val = 1 ∧ SMap.get 0 t.tlt.leaseSeen s.second.val = s.strata.tick ∧
        { t with tlt := s.tlt, regs := s.regs } = s) ∧
    (∀ n rest, s.tlt.acks = n :: rest →
      ∃ t, exec .leaseAck s = .next t ∧ t.tlt.acks = rest ∧ t.rf Reg.TLT_PRIM.lease_ok s.sys.primary.val = 1 ∧
        SMap.get 0 t.tlt.leaseSeen s.sys.primary.val = s.strata.tick ∧ { t with tlt := s.tlt, regs := s.regs } = s) ∧
    (∀ h : Half,
      (s.strata.tick < SMap.get 0 s.tlt.leaseSeen h.val + 3000000 → exec (.leaseLapse h) s = .next s) ∧
      (SMap.get 0 s.tlt.leaseSeen h.val + 3000000 ≤ s.strata.tick →
        ∃ t, exec (.leaseLapse h) s = .next t ∧ huskEntered s t s.second ∧ bothAre t Reg.TLT_PRIM.lease_ok 0)) ∧
    (∃ t, exec .bridgeFailure s = .next t ∧ huskEntered s t s.second)) ∧
  (∀ (h : Half) (s : State), s.dark = false →
    (∃ t, exec (.gritHeartbeat h) s = .next t ∧ t.rf Reg.TLT_PRIM.grit_ok h.val = 1 ∧
      SMap.get 0 t.tlt.gritSeen h.val = s.strata.tick ∧ { t with tlt := s.tlt, regs := s.regs } = s) ∧
    (s.rb Reg.TLT_PRIM.grit_ok h.val = true → SMap.get 0 s.tlt.gritSeen h.val + 3000000 ≤ s.strata.tick →
      ∃ t, exec (.gritSilence h) s = .next t ∧ t.rf Reg.TLT_PRIM.grit_ok h.val = 0 ∧ t.sys.mode = s.sys.mode ∧
        t.sys.primary = s.sys.primary) ∧
    ((s.rb Reg.TLT_PRIM.grit_ok h.val = false ∨ s.strata.tick < SMap.get 0 s.tlt.gritSeen h.val + 3000000) →
      exec (.gritSilence h) s = .next s) ∧
    (s.sys.lostHalf = none → ∃ t, exec (.halfLost h) s = .next t ∧ huskEntered s t h)) ∧
  (∀ (h : Half) (s : State), s.sys.lostHalf.isSome = true → exec (.halfLost h) s = .next s)

open Sys2Proof.Claims in
/-- Primacy by command (R411, R412): the orderly handover copies the functions' registers with a new epoch, and a quiesced half takes
primacy. -/
def Sys2Proof.Claims.PrimacyCommands : Prop :=
  (∀ (p : Principal) (d : Half) (s : State), odGranted s p 0x0202 2 [BitVec.ofNat 8 d.val] →
    (d = s.sys.primary → ∃ t, exec (.handover p d) s = .next t ∧ odEnds t 0 ∧ { t with out := s.out } = s) ∧
    (d ≠ s.sys.primary →
      (s.sys.lostHalf.isSome = true ∨ s.sys.bridgeUp = false ∨ s.rb Reg.TLT_PRIM.grit_ok s.sys.primary.val = false) →
      ∃ t, exec (.handover p d) s = .next t ∧ odEnds t 0x8E ∧ { t with out := s.out } = s) ∧
    (d ≠ s.sys.primary → s.sys.lostHalf = none → s.sys.bridgeUp = true →
      s.rb Reg.TLT_PRIM.grit_ok s.sys.primary.val = true →
      ∃ t, exec (.handover p d) s = .next t ∧ odEnds t 0 ∧ t.sys.primary = d ∧ t.sys.mode = s.sys.mode ∧
        bothAre t Reg.TLT_PRIM.epoch ((s.rf Reg.TLT_PRIM.epoch 0 + 1) % 2 ^ 16) ∧
        (∀ f ∈ [Reg.STR_CTL.source, Reg.STR_STATUS.state, Reg.STR_RATE.rate, Reg.VRV_NEXT_POS.value, Reg.PWR_DORM.busy,
            Reg.HPN_HEARTBEAT.count], t.rf f d.val = s.rf f s.sys.primary.val % 2 ^ f.width))) ∧
  (∀ (p : Principal) (s : State), odGranted s p 0x0202 4 [0x5A] →
    (s.sys.lostHalf = some p.half →
      ∃ t, exec (.takePrimacy p) s = .next t ∧ odEnds t 0 ∧ huskEntered s t (halfOf (1 - p.half.val))) ∧
    (s.sys.lostHalf ≠ some p.half →
      ∃ t, exec (.takePrimacy p) s = .next t ∧ odEnds t 0x8E ∧ { t with out := s.out } = s))

/-- Leases, the grit line and the change of primary. -/
def Obligations.LeasesAndPrimacy : Prop :=
  Sys2Proof.Claims.LeaseAndGrit ∧
  Sys2Proof.Claims.PrimacyCommands

/-! ## The object dictionary (R417 to R423) -/

namespace Sys2Proof.Claims

/-- A direct request as R423 lays it out. -/
def reqOf (op : Nat) (type : Byte) (index : BitVec 16) (sub : Byte) (value : List Byte) : OdReq :=
  ⟨op, type.toNat, index.toNat, sub.toNat, 0, value.length, value⟩

/-- A parameter that a write only keeps. -/
def keptParams : List (Nat × Nat) :=
  [(0x0020, 1), (0x0030, 1), (0x0030, 2), (0x0040, 1), (0x0210, 1), (0x0410, 2), (0x0410, 4), (0x0420, 2), (0x0800, 1),
    (0x0801, 1), (0x1000, 2), (0x1010, 1), (0x1800, 2), (0x1800, 3), (0x1810, 1), (0x1820, 1), (0x1850, 8)]

end Sys2Proof.Claims

open Sys2Proof.Claims in
/-- Requests on the object dictionary (R417 to R423): each check's status, a request that fails one changes nothing, a read returns the
value and a write keeps it. -/
def Obligations.ObjectDictionary : Prop :=
  (∀ (src : OdSource) (s : State), s.dark = true → (∀ h, src ≠ .inBand h) →
    exec (.odRead src) s = .next s ∧ exec (.odWrite src) s = .next s) ∧
  (∀ (p : Principal) (type : Byte) (index : BitVec 16) (sub : Byte) (value : List Byte) (s : State), s.dark = false →
    (∀ x ∈ [(1, Instr.odRead (.direct p type index sub value)), (2, .odWrite (.direct p type index sub value))],
      (s.odCheck p (reqOf x.1 type index sub value) ≠ 0 →
        ∃ t, exec x.2 s = .next t ∧ t.out.status = s.odCheck p (reqOf x.1 type index sub value) ∧
          t.out.resp = odResponse (reqOf x.1 type index sub value) (s.odCheck p (reqOf x.1 type index sub value)) [] ∧
          { t with out := s.out } = s) ∧
      (0xC000 ≤ index.toNat → p.world = .topsoil → s.odCheck p (reqOf x.1 type index sub value) = 0x85) ∧
      ((index.toNat < 0xC000 ∨ p.world = .hardpan) →
        (odParam index.toNat sub.toNat = none → s.odCheck p (reqOf x.1 type index sub value) = 0x0C) ∧
        (∀ q, odParam index.toNat sub.toNat = some q →
          (type.toNat ≠ q.ty.code → s.odCheck p (reqOf x.1 type index sub value) = 0x05) ∧
          (type.toNat = q.ty.code →
            (((x.1 = 1 ∧ q.acc = .wo) ∨ (x.1 = 2 ∧ q.acc = .ro) ∨ odRights p (reqOf x.1 type index sub value) q = false) →
              s.odCheck p (reqOf x.1 type index sub value) = 0x85) ∧
            (x.1 = 2 → q.acc ≠ .ro → odRights p (reqOf 2 type index sub value) q = true →
              s.odElsewhere p (reqOf 2 type index sub value) = false →
              (s.sys.mode = .seal → odInSeal (reqOf 2 type index sub value) = false →
                s.odCheck p (reqOf 2 type index sub value) = 0x87) ∧
              (s.sys.mode ≠ .seal → s.sys.mode ≠ .prove →
                ((value.length < q.lo ∨ q.hi < value.length) → s.odCheck p (reqOf 2 type index sub value) = 0x08) ∧
                (q.lo ≤ value.length → value.length ≤ q.hi →
                  odInRange index.toNat sub.toNat (ofLe value) value = false →
                  s.odCheck p (reqOf 2 type index sub value) = 0x05)))))))) ∧
  (∀ (p : Principal) (type : Byte) (index : BitVec 16) (sub : Byte) (value : List Byte) (s : State) (q : OdParam),
    s.dark = false → odParam index.toNat sub.toNat = some q →
    (s.odCheck p (reqOf 1 type index sub value) = 0 → (s.odValue index.toNat sub.toNat q).length ≤ 4096 →
      ∃ t, exec (.odRead (.direct p type index sub value)) s = .next t ∧ t.out.status = 0 ∧
        t.out.resp = odResponse (reqOf 1 type index sub value) 0 (s.odValue index.toNat sub.toNat q) ∧
        ((index.toNat, sub.toNat) ≠ (0x1010, 2) → { t with out := s.out } = s)) ∧
    (s.odCheck p (reqOf 2 type index sub value) = 0 →
      ((index.toNat, sub.toNat) ∈ keptParams →
        ∃ t, exec (.odWrite (.direct p type index sub value)) s = .next t ∧ t.out.status = 0 ∧
          t.od index.toNat sub.toNat = ofLe value ∧
          (∀ i j, j < 256 → sub.toNat < 256 → (i, j) ≠ (index.toNat, sub.toNat) → t.od i j = s.od i j) ∧
          { t with out := s.out, sys := { t.sys with od := s.sys.od } } = s) ∧
      (index.toNat = 0x0400 →
        ∃ t, exec (.odWrite (.direct p type index sub value)) s = .next t ∧ t.out.status = 0 ∧
          t.od 0x0400 1 = ofLe value ∧
          ∀ i, i < 2 → s.rf Reg.PWR_FALLOW.state i ≠ 2 → t.rf Reg.PWR_POWER.limit_w i = max 600 (min 850 (ofLe value)))))

open Sys2Proof.Claims in
/-- The paths of requests (R427, R445): the descriptors of the Tilth TI, Hardpan's TLT_HPOD and MCTP's vendor-defined messages carry the
same request, each with its own principal. -/
def Sys2Proof.Claims.RequestPaths : Prop :=
  (∀ (h : Half) (s : State), exec (.odRead (.inBand h)) s = exec (.odCmd h) s ∧ exec (.odWrite (.inBand h)) s = exec (.odCmd h) s ∧
    ((s.dspOf h.val).tilth = [] → exec (.odCmd h) s = .next s) ∧
    (∀ e rest, (s.dspOf h.val).tilth = e :: rest → ∀ s0, s0 = s.updDsp h.val (fun d => { d with tilth := rest }) →
      (∀ m u, s0.readMem (tilthReq h) .read (e.fld 0x28 8) 8 = (m, u) → m = .unmapped ∨ m = .refused →
        exec (.odCmd h) s = .next (u.dspMake { e.dspRec (if m = .unmapped then 0x0D else 0x42) 0xFFFF with result := 0 })) ∧
      (∀ hd v a b resp w bs z x, s0.readMem (tilthReq h) .read (e.fld 0x28 8) 8 = (.data hd false, a) →
        a.readMem (tilthReq h) .read (e.fld 0x28 8 + 8) (min 4096 (ofLe ((hd.drop 6).take 2))) = (.data v false, b) →
        b.odRun ⟨.topsoil, if b.od 0x0030 1 = 1 then 1 else 0, h, false⟩ (OdReq.parse (hd ++ v)) (e.fld 0x3C 4) = (resp, w) →
        (w.respond resp).writeMem (tilthReq h) (e.fld 0x40 8) (resp.take (e.fld 0x3C 4)) = (.data bs z, x) →
        exec (.odCmd h) s = .next (x.dspMake { e.dspRec (resp.getD 1 0).toNat 0xFFFF with result := resp.length })))) ∧
  (∀ (q : Requester) (h : Half) (v : Word) (s : State), s.mayWrite q 0x11 h.val 0x200 → q.actor = .h →
    ∀ hd d a b resp w, (s.setf Reg.TLT_HPOD.addr h.val (v.toNat / 2 ^ 6 % 2 ^ 46)).readMem (hwReq h (tStop h.val)) .read
        (64 * (v.toNat / 2 ^ 6 % 2 ^ 46)) 8 = (.data hd false, a) →
      a.readMem (hwReq h (tStop h.val)) .read (64 * (v.toNat / 2 ^ 6 % 2 ^ 46) + 8) (min 4096 (ofLe ((hd.drop 6).take 2))) =
        (.data d false, b) →
      b.odRun ⟨.hardpan, 2, h, false⟩ (OdReq.parse (hd ++ d)) 4104 = (resp, w) →
      exec (.tltHpodGo q h v) s =
        .next ((w.respond resp).writeMem (hwReq h (tStop h.val)) (64 * (v.toNat / 2 ^ 6 % 2 ^ 46)) resp).2) ∧
  (∀ (h : Half) (msg : List Byte) (s : State),
    ((s.dark = true ∨ 1024 < msg.length ∨ msg.take 6 ≠ [0x7F, 0x00, 0x00, 0xB9, 0x15, 0x01]) →
      exec (.mctpVendorRequest h msg) s = .next s) ∧
    (s.dark = false → msg.length ≤ 1024 → msg.take 6 = [0x7F, 0x00, 0x00, 0xB9, 0x15, 0x01] →
      ∃ t resp, exec (.mctpVendorRequest h msg) s = .next t ∧
        resp = (s.odRun ⟨.topsoil, if s.od 0x0040 1 = 1 then 1 else 0, h, false⟩ (OdReq.parse (msg.drop 6)) 1018).1 ∧
        t.out.resp = resp ∧ t.out.frames.head? = some ([0x7F, 0x00, 0x00, 0xB9, 0x15, 0x01] ++ resp))) ∧
  (∀ (h : Half) (inst : Byte) (data : List Byte) (s : State), s.dark = false →
    (∀ e : Byte, 8 ≤ e.toNat → e.toNat ≠ 0xFF → data = [0, e] →
      ∃ t, exec (.mctpControl h inst 0x01 data) s = .next t ∧ SMap.get 0 t.tlt.eid h.val = e.toNat ∧
        t.out.resp = [0, BitVec.ofNat 8 (inst.toNat % 32), 1, 0, 0, e, 0]) ∧
    (∀ cmd : Byte, cmd ≠ 0x01 →
      ∃ t, exec (.mctpControl h inst cmd data) s = .next t ∧ t.tlt.eid = s.tlt.eid ∧
        (cmd = 0x02 → t.out.resp = [0, BitVec.ofNat 8 (inst.toNat % 32), 2, 0, BitVec.ofNat 8 (SMap.get 0 s.tlt.eid h.val), 0, 0]) ∧
        (cmd ∉ [0x02, 0x0B, 0x0C] → t.out.resp = [0, BitVec.ofNat 8 (inst.toNat % 32), cmd, 5])) ∧
    (∀ addr : Fin 128, ∃ t, exec (.entdaa h addr) s = .next t ∧ SMap.get 0 t.tlt.i3cAddr h.val = addr.val ∧
      { t with tlt := s.tlt } = s))

/-! ## Sessions (R424 to R426) -/

namespace Sys2Proof.Claims

/-- The frame is dropped and counted (R424). -/
def frameDropped (s t : State) (h : Half) : Prop :=
  SMap.get 0 t.tlt.dropped h.val = min (2 ^ 32 - 1) (SMap.get 0 s.tlt.dropped h.val + 1) ∧
    { t with tlt := { t.tlt with dropped := s.tlt.dropped } } = s

/-- A CLOSE frame with a status is the last one sent (R426). -/
def closedWith (t : State) (sid status : Nat) : Prop := t.out.frames.head? = some (omClose sid 0 status)

/-- The opening's signature verifies with its credential's key (R425). -/
def finishGood (s : State) (o : Opening) (f : List Byte) : Bool :=
  let c := s.odBlob 0x0010 o.cred
  !c.all (· == 0) && Crypto.p256.onCurve (credKey c).1 (credKey c).2 &&
    Crypto.p256.verify (credKey c).1 (credKey c).2 (Crypto.sha256 (o.covered ++ asNats (f.take 20))) (asNats (f.drop 20))

end Sys2Proof.Claims

open Sys2Proof.Claims in
/-- Sessions of the management port (R424 to R426): malformed frames are dropped and counted, HELLO opens an offer, FINISH a session,
REQUEST runs an authenticated request once, and an idle session is closed. -/
def Sys2Proof.Claims.Sessions : Prop :=
  (∀ (h : Half) (peer : BitVec 128) (f : List Byte) (s : State), s.dark = true → exec (.hello h peer f) s = .next s ∧
    exec (.finish h f) s = .next s ∧ exec (.request h f) s = .next s) ∧
  (∀ (h : Half) (peer : BitVec 128) (f : List Byte) (s : State), s.dark = false →
    ((omGood f 1 0 = false ∨ omFld f 0x10 2 ≠ 98) → ∃ t, exec (.hello h peer f) s = .next t ∧ frameDropped s t h) ∧
    (omGood f 1 0 = true → omFld f 0x10 2 = 98 →
      (64 ≤ s.tlt.sessions.length → ∃ t, exec (.hello h peer f) s = .next t ∧ closedWith t 0 0x8E ∧ t.tlt = s.tlt) ∧
      (s.tlt.sessions.length < 64 → ∀ n, n = omFld f 116 1 →
        ((n = 0 ∨ 32 < n ∨ (s.odBlob 0x0010 n).all (· == 0) = true) →
          ∃ t, exec (.hello h peer f) s = .next t ∧ closedWith t 0 0x85 ∧ t.tlt.sessions = s.tlt.sessions ∧
            t.tlt.opening = s.tlt.opening) ∧
        (n ≠ 0 → n ≤ 32 → (s.odBlob 0x0010 n).all (· == 0) = false →
          ∃ t o body, exec (.hello h peer f) s = .next t ∧
            SMap.get none t.tlt.opening ((s.tlt.nextSid + 1) % 2 ^ 32) = some o ∧ o.half = h.val ∧ o.cred = n ∧
            o.peer = peer.toNat ∧ o.clientKey = asNats ((f.drop 52).take 64) ∧ t.tlt.nextSid = s.tlt.nextSid + 1 ∧
            t.out.frames = (omHeader 2 ((s.tlt.nextSid + 1) % 2 ^ 32) 0 160 ++ body) :: s.out.frames ∧
            t.tlt.sessions = s.tlt.sessions)))) ∧
  (∀ (h : Half) (f : List Byte) (s : State) (sid : Nat), s.dark = false → sid = omFld f 4 4 →
    ((omGood f 3 0 = false ∨ omFld f 0x10 2 ≠ 64 ∨ SMap.get none s.tlt.opening sid = none) →
      ∃ t, exec (.finish h f) s = .next t ∧ frameDropped s t h) ∧
    (∀ o, SMap.get none s.tlt.opening sid = some o → o.half ≠ h.val → ∃ t, exec (.finish h f) s = .next t ∧ frameDropped s t h) ∧
    (∀ o, omGood f 3 0 = true → omFld f 0x10 2 = 64 → SMap.get none s.tlt.opening sid = some o → o.half = h.val →
      (∀ k, finishGood s o f = true → o.keys = some k →
        ∃ t x, exec (.finish h f) s = .next t ∧ t.sessionAt sid = some x ∧ x.half = h.val ∧
          x.world = ((s.odBlob 0x0010 o.cred).getD 64 0).toNat ∧ x.role = ((s.odBlob 0x0010 o.cred).getD 65 0).toNat ∧
          x.cred = o.cred ∧ x.peer = o.peer ∧ x.keyIn = k.take 32 ∧ x.seqIn = 0 ∧
          SMap.get none t.tlt.opening sid = none) ∧
      ((finishGood s o f = false ∨ o.keys = none) →
        ∃ t, exec (.finish h f) s = .next t ∧ closedWith t sid 0x85 ∧ t.tlt.sessions = s.tlt.sessions ∧
          SMap.get none t.tlt.opening sid = none))) ∧
  (∀ (h : Half) (f : List Byte) (s : State) (sid : Nat), s.dark = false → sid = omFld f 4 4 →
    ((omGood f 0x10 16 = false ∨ s.sessionAt sid = none) → ∃ t, exec (.request h f) s = .next t ∧ frameDropped s t h) ∧
    (∀ x, omGood f 0x10 16 = true → s.sessionAt sid = some x →
      ∀ good, good = decide (x.half = h.val ∧ Crypto.gcmTag x.keyIn (x.saltIn ++ asNats (leBytes 8 (omFld f 8 8))) (asNats (f.take 20))
          (asNats ((f.drop 20).take (omFld f 0x10 2))) = asNats (f.drop (20 + omFld f 0x10 2))) →
        (good = false → ∃ t, exec (.request h f) s = .next t ∧ frameDropped s t h) ∧
        (good = true → omFld f 8 8 < x.seqIn → exec (.request h f) s = .next s) ∧
        (good = true → x.seqIn ≤ omFld f 8 8 →
          ∃ t resp w frame, exec (.request h f) s = .next t ∧
            (s.setSession sid (some { x with seqIn := omFld f 8 8 + 1, seen := s.strata.tick, seqOut := x.seqOut + 1 })).odRun
              ⟨if x.world = 0 then .topsoil else .hardpan, ⟨min x.role 2, by omega⟩, h, true⟩
              (OdReq.parse (asBytes (Crypto.gcmCtr x.keyIn (x.saltIn ++ asNats (leBytes 8 (omFld f 8 8)))
                (asNats ((f.drop 20).take (omFld f 0x10 2)))))) 4104 = (resp, w) ∧
            t.out.resp = resp ∧ t.out.frames = frame :: w.out.frames ∧ frame.take 20 = omHeader 0x11 sid x.seqOut resp.length ∧
            { t with out := w.out } = w))) ∧
  (∀ (sid : BitVec 32) (s : State),
    (s.sessionAt sid.toNat = none → exec (.sessionIdleTimeout sid) s = .next s) ∧
    (∀ x, s.sessionAt sid.toNat = some x →
      (s.strata.tick < x.seen + s.od 0x0020 1 * 1000000000 → exec (.sessionIdleTimeout sid) s = .next s) ∧
      (x.seen + s.od 0x0020 1 * 1000000000 ≤ s.strata.tick →
        ∃ t st, exec (.sessionIdleTimeout sid) s = .next t ∧ t.sessionAt sid.toNat = none ∧
          t.out.frames = omClose sid.toNat x.seqOut st :: s.out.frames ∧ t.sys = s.sys ∧ t.regs = s.regs)))

/-- The ways a request reaches Tilth and its sessions. -/
def Obligations.RequestsAndSessions : Prop :=
  Sys2Proof.Claims.RequestPaths ∧
  Sys2Proof.Claims.Sessions

/-! ## The persistent store and the calibration set (R428 to R431) -/

open Sys2Proof.Claims in
/-- The persistent store and the calibration set (R428, R430, R431): a store runs alone and within the rail windows, and records its
end; chunks of the set are read and staged in turn; a commit checks the serial and puts the set into force. -/
def Obligations.StoreAndCalibration : Prop :=
  (∀ (p : Principal) (s : State), odGranted s p 0x1C90 1 [0x53] →
    (s.tlt.storing.isSome = true →
      ∃ t, exec (.storeStart p) s = .next t ∧ odEnds t 0x8E ∧ { t with out := s.out } = s) ∧
    (s.tlt.storing = none → s.railsOut = true →
      ∃ t, exec (.storeStart p) s = .next t ∧ odEnds t 0x8B ∧ t.tlt.storing = none ∧ t.tlt.lastStatus = 0x8B) ∧
    (s.tlt.storing = none → s.railsOut = false →
      ∃ t, exec (.storeStart p) s = .next t ∧ odEnds t 0 ∧ t.tlt.storing = some s.odWork ∧ t.tlt.stored = s.tlt.stored ∧
        { t with tlt := s.tlt, out := s.out } = s)) ∧
  (∀ s : State, (s.tlt.storing = none → exec .storeDone s = .next s) ∧
    (∀ w, s.tlt.storing = some w →
      (s.tlt.storeAgain = [] →
        ∃ t, exec .storeDone s = .next t ∧ t.tlt.storing = none ∧ t.tlt.lastStatus = 0 ∧ t.tlt.lastMask = w.bit ∧
          (∀ nums blobs, w = .od nums blobs → t.tlt.storedBlob = blobs ∧
            ∀ k, k ≠ odKey 0x0100 5 → SMap.get 0 t.tlt.stored k = SMap.get 0 nums k) ∧
          (∀ c, w = .cal c → t.tlt.calStored = c ∧ t.tlt.stored = s.tlt.stored) ∧
          (∀ r bs, w = .fw r bs → SMap.get [] t.tlt.fw r = bs ∧ t.tlt.stored = s.tlt.stored) ∧
          (w = .boot true → SMap.get false t.tlt.broken 0x3E = false ∧ t.tlt.stored = s.tlt.stored)) ∧
      (∀ w' rest, s.tlt.storeAgain = w' :: rest → s.railsOut = false →
        ∃ t, exec .storeDone s = .next t ∧ t.tlt.storing = some w' ∧ t.tlt.storeAgain = rest ∧ t.tlt.lastStatus = 0))) ∧
  (∀ (p : Principal) (s : State), s.dark = false → s.odCheck p ⟨1, 0x0A, 0x1010, 2, 0, 0, []⟩ = 0 →
    ∃ t, exec (.calChunkRead p) s = .next t ∧ t.out.status = 0 ∧
      t.out.resp.drop 8 = (s.calBody.drop (s.od 0x1010 1)).take 4096 ∧
      t.od 0x1010 1 = s.od 0x1010 1 + ((s.calBody.drop (s.od 0x1010 1)).take 4096).length) ∧
  (∀ (p : Principal) (bs : List Byte) (s : State), odGranted s p 0x1010 3 bs → s.sys.mode ≠ .root → s.sys.mode ≠ .prove →
    s.sys.mode ≠ .tune →
    (1048512 < s.od 0x1010 1 + bs.length →
      ∃ t, exec (.calChunkWrite p bs) s = .next t ∧ odEnds t 8 ∧ { t with out := s.out } = s) ∧
    (s.od 0x1010 1 + bs.length ≤ 1048512 →
      ∃ t, exec (.calChunkWrite p bs) s = .next t ∧ odEnds t 0 ∧ t.od 0x1010 1 = s.od 0x1010 1 + bs.length ∧
        t.tlt.stagingLen = some (max (s.tlt.stagingLen.getD 0) (s.od 0x1010 1 + bs.length)) ∧
        (∀ k, SMap.get 0 t.tlt.staging k =
          if s.od 0x1010 1 ≤ k ∧ k < s.od 0x1010 1 + bs.length then bs.getD (k - s.od 0x1010 1) 0
          else SMap.get 0 s.tlt.staging k) ∧ t.tlt.cal = s.tlt.cal)) ∧
  (∀ (p : Principal) (s : State) (body : List Byte), odGranted s p 0x1010 4 [0x43] → s.sys.mode ≠ .root → s.sys.mode ≠ .prove →
    s.sys.mode ≠ .tune → body = (List.range (s.tlt.stagingLen.getD 0)).map (fun i => SMap.get 0 s.tlt.staging i) →
    ((body.length < 16 ∨ body.take 16 ≠ serialBytes) →
      ∃ t, exec (.calCommit p) s = .next t ∧ odEnds t 5 ∧ { t with out := s.out } = s) ∧
    (16 ≤ body.length → body.take 16 = serialBytes → s.tlt.storing = none → s.railsOut = false →
      ∃ t, exec (.calCommit p) s = .next t ∧ odEnds t 0 ∧ t.sys.trimmed = true ∧ bothAre t Reg.STR_STATUS.untrimmed 0 ∧
        t.tlt.cal.base = some body ∧
        t.tlt.stagingLen = none ∧ t.tlt.storing = some (.cal t.tlt.cal))) ∧
  (∀ (p : Principal) (s : State), odGranted s p 0x1010 4 [0x44] → s.sys.mode ≠ .root → s.sys.mode ≠ .prove →
    s.sys.mode ≠ .tune →
    ∃ t, exec (.calDiscard p) s = .next t ∧ odEnds t 0 ∧ t.tlt.staging = [] ∧ t.tlt.stagingLen = none ∧
      t.tlt.cal = s.tlt.cal)

/-! ## Start-up (R456 to R466) -/

namespace Sys2Proof.Claims

/-- Steps 2 and 3 of ROOT are done (R409, R459): the primary is chosen by the straps, the boot count of the store `u` has advanced, and
the device seals itself or goes on to its firmware. -/
def rootDecided (u : Tlt) (t : State) (straps : Nat) (sealing : Prop) : Prop :=
  t.sys.primary = halfOf (if straps.testBit 0 = true ∧ straps.testBit 1 = true then 1 else 0) ∧
    t.od 0x0100 5 = (SMap.get 0 u.stored (odKey 0x0100 5) - 1) + 1 ∧
    (sealing → t.sys.mode = .seal ∧ bothAre t Reg.HPN_STATUS.state 4 ∧ t.rb Reg.HPN_TAMPER.latch 0 = true ∧
      t.tlt.sealedAtRoot = true ∧ t.tlt.root = .done) ∧
    (¬sealing → t.sys.mode = .root ∧ t.tlt.root = .firmware)

/-- ROOT is over: PROVE begins, or TEST_MODE holds the device (R459). -/
def rootOver (s t : State) : Prop :=
  if s.tlt.straps.testBit 3 = true then t.sys.mode = .root ∧ t.tlt.root = .test else t.sys.mode = .prove ∧ t.tlt.root = .done

end Sys2Proof.Claims

open Sys2Proof.Claims in
/-- ROOT (R456 to R461, R480): its start, the rails, the cold hold, the firmware of both halves with the load of the stored values,
and the bridge. -/
def Sys2Proof.Claims.RootStages : Prop :=
  (∀ (straps : Fin 16) (cold grit rb ob cb : Bool) (s : State),
    (s.sys.mode ≠ .off → (s.sys.mode ≠ .root ∨ (s.tlt.root ≠ .none ∧ s.tlt.root ≠ .rails)) →
      exec (.rootStart straps cold grit rb ob cb) s = .next s) ∧
    ((s.sys.mode = .off ∨ (s.sys.mode = .root ∧ (s.tlt.root = .none ∨ s.tlt.root = .rails))) →
      ∃ t, exec (.rootStart straps cold grit rb ob cb) s = .next t ∧ t.tlt.straps = straps.val ∧
        t.rf Reg.TLT_PRIM.strap 0 = b2n (straps.val.testBit 0) ∧ t.rf Reg.TLT_PRIM.strap 1 = b2n (straps.val.testBit 1) ∧
        bothAre t Reg.TLT_PRIM.grit_ok (b2n grit) ∧ SMap.get false t.tlt.pins 0 = false ∧
        (s.railsOut = true → t.sys.mode = .root ∧ t.tlt.root = .rails) ∧
        (s.railsOut = false → cold = true → t.sys.mode = .root ∧ t.tlt.root = .cold) ∧
        (s.railsOut = false → cold = false →
          ∀ u, u = (if s.sys.mode = .off then s.tlt.storeCut else s.tlt) →
            rootDecided u t straps.val ((s.sys.mode = .root ∧ s.rb Reg.HPN_TAMPER.latch 0 = true) ∨ s.sys.vaonRecord = true ∨
              rb = true ∨ SMap.get false u.broken 0x3E = true)))) ∧
  (∀ s : State,
    ((s.sys.mode = .root ∧ s.tlt.root = .rails) →
      ∃ t, exec .rootRailTimeout s = .next t ∧ t.sys.mode = .root ∧ t.tlt.root = .railsDead ∧
        SMap.get false t.tlt.pins 0 = true) ∧
    ((s.sys.mode ≠ .root ∨ s.tlt.root ≠ .rails) → exec .rootRailTimeout s = .next s) ∧
    ((s.sys.mode = .root ∧ s.tlt.root = .cold) →
      ∃ t, exec .coldHoldEnd s = .next t ∧ rootDecided s.tlt t s.tlt.straps
        (s.rb Reg.HPN_TAMPER.latch 0 = true ∨ s.sys.vaonRecord = true ∨ s.tlt.found.recordBad = true ∨
          SMap.get false s.tlt.broken 0x3E = true)) ∧
    ((s.sys.mode ≠ .root ∨ s.tlt.root ≠ .cold) → exec .coldHoldEnd s = .next s)) ∧
  (∀ (h : Half) (ok : Bool) (s : State) (n o : Nat), n = SMap.get 0 s.tlt.fwTries h.val → o = SMap.get 0 s.tlt.fwTries (1 - h.val) →
    ((s.sys.mode ≠ .root ∨ s.tlt.root ≠ .firmware ∨ 2 ≤ n) → exec (.tilthFirmwareVerified h ok) s = .next s) ∧
    (s.sys.mode = .root → s.tlt.root = .firmware → n < 2 →
      ∃ t, exec (.tilthFirmwareVerified h ok) s = .next t ∧ t.sys.mode = .root ∧
        SMap.get 0 t.tlt.fwTries h.val = (if ok = true then 3 else n + 1) ∧
        SMap.get 0 t.tlt.fwTries (1 - h.val) = o ∧
        (ok = false → n = 1 → SMap.get false t.tlt.pins 0 = true) ∧
        ((o < 2 ∨ (ok = false ∧ (n = 0 ∨ o = 2))) → t.tlt.root = .firmware) ∧
        (2 ≤ o → (ok = true ∨ (n = 1 ∧ o ≠ 2)) → t.tlt.root = .bridge ∧ t.sys.tilthTi = t.od 0x0030 2 ∧
          t.rf Reg.TIF_CFG.priv t.sys.tilthTi = 2 ∧
          (∀ l, t.isHardpanCore l = true → l < 256 → (t.core (t.physOf l)).hard = true ∧ (t.core (t.physOf l)).level = 3 ∧
            t.held (coreHalf (t.physOf l)) (coreDom (t.physOf l)) = true) ∧
          ∀ r, r < 8 → (railRange r).1 ≤ t.rf Reg.PWR_RAIL.set_mv (t.railHalf r) r ∧
            t.rf Reg.PWR_RAIL.set_mv (t.railHalf r) r ≤ (railRange r).2))) ∧
  (∀ s : State,
    ((s.sys.mode = .root ∧ s.tlt.root = .bridge) →
      (s.halfDead 0 = false → s.halfDead 1 = false →
        ∃ t, exec .bridgeTrained s = .next t ∧ t.sys.bridgeUp = true ∧ t.sys.lostHalf = s.sys.lostHalf ∧ rootOver s t) ∧
      ((s.halfDead 0 = true ∨ s.halfDead 1 = true) → exec .bridgeTrained s = .next s) ∧
      (∀ l, l = (if s.halfDead 0 = true then 0 else if s.halfDead 1 = true then 1 else 1 - s.sys.primary.val) →
        ∃ t, exec .bridgeTrainTimeout s = .next t ∧ t.sys.lostHalf = some (halfOf l) ∧ t.sys.bridgeUp = false ∧
          t.sys.primary = halfOf (1 - l) ∧ rootOver s t)) ∧
    ((s.sys.mode ≠ .root ∨ s.tlt.root ≠ .bridge) →
      exec .bridgeTrained s = .next s ∧ exec .bridgeTrainTimeout s = .next s))

open Sys2Proof.Claims in
/-- PROVE and TUNE (R462 to R466): a half that fails PROVE is lost, with none left ERROR_N is asserted; TUNE, which goes on in the HUSK
that a loss during it entered (log entry 229), fixes the DRAM sizes and the time source; Hardpan's boot is tried three times; and a waiting core is released. -/
def Sys2Proof.Claims.ProveAndTune : Prop :=
  (∀ (fails : List ProveFail) (n : BitVec 16) (s : State),
    ((s.sys.mode ≠ .prove ∨ s.tlt.root ≠ .done) → exec (.prove fails n) s = .next s) ∧
    (s.sys.mode = .prove → s.tlt.root = .done →
      ∀ fs good, fs = fails.filter (fun f => s.liveHalves.contains (f.stop.toNat / 256)) →
        good = s.liveHalves.filter (fun h => !provesBad fs h) →
        ∃ t, exec (.prove fails n) s = .next t ∧ t.tlt.root = .proved ∧
          (∀ h ∈ s.liveHalves, t.rf Reg.RAS_POST.pass h = b2n !(provesBad fs h) ∧ t.rf Reg.RAS_POST.tested h = n.toNat % 2 ^ Reg.RAS_POST.tested.width) ∧
          (∀ f ∈ fs, ∀ c, f.unit = .channel c → (t.chan c.val).failed = true) ∧
          (good = [] → t.sys.mode = .prove ∧ SMap.get false t.tlt.pins 0 = true) ∧
          (∀ h, good = [h] → s.liveHalves.length = 2 → t.sys.mode = .tune ∧ t.sys.lostHalf = some (halfOf (1 - h)) ∧
            t.sys.primary = halfOf h) ∧
          (good = s.liveHalves → good ≠ [] → t.sys.mode = .tune ∧ t.sys.lostHalf = s.sys.lostHalf))) ∧
  (∀ s : State,
    (((s.sys.mode ≠ .tune ∧ s.sys.mode ≠ .husk) ∨ s.tlt.root ≠ .proved) → exec Instr.tune s = .next s) ∧
    ((s.sys.mode = .tune ∨ s.sys.mode = .husk) → s.tlt.root = .proved →
      ∃ t, exec Instr.tune s = .next t ∧ t.tlt.root = .tuned ∧ t.sys.mode = s.sys.mode ∧ t.strata.time = 0 ∧
        t.rf Reg.STR_CTL.source s.sys.primary.val = s.od 0x0800 1 % 4 ∧
        t.sys.s0 = (if 0 ∈ s.liveHalves then (s.tuneDram 0).1 else 0) ∧
        t.sys.s1 = (if 1 ∈ s.liveHalves then ((if 0 ∈ s.liveHalves then (s.tuneDram 0).2 else s).tuneDram 1).1 else 0) ∧
        (∀ p, p < 8 → SMap.get 0 t.prt.bifur p = s.od 0x1810 (p + 1)) ∧ t.tlt.uefKept = none)) ∧
  (∀ s : State,
    (((s.sys.mode ≠ .tune ∧ s.sys.mode ≠ .husk) ∨ s.tlt.root ≠ .tuned ∨ s.rf Reg.HPN_STATUS.state s.sys.primary.val ≠ 0) →
      exec .hardpanBootTimeout s = .next s) ∧
    ((s.sys.mode = .tune ∨ s.sys.mode = .husk) → s.tlt.root = .tuned → s.rf Reg.HPN_STATUS.state s.sys.primary.val = 0 →
      ∃ t, exec .hardpanBootTimeout s = .next t ∧ t.tlt.bootTries = s.tlt.bootTries + 1 ∧
        (∀ l, s.isHardpanCore l = true → (t.core (s.physOf l)).run = .reset) ∧
        (s.tlt.bootTries = 2 → bothAre t Reg.HPN_STATUS.state 2 ∧ SMap.get false t.tlt.pins 0 = true) ∧
        (s.tlt.bootTries ≠ 2 → t.tlt.pins = s.tlt.pins ∧ t.rf Reg.HPN_STATUS.state s.sys.primary.val = 0))) ∧
  (∀ (q : Requester) (c : CoreId) (v : Word) (s : State), s.mayWrite q 0x01 c.val 0x100 → (q.actor = .h ∨ q.actor = .m) →
    ((s.core c.val).run = .reset →
      ∃ t, exec (.knxStartRelease q c v) s = .next t ∧ (t.core c.val).run = .running ∧
        (t.core c.val).pc = w64 (4 * (v.toNat / 4)) ∧ (∀ j, j ≠ c.val → t.core j = s.core j) ∧
        (s.sys.mode ≠ .tune → t.sys.mode = s.sys.mode) ∧
        (s.sys.mode = .tune → t.sys.mode = .tune ∨ t.sys.mode = .field ∨ t.sys.mode = .husk)) ∧
    ((s.core c.val).run ≠ .reset →
      ∃ t, exec (.knxStartRelease q c v) s = .next t ∧ s.onlyRegs t ∧ t.rf Reg.KNX_START.pc c.val = v.toNat / 4))

/-- The start from ROOT through PROVE and TUNE. -/
def Obligations.StartUp : Prop :=
  Sys2Proof.Claims.RootStages ∧
  Sys2Proof.Claims.ProveAndTune

/-! ## Resets, HOLD and power-down (R458, R468 to R472) -/

namespace Sys2Proof.Claims

/-- The device is in ROOT after a package reset (R471, R472): every register at its reset value but what VAON holds, the store kept but
for what was being written (R429), CXL memory kept, and keys, custody, sessions and engines gone. -/
def wasReset (s t : State) (latch cause : Nat) : Prop :=
  t.sys.mode = .root ∧ bothAre t Reg.PWR_WATCH.wake_cause 3 ∧ bothAre t Reg.HPN_TAMPER.latch latch ∧
    bothAre t Reg.HPN_TAMPER.first_cause cause ∧
    bothAre t Reg.PWR_WATCH.wake_addr (s.rf Reg.PWR_WATCH.wake_addr 0 % 2 ^ 7) ∧
    (∀ (f : Fld) (i j : Nat), f.id ∉ [Reg.PWR_WATCH.wake_cause.id, Reg.HPN_TAMPER.latch.id, Reg.HPN_TAMPER.first_cause.id,
      Reg.PWR_WATCH.wake_addr.id] → t.rf f i j = f.reset i j) ∧
    t.mem = s.mem.cxlOnly ∧ t.cores = [] ∧ t.engines = [] ∧ t.keySlots = [] ∧ t.custody = Custody.empty ∧
    t.strata = Strata.empty ∧ t.tlt.sessions = [] ∧ t.tlt.storing = none ∧ t.tlt.stored = s.tlt.storeCut.stored ∧
    t.tlt.storedBlob = s.tlt.storedBlob ∧
    t.tlt.calStored = s.tlt.calStored ∧ t.pwr.hours = s.pwr.hours

end Sys2Proof.Claims

open Sys2Proof.Claims in
/-- What resets the die (R457, R470 to R472): RESET_N, the fall of PWR_GOOD, the command, the loss of VAON, and the unseal, which alone
clears the seal latch. -/
def Sys2Proof.Claims.PackageResets : Prop :=
  (∀ s : State,
    (s.dark = true → exec .resetNAssert s = .next s ∧ exec .pwrGoodFall s = .next s) ∧
    (s.dark = false →
      (∃ t, exec .resetNAssert s = .next t ∧
        wasReset s t (s.rf Reg.HPN_TAMPER.latch 0 % 2) (s.rf Reg.HPN_TAMPER.first_cause 0 % 16) ∧
        t.sys.vaonRecord = (s.sys.vaonRecord && s.railsOut)) ∧
      (∃ t, exec .pwrGoodFall s = .next t ∧
        wasReset s t (s.rf Reg.HPN_TAMPER.latch 0 % 2) (s.rf Reg.HPN_TAMPER.first_cause 0 % 16) ∧
        t.sys.vaonRecord = s.sys.vaonRecord))) ∧
  (∀ (p : Principal) (s : State), odGranted s p 0x0205 3 [0x52] →
    ∃ t, exec (.packageResetCommand p) s = .next t ∧ odEnds t 0 ∧
      wasReset s t (s.rf Reg.HPN_TAMPER.latch 0 % 2) (s.rf Reg.HPN_TAMPER.first_cause 0 % 16) ∧
      t.sys.vaonRecord = (s.sys.vaonRecord && s.railsOut)) ∧
  (∀ s : State, ∃ t, exec .vaonLoss s = .next t ∧ t.sys.mode = .off ∧ (∀ (f : Fld) (i j : Nat), t.rf f i j = f.reset i j) ∧
    t.mem = s.mem.cxlOnly ∧ t.custody = Custody.empty ∧ t.tlt.vaonArm = 0 ∧ t.tlt.stored = s.tlt.storeCut.stored) ∧
  (∀ (p : Principal) (s : State), odGranted s p 0x0203 1 [0x55] →
    ((p.session = true ∧ s.sys.mode = .seal ∧ s.tlt.sealedAtRoot = true ∧ s.loopsGood = true) →
      ∃ t, exec (.unseal p) s = .next t ∧ odEnds t 0 ∧ wasReset s t 0 0 ∧ t.sys.vaonRecord = false ∧ t.tlt.vaonArm = 0) ∧
    ((p.session = false ∨ s.sys.mode ≠ .seal ∨ s.tlt.sealedAtRoot = false ∨ s.loopsGood = false) →
      ∃ t, exec (.unseal p) s = .next t ∧ odEnds t 0x85 ∧ { t with out := s.out } = s))

open Sys2Proof.Claims in
/-- HOLD, the firmware regions and the orderly power-down (R458, R469): HOLD is entered when nothing is in flight and given up after
100 ms, and its end enters the next mode of R467 (log entry 228); only in HOLD is a firmware region selected, filled and stored. -/
def Sys2Proof.Claims.HoldAndFirmware : Prop :=
  (∀ (p : Principal) (s : State),
    (odGranted s p 0x0204 1 [0x48] →
      ((s.sys.mode = .field ∨ s.sys.mode = .fallow) → s.tlt.holdFrom = none →
        ∃ t, exec (.holdEnter p) s = .next t ∧ odEnds t 0 ∧ t.tlt.holdFrom = some s.strata.tick ∧
          { t with out := s.out, tlt := s.tlt } = s) ∧
      (((s.sys.mode ≠ .field ∧ s.sys.mode ≠ .fallow) ∨ s.tlt.holdFrom.isSome = true) →
        ∃ t, exec (.holdEnter p) s = .next t ∧ odEnds t 0x8E ∧ { t with out := s.out } = s)) ∧
    (odGranted s p 0x0204 1 [0x46] →
      (s.sys.mode = .hold → ∃ t, exec (.holdExit p) s = .next t ∧ odEnds t 0 ∧ t.sys.mode = s.afterHold ∧ t.mem = s.mem) ∧
      (s.sys.mode ≠ .hold → ∃ t, exec (.holdExit p) s = .next t ∧ odEnds t 0x8E ∧ { t with out := s.out } = s))) ∧
  (∀ s : State,
    ((s.tlt.holdFrom = none ∨ s.inFlight = true) → exec .holdDrained s = .next s) ∧
    (s.tlt.holdFrom.isSome = true → s.inFlight = false →
      ∃ t, exec .holdDrained s = .next t ∧ t.tlt.holdFrom = none ∧
        t.sys.mode = if s.sys.mode = .field ∨ s.sys.mode = .fallow then .hold else s.sys.mode) ∧
    (∀ n, s.tlt.holdFrom = some n →
      ((s.strata.tick < n + 100000000 ∨ s.inFlight = false) → exec .holdTimeout s = .next s) ∧
      (n + 100000000 ≤ s.strata.tick → s.inFlight = true →
        ∃ t, exec .holdTimeout s = .next t ∧ t.tlt.holdFrom = none ∧ t.out.status = 0x83 ∧ t.sys = s.sys)) ∧
    (s.tlt.holdFrom = none → exec .holdTimeout s = .next s)) ∧
  (∀ (p : Principal) (s : State) (r : Byte) (bs : List Byte),
    (odGranted s p 0x0206 1 [r] →
      (s.sys.mode ≠ .hold → ∃ t, exec (.firmwareRegionSelect p r) s = .next t ∧ odEnds t 0x8E ∧ { t with out := s.out } = s) ∧
      (s.sys.mode = .hold → 2 < r.toNat →
        ∃ t, exec (.firmwareRegionSelect p r) s = .next t ∧ odEnds t 5 ∧ { t with out := s.out } = s) ∧
      (s.sys.mode = .hold → r.toNat ≤ 2 →
        ∃ t, exec (.firmwareRegionSelect p r) s = .next t ∧ odEnds t 0 ∧ t.tlt.fwSel = some r.toNat ∧ t.tlt.fwStage = [])) ∧
    (odGranted s p 0x0206 2 bs →
      (s.sys.mode ≠ .hold → ∃ t, exec (.firmwareChunk p bs) s = .next t ∧ odEnds t 0x8E ∧ { t with out := s.out } = s) ∧
      (s.sys.mode = .hold → s.tlt.fwSel = none →
        ∃ t, exec (.firmwareChunk p bs) s = .next t ∧ odEnds t 5 ∧ { t with out := s.out } = s) ∧
      (∀ n, s.sys.mode = .hold → s.tlt.fwSel = some n →
        (fwRoom n < s.tlt.fwStage.length + bs.length →
          ∃ t, exec (.firmwareChunk p bs) s = .next t ∧ odEnds t 8 ∧ { t with out := s.out } = s) ∧
        (s.tlt.fwStage.length + bs.length ≤ fwRoom n →
          ∃ t, exec (.firmwareChunk p bs) s = .next t ∧ odEnds t 0 ∧ t.tlt.fwStage = s.tlt.fwStage ++ bs ∧
            t.tlt.fwSel = some n))) ∧
    (odGranted s p 0x0206 3 [0x43] →
      (s.sys.mode ≠ .hold → ∃ t, exec (.firmwareStore p) s = .next t ∧ odEnds t 0x8E ∧ { t with out := s.out } = s) ∧
      (∀ n, s.sys.mode = .hold → s.tlt.fwSel = some n →
        (s.tlt.storing = none → s.railsOut = false →
          ∃ t, exec (.firmwareStore p) s = .next t ∧ odEnds t 0 ∧ t.tlt.storing = some (.fw n s.tlt.fwStage)) ∧
        (s.tlt.storing.isSome = true →
          ∃ t, exec (.firmwareStore p) s = .next t ∧ odEnds t 0x8E ∧ { t with out := s.out } = s)))) ∧
  (∀ (p : Principal) (s : State), odGranted s p 0x0205 1 [0x44] →
    (s.sys.mode = .seal → s.tlt.storing = none → s.railsOut = false →
      ∃ t, exec (.powerDown p) s = .next t ∧ odEnds t 0 ∧ t.sys.mode = .off ∧ t.tlt.poweredDown = true) ∧
    (s.sys.mode ≠ .seal →
      (s.pwr.watch = .none → s.pwr.dorm = none →
        ∃ t, exec (.powerDown p) s = .next t ∧ odEnds t 0 ∧
          t.pwr.watch = .hardpan true (if p.world = .topsoil then 0 else 2) ∧ t.sys.mode = s.sys.mode) ∧
      ((s.pwr.watch ≠ .none ∨ s.pwr.dorm.isSome = true) →
        ∃ t, exec (.powerDown p) s = .next t ∧ odEnds t 0x8E ∧ { t with out := s.out } = s)))

/-- Package resets, and HOLD with the change of firmware. -/
def Obligations.ResetsAndFirmware : Prop :=
  Sys2Proof.Claims.PackageResets ∧
  Sys2Proof.Claims.HoldAndFirmware

/-! ## Ports (R432 to R454) -/

open Sys2Proof.Claims in
/-- Links and references (R433, R434, R438, R439, R448): a root port or a sub-port that exists comes up or goes down, a CXL device is
removed, and a lost reference stops its clocks. -/
def Sys2Proof.Claims.Links : Prop :=
  (∀ (port : Fin 8) (rp : Fin 4) (link : Option Bool) (s : State),
    ((s.portsUp (port.val / 4) = false ∨ s.rootPorts port.val ≤ rp.val) → exec (.pcieLinkChange port rp link) s = .next s) ∧
    (s.portsUp (port.val / 4) = true → rp.val < s.rootPorts port.val →
      ∃ t, exec (.pcieLinkChange port rp link) s = .next t ∧
        (∀ k, SMap.get false t.sys.linkUp k =
          if k = port.val ∧ rp.val = 0 then link.getD (SMap.get false s.sys.linkUp k) else SMap.get false s.sys.linkUp k) ∧
        t.sys.mode = s.sys.mode ∧ (link = some true → s.sys.mode = .tune → t.mem = s.mem))) ∧
  (∀ (h : Half) (j : Fin 2) (s : State),
    (s.portsUp h.val = false → exec (.cxlLinkDown h j) s = .next s) ∧
    (s.portsUp h.val = true → ∃ t, exec (.cxlLinkDown h j) s = .next t ∧ ∀ k, SMap.get false t.sys.linkUp k =
      if k = 4 * h.val + j.val then false else SMap.get false s.sys.linkUp k)) ∧
  (∀ (h : Half) (x : Fin 4) (up : Bool) (s : State),
    ((s.portsUp h.val = false ∨ s.subportThere h.val x.val = false) → exec (.ethernetLinkChange h x up) s = .next s) ∧
    (s.portsUp h.val = true → s.subportThere h.val x.val = true →
      ∃ t, exec (.ethernetLinkChange h x up) s = .next t ∧ ∀ k, SMap.get false t.sys.ethUp k =
        if k = 4 * h.val + x.val then up else SMap.get false s.sys.ethUp k)) ∧
  (∀ s : State, (s.dark = true → exec .ethRefclkLoss s = .next s) ∧
    (s.dark = false → ∃ t, exec .ethRefclkLoss s = .next t ∧ t.sys.ethUp = [] ∧ t.sys.linkUp = s.sys.linkUp)) ∧
  (∀ (h : Half) (s : State), (s.portsUp h.val = false → exec (.pcieRefclkLoss h) s = .next s) ∧
    (s.portsUp h.val = true → ∃ t r, exec (.pcieRefclkLoss h) s = .next t ∧
      (t.rasHalf h.val).detected = (s.rasHalf h.val).detected ++ [r] ∧ r.cls = 3 ∧ r.source ≠ 0x21 ∧
      t.rf Reg.RAS_COUNT2.uef h.val = min (2 ^ Reg.RAS_COUNT2.uef.width - 1) (s.rf Reg.RAS_COUNT2.uef h.val + 1)))

namespace Sys2Proof.Claims

/-- A translation fault of an inbound access is recorded (R436). -/
def ioFaulted (u t : State) (p : Fin 8) (rid : BitVec 16) (write : Nat) : Prop :=
  t.rf Reg.PRT_IO_FAULT.rid (p.val / 4) = rid.toNat ∧ t.rf Reg.PRT_IO_FAULT.port (p.val / 4) = p.val % 4 ∧
    t.rf Reg.PRT_IO_FAULT.write (p.val / 4) = write ∧
    t.rf Reg.PRT_IO_FAULT.count (p.val / 4) = min 0xFFFF (u.rf Reg.PRT_IO_FAULT.count (p.val / 4) + 1)

/-- A counter of a half's Ethernet queues has counted one, and nothing else differs. -/
def ethCounted (u t : State) (f : Fld) (h : Nat) : Prop :=
  t.rf f h = min 0xFFFF (u.rf f h + 1) ∧ { t with regs := u.regs } = u ∧ ∀ g i j, g.id ≠ f.id → t.rf g i j = u.rf g i j

end Sys2Proof.Claims

open Sys2Proof.Claims in
/-- Inbound PCIe and CXL requests (R435 to R437): what a requester's entry makes of a bus address, the translation fault, and the access
at its target with the tenant's rights; and the CXL windows (R438). -/
def Sys2Proof.Claims.InboundAccess : Prop :=
  (∀ (p : Fin 8) (rid : BitVec 16) (bus : Word) (w : Bool) (s : State),
    (s.rb Reg.PRT_IO_RID.enable (p.val / 4) (p.val % 4) = false →
      s.ioTranslate p.val rid.toNat bus.toNat w = (none, s)) ∧
    (∀ e u, s.rb Reg.PRT_IO_RID.enable (p.val / 4) (p.val % 4) = true → s.iotuEntry p.val rid.toNat = (e, u) →
      ((bitOf e 0 = false ∨ bitsOf e 11 2 ≠ 0) → s.ioTranslate p.val rid.toNat bus.toNat w = (none, u)) ∧
      (bitOf e 0 = true → bitsOf e 11 2 = 0 → bitOf e 1 = false →
        s.ioTranslate p.val rid.toNat bus.toNat w = (some (bus.toNat, bitsOf e 63 52), u)))) ∧
  (∀ (p : Fin 8) (rid : BitVec 16) (bus : Word) (n : Fin 4097) (bs : List Byte) (ep : Bool) (s : State),
    ((s.portsUp (p.val / 4) = false ∨ ioShape bus.toNat n.val = false) → exec (.inboundRead p rid bus n) s = .next s) ∧
    ((s.portsUp (p.val / 4) = false ∨ ioShape bus.toNat bs.length = false) → exec (.inboundWrite p rid bus bs ep) s = .next s) ∧
    (s.portsUp (p.val / 4) = true → ioShape bus.toNat n.val = true →
      (∀ u, s.ioTranslate p.val rid.toNat bus.toNat false = (none, u) →
        ∃ t, exec (.inboundRead p rid bus n) s = .next t ∧ t.out.status = 1 ∧ t.out.resp = [] ∧ ioFaulted u t p rid 0) ∧
      (∀ u a d, s.ioTranslate p.val rid.toNat bus.toNat false = (some (a, d), u) → u.region a ≠ .drs →
        (∀ x, u.region a ≠ .pcie x) →
        (∀ w data, u.readMem (ioReq p.val d) .read a n.val = (.data data false, w) →
          ∃ t, exec (.inboundRead p rid bus n) s = .next t ∧ t.out.status = 0 ∧ t.out.value = 0 ∧ t.out.resp = data ∧
            { t with out := w.out } = w) ∧
        (∀ w data, u.readMem (ioReq p.val d) .read a n.val = (.data data true, w) →
          ∃ t, exec (.inboundRead p rid bus n) s = .next t ∧ t.out.status = 0 ∧ t.out.value = 1 ∧ t.out.resp = data) ∧
        (∀ w, u.readMem (ioReq p.val d) .read a n.val = (.refused, w) →
          ∃ t, exec (.inboundRead p rid bus n) s = .next t ∧ t.out.status = 4 ∧ t.out.resp = [] ∧ { t with out := w.out } = w) ∧
        (∀ w, u.readMem (ioReq p.val d) .read a n.val = (.unmapped, w) →
          ∃ t, exec (.inboundRead p rid bus n) s = .next t ∧ t.out.status = 1 ∧ t.out.resp = [] ∧
            { t with out := w.out } = w))) ∧
    (s.portsUp (p.val / 4) = true → ioShape bus.toNat bs.length = true →
      (∀ u, s.ioTranslate p.val rid.toNat bus.toNat true = (none, u) →
        ∃ t, exec (.inboundWrite p rid bus bs ep) s = .next t ∧ ioFaulted u t p rid 1) ∧
      (∀ u a d, s.ioTranslate p.val rid.toNat bus.toNat true = (some (a, d), u) → u.region a ≠ .drs →
        (∀ x, u.region a ≠ .pcie x) →
        (∀ m w, u.writeMem (ioReq p.val d) a bs = (m, w) → (ep = false ∨ m = .refused ∨ m = .unmapped) →
          exec (.inboundWrite p rid bus bs ep) s = .next w)))) ∧
  (∀ (q : Requester) (h : Half) (j : Fin 2) (v : Word) (s : State) (size base : Nat), s.mayWrite q 0x12 h.val (0x280 + 8 * j.val) →
    q.actor = .m → size = v.toNat % 2 ^ 13 → base = v.toNat / 2 ^ 30 % 2 ^ 13 →
    ∀ bad : Prop, (bad ↔ size ≠ 0 ∧ (8192 < base + size ∨ ∃ i k, i < 2 ∧ k < 2 ∧ (i, k) ≠ (h.val, j.val) ∧
        s.rf Reg.PRT_CXL_WIN.size_gib i k ≠ 0 ∧ s.rf Reg.PRT_CXL_WIN.base_gib i k < base + size ∧
        base < s.rf Reg.PRT_CXL_WIN.base_gib i k + s.rf Reg.PRT_CXL_WIN.size_gib i k)) →
      (bad → ∃ t, exec (.cxlWindowWrite q h j v) s = .next t ∧ t.rf Reg.PRT_CXL_WIN.denied h.val j.val = 1 ∧ s.onlyRegs t ∧
        t.rf Reg.PRT_CXL_WIN.size_gib h.val j.val = s.rf Reg.PRT_CXL_WIN.size_gib h.val j.val ∧
        t.rf Reg.PRT_CXL_WIN.base_gib h.val j.val = s.rf Reg.PRT_CXL_WIN.base_gib h.val j.val) ∧
      (¬bad → ∃ t, exec (.cxlWindowWrite q h j v) s = .next t ∧ t.rf Reg.PRT_CXL_WIN.denied h.val j.val = 0 ∧ s.onlyRegs t ∧
        t.rf Reg.PRT_CXL_WIN.size_gib h.val j.val = size ∧ t.rf Reg.PRT_CXL_WIN.base_gib h.val j.val = base))

open Sys2Proof.Claims in
/-- Ethernet queues (R440 to R442): doorbells move tails, a frame received goes to a queue that takes it, or is counted, the oldest
pending descriptor is sent, and a queue that is disabled has nothing pending. -/
def Sys2Proof.Claims.EthernetQueues : Prop :=
  (∀ (q : Requester) (h : Half) (n : Fin 128) (v : Word) (s : State), (q.actor = .t ∨ q.actor = .v ∨ q.actor = .h) →
    (∀ x ∈ [(0x20000 + 0x1000 * n.val, Instr.ethTxDoorbell q h n v, fun (p : Prt) => p.txTail),
        (0x20008 + 0x1000 * n.val, .ethRxDoorbell q h n v, fun p => p.rxTail)],
      s.mayWrite q 0x12 h.val x.1 →
      (s.rb Reg.PRT_ETHQ_CFG.enable h.val n.val = true → v.toNat % 4096 < s.ethSize h.val n.val →
        ∃ t, exec x.2.1 s = .next t ∧ SMap.get 0 (x.2.2 t.prt) (ethKey h.val n.val) = v.toNat % 4096 ∧
          { t with prt := s.prt } = s ∧ t.prt.txNext = s.prt.txNext ∧ t.prt.rxNext = s.prt.rxNext) ∧
      ((s.rb Reg.PRT_ETHQ_CFG.enable h.val n.val = false ∨ s.ethSize h.val n.val ≤ v.toNat % 4096) →
        exec x.2.1 s = .next s)) ∧
    (s.mayStore q 0x12 h.val (0x4000 + 16 * n.val) →
      (s.rb Reg.PRT_ETHQ_CFG.enable h.val n.val = true →
        ∃ t, exec (.ethQueueDisable q h n) s = .next t ∧ t.rf Reg.PRT_ETHQ_CFG.enable h.val n.val = 0 ∧
          t.txPending h.val n.val = []) ∧
      (s.rb Reg.PRT_ETHQ_CFG.enable h.val n.val = false → exec (.ethQueueDisable q h n) s = .next s))) ∧
  (∀ (h : Half) (x : Fin 4) (f : List Byte) (s : State),
    ((s.portsUp h.val = false ∨ SMap.get false s.sys.ethUp (4 * h.val + x.val) = false ∨ f.length < 14 ∨ 9216 < f.length) →
      exec (.frameReceive h x f) s = .next s) ∧
    (s.portsUp h.val = true → SMap.get false s.sys.ethUp (4 * h.val + x.val) = true → 14 ≤ f.length → f.length ≤ 9216 →
      ∀ hash u, s.frameHash f = (hash, u) →
        (u.rxQueue h.val x.val f hash = none →
          ∃ t, exec (.frameReceive h x f) s = .next t ∧ ethCounted u t Reg.PRT_ETH_COUNT.nomatch h.val) ∧
        (∀ c, u.rxQueue h.val x.val f hash = some c →
          (SMap.get 0 u.prt.rxNext (ethKey h.val c) = SMap.get 0 u.prt.rxTail (ethKey h.val c) →
            ∃ t, exec (.frameReceive h x f) s = .next t ∧ ethCounted u t Reg.PRT_ETH_COUNT.ring_full h.val) ∧
          (SMap.get 0 u.prt.rxNext (ethKey h.val c) ≠ SMap.get 0 u.prt.rxTail (ethKey h.val c) →
            ∃ t, exec (.frameReceive h x f) s = .next t ∧ SMap.get 0 t.prt.rxNext (ethKey h.val c) =
              (SMap.get 0 u.prt.rxNext (ethKey h.val c) + 1) % s.ethSize h.val c ∧ t.prt.rxTail = u.prt.rxTail)))) ∧
  (∀ (h : Half) (n : Fin 128) (s : State),
    ((s.portsUp h.val = false ∨ s.rb Reg.PRT_ETHQ_CFG.enable h.val n.val = false ∨
        SMap.get false s.sys.ethUp (4 * h.val + s.rf Reg.PRT_ETHQ_CFG.subport h.val n.val) = false ∨
        s.txPending h.val n.val = []) →
      exec (.frameTransmit h n) s = .next s) ∧
    (∀ i rest, s.portsUp h.val = true → s.rb Reg.PRT_ETHQ_CFG.enable h.val n.val = true →
      SMap.get false s.sys.ethUp (4 * h.val + s.rf Reg.PRT_ETHQ_CFG.subport h.val n.val) = true →
      s.txPending h.val n.val = i :: rest →
      ∃ t, exec (.frameTransmit h n) s = .next t ∧ SMap.get 0 t.prt.txNext (ethKey h.val n.val) =
          (SMap.get 0 s.prt.txNext (ethKey h.val n.val) + 1) % s.ethSize h.val n.val ∧
        ∀ d f a b, (s.txStep h.val n.val).readMem (s.ethReq h.val n.val) .read (s.txDesc h.val n.val i) 11 = (.data d false, a) →
          14 ≤ ofLe ((d.drop 8).take 2) → ofLe ((d.drop 8).take 2) ≤ 9216 → d.getD 10 0 = 0 →
          a.readMem (s.ethReq h.val n.val) .read (ofLe (d.take 8)) (ofLe ((d.drop 8).take 2)) = (.data f false, b) →
          t.out.frames = f :: b.out.frames))

/-- Inbound PCIe accesses and the Ethernet queues. -/
def Obligations.PortData : Prop :=
  Sys2Proof.Claims.InboundAccess ∧
  Sys2Proof.Claims.EthernetQueues

open Sys2Proof.Claims in
/-- Board lines, JTAG, the debug port and the management port's own messages (R146, R170, R444, R447, R450 to R452). -/
def Sys2Proof.Claims.LinesAndDebug : Prop :=
  (∀ (i : Fin 37) (r : LineReading) (s : State),
    ((s.dark = true ∨ s.lineClass i.val r = none) → exec (.lineTest i r) s = .next s) ∧
    (∀ c v, s.dark = false → s.lineClass i.val r = some (c, v) →
      ∃ t, exec (.lineTest i r) s = .next t ∧ ∀ h, h < 2 → t.rf Reg.PRT_LINE.state h i.val = c ∧
        ((i.val < 24 ∨ 32 ≤ i.val ∨ c = 0) → t.rf Reg.PRT_LINE.value h i.val = v % 2 ^ 16) ∧
        t.rf Reg.PRT_LINE.swapped h i.val = b2n (c == 3 && decide (i.val < 16)) ∧
        t.rf Reg.PRT_LINE.changes h i.val = (if c = s.rf Reg.PRT_LINE.state 0 i.val then s.rf Reg.PRT_LINE.changes h i.val
          else min 0xFFFF (s.rf Reg.PRT_LINE.changes h i.val + 1)) ∧
        ∀ k, k ≠ i.val → t.rf Reg.PRT_LINE.state h k = s.rf Reg.PRT_LINE.state h k)) ∧
  (∀ (h : Half) (tdi : List Bool) (s : State),
    (s.dark = true → exec (.bypass h tdi) s = .next s ∧ exec (.idcode h) s = .next s ∧ exec (.samplePreload h tdi) s = .next s ∧
      exec (.extest h tdi) s = .next s ∧ ∀ w op, exec (.dap h w op) s = .next s) ∧
    (s.dark = false →
      (∃ t, exec (.bypass h tdi) s = .next t ∧ SMap.get 1 t.prt.jtag h.val = 0xFF ∧
        t.out.value = bitsNat ((false :: tdi).take tdi.length) ∧ { t with prt := s.prt, out := s.out } = s) ∧
      (∃ t, exec (.idcode h) s = .next t ∧ SMap.get 1 t.prt.jtag h.val = 1 ∧ t.out.value = 0x1A25633B ∧
        { t with prt := s.prt, out := s.out } = s) ∧
      (∃ t, exec (.samplePreload h tdi) s = .next t ∧ SMap.get 1 t.prt.jtag h.val = 2 ∧
        SMap.get [] t.prt.boundary h.val = tdi ∧ t.out.value < 2 ^ tdi.length) ∧
      (s.tlt.straps.testBit 3 = true →
        ∃ t, exec (.extest h tdi) s = .next t ∧ SMap.get 1 t.prt.jtag h.val = 3 ∧ SMap.get [] t.prt.boundary h.val = tdi) ∧
      (s.tlt.straps.testBit 3 = false → exec (.extest h tdi) s = .next s))) ∧
  (∀ (h : Half) (w : World) (s u : State), s.dark = false → u = s.jtagIr h.val 0x10 →
    (∀ r, ((s.dapPlace r).2 = w → s.debugOf (s.dapPlace r).1 w (!dapOfEngine r) = true →
        exec (.dap h w (.readReg r)) s = .next (u.answer (s.dapGet r) 0)) ∧
      (((s.dapPlace r).2 ≠ w ∨ s.debugOf (s.dapPlace r).1 w (!dapOfEngine r) = false) →
        exec (.dap h w (.readReg r)) s = .next (u.answer 0 0)) ∧
      ∀ v : Wide, ((s.dapPlace r).2 = w → s.debugOf (s.dapPlace r).1 w true = true →
          exec (.dap h w (.writeReg r v)) s = .next (u.dapSet v.toNat r)) ∧
        (((s.dapPlace r).2 ≠ w ∨ s.debugOf (s.dapPlace r).1 w true = false) → exec (.dap h w (.writeReg r v)) s = .next u)) ∧
    (∀ a n, (s.debugOf h.val w true = false → exec (.dap h w (.read a n)) s = .next (u.answer 0 0)) ∧
      (s.debugOf h.val w true = true → ∀ bs x, u.dapRead (dapReq h w) a.toNat n.val = (bs, x) →
        exec (.dap h w (.read a n)) s = .next (x.answer (ofLe bs) 0))) ∧
    (∀ a bs, (s.debugOf h.val w true = true ∧ bs.length ≤ 64 →
        exec (.dap h w (.write a bs)) s = .next (u.dapWrite (dapReq h w) a.toNat bs)) ∧
      (s.debugOf h.val w true = false ∨ 64 < bs.length → exec (.dap h w (.write a bs)) s = .next u)) ∧
    (∀ c : CoreId, s.coreWorld c.val = w → s.debugInv c.val = true →
      (∀ as, (∃ t, exec (.dap h w (.breakpoints c as)) s = .next t ∧ (t.core c.val).breakpoints = as.map BitVec.toNat ∧
          (t.core c.val).watchpoints = (s.core c.val).watchpoints) ∧
        (∃ t, exec (.dap h w (.watchpoints c as)) s = .next t ∧ (t.core c.val).watchpoints = as.map BitVec.toNat ∧
          (t.core c.val).breakpoints = (s.core c.val).breakpoints)) ∧
      ((s.core c.val).wait = .none →
        ∃ t, exec (.dap h w (.step c)) s = .next t ∧ (t.core c.val).debugHalt = false ∧ (t.core c.val).stepArmed = true ∧
          (t.core c.val).pc = (s.core c.val).pc) ∧
      (∃ t, exec (.dap h w (.halt c)) s = .next t ∧ (t.core c.val).debugHalt = true ∧ (t.core c.val).pc = (s.core c.val).pc) ∧
      ((s.core c.val).wait = .none →
        ∃ t, exec (.dap h w (.resume c)) s = .next t ∧ (t.core c.val).debugHalt = false)) ∧
    (∀ c : CoreId, (s.coreWorld c.val ≠ w ∨ s.debugInv c.val = false) →
      ∀ as, ∀ op ∈ [DapOp.halt c, .resume c, .step c, .breakpoints c as, .watchpoints c as],
        exec (.dap h w op) s = .next u)) ∧
  (∀ s : State,
    (s.claimHeld 64 = true → s.rf Reg.PRT_CLAIM.owner_actor 0 64 = 0 → s.strata.time / 65536 % 1000000000 ≤ 1 →
      ∃ t, exec (.ppsOutPulse true) s = .next t ∧ SMap.get false t.tlt.pins 2 = true ∧ { t with tlt := s.tlt } = s) ∧
    ((s.claimHeld 64 = false ∨ s.rf Reg.PRT_CLAIM.owner_actor 0 64 ≠ 0) → exec (.ppsOutPulse true) s = .next s) ∧
    (100000000 ≤ s.strata.time / 65536 % 1000000000 →
      ∃ t, exec (.ppsOutPulse false) s = .next t ∧ SMap.get false t.tlt.pins 2 = false ∧ { t with tlt := s.tlt } = s)) ∧
  (∀ (h : Half) (f : List Byte) (s : State),
    ((s.dark = true ∨ Ip6.parse f = none) →
      exec (.neighbourDiscovery h f) s = .next s ∧ exec (.icmpv6Echo h f) s = .next s) ∧
    (∀ x, s.dark = false → Ip6.parse f = some x →
      (x.icmp = true → x.hops = 255 → x.body.getD 0 0 = 135 → 24 ≤ x.body.length → (x.body.drop 8).take 16 = s.mgtIp h.val →
        x.src.all (· == 0) = false →
        ∃ t, exec (.neighbourDiscovery h f) s = .next t ∧ { t with out := s.out } = s ∧
          t.out.frames = s.icmp6 h.val x.mac x.src ([136, 0, 0, 0, 0x60, 0, 0, 0] ++ s.mgtIp h.val ++ [2, 1] ++ mgtMac h.val) ::
            s.out.frames) ∧
      ((x.icmp = false ∨ x.hops ≠ 255 ∨ x.body.getD 0 0 ≠ 135 ∨ (x.body.drop 8).take 16 ≠ s.mgtIp h.val) →
        exec (.neighbourDiscovery h f) s = .next s) ∧
      (x.icmp = true → x.body.getD 0 0 = 128 → 8 ≤ x.body.length → x.dst = s.mgtIp h.val →
        ∃ t, exec (.icmpv6Echo h f) s = .next t ∧ { t with out := s.out } = s ∧
          t.out.frames = s.icmp6 h.val x.mac x.src ([129, 0, 0, 0] ++ x.body.drop 4) :: s.out.frames) ∧
      ((x.icmp = false ∨ x.body.getD 0 0 ≠ 128 ∨ x.dst ≠ s.mgtIp h.val) → exec (.icmpv6Echo h f) s = .next s)))

/-- Links of the ports, lands, boundary scan and the UART. -/
def Obligations.LinksAndLines : Prop :=
  Sys2Proof.Claims.Links ∧
  Sys2Proof.Claims.LinesAndDebug

/-! ## All commands, held writes, time and memory -/

/-- Every command has an outcome in every state: none stops in a fault and none is refused. -/
def Obligations.EveryCommandCompletes : Prop := ∀ (c : Instr) (s : State), ∃ t, exec c s = .next t

namespace Sys2Proof.Claims

/-- The commands that are one write of a register: the sender, block class, instance, offset and word. -/
def writeCmds (s : State) : Instr → Option (Requester × Nat × Nat × Nat × Nat)
  | .domainRequest q h d v => some (q, 0x0F, h.val, 0x1000 + 8 * d.val, v.toNat)
  | .hpReady q h v => some (q, 0x0F, h.val, 0x480, v.toNat ||| 2 ^ 8)
  | .pwrHoldWrite q h d v => some (q, 0x0F, h.val, 0x2000 + 8 * d.val, v.toNat)
  | .backfillGo q h v => some (q, 0x0F, h.val, 0x600, v.toNat ||| 2 ^ 8)
  | .backfillRelease q h v => some (q, 0x0F, h.val, 0x600, v.toNat ||| 2 ^ 11)
  | .engineTest q h v => some (q, 0x0F, h.val, 0x800, v.toNat ||| 2 ^ 16)
  | .migrateGo q c v => some (q, 0x0D, c.val, 0x400, v.toNat ||| 4)
  | .dspPoolLinkWrite q h p v => some (q, 0x03, h.val, 0x200 + 8 * p.val, v.toNat)
  | .evhSrcWrite q h id v => some (q, 0x0B, h.val, 0x8000 + 8 * id.val, v.toNat)
  | .evhRaiseWrite q h v => some (q, 0x0B, h.val, 0x1000, v.toNat)
  | .evhWithdraw q h id => some (q, 0x0B, h.val, 0x1000, 2 ^ 31 + id.val)
  | .evhSgiWrite q h v => some (q, 0x0B, h.val, 0x108, v.toNat)
  | .evhEoiK q l v => some (q, 0x0B, l.val / 128, 0x10008 + 0x1000 * (l.val % 128), v.toNat)
  | .evhEoiV q l v => some (q, 0x0B, l.val / 128, 0x10018 + 0x1000 * (l.val % 128), v.toNat)
  | .evhSecEoi q l v => some (q, 0x0B, l.val / 128, 0x4008 + 0x40 * (l.val % 128), v.toNat)
  | .evhHoldWrite q h v => some (q, 0x0B, h.val, 0x100, v.toNat)
  | .evhTiqCfgWrite q h ti v => some (q, 0x0B, h.val, 0x90000 + 16 * ti.val, v.toNat)
  | .evhTiqHeadWrite q h ti v => some (q, 0x0B, h.val, 0x90008 + 16 * ti.val, v.toNat)
  | .evhEqHeadWrite q l v => some (q, 0x0B, l.val / 128, 0x10048 + 0x1000 * (l.val % 128), v.toNat)
  | .potArm q h v => some (q, 0x07, h.val, 0x100, v.toNat)
  | .potInvalGo q h v => some (q, 0x07, h.val, 0x148, v.toNat ||| 2 ^ 32)
  | .sealNow q h v => some (q, 0x06, h.val, 0x150, v.toNat ||| 2 ^ 32)
  | .heartbeat q h v => some (q, 0x06, h.val, 0x108, v.toNat)
  | .hardpanFirstHeartbeat q h v => some (q, 0x06, h.val, 0x108, v.toNat)
  | .hpnRestartGo q h v => some (q, 0x06, h.val, 0x110, v.toNat ||| 2)
  | .hpnDebugWrite q h v => some (q, 0x06, h.val, 0x140, v.toNat)
  | .hpnPoolWrite q h p v => some (q, 0x06, h.val, 0x4000 + 8 * p.val, v.toNat)
  | .slotRelease q h slot => some (q, 0x0C, h.val, 0xC00 + 8 * slot.val, 0)
  | .channelUnbind q h c => some (q, 0x0C, h.val, 0x400 + 32 * c.val, 0)
  | .channelRestart q h c => some (q, 0x0C, h.val, 0x410 + 32 * c.val, 2 ^ 40)
  | .kaolinDoorbell q h c v => some (q, 0x0C, h.val, 0x10000 + 0x1000 * c.val, v.toNat)
  | .cxlWindowWrite q h j v => some (q, 0x12, h.val, 0x280 + 8 * j.val, v.toNat)
  | .ethTxDoorbell q h n v => some (q, 0x12, h.val, 0x20000 + 0x1000 * n.val, v.toNat)
  | .ethRxDoorbell q h n v => some (q, 0x12, h.val, 0x20008 + 0x1000 * n.val, v.toNat)
  | .rasLogWrite q h slog v => some (q, 0x0E, h.val, if slog then 0x118 else 0x108, v.toNat)
  | .rasLogHeadWrite q h slog v => some (q, 0x0E, h.val, if slog then 0x120 else 0x110, v.toNat)
  | .passGo q h v => some (q, 0x0E, h.val, 0x310, v.toNat ||| 1)
  | .injectGo q h v => some (q, 0x0E, h.val, 0x508, v.toNat ||| 2 ^ 48)
  | .sltDebugHalt q e => some (q, 0x02, e.val, 0x130, 1)
  | .sltDebugStep q e => some (q, 0x02, e.val, 0x130, 2)
  | .sltDebugResume q e => some (q, 0x02, e.val, 0x130, 4)
  | .sltCacheInvalidate q e => some (q, 0x02, e.val, 0x120, s.rf Reg.SLT_CACHE.enable e.val + 2)
  | .sltCacheUnlockAll q e => some (q, 0x02, e.val, 0x120, s.rf Reg.SLT_CACHE.enable e.val + 4)
  | .sltPoolWrite q e v => some (q, 0x02, e.val, 0x108, v.toNat)
  | .sramWindowAssign q c w v => some (q, 0x05, c.val, 0x800 + 8 * w.val, v.toNat)
  | .svcLoadGo q c v => some (q, 0x05, c.val, 0x140, v.toNat)
  | .svcPoolImgWrite q c p v => some (q, 0x05, c.val, 0x200 + 8 * p.val, v.toNat)
  | .knxStartRelease q c v => some (q, 0x01, c.val, 0x100, v.toNat ||| 1)
  | .tltHpodGo q h v => some (q, 0x11, h.val, 0x200, v.toNat ||| 1)
  | _ => none

end Sys2Proof.Claims

open Sys2Proof.Claims in
/-- A register write whose page the Page Ownership Table refuses is refused and does nothing else (R10, R132); one that it admits
waits, oldest first, while its block is not ON, and does nothing else until then (R33); one to the lost half is logged as a UEr and
does nothing else (R292). -/
def Obligations.HeldWrites : Prop :=
  ∀ (c : Instr) (q : Requester) (cls inst off v : Nat) (s : State), writeCmds s c = some (q, cls, inst, off, v) →
    (∀ src, s.cutOff (drsAddr cls inst off) = some src → exec c s = .next (s.drsLost q (drsAddr cls inst off) src)) ∧
    (s.cutOff (drsAddr cls inst off) = none → (s.potCheck q .write (drsAddr cls inst off)).ok = false →
      exec c s = .next (s.refuse q .write (drsAddr cls inst off) (s.potCheck q .write (drsAddr cls inst off)))) ∧
    (s.mayStore q cls inst off → s.blkOn cls inst = false →
      ∃ t, exec c s = .next t ∧ { t with heldWrites := s.heldWrites } = s ∧
        ∀ k, SMap.get [] t.heldWrites k =
          SMap.get [] s.heldWrites k ++ (if k = blkKey cls inst then [⟨q, off, 8, v⟩] else []))

/-- With no command waiting, a step puts into the queue what is due at this tick (R87, R163, R165, R169, R174 to R176, R178, R184); when
nothing is due it advances the Strata time by one tick of the time clock, 1 ns and the rate correction, and changes nothing else. That
an idle step is one tick, and that what is due is carried out as the commands that stand for it, is the model's choice (log entry 1);
the increment is R161's. -/
def Obligations.IdleTick : Prop :=
  (∀ s : State, s.pending = [] → s.dueNow ≠ [] → step s = .next { s with pending := s.dueNow }) ∧
  (∀ (s : State) (c : StrataChange), s.strata.changes.head? = some c → c.tick ≤ s.strata.tick → Instr.scheduledChange ∈ s.dueNow) ∧
  (∀ (s : State) (n : Fin 64), s.cmpDue n.val = true → Instr.cmpFire n ∈ s.dueNow) ∧
  ∀ s : State, s.pending = [] → s.dueNow = [] →
    ∃ t, step s = .next t ∧ { t with strata := s.strata } = s ∧ t.strata.tick = s.strata.tick + 1 ∧
      t.strata.time * 2 ^ 24 + t.strata.sub =
        ((s.strata.time * 2 ^ 24 + s.strata.sub : Nat) + (2 ^ 40 + s.strata.rate) : Int).toNat ∧
      { t.strata with time := s.strata.time, sub := s.strata.sub, tick := s.strata.tick } = s.strata

/-- What is stored under a live key is what a read under it returns, and every other byte reads under it as before, through the
line's change of key and the first write's fill of its block (R139 to R141, R288, R354). -/
def Obligations.MemoryStoreRead : Prop :=
  ∀ (s : State) (k a : Nat) (bs : List Byte), 1 ≤ k → tagCleared k = false → (∀ x, s.tagLost k x = false) →
    (∀ x, x < cxlBase → s.mem.tagAt x = 0 → SMap.get 0 s.mem.bytes x = 0) →
    ∀ x, (s.pokeAs k a bs).peekAs k x = if a ≤ x ∧ x < a + bs.length then bs.getD (x - a) 0 else s.peekAs k x

namespace Sys2Proof.Claims

/-- The commands of the invariant: every Silt instruction, the Event Hub's commands, the Ethernet's, the time base's, the leases',
the writes of pools, windows, holds and of POT_CTL, every register read, and all that time brings about. -/
def keepers : Instr → Bool
  | .siltAdd .. | .siltSub .. | .siltAnd .. | .siltOr .. | .siltXor .. | .siltAndn .. | .siltSll .. | .siltSrl ..
  | .siltSra .. | .siltRor .. | .siltSlt .. | .siltSltu .. | .siltMul .. | .siltMulhu .. | .siltClz .. | .siltPopc ..
  | .siltBswap .. | .siltAddi .. | .siltAndi .. | .siltOri .. | .siltXori .. | .siltShi .. | .siltMovz ..
  | .siltMovk .. | .siltLd .. | .siltLw .. | .siltLh .. | .siltLb .. | .siltSd .. | .siltSw .. | .siltSh ..
  | .siltSb .. | .siltWld .. | .siltWst .. | .siltCpre .. | .siltClock .. | .siltCunlock .. | .siltCinv ..
  | .siltCinvl .. | .siltAmoadd .. | .siltAmoswap .. | .siltAmocas .. | .siltBcc .. | .siltBzcc .. | .siltJ ..
  | .siltJr .. | .siltDone .. | .siltNop .. | .siltFence .. | .siltRdtl .. | .siltRdth .. | .siltBrk ..
  | .siltGetcf .. | .siltSetcf .. | .siltWadd .. | .siltWaddc .. | .siltWsub .. | .siltWsubb .. | .siltWand ..
  | .siltWor .. | .siltWxor .. | .siltWmov .. | .siltWshl1 .. | .siltWshr1 .. | .siltWzero .. | .siltMullo ..
  | .siltMulhi .. | .siltMmul .. | .siltMadd .. | .siltMsub .. | .siltMsetm .. | .siltAese .. | .siltAesd ..
  | .siltTdese .. | .siltTdesd .. | .siltGmul .. | .siltSha256c .. | .siltSha512c .. | .siltSha256k ..
  | .siltSha512k .. | .siltKeccak .. | .siltWins .. | .siltWext .. | .siltWceq .. | .siltWcsel .. | .siltWbit ..
  | .siltKld .. | .siltKzero .. | .siltKzall .. | .evhSrcWrite .. | .raiseCrossing .. | .evhRaiseWrite ..
  | .evhWithdraw .. | .evhSgiWrite .. | .evhClaimK .. | .evhClaimV .. | .evhSecClaim .. | .evhEoiK .. | .evhEoiV ..
  | .evhSecEoi .. | .evhHoldWrite .. | .evhTiqCfgWrite .. | .evhTiqHeadWrite .. | .evhEqHeadWrite ..
  | .ethTxDoorbell .. | .ethRxDoorbell .. | .ethQueueDisable .. | .frameReceive .. | .frameTransmit ..
  | .strCtlWrite .. | .strRateWrite .. | .strStepGo .. | .strSetGo .. | .sramWindowAssign .. | .sramZeroingDone ..
  | .hpnPoolWrite .. | .dspPoolLinkWrite .. | .cxlWindowWrite .. | .potArm .. | .pwrHoldWrite ..
  | .stealBackoffEnd .. | .leaseSend .. | .lease .. | .leaseAck .. | .gritHeartbeat .. | .scheduledChange .. | .sourceLost ..
  | .holdoverSecond .. | .promoteBroadcast .. | .promoteApply .. | .fanoutPlace .. | .cmpFire .. | .launch ..
  | .batchTimeClose .. | .checkpoint .. => true
  | c => (readCmds c).isSome

/-- Memory is in its canonical form, and the commands that wait are among `keepers`. -/
def formKept (s : State) : Prop := Memory.wf s.mem = true ∧ ∀ c ∈ s.pending, keepers c = true

end Sys2Proof.Claims

/-- Every step keeps the memory's canonical form, whatever the state and whichever of those commands wait: loads, stores and atomics
of the engines, events written to queues in memory, received and sent frames, and refusals among them. -/
def Obligations.StepsKeepMemoryForm : Prop :=
  ∀ s t : State, Sys2Proof.Claims.formKept s → step s = .next t → Sys2Proof.Claims.formKept t

/-- The state after reset has the form: memory lists nothing, no command waits. -/
def Obligations.ResetHasMemoryForm : Prop := Sys2Proof.Claims.formKept State.reset

/-- A value that is no time (R160): as a launch time it fails its descriptor with BAD_DESC; as a comparator's time the arm fails with
BAD_DESC; written to STR_SET it is ignored and bad_write is set. -/
def Obligations.InvalidTimes : Prop :=
  (∀ (s : State) (h : Nat) (e : Entry), e.timed = true → 1000000000 ≤ bitsOf e.launch 47 16 → e.gen = s.tiGen e.ti →
    s.rf Reg.TIF_CFG.priv e.ti ≠ 2 → (s.rf Reg.TIF_POOLS.mask e.ti).testBit e.pool = true → s.buffersOwned e = true →
    e.check4 false = 0 →
    s.admitEntry h e = s.dspMake (e.dspRec 0x05 0xFFFF)) ∧
  (∀ (q : Requester) (n : Fin 64) (v : Word) (s : State), s.mayWrite q 0x08 s.strP (0x1010 + 32 * n.val) →
    (q.actor = .t ∨ q.actor = .v ∨ q.actor = .h) → s.cmpOwner n.val q.actor = true → v.toNat % 2 = 1 → v.toNat / 4 % 2 = 0 →
    s.rb Reg.STR_CMP_CTL.armed 0 n.val = false → 1000000000 ≤ bitsOf (s.cmpTime n.val) 47 16 →
    ∃ t, exec (.cmpArm q n v) s = .next t ∧ t.rf Reg.STR_CMP_CTL.last_status 0 n.val = 0x05 ∧
      t.rb Reg.STR_CMP_CTL.armed 0 n.val = false ∧ s.onlyRegs t) ∧
  (∀ (q : Requester) (h : Half) (v : Word) (s : State), h = s.sys.primary → s.mayWrite q 0x08 h.val 0x138 →
    (q.actor = .h ∨ q.actor = .m ∨ (q.actor = .t ∧ s.rb Reg.STR_CTL.t_discipline h.val = true)) → v.toNat.testBit 63 = true →
    1000000000 ≤ bitsOf (s.rf Reg.STR_SET_LO.value h.val) 47 16 →
    ∃ t, exec (.strSetGo q h v) s = .next t ∧ t.strata = s.strata ∧ t.rf Reg.STR_STATUS.bad_write h.val = 1 ∧ s.onlyRegs t)
end

