-- ==== Sys2Proof/Laws/SMap.lean ====
section
/-!
SUPPORT. Laws of sparse maps: a read after a write, and that every write keeps the canonical form.
-/
namespace Sys2Proof.Machine.SMap

variable {α : Type}

@[simp] theorem get_nil (d : α) (i : Nat) : get d [] i = d := rfl

theorem get_erase_self (d : α) (m : SMap α) (i : Nat) : get d (erase m i) i = d := by
  induction m with
  | nil => rfl
  | cons p m ih =>
    obtain ⟨k, v⟩ := p
    by_cases h : k = i
    · simp [erase, h, ih]
    · simp [erase, h, get, ih]

theorem get_erase_ne (d : α) (m : SMap α) {i j : Nat} (h : j ≠ i) : get d (erase m i) j = get d m j := by
  induction m with
  | nil => rfl
  | cons p m ih =>
    obtain ⟨k, v⟩ := p
    by_cases hk : k = i
    · have hj : ¬ i = j := fun e => h e.symm
      simp [erase, hk, get, hj, ih]
    · simp [erase, hk, get, ih]

theorem get_insert_self (d v : α) (m : SMap α) (i : Nat) (h : ∀ p ∈ m, p.1 ≠ i) : get d (insert i v m) i = v := by
  induction m with
  | nil => simp [insert, get]
  | cons p m ih =>
    obtain ⟨k, w⟩ := p
    have hk : k ≠ i := h (k, w) (by simp)
    by_cases hl : i < k
    · simp [insert, hl, get]
    · simp only [insert, hl, if_false, get, hk]
      exact ih fun q hq => h q (by simp [hq])

theorem get_insert_ne (d v : α) (m : SMap α) {i j : Nat} (h : j ≠ i) : get d (insert i v m) j = get d m j := by
  have hj : ¬ i = j := fun e => h e.symm
  induction m with
  | nil => simp [insert, get, hj]
  | cons p m ih =>
    obtain ⟨k, w⟩ := p
    by_cases hl : i < k
    · simp [insert, hl, get, hj]
    · simp [insert, hl, get, ih]

theorem mem_erase (m : SMap α) (i : Nat) : ∀ p ∈ erase m i, p.1 ≠ i := by
  induction m with
  | nil => simp [erase]
  | cons p m ih =>
    obtain ⟨k, w⟩ := p
    by_cases h : k = i
    · simpa [erase, h] using ih
    · intro q hq
      simp only [erase, h, if_false, List.mem_cons] at hq
      rcases hq with rfl | hq
      · exact h
      · exact ih q hq

/-! ## The canonical form -/

/-- Every key lies above `lo`. -/
def above (lo : Option Nat) (k : Nat) : Prop := ∀ l, lo = some l → l < k

theorem sortedFrom_cons (lo : Option Nat) (k : Nat) (v : α) (m : SMap α) :
    sortedFrom lo ((k, v) :: m) = true ↔ above lo k ∧ sortedFrom (some k) m = true := by
  cases lo <;> simp [sortedFrom, above]

theorem sortedFrom_weaken {lo lo' : Option Nat} {m : SMap α} (h : sortedFrom lo m = true)
    (hl : ∀ k, above lo k → above lo' k) : sortedFrom lo' m = true := by
  cases m with
  | nil => cases lo' <;> rfl
  | cons p m =>
    obtain ⟨k, v⟩ := p
    rw [sortedFrom_cons] at h ⊢
    exact ⟨hl k h.1, h.2⟩

theorem sortedFrom_erase {lo : Option Nat} {m : SMap α} (i : Nat) (h : sortedFrom lo m = true) :
    sortedFrom lo (erase m i) = true := by
  induction m generalizing lo with
  | nil => simpa [erase] using h
  | cons p m ih =>
    obtain ⟨k, v⟩ := p
    rw [sortedFrom_cons] at h
    by_cases hk : k = i
    · simp only [erase, hk, if_true]
      refine sortedFrom_weaken (ih h.2) ?_
      intro j hj l hl
      have h1 := h.1 l hl
      have h2 := hj k rfl
      omega
    · simp only [erase, hk, if_false]
      rw [sortedFrom_cons]
      exact ⟨h.1, ih h.2⟩

theorem sortedFrom_insert {lo : Option Nat} {m : SMap α} {i : Nat} (v : α) (h : sortedFrom lo m = true)
    (hi : above lo i) (hm : ∀ p ∈ m, p.1 ≠ i) : sortedFrom lo (insert i v m) = true := by
  induction m generalizing lo with
  | nil => rw [insert, sortedFrom_cons]; exact ⟨hi, rfl⟩
  | cons p m ih =>
    obtain ⟨k, w⟩ := p
    rw [sortedFrom_cons] at h
    have hk : k ≠ i := hm (k, w) (by simp)
    by_cases hl : i < k
    · simp only [insert, hl, if_true]
      rw [sortedFrom_cons, sortedFrom_cons]
      exact ⟨hi, fun l e => by cases e; exact hl, h.2⟩
    · simp only [insert, hl, if_false]
      rw [sortedFrom_cons]
      refine ⟨h.1, ih h.2 (fun l e => by cases e; omega) fun q hq => hm q (by simp [hq])⟩

theorem all_erase {m : SMap α} (q : Nat × α → Bool) (i : Nat) (h : m.all q = true) : (erase m i).all q = true := by
  induction m with
  | nil => rfl
  | cons p m ih =>
    obtain ⟨k, v⟩ := p
    simp only [List.all_cons, Bool.and_eq_true] at h
    by_cases hk : k = i
    · simp only [erase, hk, if_true]; exact ih h.2
    · simp only [erase, hk, if_false, List.all_cons, Bool.and_eq_true]; exact ⟨h.1, ih h.2⟩

theorem all_insert {m : SMap α} (q : Nat × α → Bool) (i : Nat) (v : α) (h : m.all q = true) (hv : q (i, v) = true) :
    (insert i v m).all q = true := by
  induction m with
  | nil => simp [insert, hv]
  | cons p m ih =>
    obtain ⟨k, w⟩ := p
    simp only [List.all_cons, Bool.and_eq_true] at h
    by_cases hl : i < k
    · simp [insert, hl, hv, h.1, h.2]
    · simp only [insert, hl, if_false, List.all_cons, Bool.and_eq_true]; exact ⟨h.1, ih h.2⟩

variable [DecidableEq α]

@[simp] theorem get_set_self (d : α) (m : SMap α) (i : Nat) (v : α) : get d (set d m i v) i = v := by
  by_cases h : v = d
  · simp [set, h, get_erase_self]
  · simp only [set, h, if_false]
    exact get_insert_self d v _ i (mem_erase m i)

theorem get_set_other (d d' : α) (m : SMap α) {i j : Nat} (v : α) (h : j ≠ i) :
    get d' (set d m i v) j = get d' m j := by
  by_cases hv : v = d
  · simp [set, hv, get_erase_ne d' m h]
  · simp only [set, hv, if_false]
    rw [get_insert_ne d' v _ h, get_erase_ne d' m h]

theorem get_set_ne (d : α) (m : SMap α) {i j : Nat} (v : α) (h : j ≠ i) : get d (set d m i v) j = get d m j :=
  get_set_other d d m v h

theorem get_set (d : α) (m : SMap α) (i j : Nat) (v : α) : get d (set d m i v) j = if j = i then v else get d m j := by
  by_cases h : j = i
  · subst h; simp
  · simp [h, get_set_ne d m v h]

@[simp] theorem get_upd_self (d : α) (m : SMap α) (i : Nat) (f : α → α) : get d (upd d m i f) i = f (get d m i) := by
  simp [upd]

theorem get_upd (d : α) (m : SMap α) (i j : Nat) (f : α → α) :
    get d (upd d m i f) j = if j = i then f (get d m i) else get d m j := by
  simp [upd, get_set]

theorem get_upd_ne (d : α) (m : SMap α) {i j : Nat} (f : α → α) (h : j ≠ i) : get d (upd d m i f) j = get d m j := by
  simp [get_upd, h]

@[simp] theorem wf_nil (d : α) : wf d [] = true := rfl

/-- A write keeps the canonical form. -/
theorem wf_set (d : α) (m : SMap α) (i : Nat) (v : α) (h : wf d m = true) : wf d (set d m i v) = true := by
  simp only [wf, Bool.and_eq_true] at h ⊢
  by_cases hv : v = d
  · simp only [set, hv, if_true]
    exact ⟨sortedFrom_erase i h.1, all_erase _ i h.2⟩
  · simp only [set, hv, if_false]
    exact ⟨sortedFrom_insert v (sortedFrom_erase i h.1) (fun l e => by cases e) (mem_erase m i),
      all_insert _ i v (all_erase _ i h.2) (by simpa using hv)⟩

theorem wf_upd (d : α) (m : SMap α) (i : Nat) (f : α → α) (h : wf d m = true) : wf d (upd d m i f) = true :=
  wf_set d m i _ h

end Sys2Proof.Machine.SMap
end

