-- ==== Sys2Proof/Laws/State.lean ====
section
/-!
SUPPORT. Laws of State: what each update of one part leaves unchanged, and what a part reads after it is written.
-/
namespace Sys2Proof.Machine

/-! ## setf -/

@[simp] theorem State.setf_pending (s : State) (f : Fld) (i v j : Nat) : (s.setf f i v j).pending = s.pending := rfl
@[simp] theorem State.setf_heldWrites (s : State) (f : Fld) (i v j : Nat) : (s.setf f i v j).heldWrites = s.heldWrites := rfl
@[simp] theorem State.setf_viaRestart (s : State) (f : Fld) (i v j : Nat) : (s.setf f i v j).viaRestart = s.viaRestart := rfl
@[simp] theorem State.setf_mem (s : State) (f : Fld) (i v j : Nat) : (s.setf f i v j).mem = s.mem := rfl
@[simp] theorem State.setf_keySlots (s : State) (f : Fld) (i v j : Nat) : (s.setf f i v j).keySlots = s.keySlots := rfl
@[simp] theorem State.setf_keyGen (s : State) (f : Fld) (i v j : Nat) : (s.setf f i v j).keyGen = s.keyGen := rfl
@[simp] theorem State.setf_keyLost (s : State) (f : Fld) (i v j : Nat) : (s.setf f i v j).keyLost = s.keyLost := rfl
@[simp] theorem State.setf_potCache (s : State) (f : Fld) (i v j : Nat) : (s.setf f i v j).potCache = s.potCache := rfl
@[simp] theorem State.setf_coh (s : State) (f : Fld) (i v j : Nat) : (s.setf f i v j).coh = s.coh := rfl
@[simp] theorem State.setf_evh (s : State) (f : Fld) (i v j : Nat) : (s.setf f i v j).evh = s.evh := rfl
@[simp] theorem State.setf_ras (s : State) (f : Fld) (i v j : Nat) : (s.setf f i v j).ras = s.ras := rfl
@[simp] theorem State.setf_dmc (s : State) (f : Fld) (i v j : Nat) : (s.setf f i v j).dmc = s.dmc := rfl
@[simp] theorem State.setf_cores (s : State) (f : Fld) (i v j : Nat) : (s.setf f i v j).cores = s.cores := rfl
@[simp] theorem State.setf_engines (s : State) (f : Fld) (i v j : Nat) : (s.setf f i v j).engines = s.engines := rfl
@[simp] theorem State.setf_clusters (s : State) (f : Fld) (i v j : Nat) : (s.setf f i v j).clusters = s.clusters := rfl
@[simp] theorem State.setf_dsp (s : State) (f : Fld) (i v j : Nat) : (s.setf f i v j).dsp = s.dsp := rfl
@[simp] theorem State.setf_clt (s : State) (f : Fld) (i v j : Nat) : (s.setf f i v j).clt = s.clt := rfl
@[simp] theorem State.setf_tis (s : State) (f : Fld) (i v j : Nat) : (s.setf f i v j).tis = s.tis := rfl
@[simp] theorem State.setf_steals (s : State) (f : Fld) (i v j : Nat) : (s.setf f i v j).steals = s.steals := rfl
@[simp] theorem State.setf_fans (s : State) (f : Fld) (i v j : Nat) : (s.setf f i v j).fans = s.fans := rfl
@[simp] theorem State.setf_kao (s : State) (f : Fld) (i v j : Nat) : (s.setf f i v j).kao = s.kao := rfl
@[simp] theorem State.setf_custody (s : State) (f : Fld) (i v j : Nat) : (s.setf f i v j).custody = s.custody := rfl
@[simp] theorem State.setf_ledger (s : State) (f : Fld) (i v j : Nat) : (s.setf f i v j).ledger = s.ledger := rfl
@[simp] theorem State.setf_strata (s : State) (f : Fld) (i v j : Nat) : (s.setf f i v j).strata = s.strata := rfl
@[simp] theorem State.setf_sys (s : State) (f : Fld) (i v j : Nat) : (s.setf f i v j).sys = s.sys := rfl
@[simp] theorem State.setf_pwr (s : State) (f : Fld) (i v j : Nat) : (s.setf f i v j).pwr = s.pwr := rfl
@[simp] theorem State.setf_tlt (s : State) (f : Fld) (i v j : Nat) : (s.setf f i v j).tlt = s.tlt := rfl
@[simp] theorem State.setf_prt (s : State) (f : Fld) (i v j : Nat) : (s.setf f i v j).prt = s.prt := rfl
@[simp] theorem State.setf_out (s : State) (f : Fld) (i v j : Nat) : (s.setf f i v j).out = s.out := rfl
@[simp] theorem State.setf_freeCtr (s : State) (f : Fld) (i v j : Nat) : (s.setf f i v j).freeCtr = s.freeCtr := rfl
@[simp] theorem State.setf_rngCtr (s : State) (f : Fld) (i v j : Nat) : (s.setf f i v j).rngCtr = s.rngCtr := rfl

/-! ## addf -/

@[simp] theorem State.addf_pending (s : State) (f : Fld) (i j n : Nat) : (s.addf f i j n).pending = s.pending := rfl
@[simp] theorem State.addf_heldWrites (s : State) (f : Fld) (i j n : Nat) : (s.addf f i j n).heldWrites = s.heldWrites := rfl
@[simp] theorem State.addf_viaRestart (s : State) (f : Fld) (i j n : Nat) : (s.addf f i j n).viaRestart = s.viaRestart := rfl
@[simp] theorem State.addf_mem (s : State) (f : Fld) (i j n : Nat) : (s.addf f i j n).mem = s.mem := rfl
@[simp] theorem State.addf_keySlots (s : State) (f : Fld) (i j n : Nat) : (s.addf f i j n).keySlots = s.keySlots := rfl
@[simp] theorem State.addf_keyGen (s : State) (f : Fld) (i j n : Nat) : (s.addf f i j n).keyGen = s.keyGen := rfl
@[simp] theorem State.addf_keyLost (s : State) (f : Fld) (i j n : Nat) : (s.addf f i j n).keyLost = s.keyLost := rfl
@[simp] theorem State.addf_potCache (s : State) (f : Fld) (i j n : Nat) : (s.addf f i j n).potCache = s.potCache := rfl
@[simp] theorem State.addf_coh (s : State) (f : Fld) (i j n : Nat) : (s.addf f i j n).coh = s.coh := rfl
@[simp] theorem State.addf_evh (s : State) (f : Fld) (i j n : Nat) : (s.addf f i j n).evh = s.evh := rfl
@[simp] theorem State.addf_ras (s : State) (f : Fld) (i j n : Nat) : (s.addf f i j n).ras = s.ras := rfl
@[simp] theorem State.addf_dmc (s : State) (f : Fld) (i j n : Nat) : (s.addf f i j n).dmc = s.dmc := rfl
@[simp] theorem State.addf_cores (s : State) (f : Fld) (i j n : Nat) : (s.addf f i j n).cores = s.cores := rfl
@[simp] theorem State.addf_engines (s : State) (f : Fld) (i j n : Nat) : (s.addf f i j n).engines = s.engines := rfl
@[simp] theorem State.addf_clusters (s : State) (f : Fld) (i j n : Nat) : (s.addf f i j n).clusters = s.clusters := rfl
@[simp] theorem State.addf_dsp (s : State) (f : Fld) (i j n : Nat) : (s.addf f i j n).dsp = s.dsp := rfl
@[simp] theorem State.addf_clt (s : State) (f : Fld) (i j n : Nat) : (s.addf f i j n).clt = s.clt := rfl
@[simp] theorem State.addf_tis (s : State) (f : Fld) (i j n : Nat) : (s.addf f i j n).tis = s.tis := rfl
@[simp] theorem State.addf_steals (s : State) (f : Fld) (i j n : Nat) : (s.addf f i j n).steals = s.steals := rfl
@[simp] theorem State.addf_fans (s : State) (f : Fld) (i j n : Nat) : (s.addf f i j n).fans = s.fans := rfl
@[simp] theorem State.addf_kao (s : State) (f : Fld) (i j n : Nat) : (s.addf f i j n).kao = s.kao := rfl
@[simp] theorem State.addf_custody (s : State) (f : Fld) (i j n : Nat) : (s.addf f i j n).custody = s.custody := rfl
@[simp] theorem State.addf_ledger (s : State) (f : Fld) (i j n : Nat) : (s.addf f i j n).ledger = s.ledger := rfl
@[simp] theorem State.addf_strata (s : State) (f : Fld) (i j n : Nat) : (s.addf f i j n).strata = s.strata := rfl
@[simp] theorem State.addf_sys (s : State) (f : Fld) (i j n : Nat) : (s.addf f i j n).sys = s.sys := rfl
@[simp] theorem State.addf_pwr (s : State) (f : Fld) (i j n : Nat) : (s.addf f i j n).pwr = s.pwr := rfl
@[simp] theorem State.addf_tlt (s : State) (f : Fld) (i j n : Nat) : (s.addf f i j n).tlt = s.tlt := rfl
@[simp] theorem State.addf_prt (s : State) (f : Fld) (i j n : Nat) : (s.addf f i j n).prt = s.prt := rfl
@[simp] theorem State.addf_out (s : State) (f : Fld) (i j n : Nat) : (s.addf f i j n).out = s.out := rfl
@[simp] theorem State.addf_freeCtr (s : State) (f : Fld) (i j n : Nat) : (s.addf f i j n).freeCtr = s.freeCtr := rfl
@[simp] theorem State.addf_rngCtr (s : State) (f : Fld) (i j n : Nat) : (s.addf f i j n).rngCtr = s.rngCtr := rfl

/-! ## resetFld -/

@[simp] theorem State.resetFld_pending (s : State) (f : Fld) (i j : Nat) : (s.resetFld f i j).pending = s.pending := rfl
@[simp] theorem State.resetFld_heldWrites (s : State) (f : Fld) (i j : Nat) : (s.resetFld f i j).heldWrites = s.heldWrites := rfl
@[simp] theorem State.resetFld_viaRestart (s : State) (f : Fld) (i j : Nat) : (s.resetFld f i j).viaRestart = s.viaRestart := rfl
@[simp] theorem State.resetFld_mem (s : State) (f : Fld) (i j : Nat) : (s.resetFld f i j).mem = s.mem := rfl
@[simp] theorem State.resetFld_keySlots (s : State) (f : Fld) (i j : Nat) : (s.resetFld f i j).keySlots = s.keySlots := rfl
@[simp] theorem State.resetFld_keyGen (s : State) (f : Fld) (i j : Nat) : (s.resetFld f i j).keyGen = s.keyGen := rfl
@[simp] theorem State.resetFld_keyLost (s : State) (f : Fld) (i j : Nat) : (s.resetFld f i j).keyLost = s.keyLost := rfl
@[simp] theorem State.resetFld_potCache (s : State) (f : Fld) (i j : Nat) : (s.resetFld f i j).potCache = s.potCache := rfl
@[simp] theorem State.resetFld_coh (s : State) (f : Fld) (i j : Nat) : (s.resetFld f i j).coh = s.coh := rfl
@[simp] theorem State.resetFld_evh (s : State) (f : Fld) (i j : Nat) : (s.resetFld f i j).evh = s.evh := rfl
@[simp] theorem State.resetFld_ras (s : State) (f : Fld) (i j : Nat) : (s.resetFld f i j).ras = s.ras := rfl
@[simp] theorem State.resetFld_dmc (s : State) (f : Fld) (i j : Nat) : (s.resetFld f i j).dmc = s.dmc := rfl
@[simp] theorem State.resetFld_cores (s : State) (f : Fld) (i j : Nat) : (s.resetFld f i j).cores = s.cores := rfl
@[simp] theorem State.resetFld_engines (s : State) (f : Fld) (i j : Nat) : (s.resetFld f i j).engines = s.engines := rfl
@[simp] theorem State.resetFld_clusters (s : State) (f : Fld) (i j : Nat) : (s.resetFld f i j).clusters = s.clusters := rfl
@[simp] theorem State.resetFld_dsp (s : State) (f : Fld) (i j : Nat) : (s.resetFld f i j).dsp = s.dsp := rfl
@[simp] theorem State.resetFld_clt (s : State) (f : Fld) (i j : Nat) : (s.resetFld f i j).clt = s.clt := rfl
@[simp] theorem State.resetFld_tis (s : State) (f : Fld) (i j : Nat) : (s.resetFld f i j).tis = s.tis := rfl
@[simp] theorem State.resetFld_steals (s : State) (f : Fld) (i j : Nat) : (s.resetFld f i j).steals = s.steals := rfl
@[simp] theorem State.resetFld_fans (s : State) (f : Fld) (i j : Nat) : (s.resetFld f i j).fans = s.fans := rfl
@[simp] theorem State.resetFld_kao (s : State) (f : Fld) (i j : Nat) : (s.resetFld f i j).kao = s.kao := rfl
@[simp] theorem State.resetFld_custody (s : State) (f : Fld) (i j : Nat) : (s.resetFld f i j).custody = s.custody := rfl
@[simp] theorem State.resetFld_ledger (s : State) (f : Fld) (i j : Nat) : (s.resetFld f i j).ledger = s.ledger := rfl
@[simp] theorem State.resetFld_strata (s : State) (f : Fld) (i j : Nat) : (s.resetFld f i j).strata = s.strata := rfl
@[simp] theorem State.resetFld_sys (s : State) (f : Fld) (i j : Nat) : (s.resetFld f i j).sys = s.sys := rfl
@[simp] theorem State.resetFld_pwr (s : State) (f : Fld) (i j : Nat) : (s.resetFld f i j).pwr = s.pwr := rfl
@[simp] theorem State.resetFld_tlt (s : State) (f : Fld) (i j : Nat) : (s.resetFld f i j).tlt = s.tlt := rfl
@[simp] theorem State.resetFld_prt (s : State) (f : Fld) (i j : Nat) : (s.resetFld f i j).prt = s.prt := rfl
@[simp] theorem State.resetFld_out (s : State) (f : Fld) (i j : Nat) : (s.resetFld f i j).out = s.out := rfl
@[simp] theorem State.resetFld_freeCtr (s : State) (f : Fld) (i j : Nat) : (s.resetFld f i j).freeCtr = s.freeCtr := rfl
@[simp] theorem State.resetFld_rngCtr (s : State) (f : Fld) (i j : Nat) : (s.resetFld f i j).rngCtr = s.rngCtr := rfl

/-! ## setRankState -/

@[simp] theorem State.setRankState_pending (s : State) (c r v : Nat) : (s.setRankState c r v).pending = s.pending := rfl
@[simp] theorem State.setRankState_heldWrites (s : State) (c r v : Nat) : (s.setRankState c r v).heldWrites = s.heldWrites := rfl
@[simp] theorem State.setRankState_viaRestart (s : State) (c r v : Nat) : (s.setRankState c r v).viaRestart = s.viaRestart := rfl
@[simp] theorem State.setRankState_mem (s : State) (c r v : Nat) : (s.setRankState c r v).mem = s.mem := rfl
@[simp] theorem State.setRankState_keySlots (s : State) (c r v : Nat) : (s.setRankState c r v).keySlots = s.keySlots := rfl
@[simp] theorem State.setRankState_keyGen (s : State) (c r v : Nat) : (s.setRankState c r v).keyGen = s.keyGen := rfl
@[simp] theorem State.setRankState_keyLost (s : State) (c r v : Nat) : (s.setRankState c r v).keyLost = s.keyLost := rfl
@[simp] theorem State.setRankState_potCache (s : State) (c r v : Nat) : (s.setRankState c r v).potCache = s.potCache := rfl
@[simp] theorem State.setRankState_coh (s : State) (c r v : Nat) : (s.setRankState c r v).coh = s.coh := rfl
@[simp] theorem State.setRankState_evh (s : State) (c r v : Nat) : (s.setRankState c r v).evh = s.evh := rfl
@[simp] theorem State.setRankState_ras (s : State) (c r v : Nat) : (s.setRankState c r v).ras = s.ras := rfl
@[simp] theorem State.setRankState_dmc (s : State) (c r v : Nat) : (s.setRankState c r v).dmc = s.dmc := rfl
@[simp] theorem State.setRankState_cores (s : State) (c r v : Nat) : (s.setRankState c r v).cores = s.cores := rfl
@[simp] theorem State.setRankState_engines (s : State) (c r v : Nat) : (s.setRankState c r v).engines = s.engines := rfl
@[simp] theorem State.setRankState_clusters (s : State) (c r v : Nat) : (s.setRankState c r v).clusters = s.clusters := rfl
@[simp] theorem State.setRankState_dsp (s : State) (c r v : Nat) : (s.setRankState c r v).dsp = s.dsp := rfl
@[simp] theorem State.setRankState_clt (s : State) (c r v : Nat) : (s.setRankState c r v).clt = s.clt := rfl
@[simp] theorem State.setRankState_tis (s : State) (c r v : Nat) : (s.setRankState c r v).tis = s.tis := rfl
@[simp] theorem State.setRankState_steals (s : State) (c r v : Nat) : (s.setRankState c r v).steals = s.steals := rfl
@[simp] theorem State.setRankState_fans (s : State) (c r v : Nat) : (s.setRankState c r v).fans = s.fans := rfl
@[simp] theorem State.setRankState_kao (s : State) (c r v : Nat) : (s.setRankState c r v).kao = s.kao := rfl
@[simp] theorem State.setRankState_custody (s : State) (c r v : Nat) : (s.setRankState c r v).custody = s.custody := rfl
@[simp] theorem State.setRankState_ledger (s : State) (c r v : Nat) : (s.setRankState c r v).ledger = s.ledger := rfl
@[simp] theorem State.setRankState_strata (s : State) (c r v : Nat) : (s.setRankState c r v).strata = s.strata := rfl
@[simp] theorem State.setRankState_sys (s : State) (c r v : Nat) : (s.setRankState c r v).sys = s.sys := rfl
@[simp] theorem State.setRankState_pwr (s : State) (c r v : Nat) : (s.setRankState c r v).pwr = s.pwr := rfl
@[simp] theorem State.setRankState_tlt (s : State) (c r v : Nat) : (s.setRankState c r v).tlt = s.tlt := rfl
@[simp] theorem State.setRankState_prt (s : State) (c r v : Nat) : (s.setRankState c r v).prt = s.prt := rfl
@[simp] theorem State.setRankState_out (s : State) (c r v : Nat) : (s.setRankState c r v).out = s.out := rfl
@[simp] theorem State.setRankState_freeCtr (s : State) (c r v : Nat) : (s.setRankState c r v).freeCtr = s.freeCtr := rfl
@[simp] theorem State.setRankState_rngCtr (s : State) (c r v : Nat) : (s.setRankState c r v).rngCtr = s.rngCtr := rfl

/-! ## setDom -/

@[simp] theorem State.setDom_pending (s : State) (h d v : Nat) : (s.setDom h d v).pending = s.pending := rfl
@[simp] theorem State.setDom_heldWrites (s : State) (h d v : Nat) : (s.setDom h d v).heldWrites = s.heldWrites := rfl
@[simp] theorem State.setDom_viaRestart (s : State) (h d v : Nat) : (s.setDom h d v).viaRestart = s.viaRestart := rfl
@[simp] theorem State.setDom_mem (s : State) (h d v : Nat) : (s.setDom h d v).mem = s.mem := rfl
@[simp] theorem State.setDom_keySlots (s : State) (h d v : Nat) : (s.setDom h d v).keySlots = s.keySlots := rfl
@[simp] theorem State.setDom_keyGen (s : State) (h d v : Nat) : (s.setDom h d v).keyGen = s.keyGen := rfl
@[simp] theorem State.setDom_keyLost (s : State) (h d v : Nat) : (s.setDom h d v).keyLost = s.keyLost := rfl
@[simp] theorem State.setDom_potCache (s : State) (h d v : Nat) : (s.setDom h d v).potCache = s.potCache := rfl
@[simp] theorem State.setDom_coh (s : State) (h d v : Nat) : (s.setDom h d v).coh = s.coh := rfl
@[simp] theorem State.setDom_evh (s : State) (h d v : Nat) : (s.setDom h d v).evh = s.evh := rfl
@[simp] theorem State.setDom_ras (s : State) (h d v : Nat) : (s.setDom h d v).ras = s.ras := rfl
@[simp] theorem State.setDom_dmc (s : State) (h d v : Nat) : (s.setDom h d v).dmc = s.dmc := rfl
@[simp] theorem State.setDom_cores (s : State) (h d v : Nat) : (s.setDom h d v).cores = s.cores := rfl
@[simp] theorem State.setDom_engines (s : State) (h d v : Nat) : (s.setDom h d v).engines = s.engines := rfl
@[simp] theorem State.setDom_clusters (s : State) (h d v : Nat) : (s.setDom h d v).clusters = s.clusters := rfl
@[simp] theorem State.setDom_dsp (s : State) (h d v : Nat) : (s.setDom h d v).dsp = s.dsp := rfl
@[simp] theorem State.setDom_clt (s : State) (h d v : Nat) : (s.setDom h d v).clt = s.clt := rfl
@[simp] theorem State.setDom_tis (s : State) (h d v : Nat) : (s.setDom h d v).tis = s.tis := rfl
@[simp] theorem State.setDom_steals (s : State) (h d v : Nat) : (s.setDom h d v).steals = s.steals := rfl
@[simp] theorem State.setDom_fans (s : State) (h d v : Nat) : (s.setDom h d v).fans = s.fans := rfl
@[simp] theorem State.setDom_kao (s : State) (h d v : Nat) : (s.setDom h d v).kao = s.kao := rfl
@[simp] theorem State.setDom_custody (s : State) (h d v : Nat) : (s.setDom h d v).custody = s.custody := rfl
@[simp] theorem State.setDom_ledger (s : State) (h d v : Nat) : (s.setDom h d v).ledger = s.ledger := rfl
@[simp] theorem State.setDom_strata (s : State) (h d v : Nat) : (s.setDom h d v).strata = s.strata := rfl
@[simp] theorem State.setDom_sys (s : State) (h d v : Nat) : (s.setDom h d v).sys = s.sys := rfl
@[simp] theorem State.setDom_pwr (s : State) (h d v : Nat) : (s.setDom h d v).pwr = s.pwr := rfl
@[simp] theorem State.setDom_tlt (s : State) (h d v : Nat) : (s.setDom h d v).tlt = s.tlt := rfl
@[simp] theorem State.setDom_prt (s : State) (h d v : Nat) : (s.setDom h d v).prt = s.prt := rfl
@[simp] theorem State.setDom_out (s : State) (h d v : Nat) : (s.setDom h d v).out = s.out := rfl
@[simp] theorem State.setDom_freeCtr (s : State) (h d v : Nat) : (s.setDom h d v).freeCtr = s.freeCtr := rfl
@[simp] theorem State.setDom_rngCtr (s : State) (h d v : Nat) : (s.setDom h d v).rngCtr = s.rngCtr := rfl

/-! ## updEng -/

@[simp] theorem State.updEng_pending (s : State) (e : Nat) (f : Engine → Engine) : (s.updEng e f).pending = s.pending := rfl
@[simp] theorem State.updEng_regs (s : State) (e : Nat) (f : Engine → Engine) : (s.updEng e f).regs = s.regs := rfl
@[simp] theorem State.updEng_heldWrites (s : State) (e : Nat) (f : Engine → Engine) : (s.updEng e f).heldWrites = s.heldWrites := rfl
@[simp] theorem State.updEng_viaRestart (s : State) (e : Nat) (f : Engine → Engine) : (s.updEng e f).viaRestart = s.viaRestart := rfl
@[simp] theorem State.updEng_mem (s : State) (e : Nat) (f : Engine → Engine) : (s.updEng e f).mem = s.mem := rfl
@[simp] theorem State.updEng_keySlots (s : State) (e : Nat) (f : Engine → Engine) : (s.updEng e f).keySlots = s.keySlots := rfl
@[simp] theorem State.updEng_keyGen (s : State) (e : Nat) (f : Engine → Engine) : (s.updEng e f).keyGen = s.keyGen := rfl
@[simp] theorem State.updEng_keyLost (s : State) (e : Nat) (f : Engine → Engine) : (s.updEng e f).keyLost = s.keyLost := rfl
@[simp] theorem State.updEng_potCache (s : State) (e : Nat) (f : Engine → Engine) : (s.updEng e f).potCache = s.potCache := rfl
@[simp] theorem State.updEng_coh (s : State) (e : Nat) (f : Engine → Engine) : (s.updEng e f).coh = s.coh := rfl
@[simp] theorem State.updEng_evh (s : State) (e : Nat) (f : Engine → Engine) : (s.updEng e f).evh = s.evh := rfl
@[simp] theorem State.updEng_ras (s : State) (e : Nat) (f : Engine → Engine) : (s.updEng e f).ras = s.ras := rfl
@[simp] theorem State.updEng_dmc (s : State) (e : Nat) (f : Engine → Engine) : (s.updEng e f).dmc = s.dmc := rfl
@[simp] theorem State.updEng_cores (s : State) (e : Nat) (f : Engine → Engine) : (s.updEng e f).cores = s.cores := rfl
@[simp] theorem State.updEng_clusters (s : State) (e : Nat) (f : Engine → Engine) : (s.updEng e f).clusters = s.clusters := rfl
@[simp] theorem State.updEng_dsp (s : State) (e : Nat) (f : Engine → Engine) : (s.updEng e f).dsp = s.dsp := rfl
@[simp] theorem State.updEng_clt (s : State) (e : Nat) (f : Engine → Engine) : (s.updEng e f).clt = s.clt := rfl
@[simp] theorem State.updEng_tis (s : State) (e : Nat) (f : Engine → Engine) : (s.updEng e f).tis = s.tis := rfl
@[simp] theorem State.updEng_steals (s : State) (e : Nat) (f : Engine → Engine) : (s.updEng e f).steals = s.steals := rfl
@[simp] theorem State.updEng_fans (s : State) (e : Nat) (f : Engine → Engine) : (s.updEng e f).fans = s.fans := rfl
@[simp] theorem State.updEng_kao (s : State) (e : Nat) (f : Engine → Engine) : (s.updEng e f).kao = s.kao := rfl
@[simp] theorem State.updEng_custody (s : State) (e : Nat) (f : Engine → Engine) : (s.updEng e f).custody = s.custody := rfl
@[simp] theorem State.updEng_ledger (s : State) (e : Nat) (f : Engine → Engine) : (s.updEng e f).ledger = s.ledger := rfl
@[simp] theorem State.updEng_strata (s : State) (e : Nat) (f : Engine → Engine) : (s.updEng e f).strata = s.strata := rfl
@[simp] theorem State.updEng_sys (s : State) (e : Nat) (f : Engine → Engine) : (s.updEng e f).sys = s.sys := rfl
@[simp] theorem State.updEng_pwr (s : State) (e : Nat) (f : Engine → Engine) : (s.updEng e f).pwr = s.pwr := rfl
@[simp] theorem State.updEng_tlt (s : State) (e : Nat) (f : Engine → Engine) : (s.updEng e f).tlt = s.tlt := rfl
@[simp] theorem State.updEng_prt (s : State) (e : Nat) (f : Engine → Engine) : (s.updEng e f).prt = s.prt := rfl
@[simp] theorem State.updEng_out (s : State) (e : Nat) (f : Engine → Engine) : (s.updEng e f).out = s.out := rfl
@[simp] theorem State.updEng_freeCtr (s : State) (e : Nat) (f : Engine → Engine) : (s.updEng e f).freeCtr = s.freeCtr := rfl
@[simp] theorem State.updEng_rngCtr (s : State) (e : Nat) (f : Engine → Engine) : (s.updEng e f).rngCtr = s.rngCtr := rfl

/-! ## updTi -/

@[simp] theorem State.updTi_pending (s : State) (n : Nat) (f : Ti → Ti) : (s.updTi n f).pending = s.pending := rfl
@[simp] theorem State.updTi_regs (s : State) (n : Nat) (f : Ti → Ti) : (s.updTi n f).regs = s.regs := rfl
@[simp] theorem State.updTi_heldWrites (s : State) (n : Nat) (f : Ti → Ti) : (s.updTi n f).heldWrites = s.heldWrites := rfl
@[simp] theorem State.updTi_viaRestart (s : State) (n : Nat) (f : Ti → Ti) : (s.updTi n f).viaRestart = s.viaRestart := rfl
@[simp] theorem State.updTi_mem (s : State) (n : Nat) (f : Ti → Ti) : (s.updTi n f).mem = s.mem := rfl
@[simp] theorem State.updTi_keySlots (s : State) (n : Nat) (f : Ti → Ti) : (s.updTi n f).keySlots = s.keySlots := rfl
@[simp] theorem State.updTi_keyGen (s : State) (n : Nat) (f : Ti → Ti) : (s.updTi n f).keyGen = s.keyGen := rfl
@[simp] theorem State.updTi_keyLost (s : State) (n : Nat) (f : Ti → Ti) : (s.updTi n f).keyLost = s.keyLost := rfl
@[simp] theorem State.updTi_potCache (s : State) (n : Nat) (f : Ti → Ti) : (s.updTi n f).potCache = s.potCache := rfl
@[simp] theorem State.updTi_coh (s : State) (n : Nat) (f : Ti → Ti) : (s.updTi n f).coh = s.coh := rfl
@[simp] theorem State.updTi_evh (s : State) (n : Nat) (f : Ti → Ti) : (s.updTi n f).evh = s.evh := rfl
@[simp] theorem State.updTi_ras (s : State) (n : Nat) (f : Ti → Ti) : (s.updTi n f).ras = s.ras := rfl
@[simp] theorem State.updTi_dmc (s : State) (n : Nat) (f : Ti → Ti) : (s.updTi n f).dmc = s.dmc := rfl
@[simp] theorem State.updTi_cores (s : State) (n : Nat) (f : Ti → Ti) : (s.updTi n f).cores = s.cores := rfl
@[simp] theorem State.updTi_engines (s : State) (n : Nat) (f : Ti → Ti) : (s.updTi n f).engines = s.engines := rfl
@[simp] theorem State.updTi_clusters (s : State) (n : Nat) (f : Ti → Ti) : (s.updTi n f).clusters = s.clusters := rfl
@[simp] theorem State.updTi_dsp (s : State) (n : Nat) (f : Ti → Ti) : (s.updTi n f).dsp = s.dsp := rfl
@[simp] theorem State.updTi_clt (s : State) (n : Nat) (f : Ti → Ti) : (s.updTi n f).clt = s.clt := rfl
@[simp] theorem State.updTi_steals (s : State) (n : Nat) (f : Ti → Ti) : (s.updTi n f).steals = s.steals := rfl
@[simp] theorem State.updTi_fans (s : State) (n : Nat) (f : Ti → Ti) : (s.updTi n f).fans = s.fans := rfl
@[simp] theorem State.updTi_kao (s : State) (n : Nat) (f : Ti → Ti) : (s.updTi n f).kao = s.kao := rfl
@[simp] theorem State.updTi_custody (s : State) (n : Nat) (f : Ti → Ti) : (s.updTi n f).custody = s.custody := rfl
@[simp] theorem State.updTi_ledger (s : State) (n : Nat) (f : Ti → Ti) : (s.updTi n f).ledger = s.ledger := rfl
@[simp] theorem State.updTi_strata (s : State) (n : Nat) (f : Ti → Ti) : (s.updTi n f).strata = s.strata := rfl
@[simp] theorem State.updTi_sys (s : State) (n : Nat) (f : Ti → Ti) : (s.updTi n f).sys = s.sys := rfl
@[simp] theorem State.updTi_pwr (s : State) (n : Nat) (f : Ti → Ti) : (s.updTi n f).pwr = s.pwr := rfl
@[simp] theorem State.updTi_tlt (s : State) (n : Nat) (f : Ti → Ti) : (s.updTi n f).tlt = s.tlt := rfl
@[simp] theorem State.updTi_prt (s : State) (n : Nat) (f : Ti → Ti) : (s.updTi n f).prt = s.prt := rfl
@[simp] theorem State.updTi_out (s : State) (n : Nat) (f : Ti → Ti) : (s.updTi n f).out = s.out := rfl
@[simp] theorem State.updTi_freeCtr (s : State) (n : Nat) (f : Ti → Ti) : (s.updTi n f).freeCtr = s.freeCtr := rfl
@[simp] theorem State.updTi_rngCtr (s : State) (n : Nat) (f : Ti → Ti) : (s.updTi n f).rngCtr = s.rngCtr := rfl

/-! ## updCluster -/

@[simp] theorem State.updCluster_pending (s : State) (c : Nat) (f : Cluster → Cluster) : (s.updCluster c f).pending = s.pending := rfl
@[simp] theorem State.updCluster_regs (s : State) (c : Nat) (f : Cluster → Cluster) : (s.updCluster c f).regs = s.regs := rfl
@[simp] theorem State.updCluster_heldWrites (s : State) (c : Nat) (f : Cluster → Cluster) : (s.updCluster c f).heldWrites = s.heldWrites := rfl
@[simp] theorem State.updCluster_viaRestart (s : State) (c : Nat) (f : Cluster → Cluster) : (s.updCluster c f).viaRestart = s.viaRestart := rfl
@[simp] theorem State.updCluster_mem (s : State) (c : Nat) (f : Cluster → Cluster) : (s.updCluster c f).mem = s.mem := rfl
@[simp] theorem State.updCluster_keySlots (s : State) (c : Nat) (f : Cluster → Cluster) : (s.updCluster c f).keySlots = s.keySlots := rfl
@[simp] theorem State.updCluster_keyGen (s : State) (c : Nat) (f : Cluster → Cluster) : (s.updCluster c f).keyGen = s.keyGen := rfl
@[simp] theorem State.updCluster_keyLost (s : State) (c : Nat) (f : Cluster → Cluster) : (s.updCluster c f).keyLost = s.keyLost := rfl
@[simp] theorem State.updCluster_potCache (s : State) (c : Nat) (f : Cluster → Cluster) : (s.updCluster c f).potCache = s.potCache := rfl
@[simp] theorem State.updCluster_coh (s : State) (c : Nat) (f : Cluster → Cluster) : (s.updCluster c f).coh = s.coh := rfl
@[simp] theorem State.updCluster_evh (s : State) (c : Nat) (f : Cluster → Cluster) : (s.updCluster c f).evh = s.evh := rfl
@[simp] theorem State.updCluster_ras (s : State) (c : Nat) (f : Cluster → Cluster) : (s.updCluster c f).ras = s.ras := rfl
@[simp] theorem State.updCluster_dmc (s : State) (c : Nat) (f : Cluster → Cluster) : (s.updCluster c f).dmc = s.dmc := rfl
@[simp] theorem State.updCluster_cores (s : State) (c : Nat) (f : Cluster → Cluster) : (s.updCluster c f).cores = s.cores := rfl
@[simp] theorem State.updCluster_engines (s : State) (c : Nat) (f : Cluster → Cluster) : (s.updCluster c f).engines = s.engines := rfl
@[simp] theorem State.updCluster_dsp (s : State) (c : Nat) (f : Cluster → Cluster) : (s.updCluster c f).dsp = s.dsp := rfl
@[simp] theorem State.updCluster_clt (s : State) (c : Nat) (f : Cluster → Cluster) : (s.updCluster c f).clt = s.clt := rfl
@[simp] theorem State.updCluster_tis (s : State) (c : Nat) (f : Cluster → Cluster) : (s.updCluster c f).tis = s.tis := rfl
@[simp] theorem State.updCluster_steals (s : State) (c : Nat) (f : Cluster → Cluster) : (s.updCluster c f).steals = s.steals := rfl
@[simp] theorem State.updCluster_fans (s : State) (c : Nat) (f : Cluster → Cluster) : (s.updCluster c f).fans = s.fans := rfl
@[simp] theorem State.updCluster_kao (s : State) (c : Nat) (f : Cluster → Cluster) : (s.updCluster c f).kao = s.kao := rfl
@[simp] theorem State.updCluster_custody (s : State) (c : Nat) (f : Cluster → Cluster) : (s.updCluster c f).custody = s.custody := rfl
@[simp] theorem State.updCluster_ledger (s : State) (c : Nat) (f : Cluster → Cluster) : (s.updCluster c f).ledger = s.ledger := rfl
@[simp] theorem State.updCluster_strata (s : State) (c : Nat) (f : Cluster → Cluster) : (s.updCluster c f).strata = s.strata := rfl
@[simp] theorem State.updCluster_sys (s : State) (c : Nat) (f : Cluster → Cluster) : (s.updCluster c f).sys = s.sys := rfl
@[simp] theorem State.updCluster_pwr (s : State) (c : Nat) (f : Cluster → Cluster) : (s.updCluster c f).pwr = s.pwr := rfl
@[simp] theorem State.updCluster_tlt (s : State) (c : Nat) (f : Cluster → Cluster) : (s.updCluster c f).tlt = s.tlt := rfl
@[simp] theorem State.updCluster_prt (s : State) (c : Nat) (f : Cluster → Cluster) : (s.updCluster c f).prt = s.prt := rfl
@[simp] theorem State.updCluster_out (s : State) (c : Nat) (f : Cluster → Cluster) : (s.updCluster c f).out = s.out := rfl
@[simp] theorem State.updCluster_freeCtr (s : State) (c : Nat) (f : Cluster → Cluster) : (s.updCluster c f).freeCtr = s.freeCtr := rfl
@[simp] theorem State.updCluster_rngCtr (s : State) (c : Nat) (f : Cluster → Cluster) : (s.updCluster c f).rngCtr = s.rngCtr := rfl

/-! ## updDsp -/

@[simp] theorem State.updDsp_pending (s : State) (h : Nat) (f : Dsp → Dsp) : (s.updDsp h f).pending = s.pending := rfl
@[simp] theorem State.updDsp_regs (s : State) (h : Nat) (f : Dsp → Dsp) : (s.updDsp h f).regs = s.regs := rfl
@[simp] theorem State.updDsp_heldWrites (s : State) (h : Nat) (f : Dsp → Dsp) : (s.updDsp h f).heldWrites = s.heldWrites := rfl
@[simp] theorem State.updDsp_viaRestart (s : State) (h : Nat) (f : Dsp → Dsp) : (s.updDsp h f).viaRestart = s.viaRestart := rfl
@[simp] theorem State.updDsp_mem (s : State) (h : Nat) (f : Dsp → Dsp) : (s.updDsp h f).mem = s.mem := rfl
@[simp] theorem State.updDsp_keySlots (s : State) (h : Nat) (f : Dsp → Dsp) : (s.updDsp h f).keySlots = s.keySlots := rfl
@[simp] theorem State.updDsp_keyGen (s : State) (h : Nat) (f : Dsp → Dsp) : (s.updDsp h f).keyGen = s.keyGen := rfl
@[simp] theorem State.updDsp_keyLost (s : State) (h : Nat) (f : Dsp → Dsp) : (s.updDsp h f).keyLost = s.keyLost := rfl
@[simp] theorem State.updDsp_potCache (s : State) (h : Nat) (f : Dsp → Dsp) : (s.updDsp h f).potCache = s.potCache := rfl
@[simp] theorem State.updDsp_coh (s : State) (h : Nat) (f : Dsp → Dsp) : (s.updDsp h f).coh = s.coh := rfl
@[simp] theorem State.updDsp_evh (s : State) (h : Nat) (f : Dsp → Dsp) : (s.updDsp h f).evh = s.evh := rfl
@[simp] theorem State.updDsp_ras (s : State) (h : Nat) (f : Dsp → Dsp) : (s.updDsp h f).ras = s.ras := rfl
@[simp] theorem State.updDsp_dmc (s : State) (h : Nat) (f : Dsp → Dsp) : (s.updDsp h f).dmc = s.dmc := rfl
@[simp] theorem State.updDsp_cores (s : State) (h : Nat) (f : Dsp → Dsp) : (s.updDsp h f).cores = s.cores := rfl
@[simp] theorem State.updDsp_engines (s : State) (h : Nat) (f : Dsp → Dsp) : (s.updDsp h f).engines = s.engines := rfl
@[simp] theorem State.updDsp_clusters (s : State) (h : Nat) (f : Dsp → Dsp) : (s.updDsp h f).clusters = s.clusters := rfl
@[simp] theorem State.updDsp_clt (s : State) (h : Nat) (f : Dsp → Dsp) : (s.updDsp h f).clt = s.clt := rfl
@[simp] theorem State.updDsp_tis (s : State) (h : Nat) (f : Dsp → Dsp) : (s.updDsp h f).tis = s.tis := rfl
@[simp] theorem State.updDsp_steals (s : State) (h : Nat) (f : Dsp → Dsp) : (s.updDsp h f).steals = s.steals := rfl
@[simp] theorem State.updDsp_fans (s : State) (h : Nat) (f : Dsp → Dsp) : (s.updDsp h f).fans = s.fans := rfl
@[simp] theorem State.updDsp_kao (s : State) (h : Nat) (f : Dsp → Dsp) : (s.updDsp h f).kao = s.kao := rfl
@[simp] theorem State.updDsp_custody (s : State) (h : Nat) (f : Dsp → Dsp) : (s.updDsp h f).custody = s.custody := rfl
@[simp] theorem State.updDsp_ledger (s : State) (h : Nat) (f : Dsp → Dsp) : (s.updDsp h f).ledger = s.ledger := rfl
@[simp] theorem State.updDsp_strata (s : State) (h : Nat) (f : Dsp → Dsp) : (s.updDsp h f).strata = s.strata := rfl
@[simp] theorem State.updDsp_sys (s : State) (h : Nat) (f : Dsp → Dsp) : (s.updDsp h f).sys = s.sys := rfl
@[simp] theorem State.updDsp_pwr (s : State) (h : Nat) (f : Dsp → Dsp) : (s.updDsp h f).pwr = s.pwr := rfl
@[simp] theorem State.updDsp_tlt (s : State) (h : Nat) (f : Dsp → Dsp) : (s.updDsp h f).tlt = s.tlt := rfl
@[simp] theorem State.updDsp_prt (s : State) (h : Nat) (f : Dsp → Dsp) : (s.updDsp h f).prt = s.prt := rfl
@[simp] theorem State.updDsp_out (s : State) (h : Nat) (f : Dsp → Dsp) : (s.updDsp h f).out = s.out := rfl
@[simp] theorem State.updDsp_freeCtr (s : State) (h : Nat) (f : Dsp → Dsp) : (s.updDsp h f).freeCtr = s.freeCtr := rfl
@[simp] theorem State.updDsp_rngCtr (s : State) (h : Nat) (f : Dsp → Dsp) : (s.updDsp h f).rngCtr = s.rngCtr := rfl

/-! ## updClt -/

@[simp] theorem State.updClt_pending (s : State) (h : Nat) (f : Clt → Clt) : (s.updClt h f).pending = s.pending := rfl
@[simp] theorem State.updClt_regs (s : State) (h : Nat) (f : Clt → Clt) : (s.updClt h f).regs = s.regs := rfl
@[simp] theorem State.updClt_heldWrites (s : State) (h : Nat) (f : Clt → Clt) : (s.updClt h f).heldWrites = s.heldWrites := rfl
@[simp] theorem State.updClt_viaRestart (s : State) (h : Nat) (f : Clt → Clt) : (s.updClt h f).viaRestart = s.viaRestart := rfl
@[simp] theorem State.updClt_mem (s : State) (h : Nat) (f : Clt → Clt) : (s.updClt h f).mem = s.mem := rfl
@[simp] theorem State.updClt_keySlots (s : State) (h : Nat) (f : Clt → Clt) : (s.updClt h f).keySlots = s.keySlots := rfl
@[simp] theorem State.updClt_keyGen (s : State) (h : Nat) (f : Clt → Clt) : (s.updClt h f).keyGen = s.keyGen := rfl
@[simp] theorem State.updClt_keyLost (s : State) (h : Nat) (f : Clt → Clt) : (s.updClt h f).keyLost = s.keyLost := rfl
@[simp] theorem State.updClt_potCache (s : State) (h : Nat) (f : Clt → Clt) : (s.updClt h f).potCache = s.potCache := rfl
@[simp] theorem State.updClt_coh (s : State) (h : Nat) (f : Clt → Clt) : (s.updClt h f).coh = s.coh := rfl
@[simp] theorem State.updClt_evh (s : State) (h : Nat) (f : Clt → Clt) : (s.updClt h f).evh = s.evh := rfl
@[simp] theorem State.updClt_ras (s : State) (h : Nat) (f : Clt → Clt) : (s.updClt h f).ras = s.ras := rfl
@[simp] theorem State.updClt_dmc (s : State) (h : Nat) (f : Clt → Clt) : (s.updClt h f).dmc = s.dmc := rfl
@[simp] theorem State.updClt_cores (s : State) (h : Nat) (f : Clt → Clt) : (s.updClt h f).cores = s.cores := rfl
@[simp] theorem State.updClt_engines (s : State) (h : Nat) (f : Clt → Clt) : (s.updClt h f).engines = s.engines := rfl
@[simp] theorem State.updClt_clusters (s : State) (h : Nat) (f : Clt → Clt) : (s.updClt h f).clusters = s.clusters := rfl
@[simp] theorem State.updClt_dsp (s : State) (h : Nat) (f : Clt → Clt) : (s.updClt h f).dsp = s.dsp := rfl
@[simp] theorem State.updClt_tis (s : State) (h : Nat) (f : Clt → Clt) : (s.updClt h f).tis = s.tis := rfl
@[simp] theorem State.updClt_steals (s : State) (h : Nat) (f : Clt → Clt) : (s.updClt h f).steals = s.steals := rfl
@[simp] theorem State.updClt_fans (s : State) (h : Nat) (f : Clt → Clt) : (s.updClt h f).fans = s.fans := rfl
@[simp] theorem State.updClt_kao (s : State) (h : Nat) (f : Clt → Clt) : (s.updClt h f).kao = s.kao := rfl
@[simp] theorem State.updClt_custody (s : State) (h : Nat) (f : Clt → Clt) : (s.updClt h f).custody = s.custody := rfl
@[simp] theorem State.updClt_ledger (s : State) (h : Nat) (f : Clt → Clt) : (s.updClt h f).ledger = s.ledger := rfl
@[simp] theorem State.updClt_strata (s : State) (h : Nat) (f : Clt → Clt) : (s.updClt h f).strata = s.strata := rfl
@[simp] theorem State.updClt_sys (s : State) (h : Nat) (f : Clt → Clt) : (s.updClt h f).sys = s.sys := rfl
@[simp] theorem State.updClt_pwr (s : State) (h : Nat) (f : Clt → Clt) : (s.updClt h f).pwr = s.pwr := rfl
@[simp] theorem State.updClt_tlt (s : State) (h : Nat) (f : Clt → Clt) : (s.updClt h f).tlt = s.tlt := rfl
@[simp] theorem State.updClt_prt (s : State) (h : Nat) (f : Clt → Clt) : (s.updClt h f).prt = s.prt := rfl
@[simp] theorem State.updClt_out (s : State) (h : Nat) (f : Clt → Clt) : (s.updClt h f).out = s.out := rfl
@[simp] theorem State.updClt_freeCtr (s : State) (h : Nat) (f : Clt → Clt) : (s.updClt h f).freeCtr = s.freeCtr := rfl
@[simp] theorem State.updClt_rngCtr (s : State) (h : Nat) (f : Clt → Clt) : (s.updClt h f).rngCtr = s.rngCtr := rfl

/-! ## updChan -/

@[simp] theorem State.updChan_pending (s : State) (c : Nat) (f : Dmc → Dmc) : (s.updChan c f).pending = s.pending := rfl
@[simp] theorem State.updChan_regs (s : State) (c : Nat) (f : Dmc → Dmc) : (s.updChan c f).regs = s.regs := rfl
@[simp] theorem State.updChan_heldWrites (s : State) (c : Nat) (f : Dmc → Dmc) : (s.updChan c f).heldWrites = s.heldWrites := rfl
@[simp] theorem State.updChan_viaRestart (s : State) (c : Nat) (f : Dmc → Dmc) : (s.updChan c f).viaRestart = s.viaRestart := rfl
@[simp] theorem State.updChan_mem (s : State) (c : Nat) (f : Dmc → Dmc) : (s.updChan c f).mem = s.mem := rfl
@[simp] theorem State.updChan_keySlots (s : State) (c : Nat) (f : Dmc → Dmc) : (s.updChan c f).keySlots = s.keySlots := rfl
@[simp] theorem State.updChan_keyGen (s : State) (c : Nat) (f : Dmc → Dmc) : (s.updChan c f).keyGen = s.keyGen := rfl
@[simp] theorem State.updChan_keyLost (s : State) (c : Nat) (f : Dmc → Dmc) : (s.updChan c f).keyLost = s.keyLost := rfl
@[simp] theorem State.updChan_potCache (s : State) (c : Nat) (f : Dmc → Dmc) : (s.updChan c f).potCache = s.potCache := rfl
@[simp] theorem State.updChan_coh (s : State) (c : Nat) (f : Dmc → Dmc) : (s.updChan c f).coh = s.coh := rfl
@[simp] theorem State.updChan_evh (s : State) (c : Nat) (f : Dmc → Dmc) : (s.updChan c f).evh = s.evh := rfl
@[simp] theorem State.updChan_ras (s : State) (c : Nat) (f : Dmc → Dmc) : (s.updChan c f).ras = s.ras := rfl
@[simp] theorem State.updChan_cores (s : State) (c : Nat) (f : Dmc → Dmc) : (s.updChan c f).cores = s.cores := rfl
@[simp] theorem State.updChan_engines (s : State) (c : Nat) (f : Dmc → Dmc) : (s.updChan c f).engines = s.engines := rfl
@[simp] theorem State.updChan_clusters (s : State) (c : Nat) (f : Dmc → Dmc) : (s.updChan c f).clusters = s.clusters := rfl
@[simp] theorem State.updChan_dsp (s : State) (c : Nat) (f : Dmc → Dmc) : (s.updChan c f).dsp = s.dsp := rfl
@[simp] theorem State.updChan_clt (s : State) (c : Nat) (f : Dmc → Dmc) : (s.updChan c f).clt = s.clt := rfl
@[simp] theorem State.updChan_tis (s : State) (c : Nat) (f : Dmc → Dmc) : (s.updChan c f).tis = s.tis := rfl
@[simp] theorem State.updChan_steals (s : State) (c : Nat) (f : Dmc → Dmc) : (s.updChan c f).steals = s.steals := rfl
@[simp] theorem State.updChan_fans (s : State) (c : Nat) (f : Dmc → Dmc) : (s.updChan c f).fans = s.fans := rfl
@[simp] theorem State.updChan_kao (s : State) (c : Nat) (f : Dmc → Dmc) : (s.updChan c f).kao = s.kao := rfl
@[simp] theorem State.updChan_custody (s : State) (c : Nat) (f : Dmc → Dmc) : (s.updChan c f).custody = s.custody := rfl
@[simp] theorem State.updChan_ledger (s : State) (c : Nat) (f : Dmc → Dmc) : (s.updChan c f).ledger = s.ledger := rfl
@[simp] theorem State.updChan_strata (s : State) (c : Nat) (f : Dmc → Dmc) : (s.updChan c f).strata = s.strata := rfl
@[simp] theorem State.updChan_sys (s : State) (c : Nat) (f : Dmc → Dmc) : (s.updChan c f).sys = s.sys := rfl
@[simp] theorem State.updChan_pwr (s : State) (c : Nat) (f : Dmc → Dmc) : (s.updChan c f).pwr = s.pwr := rfl
@[simp] theorem State.updChan_tlt (s : State) (c : Nat) (f : Dmc → Dmc) : (s.updChan c f).tlt = s.tlt := rfl
@[simp] theorem State.updChan_prt (s : State) (c : Nat) (f : Dmc → Dmc) : (s.updChan c f).prt = s.prt := rfl
@[simp] theorem State.updChan_out (s : State) (c : Nat) (f : Dmc → Dmc) : (s.updChan c f).out = s.out := rfl
@[simp] theorem State.updChan_freeCtr (s : State) (c : Nat) (f : Dmc → Dmc) : (s.updChan c f).freeCtr = s.freeCtr := rfl
@[simp] theorem State.updChan_rngCtr (s : State) (c : Nat) (f : Dmc → Dmc) : (s.updChan c f).rngCtr = s.rngCtr := rfl

/-! ## updRas -/

@[simp] theorem State.updRas_pending (s : State) (h : Nat) (f : RasHalf → RasHalf) : (s.updRas h f).pending = s.pending := rfl
@[simp] theorem State.updRas_regs (s : State) (h : Nat) (f : RasHalf → RasHalf) : (s.updRas h f).regs = s.regs := rfl
@[simp] theorem State.updRas_heldWrites (s : State) (h : Nat) (f : RasHalf → RasHalf) : (s.updRas h f).heldWrites = s.heldWrites := rfl
@[simp] theorem State.updRas_viaRestart (s : State) (h : Nat) (f : RasHalf → RasHalf) : (s.updRas h f).viaRestart = s.viaRestart := rfl
@[simp] theorem State.updRas_mem (s : State) (h : Nat) (f : RasHalf → RasHalf) : (s.updRas h f).mem = s.mem := rfl
@[simp] theorem State.updRas_keySlots (s : State) (h : Nat) (f : RasHalf → RasHalf) : (s.updRas h f).keySlots = s.keySlots := rfl
@[simp] theorem State.updRas_keyGen (s : State) (h : Nat) (f : RasHalf → RasHalf) : (s.updRas h f).keyGen = s.keyGen := rfl
@[simp] theorem State.updRas_keyLost (s : State) (h : Nat) (f : RasHalf → RasHalf) : (s.updRas h f).keyLost = s.keyLost := rfl
@[simp] theorem State.updRas_potCache (s : State) (h : Nat) (f : RasHalf → RasHalf) : (s.updRas h f).potCache = s.potCache := rfl
@[simp] theorem State.updRas_coh (s : State) (h : Nat) (f : RasHalf → RasHalf) : (s.updRas h f).coh = s.coh := rfl
@[simp] theorem State.updRas_evh (s : State) (h : Nat) (f : RasHalf → RasHalf) : (s.updRas h f).evh = s.evh := rfl
@[simp] theorem State.updRas_dmc (s : State) (h : Nat) (f : RasHalf → RasHalf) : (s.updRas h f).dmc = s.dmc := rfl
@[simp] theorem State.updRas_cores (s : State) (h : Nat) (f : RasHalf → RasHalf) : (s.updRas h f).cores = s.cores := rfl
@[simp] theorem State.updRas_engines (s : State) (h : Nat) (f : RasHalf → RasHalf) : (s.updRas h f).engines = s.engines := rfl
@[simp] theorem State.updRas_clusters (s : State) (h : Nat) (f : RasHalf → RasHalf) : (s.updRas h f).clusters = s.clusters := rfl
@[simp] theorem State.updRas_dsp (s : State) (h : Nat) (f : RasHalf → RasHalf) : (s.updRas h f).dsp = s.dsp := rfl
@[simp] theorem State.updRas_clt (s : State) (h : Nat) (f : RasHalf → RasHalf) : (s.updRas h f).clt = s.clt := rfl
@[simp] theorem State.updRas_tis (s : State) (h : Nat) (f : RasHalf → RasHalf) : (s.updRas h f).tis = s.tis := rfl
@[simp] theorem State.updRas_steals (s : State) (h : Nat) (f : RasHalf → RasHalf) : (s.updRas h f).steals = s.steals := rfl
@[simp] theorem State.updRas_fans (s : State) (h : Nat) (f : RasHalf → RasHalf) : (s.updRas h f).fans = s.fans := rfl
@[simp] theorem State.updRas_kao (s : State) (h : Nat) (f : RasHalf → RasHalf) : (s.updRas h f).kao = s.kao := rfl
@[simp] theorem State.updRas_custody (s : State) (h : Nat) (f : RasHalf → RasHalf) : (s.updRas h f).custody = s.custody := rfl
@[simp] theorem State.updRas_ledger (s : State) (h : Nat) (f : RasHalf → RasHalf) : (s.updRas h f).ledger = s.ledger := rfl
@[simp] theorem State.updRas_strata (s : State) (h : Nat) (f : RasHalf → RasHalf) : (s.updRas h f).strata = s.strata := rfl
@[simp] theorem State.updRas_sys (s : State) (h : Nat) (f : RasHalf → RasHalf) : (s.updRas h f).sys = s.sys := rfl
@[simp] theorem State.updRas_pwr (s : State) (h : Nat) (f : RasHalf → RasHalf) : (s.updRas h f).pwr = s.pwr := rfl
@[simp] theorem State.updRas_tlt (s : State) (h : Nat) (f : RasHalf → RasHalf) : (s.updRas h f).tlt = s.tlt := rfl
@[simp] theorem State.updRas_prt (s : State) (h : Nat) (f : RasHalf → RasHalf) : (s.updRas h f).prt = s.prt := rfl
@[simp] theorem State.updRas_out (s : State) (h : Nat) (f : RasHalf → RasHalf) : (s.updRas h f).out = s.out := rfl
@[simp] theorem State.updRas_freeCtr (s : State) (h : Nat) (f : RasHalf → RasHalf) : (s.updRas h f).freeCtr = s.freeCtr := rfl
@[simp] theorem State.updRas_rngCtr (s : State) (h : Nat) (f : RasHalf → RasHalf) : (s.updRas h f).rngCtr = s.rngCtr := rfl

/-! ## updKao -/

@[simp] theorem State.updKao_pending (s : State) (h : Nat) (f : Kao → Kao) : (s.updKao h f).pending = s.pending := rfl
@[simp] theorem State.updKao_regs (s : State) (h : Nat) (f : Kao → Kao) : (s.updKao h f).regs = s.regs := rfl
@[simp] theorem State.updKao_heldWrites (s : State) (h : Nat) (f : Kao → Kao) : (s.updKao h f).heldWrites = s.heldWrites := rfl
@[simp] theorem State.updKao_viaRestart (s : State) (h : Nat) (f : Kao → Kao) : (s.updKao h f).viaRestart = s.viaRestart := rfl
@[simp] theorem State.updKao_mem (s : State) (h : Nat) (f : Kao → Kao) : (s.updKao h f).mem = s.mem := rfl
@[simp] theorem State.updKao_keySlots (s : State) (h : Nat) (f : Kao → Kao) : (s.updKao h f).keySlots = s.keySlots := rfl
@[simp] theorem State.updKao_keyGen (s : State) (h : Nat) (f : Kao → Kao) : (s.updKao h f).keyGen = s.keyGen := rfl
@[simp] theorem State.updKao_keyLost (s : State) (h : Nat) (f : Kao → Kao) : (s.updKao h f).keyLost = s.keyLost := rfl
@[simp] theorem State.updKao_potCache (s : State) (h : Nat) (f : Kao → Kao) : (s.updKao h f).potCache = s.potCache := rfl
@[simp] theorem State.updKao_coh (s : State) (h : Nat) (f : Kao → Kao) : (s.updKao h f).coh = s.coh := rfl
@[simp] theorem State.updKao_evh (s : State) (h : Nat) (f : Kao → Kao) : (s.updKao h f).evh = s.evh := rfl
@[simp] theorem State.updKao_ras (s : State) (h : Nat) (f : Kao → Kao) : (s.updKao h f).ras = s.ras := rfl
@[simp] theorem State.updKao_dmc (s : State) (h : Nat) (f : Kao → Kao) : (s.updKao h f).dmc = s.dmc := rfl
@[simp] theorem State.updKao_cores (s : State) (h : Nat) (f : Kao → Kao) : (s.updKao h f).cores = s.cores := rfl
@[simp] theorem State.updKao_engines (s : State) (h : Nat) (f : Kao → Kao) : (s.updKao h f).engines = s.engines := rfl
@[simp] theorem State.updKao_clusters (s : State) (h : Nat) (f : Kao → Kao) : (s.updKao h f).clusters = s.clusters := rfl
@[simp] theorem State.updKao_dsp (s : State) (h : Nat) (f : Kao → Kao) : (s.updKao h f).dsp = s.dsp := rfl
@[simp] theorem State.updKao_clt (s : State) (h : Nat) (f : Kao → Kao) : (s.updKao h f).clt = s.clt := rfl
@[simp] theorem State.updKao_tis (s : State) (h : Nat) (f : Kao → Kao) : (s.updKao h f).tis = s.tis := rfl
@[simp] theorem State.updKao_steals (s : State) (h : Nat) (f : Kao → Kao) : (s.updKao h f).steals = s.steals := rfl
@[simp] theorem State.updKao_fans (s : State) (h : Nat) (f : Kao → Kao) : (s.updKao h f).fans = s.fans := rfl
@[simp] theorem State.updKao_custody (s : State) (h : Nat) (f : Kao → Kao) : (s.updKao h f).custody = s.custody := rfl
@[simp] theorem State.updKao_ledger (s : State) (h : Nat) (f : Kao → Kao) : (s.updKao h f).ledger = s.ledger := rfl
@[simp] theorem State.updKao_strata (s : State) (h : Nat) (f : Kao → Kao) : (s.updKao h f).strata = s.strata := rfl
@[simp] theorem State.updKao_sys (s : State) (h : Nat) (f : Kao → Kao) : (s.updKao h f).sys = s.sys := rfl
@[simp] theorem State.updKao_pwr (s : State) (h : Nat) (f : Kao → Kao) : (s.updKao h f).pwr = s.pwr := rfl
@[simp] theorem State.updKao_tlt (s : State) (h : Nat) (f : Kao → Kao) : (s.updKao h f).tlt = s.tlt := rfl
@[simp] theorem State.updKao_prt (s : State) (h : Nat) (f : Kao → Kao) : (s.updKao h f).prt = s.prt := rfl
@[simp] theorem State.updKao_out (s : State) (h : Nat) (f : Kao → Kao) : (s.updKao h f).out = s.out := rfl
@[simp] theorem State.updKao_freeCtr (s : State) (h : Nat) (f : Kao → Kao) : (s.updKao h f).freeCtr = s.freeCtr := rfl
@[simp] theorem State.updKao_rngCtr (s : State) (h : Nat) (f : Kao → Kao) : (s.updKao h f).rngCtr = s.rngCtr := rfl

/-! ## updKchan -/

@[simp] theorem State.updKchan_pending (s : State) (h c : Nat) (f : KaoChan → KaoChan) : (s.updKchan h c f).pending = s.pending := rfl
@[simp] theorem State.updKchan_regs (s : State) (h c : Nat) (f : KaoChan → KaoChan) : (s.updKchan h c f).regs = s.regs := rfl
@[simp] theorem State.updKchan_heldWrites (s : State) (h c : Nat) (f : KaoChan → KaoChan) : (s.updKchan h c f).heldWrites = s.heldWrites := rfl
@[simp] theorem State.updKchan_viaRestart (s : State) (h c : Nat) (f : KaoChan → KaoChan) : (s.updKchan h c f).viaRestart = s.viaRestart := rfl
@[simp] theorem State.updKchan_mem (s : State) (h c : Nat) (f : KaoChan → KaoChan) : (s.updKchan h c f).mem = s.mem := rfl
@[simp] theorem State.updKchan_keySlots (s : State) (h c : Nat) (f : KaoChan → KaoChan) : (s.updKchan h c f).keySlots = s.keySlots := rfl
@[simp] theorem State.updKchan_keyGen (s : State) (h c : Nat) (f : KaoChan → KaoChan) : (s.updKchan h c f).keyGen = s.keyGen := rfl
@[simp] theorem State.updKchan_keyLost (s : State) (h c : Nat) (f : KaoChan → KaoChan) : (s.updKchan h c f).keyLost = s.keyLost := rfl
@[simp] theorem State.updKchan_potCache (s : State) (h c : Nat) (f : KaoChan → KaoChan) : (s.updKchan h c f).potCache = s.potCache := rfl
@[simp] theorem State.updKchan_coh (s : State) (h c : Nat) (f : KaoChan → KaoChan) : (s.updKchan h c f).coh = s.coh := rfl
@[simp] theorem State.updKchan_evh (s : State) (h c : Nat) (f : KaoChan → KaoChan) : (s.updKchan h c f).evh = s.evh := rfl
@[simp] theorem State.updKchan_ras (s : State) (h c : Nat) (f : KaoChan → KaoChan) : (s.updKchan h c f).ras = s.ras := rfl
@[simp] theorem State.updKchan_dmc (s : State) (h c : Nat) (f : KaoChan → KaoChan) : (s.updKchan h c f).dmc = s.dmc := rfl
@[simp] theorem State.updKchan_cores (s : State) (h c : Nat) (f : KaoChan → KaoChan) : (s.updKchan h c f).cores = s.cores := rfl
@[simp] theorem State.updKchan_engines (s : State) (h c : Nat) (f : KaoChan → KaoChan) : (s.updKchan h c f).engines = s.engines := rfl
@[simp] theorem State.updKchan_clusters (s : State) (h c : Nat) (f : KaoChan → KaoChan) : (s.updKchan h c f).clusters = s.clusters := rfl
@[simp] theorem State.updKchan_dsp (s : State) (h c : Nat) (f : KaoChan → KaoChan) : (s.updKchan h c f).dsp = s.dsp := rfl
@[simp] theorem State.updKchan_clt (s : State) (h c : Nat) (f : KaoChan → KaoChan) : (s.updKchan h c f).clt = s.clt := rfl
@[simp] theorem State.updKchan_tis (s : State) (h c : Nat) (f : KaoChan → KaoChan) : (s.updKchan h c f).tis = s.tis := rfl
@[simp] theorem State.updKchan_steals (s : State) (h c : Nat) (f : KaoChan → KaoChan) : (s.updKchan h c f).steals = s.steals := rfl
@[simp] theorem State.updKchan_fans (s : State) (h c : Nat) (f : KaoChan → KaoChan) : (s.updKchan h c f).fans = s.fans := rfl
@[simp] theorem State.updKchan_custody (s : State) (h c : Nat) (f : KaoChan → KaoChan) : (s.updKchan h c f).custody = s.custody := rfl
@[simp] theorem State.updKchan_ledger (s : State) (h c : Nat) (f : KaoChan → KaoChan) : (s.updKchan h c f).ledger = s.ledger := rfl
@[simp] theorem State.updKchan_strata (s : State) (h c : Nat) (f : KaoChan → KaoChan) : (s.updKchan h c f).strata = s.strata := rfl
@[simp] theorem State.updKchan_sys (s : State) (h c : Nat) (f : KaoChan → KaoChan) : (s.updKchan h c f).sys = s.sys := rfl
@[simp] theorem State.updKchan_pwr (s : State) (h c : Nat) (f : KaoChan → KaoChan) : (s.updKchan h c f).pwr = s.pwr := rfl
@[simp] theorem State.updKchan_tlt (s : State) (h c : Nat) (f : KaoChan → KaoChan) : (s.updKchan h c f).tlt = s.tlt := rfl
@[simp] theorem State.updKchan_prt (s : State) (h c : Nat) (f : KaoChan → KaoChan) : (s.updKchan h c f).prt = s.prt := rfl
@[simp] theorem State.updKchan_out (s : State) (h c : Nat) (f : KaoChan → KaoChan) : (s.updKchan h c f).out = s.out := rfl
@[simp] theorem State.updKchan_freeCtr (s : State) (h c : Nat) (f : KaoChan → KaoChan) : (s.updKchan h c f).freeCtr = s.freeCtr := rfl
@[simp] theorem State.updKchan_rngCtr (s : State) (h c : Nat) (f : KaoChan → KaoChan) : (s.updKchan h c f).rngCtr = s.rngCtr := rfl

/-! ## updVrv -/

@[simp] theorem State.updVrv_pending (s : State) (h : Nat) (f : Vrv → Vrv) : (s.updVrv h f).pending = s.pending := rfl
@[simp] theorem State.updVrv_regs (s : State) (h : Nat) (f : Vrv → Vrv) : (s.updVrv h f).regs = s.regs := rfl
@[simp] theorem State.updVrv_heldWrites (s : State) (h : Nat) (f : Vrv → Vrv) : (s.updVrv h f).heldWrites = s.heldWrites := rfl
@[simp] theorem State.updVrv_viaRestart (s : State) (h : Nat) (f : Vrv → Vrv) : (s.updVrv h f).viaRestart = s.viaRestart := rfl
@[simp] theorem State.updVrv_mem (s : State) (h : Nat) (f : Vrv → Vrv) : (s.updVrv h f).mem = s.mem := rfl
@[simp] theorem State.updVrv_keySlots (s : State) (h : Nat) (f : Vrv → Vrv) : (s.updVrv h f).keySlots = s.keySlots := rfl
@[simp] theorem State.updVrv_keyGen (s : State) (h : Nat) (f : Vrv → Vrv) : (s.updVrv h f).keyGen = s.keyGen := rfl
@[simp] theorem State.updVrv_keyLost (s : State) (h : Nat) (f : Vrv → Vrv) : (s.updVrv h f).keyLost = s.keyLost := rfl
@[simp] theorem State.updVrv_potCache (s : State) (h : Nat) (f : Vrv → Vrv) : (s.updVrv h f).potCache = s.potCache := rfl
@[simp] theorem State.updVrv_coh (s : State) (h : Nat) (f : Vrv → Vrv) : (s.updVrv h f).coh = s.coh := rfl
@[simp] theorem State.updVrv_evh (s : State) (h : Nat) (f : Vrv → Vrv) : (s.updVrv h f).evh = s.evh := rfl
@[simp] theorem State.updVrv_ras (s : State) (h : Nat) (f : Vrv → Vrv) : (s.updVrv h f).ras = s.ras := rfl
@[simp] theorem State.updVrv_dmc (s : State) (h : Nat) (f : Vrv → Vrv) : (s.updVrv h f).dmc = s.dmc := rfl
@[simp] theorem State.updVrv_cores (s : State) (h : Nat) (f : Vrv → Vrv) : (s.updVrv h f).cores = s.cores := rfl
@[simp] theorem State.updVrv_engines (s : State) (h : Nat) (f : Vrv → Vrv) : (s.updVrv h f).engines = s.engines := rfl
@[simp] theorem State.updVrv_clusters (s : State) (h : Nat) (f : Vrv → Vrv) : (s.updVrv h f).clusters = s.clusters := rfl
@[simp] theorem State.updVrv_dsp (s : State) (h : Nat) (f : Vrv → Vrv) : (s.updVrv h f).dsp = s.dsp := rfl
@[simp] theorem State.updVrv_clt (s : State) (h : Nat) (f : Vrv → Vrv) : (s.updVrv h f).clt = s.clt := rfl
@[simp] theorem State.updVrv_tis (s : State) (h : Nat) (f : Vrv → Vrv) : (s.updVrv h f).tis = s.tis := rfl
@[simp] theorem State.updVrv_steals (s : State) (h : Nat) (f : Vrv → Vrv) : (s.updVrv h f).steals = s.steals := rfl
@[simp] theorem State.updVrv_fans (s : State) (h : Nat) (f : Vrv → Vrv) : (s.updVrv h f).fans = s.fans := rfl
@[simp] theorem State.updVrv_kao (s : State) (h : Nat) (f : Vrv → Vrv) : (s.updVrv h f).kao = s.kao := rfl
@[simp] theorem State.updVrv_custody (s : State) (h : Nat) (f : Vrv → Vrv) : (s.updVrv h f).custody = s.custody := rfl
@[simp] theorem State.updVrv_strata (s : State) (h : Nat) (f : Vrv → Vrv) : (s.updVrv h f).strata = s.strata := rfl
@[simp] theorem State.updVrv_sys (s : State) (h : Nat) (f : Vrv → Vrv) : (s.updVrv h f).sys = s.sys := rfl
@[simp] theorem State.updVrv_pwr (s : State) (h : Nat) (f : Vrv → Vrv) : (s.updVrv h f).pwr = s.pwr := rfl
@[simp] theorem State.updVrv_tlt (s : State) (h : Nat) (f : Vrv → Vrv) : (s.updVrv h f).tlt = s.tlt := rfl
@[simp] theorem State.updVrv_prt (s : State) (h : Nat) (f : Vrv → Vrv) : (s.updVrv h f).prt = s.prt := rfl
@[simp] theorem State.updVrv_out (s : State) (h : Nat) (f : Vrv → Vrv) : (s.updVrv h f).out = s.out := rfl
@[simp] theorem State.updVrv_freeCtr (s : State) (h : Nat) (f : Vrv → Vrv) : (s.updVrv h f).freeCtr = s.freeCtr := rfl
@[simp] theorem State.updVrv_rngCtr (s : State) (h : Nat) (f : Vrv → Vrv) : (s.updVrv h f).rngCtr = s.rngCtr := rfl

/-! ## setCore -/

@[simp] theorem State.setCore_pending (s : State) (c : Nat) (k : Core) : (s.setCore c k).pending = s.pending := rfl
@[simp] theorem State.setCore_regs (s : State) (c : Nat) (k : Core) : (s.setCore c k).regs = s.regs := rfl
@[simp] theorem State.setCore_heldWrites (s : State) (c : Nat) (k : Core) : (s.setCore c k).heldWrites = s.heldWrites := rfl
@[simp] theorem State.setCore_viaRestart (s : State) (c : Nat) (k : Core) : (s.setCore c k).viaRestart = s.viaRestart := rfl
@[simp] theorem State.setCore_mem (s : State) (c : Nat) (k : Core) : (s.setCore c k).mem = s.mem := rfl
@[simp] theorem State.setCore_keySlots (s : State) (c : Nat) (k : Core) : (s.setCore c k).keySlots = s.keySlots := rfl
@[simp] theorem State.setCore_keyGen (s : State) (c : Nat) (k : Core) : (s.setCore c k).keyGen = s.keyGen := rfl
@[simp] theorem State.setCore_keyLost (s : State) (c : Nat) (k : Core) : (s.setCore c k).keyLost = s.keyLost := rfl
@[simp] theorem State.setCore_potCache (s : State) (c : Nat) (k : Core) : (s.setCore c k).potCache = s.potCache := rfl
@[simp] theorem State.setCore_coh (s : State) (c : Nat) (k : Core) : (s.setCore c k).coh = s.coh := rfl
@[simp] theorem State.setCore_evh (s : State) (c : Nat) (k : Core) : (s.setCore c k).evh = s.evh := rfl
@[simp] theorem State.setCore_ras (s : State) (c : Nat) (k : Core) : (s.setCore c k).ras = s.ras := rfl
@[simp] theorem State.setCore_dmc (s : State) (c : Nat) (k : Core) : (s.setCore c k).dmc = s.dmc := rfl
@[simp] theorem State.setCore_engines (s : State) (c : Nat) (k : Core) : (s.setCore c k).engines = s.engines := rfl
@[simp] theorem State.setCore_clusters (s : State) (c : Nat) (k : Core) : (s.setCore c k).clusters = s.clusters := rfl
@[simp] theorem State.setCore_dsp (s : State) (c : Nat) (k : Core) : (s.setCore c k).dsp = s.dsp := rfl
@[simp] theorem State.setCore_clt (s : State) (c : Nat) (k : Core) : (s.setCore c k).clt = s.clt := rfl
@[simp] theorem State.setCore_tis (s : State) (c : Nat) (k : Core) : (s.setCore c k).tis = s.tis := rfl
@[simp] theorem State.setCore_steals (s : State) (c : Nat) (k : Core) : (s.setCore c k).steals = s.steals := rfl
@[simp] theorem State.setCore_fans (s : State) (c : Nat) (k : Core) : (s.setCore c k).fans = s.fans := rfl
@[simp] theorem State.setCore_kao (s : State) (c : Nat) (k : Core) : (s.setCore c k).kao = s.kao := rfl
@[simp] theorem State.setCore_custody (s : State) (c : Nat) (k : Core) : (s.setCore c k).custody = s.custody := rfl
@[simp] theorem State.setCore_ledger (s : State) (c : Nat) (k : Core) : (s.setCore c k).ledger = s.ledger := rfl
@[simp] theorem State.setCore_strata (s : State) (c : Nat) (k : Core) : (s.setCore c k).strata = s.strata := rfl
@[simp] theorem State.setCore_sys (s : State) (c : Nat) (k : Core) : (s.setCore c k).sys = s.sys := rfl
@[simp] theorem State.setCore_pwr (s : State) (c : Nat) (k : Core) : (s.setCore c k).pwr = s.pwr := rfl
@[simp] theorem State.setCore_tlt (s : State) (c : Nat) (k : Core) : (s.setCore c k).tlt = s.tlt := rfl
@[simp] theorem State.setCore_prt (s : State) (c : Nat) (k : Core) : (s.setCore c k).prt = s.prt := rfl
@[simp] theorem State.setCore_out (s : State) (c : Nat) (k : Core) : (s.setCore c k).out = s.out := rfl
@[simp] theorem State.setCore_freeCtr (s : State) (c : Nat) (k : Core) : (s.setCore c k).freeCtr = s.freeCtr := rfl
@[simp] theorem State.setCore_rngCtr (s : State) (c : Nat) (k : Core) : (s.setCore c k).rngCtr = s.rngCtr := rfl

/-! ## updCore -/

@[simp] theorem State.updCore_pending (s : State) (c : Nat) (f : Core → Core) : (s.updCore c f).pending = s.pending := rfl
@[simp] theorem State.updCore_regs (s : State) (c : Nat) (f : Core → Core) : (s.updCore c f).regs = s.regs := rfl
@[simp] theorem State.updCore_heldWrites (s : State) (c : Nat) (f : Core → Core) : (s.updCore c f).heldWrites = s.heldWrites := rfl
@[simp] theorem State.updCore_viaRestart (s : State) (c : Nat) (f : Core → Core) : (s.updCore c f).viaRestart = s.viaRestart := rfl
@[simp] theorem State.updCore_mem (s : State) (c : Nat) (f : Core → Core) : (s.updCore c f).mem = s.mem := rfl
@[simp] theorem State.updCore_keySlots (s : State) (c : Nat) (f : Core → Core) : (s.updCore c f).keySlots = s.keySlots := rfl
@[simp] theorem State.updCore_keyGen (s : State) (c : Nat) (f : Core → Core) : (s.updCore c f).keyGen = s.keyGen := rfl
@[simp] theorem State.updCore_keyLost (s : State) (c : Nat) (f : Core → Core) : (s.updCore c f).keyLost = s.keyLost := rfl
@[simp] theorem State.updCore_potCache (s : State) (c : Nat) (f : Core → Core) : (s.updCore c f).potCache = s.potCache := rfl
@[simp] theorem State.updCore_coh (s : State) (c : Nat) (f : Core → Core) : (s.updCore c f).coh = s.coh := rfl
@[simp] theorem State.updCore_evh (s : State) (c : Nat) (f : Core → Core) : (s.updCore c f).evh = s.evh := rfl
@[simp] theorem State.updCore_ras (s : State) (c : Nat) (f : Core → Core) : (s.updCore c f).ras = s.ras := rfl
@[simp] theorem State.updCore_dmc (s : State) (c : Nat) (f : Core → Core) : (s.updCore c f).dmc = s.dmc := rfl
@[simp] theorem State.updCore_engines (s : State) (c : Nat) (f : Core → Core) : (s.updCore c f).engines = s.engines := rfl
@[simp] theorem State.updCore_clusters (s : State) (c : Nat) (f : Core → Core) : (s.updCore c f).clusters = s.clusters := rfl
@[simp] theorem State.updCore_dsp (s : State) (c : Nat) (f : Core → Core) : (s.updCore c f).dsp = s.dsp := rfl
@[simp] theorem State.updCore_clt (s : State) (c : Nat) (f : Core → Core) : (s.updCore c f).clt = s.clt := rfl
@[simp] theorem State.updCore_tis (s : State) (c : Nat) (f : Core → Core) : (s.updCore c f).tis = s.tis := rfl
@[simp] theorem State.updCore_steals (s : State) (c : Nat) (f : Core → Core) : (s.updCore c f).steals = s.steals := rfl
@[simp] theorem State.updCore_fans (s : State) (c : Nat) (f : Core → Core) : (s.updCore c f).fans = s.fans := rfl
@[simp] theorem State.updCore_kao (s : State) (c : Nat) (f : Core → Core) : (s.updCore c f).kao = s.kao := rfl
@[simp] theorem State.updCore_custody (s : State) (c : Nat) (f : Core → Core) : (s.updCore c f).custody = s.custody := rfl
@[simp] theorem State.updCore_ledger (s : State) (c : Nat) (f : Core → Core) : (s.updCore c f).ledger = s.ledger := rfl
@[simp] theorem State.updCore_strata (s : State) (c : Nat) (f : Core → Core) : (s.updCore c f).strata = s.strata := rfl
@[simp] theorem State.updCore_sys (s : State) (c : Nat) (f : Core → Core) : (s.updCore c f).sys = s.sys := rfl
@[simp] theorem State.updCore_pwr (s : State) (c : Nat) (f : Core → Core) : (s.updCore c f).pwr = s.pwr := rfl
@[simp] theorem State.updCore_tlt (s : State) (c : Nat) (f : Core → Core) : (s.updCore c f).tlt = s.tlt := rfl
@[simp] theorem State.updCore_prt (s : State) (c : Nat) (f : Core → Core) : (s.updCore c f).prt = s.prt := rfl
@[simp] theorem State.updCore_out (s : State) (c : Nat) (f : Core → Core) : (s.updCore c f).out = s.out := rfl
@[simp] theorem State.updCore_freeCtr (s : State) (c : Nat) (f : Core → Core) : (s.updCore c f).freeCtr = s.freeCtr := rfl
@[simp] theorem State.updCore_rngCtr (s : State) (c : Nat) (f : Core → Core) : (s.updCore c f).rngCtr = s.rngCtr := rfl

/-! ## updLine -/

@[simp] theorem State.updLine_pending (s : State) (l : Nat) (f : LineHome → LineHome) : (s.updLine l f).pending = s.pending := rfl
@[simp] theorem State.updLine_regs (s : State) (l : Nat) (f : LineHome → LineHome) : (s.updLine l f).regs = s.regs := rfl
@[simp] theorem State.updLine_heldWrites (s : State) (l : Nat) (f : LineHome → LineHome) : (s.updLine l f).heldWrites = s.heldWrites := rfl
@[simp] theorem State.updLine_viaRestart (s : State) (l : Nat) (f : LineHome → LineHome) : (s.updLine l f).viaRestart = s.viaRestart := rfl
@[simp] theorem State.updLine_mem (s : State) (l : Nat) (f : LineHome → LineHome) : (s.updLine l f).mem = s.mem := rfl
@[simp] theorem State.updLine_keySlots (s : State) (l : Nat) (f : LineHome → LineHome) : (s.updLine l f).keySlots = s.keySlots := rfl
@[simp] theorem State.updLine_keyGen (s : State) (l : Nat) (f : LineHome → LineHome) : (s.updLine l f).keyGen = s.keyGen := rfl
@[simp] theorem State.updLine_keyLost (s : State) (l : Nat) (f : LineHome → LineHome) : (s.updLine l f).keyLost = s.keyLost := rfl
@[simp] theorem State.updLine_potCache (s : State) (l : Nat) (f : LineHome → LineHome) : (s.updLine l f).potCache = s.potCache := rfl
@[simp] theorem State.updLine_evh (s : State) (l : Nat) (f : LineHome → LineHome) : (s.updLine l f).evh = s.evh := rfl
@[simp] theorem State.updLine_ras (s : State) (l : Nat) (f : LineHome → LineHome) : (s.updLine l f).ras = s.ras := rfl
@[simp] theorem State.updLine_dmc (s : State) (l : Nat) (f : LineHome → LineHome) : (s.updLine l f).dmc = s.dmc := rfl
@[simp] theorem State.updLine_cores (s : State) (l : Nat) (f : LineHome → LineHome) : (s.updLine l f).cores = s.cores := rfl
@[simp] theorem State.updLine_engines (s : State) (l : Nat) (f : LineHome → LineHome) : (s.updLine l f).engines = s.engines := rfl
@[simp] theorem State.updLine_clusters (s : State) (l : Nat) (f : LineHome → LineHome) : (s.updLine l f).clusters = s.clusters := rfl
@[simp] theorem State.updLine_dsp (s : State) (l : Nat) (f : LineHome → LineHome) : (s.updLine l f).dsp = s.dsp := rfl
@[simp] theorem State.updLine_clt (s : State) (l : Nat) (f : LineHome → LineHome) : (s.updLine l f).clt = s.clt := rfl
@[simp] theorem State.updLine_tis (s : State) (l : Nat) (f : LineHome → LineHome) : (s.updLine l f).tis = s.tis := rfl
@[simp] theorem State.updLine_steals (s : State) (l : Nat) (f : LineHome → LineHome) : (s.updLine l f).steals = s.steals := rfl
@[simp] theorem State.updLine_fans (s : State) (l : Nat) (f : LineHome → LineHome) : (s.updLine l f).fans = s.fans := rfl
@[simp] theorem State.updLine_kao (s : State) (l : Nat) (f : LineHome → LineHome) : (s.updLine l f).kao = s.kao := rfl
@[simp] theorem State.updLine_custody (s : State) (l : Nat) (f : LineHome → LineHome) : (s.updLine l f).custody = s.custody := rfl
@[simp] theorem State.updLine_ledger (s : State) (l : Nat) (f : LineHome → LineHome) : (s.updLine l f).ledger = s.ledger := rfl
@[simp] theorem State.updLine_strata (s : State) (l : Nat) (f : LineHome → LineHome) : (s.updLine l f).strata = s.strata := rfl
@[simp] theorem State.updLine_sys (s : State) (l : Nat) (f : LineHome → LineHome) : (s.updLine l f).sys = s.sys := rfl
@[simp] theorem State.updLine_pwr (s : State) (l : Nat) (f : LineHome → LineHome) : (s.updLine l f).pwr = s.pwr := rfl
@[simp] theorem State.updLine_tlt (s : State) (l : Nat) (f : LineHome → LineHome) : (s.updLine l f).tlt = s.tlt := rfl
@[simp] theorem State.updLine_prt (s : State) (l : Nat) (f : LineHome → LineHome) : (s.updLine l f).prt = s.prt := rfl
@[simp] theorem State.updLine_out (s : State) (l : Nat) (f : LineHome → LineHome) : (s.updLine l f).out = s.out := rfl
@[simp] theorem State.updLine_freeCtr (s : State) (l : Nat) (f : LineHome → LineHome) : (s.updLine l f).freeCtr = s.freeCtr := rfl
@[simp] theorem State.updLine_rngCtr (s : State) (l : Nat) (f : LineHome → LineHome) : (s.updLine l f).rngCtr = s.rngCtr := rfl

/-! ## setHeld -/

@[simp] theorem State.setHeld_pending (s : State) (c l : Nat) (st : LState) : (s.setHeld c l st).pending = s.pending := rfl
@[simp] theorem State.setHeld_regs (s : State) (c l : Nat) (st : LState) : (s.setHeld c l st).regs = s.regs := rfl
@[simp] theorem State.setHeld_heldWrites (s : State) (c l : Nat) (st : LState) : (s.setHeld c l st).heldWrites = s.heldWrites := rfl
@[simp] theorem State.setHeld_viaRestart (s : State) (c l : Nat) (st : LState) : (s.setHeld c l st).viaRestart = s.viaRestart := rfl
@[simp] theorem State.setHeld_mem (s : State) (c l : Nat) (st : LState) : (s.setHeld c l st).mem = s.mem := rfl
@[simp] theorem State.setHeld_keySlots (s : State) (c l : Nat) (st : LState) : (s.setHeld c l st).keySlots = s.keySlots := rfl
@[simp] theorem State.setHeld_keyGen (s : State) (c l : Nat) (st : LState) : (s.setHeld c l st).keyGen = s.keyGen := rfl
@[simp] theorem State.setHeld_keyLost (s : State) (c l : Nat) (st : LState) : (s.setHeld c l st).keyLost = s.keyLost := rfl
@[simp] theorem State.setHeld_potCache (s : State) (c l : Nat) (st : LState) : (s.setHeld c l st).potCache = s.potCache := rfl
@[simp] theorem State.setHeld_evh (s : State) (c l : Nat) (st : LState) : (s.setHeld c l st).evh = s.evh := rfl
@[simp] theorem State.setHeld_ras (s : State) (c l : Nat) (st : LState) : (s.setHeld c l st).ras = s.ras := rfl
@[simp] theorem State.setHeld_dmc (s : State) (c l : Nat) (st : LState) : (s.setHeld c l st).dmc = s.dmc := rfl
@[simp] theorem State.setHeld_cores (s : State) (c l : Nat) (st : LState) : (s.setHeld c l st).cores = s.cores := rfl
@[simp] theorem State.setHeld_engines (s : State) (c l : Nat) (st : LState) : (s.setHeld c l st).engines = s.engines := rfl
@[simp] theorem State.setHeld_clusters (s : State) (c l : Nat) (st : LState) : (s.setHeld c l st).clusters = s.clusters := rfl
@[simp] theorem State.setHeld_dsp (s : State) (c l : Nat) (st : LState) : (s.setHeld c l st).dsp = s.dsp := rfl
@[simp] theorem State.setHeld_clt (s : State) (c l : Nat) (st : LState) : (s.setHeld c l st).clt = s.clt := rfl
@[simp] theorem State.setHeld_tis (s : State) (c l : Nat) (st : LState) : (s.setHeld c l st).tis = s.tis := rfl
@[simp] theorem State.setHeld_steals (s : State) (c l : Nat) (st : LState) : (s.setHeld c l st).steals = s.steals := rfl
@[simp] theorem State.setHeld_fans (s : State) (c l : Nat) (st : LState) : (s.setHeld c l st).fans = s.fans := rfl
@[simp] theorem State.setHeld_kao (s : State) (c l : Nat) (st : LState) : (s.setHeld c l st).kao = s.kao := rfl
@[simp] theorem State.setHeld_custody (s : State) (c l : Nat) (st : LState) : (s.setHeld c l st).custody = s.custody := rfl
@[simp] theorem State.setHeld_ledger (s : State) (c l : Nat) (st : LState) : (s.setHeld c l st).ledger = s.ledger := rfl
@[simp] theorem State.setHeld_strata (s : State) (c l : Nat) (st : LState) : (s.setHeld c l st).strata = s.strata := rfl
@[simp] theorem State.setHeld_sys (s : State) (c l : Nat) (st : LState) : (s.setHeld c l st).sys = s.sys := rfl
@[simp] theorem State.setHeld_pwr (s : State) (c l : Nat) (st : LState) : (s.setHeld c l st).pwr = s.pwr := rfl
@[simp] theorem State.setHeld_tlt (s : State) (c l : Nat) (st : LState) : (s.setHeld c l st).tlt = s.tlt := rfl
@[simp] theorem State.setHeld_prt (s : State) (c l : Nat) (st : LState) : (s.setHeld c l st).prt = s.prt := rfl
@[simp] theorem State.setHeld_out (s : State) (c l : Nat) (st : LState) : (s.setHeld c l st).out = s.out := rfl
@[simp] theorem State.setHeld_freeCtr (s : State) (c l : Nat) (st : LState) : (s.setHeld c l st).freeCtr = s.freeCtr := rfl
@[simp] theorem State.setHeld_rngCtr (s : State) (c l : Nat) (st : LState) : (s.setHeld c l st).rngCtr = s.rngCtr := rfl

/-! ## setPoison -/

@[simp] theorem State.setPoison_pending (s : State) (g : Nat) (b : Bool) : (s.setPoison g b).pending = s.pending := rfl
@[simp] theorem State.setPoison_regs (s : State) (g : Nat) (b : Bool) : (s.setPoison g b).regs = s.regs := rfl
@[simp] theorem State.setPoison_heldWrites (s : State) (g : Nat) (b : Bool) : (s.setPoison g b).heldWrites = s.heldWrites := rfl
@[simp] theorem State.setPoison_viaRestart (s : State) (g : Nat) (b : Bool) : (s.setPoison g b).viaRestart = s.viaRestart := rfl
@[simp] theorem State.setPoison_keySlots (s : State) (g : Nat) (b : Bool) : (s.setPoison g b).keySlots = s.keySlots := rfl
@[simp] theorem State.setPoison_keyGen (s : State) (g : Nat) (b : Bool) : (s.setPoison g b).keyGen = s.keyGen := rfl
@[simp] theorem State.setPoison_keyLost (s : State) (g : Nat) (b : Bool) : (s.setPoison g b).keyLost = s.keyLost := rfl
@[simp] theorem State.setPoison_potCache (s : State) (g : Nat) (b : Bool) : (s.setPoison g b).potCache = s.potCache := rfl
@[simp] theorem State.setPoison_coh (s : State) (g : Nat) (b : Bool) : (s.setPoison g b).coh = s.coh := rfl
@[simp] theorem State.setPoison_evh (s : State) (g : Nat) (b : Bool) : (s.setPoison g b).evh = s.evh := rfl
@[simp] theorem State.setPoison_ras (s : State) (g : Nat) (b : Bool) : (s.setPoison g b).ras = s.ras := rfl
@[simp] theorem State.setPoison_dmc (s : State) (g : Nat) (b : Bool) : (s.setPoison g b).dmc = s.dmc := rfl
@[simp] theorem State.setPoison_cores (s : State) (g : Nat) (b : Bool) : (s.setPoison g b).cores = s.cores := rfl
@[simp] theorem State.setPoison_engines (s : State) (g : Nat) (b : Bool) : (s.setPoison g b).engines = s.engines := rfl
@[simp] theorem State.setPoison_clusters (s : State) (g : Nat) (b : Bool) : (s.setPoison g b).clusters = s.clusters := rfl
@[simp] theorem State.setPoison_dsp (s : State) (g : Nat) (b : Bool) : (s.setPoison g b).dsp = s.dsp := rfl
@[simp] theorem State.setPoison_clt (s : State) (g : Nat) (b : Bool) : (s.setPoison g b).clt = s.clt := rfl
@[simp] theorem State.setPoison_tis (s : State) (g : Nat) (b : Bool) : (s.setPoison g b).tis = s.tis := rfl
@[simp] theorem State.setPoison_steals (s : State) (g : Nat) (b : Bool) : (s.setPoison g b).steals = s.steals := rfl
@[simp] theorem State.setPoison_fans (s : State) (g : Nat) (b : Bool) : (s.setPoison g b).fans = s.fans := rfl
@[simp] theorem State.setPoison_kao (s : State) (g : Nat) (b : Bool) : (s.setPoison g b).kao = s.kao := rfl
@[simp] theorem State.setPoison_custody (s : State) (g : Nat) (b : Bool) : (s.setPoison g b).custody = s.custody := rfl
@[simp] theorem State.setPoison_ledger (s : State) (g : Nat) (b : Bool) : (s.setPoison g b).ledger = s.ledger := rfl
@[simp] theorem State.setPoison_strata (s : State) (g : Nat) (b : Bool) : (s.setPoison g b).strata = s.strata := rfl
@[simp] theorem State.setPoison_sys (s : State) (g : Nat) (b : Bool) : (s.setPoison g b).sys = s.sys := rfl
@[simp] theorem State.setPoison_pwr (s : State) (g : Nat) (b : Bool) : (s.setPoison g b).pwr = s.pwr := rfl
@[simp] theorem State.setPoison_tlt (s : State) (g : Nat) (b : Bool) : (s.setPoison g b).tlt = s.tlt := rfl
@[simp] theorem State.setPoison_prt (s : State) (g : Nat) (b : Bool) : (s.setPoison g b).prt = s.prt := rfl
@[simp] theorem State.setPoison_out (s : State) (g : Nat) (b : Bool) : (s.setPoison g b).out = s.out := rfl
@[simp] theorem State.setPoison_freeCtr (s : State) (g : Nat) (b : Bool) : (s.setPoison g b).freeCtr = s.freeCtr := rfl
@[simp] theorem State.setPoison_rngCtr (s : State) (g : Nat) (b : Bool) : (s.setPoison g b).rngCtr = s.rngCtr := rfl

/-! ## setPending -/

@[simp] theorem State.setPending_pending (s : State) (key qual half : Nat) : (s.setPending key qual half).pending = s.pending := rfl
@[simp] theorem State.setPending_regs (s : State) (key qual half : Nat) : (s.setPending key qual half).regs = s.regs := rfl
@[simp] theorem State.setPending_heldWrites (s : State) (key qual half : Nat) : (s.setPending key qual half).heldWrites = s.heldWrites := rfl
@[simp] theorem State.setPending_viaRestart (s : State) (key qual half : Nat) : (s.setPending key qual half).viaRestart = s.viaRestart := rfl
@[simp] theorem State.setPending_mem (s : State) (key qual half : Nat) : (s.setPending key qual half).mem = s.mem := rfl
@[simp] theorem State.setPending_keySlots (s : State) (key qual half : Nat) : (s.setPending key qual half).keySlots = s.keySlots := rfl
@[simp] theorem State.setPending_keyGen (s : State) (key qual half : Nat) : (s.setPending key qual half).keyGen = s.keyGen := rfl
@[simp] theorem State.setPending_keyLost (s : State) (key qual half : Nat) : (s.setPending key qual half).keyLost = s.keyLost := rfl
@[simp] theorem State.setPending_potCache (s : State) (key qual half : Nat) : (s.setPending key qual half).potCache = s.potCache := rfl
@[simp] theorem State.setPending_coh (s : State) (key qual half : Nat) : (s.setPending key qual half).coh = s.coh := rfl
@[simp] theorem State.setPending_ras (s : State) (key qual half : Nat) : (s.setPending key qual half).ras = s.ras := rfl
@[simp] theorem State.setPending_dmc (s : State) (key qual half : Nat) : (s.setPending key qual half).dmc = s.dmc := rfl
@[simp] theorem State.setPending_cores (s : State) (key qual half : Nat) : (s.setPending key qual half).cores = s.cores := rfl
@[simp] theorem State.setPending_engines (s : State) (key qual half : Nat) : (s.setPending key qual half).engines = s.engines := rfl
@[simp] theorem State.setPending_clusters (s : State) (key qual half : Nat) : (s.setPending key qual half).clusters = s.clusters := rfl
@[simp] theorem State.setPending_dsp (s : State) (key qual half : Nat) : (s.setPending key qual half).dsp = s.dsp := rfl
@[simp] theorem State.setPending_clt (s : State) (key qual half : Nat) : (s.setPending key qual half).clt = s.clt := rfl
@[simp] theorem State.setPending_tis (s : State) (key qual half : Nat) : (s.setPending key qual half).tis = s.tis := rfl
@[simp] theorem State.setPending_steals (s : State) (key qual half : Nat) : (s.setPending key qual half).steals = s.steals := rfl
@[simp] theorem State.setPending_fans (s : State) (key qual half : Nat) : (s.setPending key qual half).fans = s.fans := rfl
@[simp] theorem State.setPending_kao (s : State) (key qual half : Nat) : (s.setPending key qual half).kao = s.kao := rfl
@[simp] theorem State.setPending_custody (s : State) (key qual half : Nat) : (s.setPending key qual half).custody = s.custody := rfl
@[simp] theorem State.setPending_ledger (s : State) (key qual half : Nat) : (s.setPending key qual half).ledger = s.ledger := rfl
@[simp] theorem State.setPending_strata (s : State) (key qual half : Nat) : (s.setPending key qual half).strata = s.strata := rfl
@[simp] theorem State.setPending_sys (s : State) (key qual half : Nat) : (s.setPending key qual half).sys = s.sys := rfl
@[simp] theorem State.setPending_pwr (s : State) (key qual half : Nat) : (s.setPending key qual half).pwr = s.pwr := rfl
@[simp] theorem State.setPending_tlt (s : State) (key qual half : Nat) : (s.setPending key qual half).tlt = s.tlt := rfl
@[simp] theorem State.setPending_prt (s : State) (key qual half : Nat) : (s.setPending key qual half).prt = s.prt := rfl
@[simp] theorem State.setPending_out (s : State) (key qual half : Nat) : (s.setPending key qual half).out = s.out := rfl
@[simp] theorem State.setPending_freeCtr (s : State) (key qual half : Nat) : (s.setPending key qual half).freeCtr = s.freeCtr := rfl
@[simp] theorem State.setPending_rngCtr (s : State) (key qual half : Nat) : (s.setPending key qual half).rngCtr = s.rngCtr := rfl

/-! ## clearPending -/

@[simp] theorem State.clearPending_pending (s : State) (key : Nat) : (s.clearPending key).pending = s.pending := rfl
@[simp] theorem State.clearPending_regs (s : State) (key : Nat) : (s.clearPending key).regs = s.regs := rfl
@[simp] theorem State.clearPending_heldWrites (s : State) (key : Nat) : (s.clearPending key).heldWrites = s.heldWrites := rfl
@[simp] theorem State.clearPending_viaRestart (s : State) (key : Nat) : (s.clearPending key).viaRestart = s.viaRestart := rfl
@[simp] theorem State.clearPending_mem (s : State) (key : Nat) : (s.clearPending key).mem = s.mem := rfl
@[simp] theorem State.clearPending_keySlots (s : State) (key : Nat) : (s.clearPending key).keySlots = s.keySlots := rfl
@[simp] theorem State.clearPending_keyGen (s : State) (key : Nat) : (s.clearPending key).keyGen = s.keyGen := rfl
@[simp] theorem State.clearPending_keyLost (s : State) (key : Nat) : (s.clearPending key).keyLost = s.keyLost := rfl
@[simp] theorem State.clearPending_potCache (s : State) (key : Nat) : (s.clearPending key).potCache = s.potCache := rfl
@[simp] theorem State.clearPending_coh (s : State) (key : Nat) : (s.clearPending key).coh = s.coh := rfl
@[simp] theorem State.clearPending_ras (s : State) (key : Nat) : (s.clearPending key).ras = s.ras := rfl
@[simp] theorem State.clearPending_dmc (s : State) (key : Nat) : (s.clearPending key).dmc = s.dmc := rfl
@[simp] theorem State.clearPending_cores (s : State) (key : Nat) : (s.clearPending key).cores = s.cores := rfl
@[simp] theorem State.clearPending_engines (s : State) (key : Nat) : (s.clearPending key).engines = s.engines := rfl
@[simp] theorem State.clearPending_clusters (s : State) (key : Nat) : (s.clearPending key).clusters = s.clusters := rfl
@[simp] theorem State.clearPending_dsp (s : State) (key : Nat) : (s.clearPending key).dsp = s.dsp := rfl
@[simp] theorem State.clearPending_clt (s : State) (key : Nat) : (s.clearPending key).clt = s.clt := rfl
@[simp] theorem State.clearPending_tis (s : State) (key : Nat) : (s.clearPending key).tis = s.tis := rfl
@[simp] theorem State.clearPending_steals (s : State) (key : Nat) : (s.clearPending key).steals = s.steals := rfl
@[simp] theorem State.clearPending_fans (s : State) (key : Nat) : (s.clearPending key).fans = s.fans := rfl
@[simp] theorem State.clearPending_kao (s : State) (key : Nat) : (s.clearPending key).kao = s.kao := rfl
@[simp] theorem State.clearPending_custody (s : State) (key : Nat) : (s.clearPending key).custody = s.custody := rfl
@[simp] theorem State.clearPending_ledger (s : State) (key : Nat) : (s.clearPending key).ledger = s.ledger := rfl
@[simp] theorem State.clearPending_strata (s : State) (key : Nat) : (s.clearPending key).strata = s.strata := rfl
@[simp] theorem State.clearPending_sys (s : State) (key : Nat) : (s.clearPending key).sys = s.sys := rfl
@[simp] theorem State.clearPending_pwr (s : State) (key : Nat) : (s.clearPending key).pwr = s.pwr := rfl
@[simp] theorem State.clearPending_tlt (s : State) (key : Nat) : (s.clearPending key).tlt = s.tlt := rfl
@[simp] theorem State.clearPending_prt (s : State) (key : Nat) : (s.clearPending key).prt = s.prt := rfl
@[simp] theorem State.clearPending_out (s : State) (key : Nat) : (s.clearPending key).out = s.out := rfl
@[simp] theorem State.clearPending_freeCtr (s : State) (key : Nat) : (s.clearPending key).freeCtr = s.freeCtr := rfl
@[simp] theorem State.clearPending_rngCtr (s : State) (key : Nat) : (s.clearPending key).rngCtr = s.rngCtr := rfl

/-! ## answer -/

@[simp] theorem State.answer_pending (s : State) (v st : Nat) : (s.answer v st).pending = s.pending := rfl
@[simp] theorem State.answer_regs (s : State) (v st : Nat) : (s.answer v st).regs = s.regs := rfl
@[simp] theorem State.answer_heldWrites (s : State) (v st : Nat) : (s.answer v st).heldWrites = s.heldWrites := rfl
@[simp] theorem State.answer_viaRestart (s : State) (v st : Nat) : (s.answer v st).viaRestart = s.viaRestart := rfl
@[simp] theorem State.answer_mem (s : State) (v st : Nat) : (s.answer v st).mem = s.mem := rfl
@[simp] theorem State.answer_keySlots (s : State) (v st : Nat) : (s.answer v st).keySlots = s.keySlots := rfl
@[simp] theorem State.answer_keyGen (s : State) (v st : Nat) : (s.answer v st).keyGen = s.keyGen := rfl
@[simp] theorem State.answer_keyLost (s : State) (v st : Nat) : (s.answer v st).keyLost = s.keyLost := rfl
@[simp] theorem State.answer_potCache (s : State) (v st : Nat) : (s.answer v st).potCache = s.potCache := rfl
@[simp] theorem State.answer_coh (s : State) (v st : Nat) : (s.answer v st).coh = s.coh := rfl
@[simp] theorem State.answer_evh (s : State) (v st : Nat) : (s.answer v st).evh = s.evh := rfl
@[simp] theorem State.answer_ras (s : State) (v st : Nat) : (s.answer v st).ras = s.ras := rfl
@[simp] theorem State.answer_dmc (s : State) (v st : Nat) : (s.answer v st).dmc = s.dmc := rfl
@[simp] theorem State.answer_cores (s : State) (v st : Nat) : (s.answer v st).cores = s.cores := rfl
@[simp] theorem State.answer_engines (s : State) (v st : Nat) : (s.answer v st).engines = s.engines := rfl
@[simp] theorem State.answer_clusters (s : State) (v st : Nat) : (s.answer v st).clusters = s.clusters := rfl
@[simp] theorem State.answer_dsp (s : State) (v st : Nat) : (s.answer v st).dsp = s.dsp := rfl
@[simp] theorem State.answer_clt (s : State) (v st : Nat) : (s.answer v st).clt = s.clt := rfl
@[simp] theorem State.answer_tis (s : State) (v st : Nat) : (s.answer v st).tis = s.tis := rfl
@[simp] theorem State.answer_steals (s : State) (v st : Nat) : (s.answer v st).steals = s.steals := rfl
@[simp] theorem State.answer_fans (s : State) (v st : Nat) : (s.answer v st).fans = s.fans := rfl
@[simp] theorem State.answer_kao (s : State) (v st : Nat) : (s.answer v st).kao = s.kao := rfl
@[simp] theorem State.answer_custody (s : State) (v st : Nat) : (s.answer v st).custody = s.custody := rfl
@[simp] theorem State.answer_ledger (s : State) (v st : Nat) : (s.answer v st).ledger = s.ledger := rfl
@[simp] theorem State.answer_strata (s : State) (v st : Nat) : (s.answer v st).strata = s.strata := rfl
@[simp] theorem State.answer_sys (s : State) (v st : Nat) : (s.answer v st).sys = s.sys := rfl
@[simp] theorem State.answer_pwr (s : State) (v st : Nat) : (s.answer v st).pwr = s.pwr := rfl
@[simp] theorem State.answer_tlt (s : State) (v st : Nat) : (s.answer v st).tlt = s.tlt := rfl
@[simp] theorem State.answer_prt (s : State) (v st : Nat) : (s.answer v st).prt = s.prt := rfl
@[simp] theorem State.answer_freeCtr (s : State) (v st : Nat) : (s.answer v st).freeCtr = s.freeCtr := rfl
@[simp] theorem State.answer_rngCtr (s : State) (v st : Nat) : (s.answer v st).rngCtr = s.rngCtr := rfl

/-! ## sendFrame -/

@[simp] theorem State.sendFrame_pending (s : State) (f : List Byte) : (s.sendFrame f).pending = s.pending := rfl
@[simp] theorem State.sendFrame_regs (s : State) (f : List Byte) : (s.sendFrame f).regs = s.regs := rfl
@[simp] theorem State.sendFrame_heldWrites (s : State) (f : List Byte) : (s.sendFrame f).heldWrites = s.heldWrites := rfl
@[simp] theorem State.sendFrame_viaRestart (s : State) (f : List Byte) : (s.sendFrame f).viaRestart = s.viaRestart := rfl
@[simp] theorem State.sendFrame_mem (s : State) (f : List Byte) : (s.sendFrame f).mem = s.mem := rfl
@[simp] theorem State.sendFrame_keySlots (s : State) (f : List Byte) : (s.sendFrame f).keySlots = s.keySlots := rfl
@[simp] theorem State.sendFrame_keyGen (s : State) (f : List Byte) : (s.sendFrame f).keyGen = s.keyGen := rfl
@[simp] theorem State.sendFrame_keyLost (s : State) (f : List Byte) : (s.sendFrame f).keyLost = s.keyLost := rfl
@[simp] theorem State.sendFrame_potCache (s : State) (f : List Byte) : (s.sendFrame f).potCache = s.potCache := rfl
@[simp] theorem State.sendFrame_coh (s : State) (f : List Byte) : (s.sendFrame f).coh = s.coh := rfl
@[simp] theorem State.sendFrame_evh (s : State) (f : List Byte) : (s.sendFrame f).evh = s.evh := rfl
@[simp] theorem State.sendFrame_ras (s : State) (f : List Byte) : (s.sendFrame f).ras = s.ras := rfl
@[simp] theorem State.sendFrame_dmc (s : State) (f : List Byte) : (s.sendFrame f).dmc = s.dmc := rfl
@[simp] theorem State.sendFrame_cores (s : State) (f : List Byte) : (s.sendFrame f).cores = s.cores := rfl
@[simp] theorem State.sendFrame_engines (s : State) (f : List Byte) : (s.sendFrame f).engines = s.engines := rfl
@[simp] theorem State.sendFrame_clusters (s : State) (f : List Byte) : (s.sendFrame f).clusters = s.clusters := rfl
@[simp] theorem State.sendFrame_dsp (s : State) (f : List Byte) : (s.sendFrame f).dsp = s.dsp := rfl
@[simp] theorem State.sendFrame_clt (s : State) (f : List Byte) : (s.sendFrame f).clt = s.clt := rfl
@[simp] theorem State.sendFrame_tis (s : State) (f : List Byte) : (s.sendFrame f).tis = s.tis := rfl
@[simp] theorem State.sendFrame_steals (s : State) (f : List Byte) : (s.sendFrame f).steals = s.steals := rfl
@[simp] theorem State.sendFrame_fans (s : State) (f : List Byte) : (s.sendFrame f).fans = s.fans := rfl
@[simp] theorem State.sendFrame_kao (s : State) (f : List Byte) : (s.sendFrame f).kao = s.kao := rfl
@[simp] theorem State.sendFrame_custody (s : State) (f : List Byte) : (s.sendFrame f).custody = s.custody := rfl
@[simp] theorem State.sendFrame_ledger (s : State) (f : List Byte) : (s.sendFrame f).ledger = s.ledger := rfl
@[simp] theorem State.sendFrame_strata (s : State) (f : List Byte) : (s.sendFrame f).strata = s.strata := rfl
@[simp] theorem State.sendFrame_sys (s : State) (f : List Byte) : (s.sendFrame f).sys = s.sys := rfl
@[simp] theorem State.sendFrame_pwr (s : State) (f : List Byte) : (s.sendFrame f).pwr = s.pwr := rfl
@[simp] theorem State.sendFrame_tlt (s : State) (f : List Byte) : (s.sendFrame f).tlt = s.tlt := rfl
@[simp] theorem State.sendFrame_prt (s : State) (f : List Byte) : (s.sendFrame f).prt = s.prt := rfl
@[simp] theorem State.sendFrame_freeCtr (s : State) (f : List Byte) : (s.sendFrame f).freeCtr = s.freeCtr := rfl
@[simp] theorem State.sendFrame_rngCtr (s : State) (f : List Byte) : (s.sendFrame f).rngCtr = s.rngCtr := rfl

/-! ## setSession -/

@[simp] theorem State.setSession_pending (s : State) (sid : Nat) (x : Option Session) : (s.setSession sid x).pending = s.pending := rfl
@[simp] theorem State.setSession_regs (s : State) (sid : Nat) (x : Option Session) : (s.setSession sid x).regs = s.regs := rfl
@[simp] theorem State.setSession_heldWrites (s : State) (sid : Nat) (x : Option Session) : (s.setSession sid x).heldWrites = s.heldWrites := rfl
@[simp] theorem State.setSession_viaRestart (s : State) (sid : Nat) (x : Option Session) : (s.setSession sid x).viaRestart = s.viaRestart := rfl
@[simp] theorem State.setSession_mem (s : State) (sid : Nat) (x : Option Session) : (s.setSession sid x).mem = s.mem := rfl
@[simp] theorem State.setSession_keySlots (s : State) (sid : Nat) (x : Option Session) : (s.setSession sid x).keySlots = s.keySlots := rfl
@[simp] theorem State.setSession_keyGen (s : State) (sid : Nat) (x : Option Session) : (s.setSession sid x).keyGen = s.keyGen := rfl
@[simp] theorem State.setSession_keyLost (s : State) (sid : Nat) (x : Option Session) : (s.setSession sid x).keyLost = s.keyLost := rfl
@[simp] theorem State.setSession_potCache (s : State) (sid : Nat) (x : Option Session) : (s.setSession sid x).potCache = s.potCache := rfl
@[simp] theorem State.setSession_coh (s : State) (sid : Nat) (x : Option Session) : (s.setSession sid x).coh = s.coh := rfl
@[simp] theorem State.setSession_evh (s : State) (sid : Nat) (x : Option Session) : (s.setSession sid x).evh = s.evh := rfl
@[simp] theorem State.setSession_ras (s : State) (sid : Nat) (x : Option Session) : (s.setSession sid x).ras = s.ras := rfl
@[simp] theorem State.setSession_dmc (s : State) (sid : Nat) (x : Option Session) : (s.setSession sid x).dmc = s.dmc := rfl
@[simp] theorem State.setSession_cores (s : State) (sid : Nat) (x : Option Session) : (s.setSession sid x).cores = s.cores := rfl
@[simp] theorem State.setSession_engines (s : State) (sid : Nat) (x : Option Session) : (s.setSession sid x).engines = s.engines := rfl
@[simp] theorem State.setSession_clusters (s : State) (sid : Nat) (x : Option Session) : (s.setSession sid x).clusters = s.clusters := rfl
@[simp] theorem State.setSession_dsp (s : State) (sid : Nat) (x : Option Session) : (s.setSession sid x).dsp = s.dsp := rfl
@[simp] theorem State.setSession_clt (s : State) (sid : Nat) (x : Option Session) : (s.setSession sid x).clt = s.clt := rfl
@[simp] theorem State.setSession_tis (s : State) (sid : Nat) (x : Option Session) : (s.setSession sid x).tis = s.tis := rfl
@[simp] theorem State.setSession_steals (s : State) (sid : Nat) (x : Option Session) : (s.setSession sid x).steals = s.steals := rfl
@[simp] theorem State.setSession_fans (s : State) (sid : Nat) (x : Option Session) : (s.setSession sid x).fans = s.fans := rfl
@[simp] theorem State.setSession_kao (s : State) (sid : Nat) (x : Option Session) : (s.setSession sid x).kao = s.kao := rfl
@[simp] theorem State.setSession_custody (s : State) (sid : Nat) (x : Option Session) : (s.setSession sid x).custody = s.custody := rfl
@[simp] theorem State.setSession_ledger (s : State) (sid : Nat) (x : Option Session) : (s.setSession sid x).ledger = s.ledger := rfl
@[simp] theorem State.setSession_strata (s : State) (sid : Nat) (x : Option Session) : (s.setSession sid x).strata = s.strata := rfl
@[simp] theorem State.setSession_sys (s : State) (sid : Nat) (x : Option Session) : (s.setSession sid x).sys = s.sys := rfl
@[simp] theorem State.setSession_pwr (s : State) (sid : Nat) (x : Option Session) : (s.setSession sid x).pwr = s.pwr := rfl
@[simp] theorem State.setSession_prt (s : State) (sid : Nat) (x : Option Session) : (s.setSession sid x).prt = s.prt := rfl
@[simp] theorem State.setSession_out (s : State) (sid : Nat) (x : Option Session) : (s.setSession sid x).out = s.out := rfl
@[simp] theorem State.setSession_freeCtr (s : State) (sid : Nat) (x : Option Session) : (s.setSession sid x).freeCtr = s.freeCtr := rfl
@[simp] theorem State.setSession_rngCtr (s : State) (sid : Nat) (x : Option Session) : (s.setSession sid x).rngCtr = s.rngCtr := rfl

/-! ## setRail -/

@[simp] theorem State.setRail_pending (s : State) (r : Nat) (x : Option RailReq) : (s.setRail r x).pending = s.pending := rfl
@[simp] theorem State.setRail_regs (s : State) (r : Nat) (x : Option RailReq) : (s.setRail r x).regs = s.regs := rfl
@[simp] theorem State.setRail_heldWrites (s : State) (r : Nat) (x : Option RailReq) : (s.setRail r x).heldWrites = s.heldWrites := rfl
@[simp] theorem State.setRail_viaRestart (s : State) (r : Nat) (x : Option RailReq) : (s.setRail r x).viaRestart = s.viaRestart := rfl
@[simp] theorem State.setRail_mem (s : State) (r : Nat) (x : Option RailReq) : (s.setRail r x).mem = s.mem := rfl
@[simp] theorem State.setRail_keySlots (s : State) (r : Nat) (x : Option RailReq) : (s.setRail r x).keySlots = s.keySlots := rfl
@[simp] theorem State.setRail_keyGen (s : State) (r : Nat) (x : Option RailReq) : (s.setRail r x).keyGen = s.keyGen := rfl
@[simp] theorem State.setRail_keyLost (s : State) (r : Nat) (x : Option RailReq) : (s.setRail r x).keyLost = s.keyLost := rfl
@[simp] theorem State.setRail_potCache (s : State) (r : Nat) (x : Option RailReq) : (s.setRail r x).potCache = s.potCache := rfl
@[simp] theorem State.setRail_coh (s : State) (r : Nat) (x : Option RailReq) : (s.setRail r x).coh = s.coh := rfl
@[simp] theorem State.setRail_evh (s : State) (r : Nat) (x : Option RailReq) : (s.setRail r x).evh = s.evh := rfl
@[simp] theorem State.setRail_ras (s : State) (r : Nat) (x : Option RailReq) : (s.setRail r x).ras = s.ras := rfl
@[simp] theorem State.setRail_dmc (s : State) (r : Nat) (x : Option RailReq) : (s.setRail r x).dmc = s.dmc := rfl
@[simp] theorem State.setRail_cores (s : State) (r : Nat) (x : Option RailReq) : (s.setRail r x).cores = s.cores := rfl
@[simp] theorem State.setRail_engines (s : State) (r : Nat) (x : Option RailReq) : (s.setRail r x).engines = s.engines := rfl
@[simp] theorem State.setRail_clusters (s : State) (r : Nat) (x : Option RailReq) : (s.setRail r x).clusters = s.clusters := rfl
@[simp] theorem State.setRail_dsp (s : State) (r : Nat) (x : Option RailReq) : (s.setRail r x).dsp = s.dsp := rfl
@[simp] theorem State.setRail_clt (s : State) (r : Nat) (x : Option RailReq) : (s.setRail r x).clt = s.clt := rfl
@[simp] theorem State.setRail_tis (s : State) (r : Nat) (x : Option RailReq) : (s.setRail r x).tis = s.tis := rfl
@[simp] theorem State.setRail_steals (s : State) (r : Nat) (x : Option RailReq) : (s.setRail r x).steals = s.steals := rfl
@[simp] theorem State.setRail_fans (s : State) (r : Nat) (x : Option RailReq) : (s.setRail r x).fans = s.fans := rfl
@[simp] theorem State.setRail_kao (s : State) (r : Nat) (x : Option RailReq) : (s.setRail r x).kao = s.kao := rfl
@[simp] theorem State.setRail_custody (s : State) (r : Nat) (x : Option RailReq) : (s.setRail r x).custody = s.custody := rfl
@[simp] theorem State.setRail_ledger (s : State) (r : Nat) (x : Option RailReq) : (s.setRail r x).ledger = s.ledger := rfl
@[simp] theorem State.setRail_strata (s : State) (r : Nat) (x : Option RailReq) : (s.setRail r x).strata = s.strata := rfl
@[simp] theorem State.setRail_sys (s : State) (r : Nat) (x : Option RailReq) : (s.setRail r x).sys = s.sys := rfl
@[simp] theorem State.setRail_tlt (s : State) (r : Nat) (x : Option RailReq) : (s.setRail r x).tlt = s.tlt := rfl
@[simp] theorem State.setRail_prt (s : State) (r : Nat) (x : Option RailReq) : (s.setRail r x).prt = s.prt := rfl
@[simp] theorem State.setRail_out (s : State) (r : Nat) (x : Option RailReq) : (s.setRail r x).out = s.out := rfl
@[simp] theorem State.setRail_freeCtr (s : State) (r : Nat) (x : Option RailReq) : (s.setRail r x).freeCtr = s.freeCtr := rfl
@[simp] theorem State.setRail_rngCtr (s : State) (r : Nat) (x : Option RailReq) : (s.setRail r x).rngCtr = s.rngCtr := rfl

/-! ## setMeshPower -/

@[simp] theorem State.setMeshPower_pending (s : State) (h : Nat) (b : Bool) : (s.setMeshPower h b).pending = s.pending := rfl
@[simp] theorem State.setMeshPower_regs (s : State) (h : Nat) (b : Bool) : (s.setMeshPower h b).regs = s.regs := rfl
@[simp] theorem State.setMeshPower_heldWrites (s : State) (h : Nat) (b : Bool) : (s.setMeshPower h b).heldWrites = s.heldWrites := rfl
@[simp] theorem State.setMeshPower_viaRestart (s : State) (h : Nat) (b : Bool) : (s.setMeshPower h b).viaRestart = s.viaRestart := rfl
@[simp] theorem State.setMeshPower_mem (s : State) (h : Nat) (b : Bool) : (s.setMeshPower h b).mem = s.mem := rfl
@[simp] theorem State.setMeshPower_keySlots (s : State) (h : Nat) (b : Bool) : (s.setMeshPower h b).keySlots = s.keySlots := rfl
@[simp] theorem State.setMeshPower_keyGen (s : State) (h : Nat) (b : Bool) : (s.setMeshPower h b).keyGen = s.keyGen := rfl
@[simp] theorem State.setMeshPower_keyLost (s : State) (h : Nat) (b : Bool) : (s.setMeshPower h b).keyLost = s.keyLost := rfl
@[simp] theorem State.setMeshPower_potCache (s : State) (h : Nat) (b : Bool) : (s.setMeshPower h b).potCache = s.potCache := rfl
@[simp] theorem State.setMeshPower_coh (s : State) (h : Nat) (b : Bool) : (s.setMeshPower h b).coh = s.coh := rfl
@[simp] theorem State.setMeshPower_evh (s : State) (h : Nat) (b : Bool) : (s.setMeshPower h b).evh = s.evh := rfl
@[simp] theorem State.setMeshPower_ras (s : State) (h : Nat) (b : Bool) : (s.setMeshPower h b).ras = s.ras := rfl
@[simp] theorem State.setMeshPower_dmc (s : State) (h : Nat) (b : Bool) : (s.setMeshPower h b).dmc = s.dmc := rfl
@[simp] theorem State.setMeshPower_cores (s : State) (h : Nat) (b : Bool) : (s.setMeshPower h b).cores = s.cores := rfl
@[simp] theorem State.setMeshPower_engines (s : State) (h : Nat) (b : Bool) : (s.setMeshPower h b).engines = s.engines := rfl
@[simp] theorem State.setMeshPower_clusters (s : State) (h : Nat) (b : Bool) : (s.setMeshPower h b).clusters = s.clusters := rfl
@[simp] theorem State.setMeshPower_dsp (s : State) (h : Nat) (b : Bool) : (s.setMeshPower h b).dsp = s.dsp := rfl
@[simp] theorem State.setMeshPower_clt (s : State) (h : Nat) (b : Bool) : (s.setMeshPower h b).clt = s.clt := rfl
@[simp] theorem State.setMeshPower_tis (s : State) (h : Nat) (b : Bool) : (s.setMeshPower h b).tis = s.tis := rfl
@[simp] theorem State.setMeshPower_steals (s : State) (h : Nat) (b : Bool) : (s.setMeshPower h b).steals = s.steals := rfl
@[simp] theorem State.setMeshPower_fans (s : State) (h : Nat) (b : Bool) : (s.setMeshPower h b).fans = s.fans := rfl
@[simp] theorem State.setMeshPower_kao (s : State) (h : Nat) (b : Bool) : (s.setMeshPower h b).kao = s.kao := rfl
@[simp] theorem State.setMeshPower_custody (s : State) (h : Nat) (b : Bool) : (s.setMeshPower h b).custody = s.custody := rfl
@[simp] theorem State.setMeshPower_ledger (s : State) (h : Nat) (b : Bool) : (s.setMeshPower h b).ledger = s.ledger := rfl
@[simp] theorem State.setMeshPower_strata (s : State) (h : Nat) (b : Bool) : (s.setMeshPower h b).strata = s.strata := rfl
@[simp] theorem State.setMeshPower_sys (s : State) (h : Nat) (b : Bool) : (s.setMeshPower h b).sys = s.sys := rfl
@[simp] theorem State.setMeshPower_tlt (s : State) (h : Nat) (b : Bool) : (s.setMeshPower h b).tlt = s.tlt := rfl
@[simp] theorem State.setMeshPower_prt (s : State) (h : Nat) (b : Bool) : (s.setMeshPower h b).prt = s.prt := rfl
@[simp] theorem State.setMeshPower_out (s : State) (h : Nat) (b : Bool) : (s.setMeshPower h b).out = s.out := rfl
@[simp] theorem State.setMeshPower_freeCtr (s : State) (h : Nat) (b : Bool) : (s.setMeshPower h b).freeCtr = s.freeCtr := rfl
@[simp] theorem State.setMeshPower_rngCtr (s : State) (h : Nat) (b : Bool) : (s.setMeshPower h b).rngCtr = s.rngCtr := rfl

/-! ## setPin -/

@[simp] theorem State.setPin_pending (s : State) (n : Nat) (b : Bool) : (s.setPin n b).pending = s.pending := rfl
@[simp] theorem State.setPin_regs (s : State) (n : Nat) (b : Bool) : (s.setPin n b).regs = s.regs := rfl
@[simp] theorem State.setPin_heldWrites (s : State) (n : Nat) (b : Bool) : (s.setPin n b).heldWrites = s.heldWrites := rfl
@[simp] theorem State.setPin_viaRestart (s : State) (n : Nat) (b : Bool) : (s.setPin n b).viaRestart = s.viaRestart := rfl
@[simp] theorem State.setPin_mem (s : State) (n : Nat) (b : Bool) : (s.setPin n b).mem = s.mem := rfl
@[simp] theorem State.setPin_keySlots (s : State) (n : Nat) (b : Bool) : (s.setPin n b).keySlots = s.keySlots := rfl
@[simp] theorem State.setPin_keyGen (s : State) (n : Nat) (b : Bool) : (s.setPin n b).keyGen = s.keyGen := rfl
@[simp] theorem State.setPin_keyLost (s : State) (n : Nat) (b : Bool) : (s.setPin n b).keyLost = s.keyLost := rfl
@[simp] theorem State.setPin_potCache (s : State) (n : Nat) (b : Bool) : (s.setPin n b).potCache = s.potCache := rfl
@[simp] theorem State.setPin_coh (s : State) (n : Nat) (b : Bool) : (s.setPin n b).coh = s.coh := rfl
@[simp] theorem State.setPin_evh (s : State) (n : Nat) (b : Bool) : (s.setPin n b).evh = s.evh := rfl
@[simp] theorem State.setPin_ras (s : State) (n : Nat) (b : Bool) : (s.setPin n b).ras = s.ras := rfl
@[simp] theorem State.setPin_dmc (s : State) (n : Nat) (b : Bool) : (s.setPin n b).dmc = s.dmc := rfl
@[simp] theorem State.setPin_cores (s : State) (n : Nat) (b : Bool) : (s.setPin n b).cores = s.cores := rfl
@[simp] theorem State.setPin_engines (s : State) (n : Nat) (b : Bool) : (s.setPin n b).engines = s.engines := rfl
@[simp] theorem State.setPin_clusters (s : State) (n : Nat) (b : Bool) : (s.setPin n b).clusters = s.clusters := rfl
@[simp] theorem State.setPin_dsp (s : State) (n : Nat) (b : Bool) : (s.setPin n b).dsp = s.dsp := rfl
@[simp] theorem State.setPin_clt (s : State) (n : Nat) (b : Bool) : (s.setPin n b).clt = s.clt := rfl
@[simp] theorem State.setPin_tis (s : State) (n : Nat) (b : Bool) : (s.setPin n b).tis = s.tis := rfl
@[simp] theorem State.setPin_steals (s : State) (n : Nat) (b : Bool) : (s.setPin n b).steals = s.steals := rfl
@[simp] theorem State.setPin_fans (s : State) (n : Nat) (b : Bool) : (s.setPin n b).fans = s.fans := rfl
@[simp] theorem State.setPin_kao (s : State) (n : Nat) (b : Bool) : (s.setPin n b).kao = s.kao := rfl
@[simp] theorem State.setPin_custody (s : State) (n : Nat) (b : Bool) : (s.setPin n b).custody = s.custody := rfl
@[simp] theorem State.setPin_ledger (s : State) (n : Nat) (b : Bool) : (s.setPin n b).ledger = s.ledger := rfl
@[simp] theorem State.setPin_strata (s : State) (n : Nat) (b : Bool) : (s.setPin n b).strata = s.strata := rfl
@[simp] theorem State.setPin_sys (s : State) (n : Nat) (b : Bool) : (s.setPin n b).sys = s.sys := rfl
@[simp] theorem State.setPin_pwr (s : State) (n : Nat) (b : Bool) : (s.setPin n b).pwr = s.pwr := rfl
@[simp] theorem State.setPin_prt (s : State) (n : Nat) (b : Bool) : (s.setPin n b).prt = s.prt := rfl
@[simp] theorem State.setPin_out (s : State) (n : Nat) (b : Bool) : (s.setPin n b).out = s.out := rfl
@[simp] theorem State.setPin_freeCtr (s : State) (n : Nat) (b : Bool) : (s.setPin n b).freeCtr = s.freeCtr := rfl
@[simp] theorem State.setPin_rngCtr (s : State) (n : Nat) (b : Bool) : (s.setPin n b).rngCtr = s.rngCtr := rfl

/-! ## setRoot -/

@[simp] theorem State.setRoot_pending (s : State) (r : RootStage) : (s.setRoot r).pending = s.pending := rfl
@[simp] theorem State.setRoot_regs (s : State) (r : RootStage) : (s.setRoot r).regs = s.regs := rfl
@[simp] theorem State.setRoot_heldWrites (s : State) (r : RootStage) : (s.setRoot r).heldWrites = s.heldWrites := rfl
@[simp] theorem State.setRoot_viaRestart (s : State) (r : RootStage) : (s.setRoot r).viaRestart = s.viaRestart := rfl
@[simp] theorem State.setRoot_mem (s : State) (r : RootStage) : (s.setRoot r).mem = s.mem := rfl
@[simp] theorem State.setRoot_keySlots (s : State) (r : RootStage) : (s.setRoot r).keySlots = s.keySlots := rfl
@[simp] theorem State.setRoot_keyGen (s : State) (r : RootStage) : (s.setRoot r).keyGen = s.keyGen := rfl
@[simp] theorem State.setRoot_keyLost (s : State) (r : RootStage) : (s.setRoot r).keyLost = s.keyLost := rfl
@[simp] theorem State.setRoot_potCache (s : State) (r : RootStage) : (s.setRoot r).potCache = s.potCache := rfl
@[simp] theorem State.setRoot_coh (s : State) (r : RootStage) : (s.setRoot r).coh = s.coh := rfl
@[simp] theorem State.setRoot_evh (s : State) (r : RootStage) : (s.setRoot r).evh = s.evh := rfl
@[simp] theorem State.setRoot_ras (s : State) (r : RootStage) : (s.setRoot r).ras = s.ras := rfl
@[simp] theorem State.setRoot_dmc (s : State) (r : RootStage) : (s.setRoot r).dmc = s.dmc := rfl
@[simp] theorem State.setRoot_cores (s : State) (r : RootStage) : (s.setRoot r).cores = s.cores := rfl
@[simp] theorem State.setRoot_engines (s : State) (r : RootStage) : (s.setRoot r).engines = s.engines := rfl
@[simp] theorem State.setRoot_clusters (s : State) (r : RootStage) : (s.setRoot r).clusters = s.clusters := rfl
@[simp] theorem State.setRoot_dsp (s : State) (r : RootStage) : (s.setRoot r).dsp = s.dsp := rfl
@[simp] theorem State.setRoot_clt (s : State) (r : RootStage) : (s.setRoot r).clt = s.clt := rfl
@[simp] theorem State.setRoot_tis (s : State) (r : RootStage) : (s.setRoot r).tis = s.tis := rfl
@[simp] theorem State.setRoot_steals (s : State) (r : RootStage) : (s.setRoot r).steals = s.steals := rfl
@[simp] theorem State.setRoot_fans (s : State) (r : RootStage) : (s.setRoot r).fans = s.fans := rfl
@[simp] theorem State.setRoot_kao (s : State) (r : RootStage) : (s.setRoot r).kao = s.kao := rfl
@[simp] theorem State.setRoot_custody (s : State) (r : RootStage) : (s.setRoot r).custody = s.custody := rfl
@[simp] theorem State.setRoot_ledger (s : State) (r : RootStage) : (s.setRoot r).ledger = s.ledger := rfl
@[simp] theorem State.setRoot_strata (s : State) (r : RootStage) : (s.setRoot r).strata = s.strata := rfl
@[simp] theorem State.setRoot_sys (s : State) (r : RootStage) : (s.setRoot r).sys = s.sys := rfl
@[simp] theorem State.setRoot_pwr (s : State) (r : RootStage) : (s.setRoot r).pwr = s.pwr := rfl
@[simp] theorem State.setRoot_prt (s : State) (r : RootStage) : (s.setRoot r).prt = s.prt := rfl
@[simp] theorem State.setRoot_out (s : State) (r : RootStage) : (s.setRoot r).out = s.out := rfl
@[simp] theorem State.setRoot_freeCtr (s : State) (r : RootStage) : (s.setRoot r).freeCtr = s.freeCtr := rfl
@[simp] theorem State.setRoot_rngCtr (s : State) (r : RootStage) : (s.setRoot r).rngCtr = s.rngCtr := rfl

/-! ## setLink -/

@[simp] theorem State.setLink_pending (s : State) (p : Nat) (up : Bool) : (s.setLink p up).pending = s.pending := rfl
@[simp] theorem State.setLink_regs (s : State) (p : Nat) (up : Bool) : (s.setLink p up).regs = s.regs := rfl
@[simp] theorem State.setLink_heldWrites (s : State) (p : Nat) (up : Bool) : (s.setLink p up).heldWrites = s.heldWrites := rfl
@[simp] theorem State.setLink_viaRestart (s : State) (p : Nat) (up : Bool) : (s.setLink p up).viaRestart = s.viaRestart := rfl
@[simp] theorem State.setLink_mem (s : State) (p : Nat) (up : Bool) : (s.setLink p up).mem = s.mem := rfl
@[simp] theorem State.setLink_keySlots (s : State) (p : Nat) (up : Bool) : (s.setLink p up).keySlots = s.keySlots := rfl
@[simp] theorem State.setLink_keyGen (s : State) (p : Nat) (up : Bool) : (s.setLink p up).keyGen = s.keyGen := rfl
@[simp] theorem State.setLink_keyLost (s : State) (p : Nat) (up : Bool) : (s.setLink p up).keyLost = s.keyLost := rfl
@[simp] theorem State.setLink_potCache (s : State) (p : Nat) (up : Bool) : (s.setLink p up).potCache = s.potCache := rfl
@[simp] theorem State.setLink_coh (s : State) (p : Nat) (up : Bool) : (s.setLink p up).coh = s.coh := rfl
@[simp] theorem State.setLink_evh (s : State) (p : Nat) (up : Bool) : (s.setLink p up).evh = s.evh := rfl
@[simp] theorem State.setLink_ras (s : State) (p : Nat) (up : Bool) : (s.setLink p up).ras = s.ras := rfl
@[simp] theorem State.setLink_dmc (s : State) (p : Nat) (up : Bool) : (s.setLink p up).dmc = s.dmc := rfl
@[simp] theorem State.setLink_cores (s : State) (p : Nat) (up : Bool) : (s.setLink p up).cores = s.cores := rfl
@[simp] theorem State.setLink_engines (s : State) (p : Nat) (up : Bool) : (s.setLink p up).engines = s.engines := rfl
@[simp] theorem State.setLink_clusters (s : State) (p : Nat) (up : Bool) : (s.setLink p up).clusters = s.clusters := rfl
@[simp] theorem State.setLink_dsp (s : State) (p : Nat) (up : Bool) : (s.setLink p up).dsp = s.dsp := rfl
@[simp] theorem State.setLink_clt (s : State) (p : Nat) (up : Bool) : (s.setLink p up).clt = s.clt := rfl
@[simp] theorem State.setLink_tis (s : State) (p : Nat) (up : Bool) : (s.setLink p up).tis = s.tis := rfl
@[simp] theorem State.setLink_steals (s : State) (p : Nat) (up : Bool) : (s.setLink p up).steals = s.steals := rfl
@[simp] theorem State.setLink_fans (s : State) (p : Nat) (up : Bool) : (s.setLink p up).fans = s.fans := rfl
@[simp] theorem State.setLink_kao (s : State) (p : Nat) (up : Bool) : (s.setLink p up).kao = s.kao := rfl
@[simp] theorem State.setLink_custody (s : State) (p : Nat) (up : Bool) : (s.setLink p up).custody = s.custody := rfl
@[simp] theorem State.setLink_ledger (s : State) (p : Nat) (up : Bool) : (s.setLink p up).ledger = s.ledger := rfl
@[simp] theorem State.setLink_strata (s : State) (p : Nat) (up : Bool) : (s.setLink p up).strata = s.strata := rfl
@[simp] theorem State.setLink_pwr (s : State) (p : Nat) (up : Bool) : (s.setLink p up).pwr = s.pwr := rfl
@[simp] theorem State.setLink_tlt (s : State) (p : Nat) (up : Bool) : (s.setLink p up).tlt = s.tlt := rfl
@[simp] theorem State.setLink_prt (s : State) (p : Nat) (up : Bool) : (s.setLink p up).prt = s.prt := rfl
@[simp] theorem State.setLink_out (s : State) (p : Nat) (up : Bool) : (s.setLink p up).out = s.out := rfl
@[simp] theorem State.setLink_freeCtr (s : State) (p : Nat) (up : Bool) : (s.setLink p up).freeCtr = s.freeCtr := rfl
@[simp] theorem State.setLink_rngCtr (s : State) (p : Nat) (up : Bool) : (s.setLink p up).rngCtr = s.rngCtr := rfl

/-! ## setOd -/

@[simp] theorem State.setOd_pending (s : State) (idx sub v : Nat) : (s.setOd idx sub v).pending = s.pending := rfl
@[simp] theorem State.setOd_regs (s : State) (idx sub v : Nat) : (s.setOd idx sub v).regs = s.regs := rfl
@[simp] theorem State.setOd_heldWrites (s : State) (idx sub v : Nat) : (s.setOd idx sub v).heldWrites = s.heldWrites := rfl
@[simp] theorem State.setOd_viaRestart (s : State) (idx sub v : Nat) : (s.setOd idx sub v).viaRestart = s.viaRestart := rfl
@[simp] theorem State.setOd_mem (s : State) (idx sub v : Nat) : (s.setOd idx sub v).mem = s.mem := rfl
@[simp] theorem State.setOd_keySlots (s : State) (idx sub v : Nat) : (s.setOd idx sub v).keySlots = s.keySlots := rfl
@[simp] theorem State.setOd_keyGen (s : State) (idx sub v : Nat) : (s.setOd idx sub v).keyGen = s.keyGen := rfl
@[simp] theorem State.setOd_keyLost (s : State) (idx sub v : Nat) : (s.setOd idx sub v).keyLost = s.keyLost := rfl
@[simp] theorem State.setOd_potCache (s : State) (idx sub v : Nat) : (s.setOd idx sub v).potCache = s.potCache := rfl
@[simp] theorem State.setOd_coh (s : State) (idx sub v : Nat) : (s.setOd idx sub v).coh = s.coh := rfl
@[simp] theorem State.setOd_evh (s : State) (idx sub v : Nat) : (s.setOd idx sub v).evh = s.evh := rfl
@[simp] theorem State.setOd_ras (s : State) (idx sub v : Nat) : (s.setOd idx sub v).ras = s.ras := rfl
@[simp] theorem State.setOd_dmc (s : State) (idx sub v : Nat) : (s.setOd idx sub v).dmc = s.dmc := rfl
@[simp] theorem State.setOd_cores (s : State) (idx sub v : Nat) : (s.setOd idx sub v).cores = s.cores := rfl
@[simp] theorem State.setOd_engines (s : State) (idx sub v : Nat) : (s.setOd idx sub v).engines = s.engines := rfl
@[simp] theorem State.setOd_clusters (s : State) (idx sub v : Nat) : (s.setOd idx sub v).clusters = s.clusters := rfl
@[simp] theorem State.setOd_dsp (s : State) (idx sub v : Nat) : (s.setOd idx sub v).dsp = s.dsp := rfl
@[simp] theorem State.setOd_clt (s : State) (idx sub v : Nat) : (s.setOd idx sub v).clt = s.clt := rfl
@[simp] theorem State.setOd_tis (s : State) (idx sub v : Nat) : (s.setOd idx sub v).tis = s.tis := rfl
@[simp] theorem State.setOd_steals (s : State) (idx sub v : Nat) : (s.setOd idx sub v).steals = s.steals := rfl
@[simp] theorem State.setOd_fans (s : State) (idx sub v : Nat) : (s.setOd idx sub v).fans = s.fans := rfl
@[simp] theorem State.setOd_kao (s : State) (idx sub v : Nat) : (s.setOd idx sub v).kao = s.kao := rfl
@[simp] theorem State.setOd_custody (s : State) (idx sub v : Nat) : (s.setOd idx sub v).custody = s.custody := rfl
@[simp] theorem State.setOd_ledger (s : State) (idx sub v : Nat) : (s.setOd idx sub v).ledger = s.ledger := rfl
@[simp] theorem State.setOd_strata (s : State) (idx sub v : Nat) : (s.setOd idx sub v).strata = s.strata := rfl
@[simp] theorem State.setOd_pwr (s : State) (idx sub v : Nat) : (s.setOd idx sub v).pwr = s.pwr := rfl
@[simp] theorem State.setOd_tlt (s : State) (idx sub v : Nat) : (s.setOd idx sub v).tlt = s.tlt := rfl
@[simp] theorem State.setOd_prt (s : State) (idx sub v : Nat) : (s.setOd idx sub v).prt = s.prt := rfl
@[simp] theorem State.setOd_out (s : State) (idx sub v : Nat) : (s.setOd idx sub v).out = s.out := rfl
@[simp] theorem State.setOd_freeCtr (s : State) (idx sub v : Nat) : (s.setOd idx sub v).freeCtr = s.freeCtr := rfl
@[simp] theorem State.setOd_rngCtr (s : State) (idx sub v : Nat) : (s.setOd idx sub v).rngCtr = s.rngCtr := rfl

/-! ## setBackfill -/

@[simp] theorem State.setBackfill_pending (s : State) (h : Nat) (b : Option Backfill) : (s.setBackfill h b).pending = s.pending := rfl
@[simp] theorem State.setBackfill_regs (s : State) (h : Nat) (b : Option Backfill) : (s.setBackfill h b).regs = s.regs := rfl
@[simp] theorem State.setBackfill_heldWrites (s : State) (h : Nat) (b : Option Backfill) : (s.setBackfill h b).heldWrites = s.heldWrites := rfl
@[simp] theorem State.setBackfill_viaRestart (s : State) (h : Nat) (b : Option Backfill) : (s.setBackfill h b).viaRestart = s.viaRestart := rfl
@[simp] theorem State.setBackfill_mem (s : State) (h : Nat) (b : Option Backfill) : (s.setBackfill h b).mem = s.mem := rfl
@[simp] theorem State.setBackfill_keySlots (s : State) (h : Nat) (b : Option Backfill) : (s.setBackfill h b).keySlots = s.keySlots := rfl
@[simp] theorem State.setBackfill_keyGen (s : State) (h : Nat) (b : Option Backfill) : (s.setBackfill h b).keyGen = s.keyGen := rfl
@[simp] theorem State.setBackfill_keyLost (s : State) (h : Nat) (b : Option Backfill) : (s.setBackfill h b).keyLost = s.keyLost := rfl
@[simp] theorem State.setBackfill_potCache (s : State) (h : Nat) (b : Option Backfill) : (s.setBackfill h b).potCache = s.potCache := rfl
@[simp] theorem State.setBackfill_coh (s : State) (h : Nat) (b : Option Backfill) : (s.setBackfill h b).coh = s.coh := rfl
@[simp] theorem State.setBackfill_evh (s : State) (h : Nat) (b : Option Backfill) : (s.setBackfill h b).evh = s.evh := rfl
@[simp] theorem State.setBackfill_ras (s : State) (h : Nat) (b : Option Backfill) : (s.setBackfill h b).ras = s.ras := rfl
@[simp] theorem State.setBackfill_dmc (s : State) (h : Nat) (b : Option Backfill) : (s.setBackfill h b).dmc = s.dmc := rfl
@[simp] theorem State.setBackfill_cores (s : State) (h : Nat) (b : Option Backfill) : (s.setBackfill h b).cores = s.cores := rfl
@[simp] theorem State.setBackfill_engines (s : State) (h : Nat) (b : Option Backfill) : (s.setBackfill h b).engines = s.engines := rfl
@[simp] theorem State.setBackfill_clusters (s : State) (h : Nat) (b : Option Backfill) : (s.setBackfill h b).clusters = s.clusters := rfl
@[simp] theorem State.setBackfill_dsp (s : State) (h : Nat) (b : Option Backfill) : (s.setBackfill h b).dsp = s.dsp := rfl
@[simp] theorem State.setBackfill_clt (s : State) (h : Nat) (b : Option Backfill) : (s.setBackfill h b).clt = s.clt := rfl
@[simp] theorem State.setBackfill_tis (s : State) (h : Nat) (b : Option Backfill) : (s.setBackfill h b).tis = s.tis := rfl
@[simp] theorem State.setBackfill_steals (s : State) (h : Nat) (b : Option Backfill) : (s.setBackfill h b).steals = s.steals := rfl
@[simp] theorem State.setBackfill_fans (s : State) (h : Nat) (b : Option Backfill) : (s.setBackfill h b).fans = s.fans := rfl
@[simp] theorem State.setBackfill_kao (s : State) (h : Nat) (b : Option Backfill) : (s.setBackfill h b).kao = s.kao := rfl
@[simp] theorem State.setBackfill_custody (s : State) (h : Nat) (b : Option Backfill) : (s.setBackfill h b).custody = s.custody := rfl
@[simp] theorem State.setBackfill_ledger (s : State) (h : Nat) (b : Option Backfill) : (s.setBackfill h b).ledger = s.ledger := rfl
@[simp] theorem State.setBackfill_strata (s : State) (h : Nat) (b : Option Backfill) : (s.setBackfill h b).strata = s.strata := rfl
@[simp] theorem State.setBackfill_sys (s : State) (h : Nat) (b : Option Backfill) : (s.setBackfill h b).sys = s.sys := rfl
@[simp] theorem State.setBackfill_tlt (s : State) (h : Nat) (b : Option Backfill) : (s.setBackfill h b).tlt = s.tlt := rfl
@[simp] theorem State.setBackfill_prt (s : State) (h : Nat) (b : Option Backfill) : (s.setBackfill h b).prt = s.prt := rfl
@[simp] theorem State.setBackfill_out (s : State) (h : Nat) (b : Option Backfill) : (s.setBackfill h b).out = s.out := rfl
@[simp] theorem State.setBackfill_freeCtr (s : State) (h : Nat) (b : Option Backfill) : (s.setBackfill h b).freeCtr = s.freeCtr := rfl
@[simp] theorem State.setBackfill_rngCtr (s : State) (h : Nat) (b : Option Backfill) : (s.setBackfill h b).rngCtr = s.rngCtr := rfl

/-! ## Reading a part that was written -/

/-- A register field holds the low bits of what was written to it (R9). -/
@[simp] theorem State.rf_setf_self (s : State) (f : Fld) (i v j : Nat) : (s.setf f i v j).rf f i j = v % 2 ^ f.width := by
  simp [State.rf, State.setf, Regs.put]

/-- Another field, another instance or another index keeps its value. -/
theorem State.rf_setf_ne (s : State) (f g : Fld) (i v j i' j' : Nat) (h : g.id ≠ f.id ∨ i' ≠ i ∨ j' ≠ j) :
    (s.setf f i v j).rf g i' j' = s.rf g i' j' := by
  simp only [State.rf, State.setf, Regs.put, SMap.get_upd]
  by_cases h1 : g.id = f.id
  · simp only [h1, if_true]
    by_cases h2 : i' = i
    · have h3 : j' ≠ j := by
        rcases h with h | h | h
        · exact absurd h1 h
        · exact absurd h2 h
        · exact h
      simp [h2, SMap.get_set_other _ _ _ _ h3]
    · simp [h2, SMap.get_upd]
  · simp [h1]

@[simp] theorem State.rf_setf_id (s : State) (f g : Fld) (i v j i' j' : Nat) (h : (g.id == f.id) = false) :
    (s.setf f i v j).rf g i' j' = s.rf g i' j' :=
  s.rf_setf_ne f g i v j i' j' (Or.inl (by simpa using h))

theorem State.rf_setf (s : State) (f : Fld) (i v j i' j' : Nat) :
    (s.setf f i v j).rf f i' j' = if i' = i ∧ j' = j then v % 2 ^ f.width else s.rf f i' j' := by
  by_cases h : i' = i ∧ j' = j
  · obtain ⟨rfl, rfl⟩ := h; simp
  · rw [if_neg h]
    apply State.rf_setf_ne
    by_cases h1 : i' = i
    · exact Or.inr (Or.inr fun h2 => h ⟨h1, h2⟩)
    · exact Or.inr (Or.inl h1)

/-- A register field depends on the register file alone. -/
theorem State.rf_congr (s t : State) (h : s.regs = t.regs) (f : Fld) (i j : Nat) : s.rf f i j = t.rf f i j := by
  simp [State.rf, h]

theorem State.eng_updEng (s : State) (e j : Nat) (f : Engine → Engine) :
    (s.updEng e f).eng j = if j = e then f (s.eng e) else s.eng j := by
  simp [State.eng, State.updEng, SMap.get_upd]

@[simp] theorem State.eng_updEng_self (s : State) (e : Nat) (f : Engine → Engine) : (s.updEng e f).eng e = f (s.eng e) := by
  simp [State.eng_updEng]

theorem State.ti_updTi (s : State) (n j : Nat) (f : Ti → Ti) :
    (s.updTi n f).ti j = if j = n then f (s.ti n) else s.ti j := by
  simp [State.ti, State.updTi, SMap.get_upd]

theorem State.cluster_updCluster (s : State) (c j : Nat) (f : Cluster → Cluster) :
    (s.updCluster c f).cluster j = if j = c then f (s.cluster c) else s.cluster j := by
  simp [State.cluster, State.updCluster, SMap.get_upd]

theorem State.dspOf_updDsp (s : State) (h j : Nat) (f : Dsp → Dsp) :
    (s.updDsp h f).dspOf j = if j = h then f (s.dspOf h) else s.dspOf j := by
  simp [State.dspOf, State.updDsp, SMap.get_upd]

theorem State.cltOf_updClt (s : State) (h j : Nat) (f : Clt → Clt) :
    (s.updClt h f).cltOf j = if j = h then f (s.cltOf h) else s.cltOf j := by
  simp [State.cltOf, State.updClt, SMap.get_upd]

theorem State.chan_updChan (s : State) (c j : Nat) (f : Dmc → Dmc) :
    (s.updChan c f).chan j = if j = c then f (s.chan c) else s.chan j := by
  simp [State.chan, State.updChan, SMap.get_upd]

theorem State.rasHalf_updRas (s : State) (h j : Nat) (f : RasHalf → RasHalf) :
    (s.updRas h f).rasHalf j = if j = h then f (s.rasHalf h) else s.rasHalf j := by
  simp [State.rasHalf, State.updRas, SMap.get_upd]

theorem State.core_setCore (s : State) (c j : Nat) (k : Core) :
    (s.setCore c k).core j = if j = c then k else s.core j := by
  simp [State.core, State.setCore, SMap.get_set]

theorem State.core_updCore (s : State) (c j : Nat) (f : Core → Core) :
    (s.updCore c f).core j = if j = c then f (s.core c) else s.core j := by
  simp [State.updCore, State.core_setCore]

theorem State.vrv_updVrv (s : State) (h j : Nat) (f : Vrv → Vrv) :
    (s.updVrv h f).vrv j = if j = h then f (s.vrv h) else s.vrv j := by
  simp [State.vrv, State.updVrv, SMap.get_upd]

theorem State.lineHome_updLine (s : State) (l j : Nat) (f : LineHome → LineHome) :
    (s.updLine l f).lineHome j = if j = l then f (s.lineHome l) else s.lineHome j := by
  simp [State.lineHome, State.updLine, SMap.get_upd]

theorem State.lstate_setHeld (s : State) (c l c' l' : Nat) (st : LState) :
    (s.setHeld c l st).lstate c' l' = if c' = c ∧ l' = l then st else s.lstate c' l' := by
  by_cases h : c' = c
  · subst h; simp [State.lstate, State.setHeld, SMap.get_set]
  · simp [State.lstate, State.setHeld, SMap.get_upd, h]

theorem State.evPend_clearPending (s : State) (k j : Nat) :
    (s.clearPending k).evPend j = if j = k then EvPend.none else s.evPend j := by
  simp [State.evPend, State.clearPending, SMap.get_set]

theorem State.evPend_setPending (s : State) (k qual half j : Nat) :
    (s.setPending k qual half).evPend j =
      if j = k then
        (if (s.evPend k).pending && (s.evPend k).raised then
           { s.evPend k with multi := (s.evPend k).multi || (s.evPend k).qual != qual }
         else ⟨true, qual, false, half, true⟩)
      else s.evPend j := by
  simp only [State.evPend, State.setPending, SMap.get_upd]
  rfl

theorem Engine.rs_sets (k : Engine) (r r' : Nat) (v : Word) : (k.sets r v).rs r' = if r' = r then v else k.rs r' := by
  simp [Engine.rs, Engine.sets, SMap.get_set]

theorem Engine.rw_setw (k : Engine) (r r' : Nat) (v : Wide) : (k.setw r v).rw r' = if r' = r then v else k.rw r' := by
  simp [Engine.rw, Engine.setw, SMap.get_set]

theorem Engine.rk_setk (k : Engine) (r r' : Nat) (v : KeyReg) : (k.setk r v).rk r' = if r' = r then v else k.rk r' := by
  simp [Engine.rk, Engine.setk, SMap.get_set]

end Sys2Proof.Machine
end

