-- ==== Sys2Proof/Laws/Memory.lean ====
section
/-!
SUPPORT. Laws of memory: bytes read back as they were stored, and every memory operation keeps the canonical form.
-/
namespace Sys2Proof.Machine

theorem Memory.wf_iff (m : Mem) : Memory.wf m = true ↔
    SMap.wf 0 m.bytes = true ∧ SMap.wf false m.poison = true ∧ SMap.wf 0 m.lineTag = true ∧
      SMap.wf 0 m.pageTag = true ∧ SMap.wf ([], false) m.onDie = true := by
  simp [Memory.wf, and_assoc]

theorem reset_memory_wf : Memory.wf State.reset.mem = true := by decide

/-! ## Bytes -/

theorem get_putBytes (m : SMap Byte) (a : Nat) (bs : List Byte) (x : Nat) :
    SMap.get 0 (putBytes m a bs) x = if a ≤ x ∧ x < a + bs.length then bs.getD (x - a) 0 else SMap.get 0 m x := by
  induction bs generalizing m a with
  | nil =>
    have h : ¬ (a ≤ x ∧ x < a + ([] : List Byte).length) := by simp
    rw [if_neg h]; rfl
  | cons b bs ih =>
    rw [putBytes, ih]
    by_cases h : a + 1 ≤ x ∧ x < a + 1 + bs.length
    · have h2 : a ≤ x ∧ x < a + (b :: bs).length := by simp; omega
      rw [if_pos h, if_pos h2]
      have : x - a = (x - (a + 1)) + 1 := by omega
      simp [this]
    · rw [if_neg h, SMap.get_set]
      by_cases hx : x = a
      · subst hx; simp
      · have h2 : ¬ (a ≤ x ∧ x < a + (b :: bs).length) := by simp; omega
        rw [if_neg hx, if_neg h2]

theorem wf_putBytes (m : SMap Byte) (a : Nat) (bs : List Byte) (h : SMap.wf 0 m = true) :
    SMap.wf 0 (putBytes m a bs) = true := by
  induction bs generalizing m a with
  | nil => exact h
  | cons b bs ih => exact ih _ _ (SMap.wf_set 0 m a b h)

theorem wf_foldl {α β : Type} [DecidableEq α] (d : α) (l : List β) (f : SMap α → β → SMap α) (m : SMap α)
    (hf : ∀ m x, SMap.wf d m = true → SMap.wf d (f m x) = true) (h : SMap.wf d m = true) :
    SMap.wf d (l.foldl f m) = true := by
  induction l generalizing m with
  | nil => exact h
  | cons x l ih => exact ih _ (hf m x h)

/-- A property that every update of a fold keeps holds after it. -/
theorem foldl_keeps {σ β : Type} (P : σ → Prop) (l : List β) (f : σ → β → σ) (s : σ)
    (hf : ∀ s x, P s → P (f s x)) (h : P s) : P (l.foldl f s) := by
  induction l generalizing s with
  | nil => exact h
  | cons x l ih => exact ih _ (hf s x h)

theorem wf_clearFull (p : SMap Bool) (a n : Nat) (h : SMap.wf false p = true) :
    SMap.wf false (clearFull p a n) = true := by
  unfold clearFull
  split
  · exact h
  · refine wf_foldl _ _ _ _ ?_ h
    intro m x hm
    dsimp only
    split
    · exact SMap.wf_set _ _ _ _ hm
    · exact hm

/-! ## The memory of a state -/

/-- The state's memory is in canonical form. -/
def State.memOk (s : State) : Prop := Memory.wf s.mem = true

theorem State.memOk_of_mem {s t : State} (h : s.memOk) (e : t.mem = s.mem) : t.memOk := by
  unfold State.memOk; rw [e]; exact h

theorem State.retag_wf (s : State) (t a : Nat) (h : s.memOk) : (s.retag t a).memOk := by
  have hm := (Memory.wf_iff _).1 h
  obtain ⟨h1, h2, h3, h4, h5⟩ := hm
  unfold State.retag
  dsimp only
  split
  · exact h
  · split
    · exact (Memory.wf_iff _).2 ⟨h1, h2, h3, SMap.wf_set _ _ _ _ h4, h5⟩
    · exact (Memory.wf_iff _).2 ⟨wf_putBytes _ _ _ h1, h2, SMap.wf_set _ _ _ _ h3, h4, h5⟩

theorem State.retagAll_wf (s : State) (t a n : Nat) (h : s.memOk) : (s.retagAll t a n).memOk := by
  unfold State.retagAll
  split
  · exact h
  · exact foldl_keeps _ _ _ _ (fun s x hs => s.retag_wf _ _ hs) h

/-- Storing bytes keeps the canonical form. -/
theorem State.pokeAs_wf (s : State) (t a : Nat) (bs : List Byte) (h : s.memOk) : (s.pokeAs t a bs).memOk := by
  have hm := (Memory.wf_iff _).1 (s.retagAll_wf t a bs.length h)
  obtain ⟨h1, h2, h3, h4, h5⟩ := hm
  exact (Memory.wf_iff _).2 ⟨wf_putBytes _ _ _ h1, wf_clearFull _ _ _ h2, h3, h4, h5⟩

theorem State.setPoison_wf (s : State) (g : Nat) (b : Bool) (h : s.memOk) : (s.setPoison g b).memOk := by
  have hm := (Memory.wf_iff _).1 h
  obtain ⟨h1, h2, h3, h4, h5⟩ := hm
  exact (Memory.wf_iff _).2 ⟨h1, SMap.wf_set _ _ _ _ h2, h3, h4, h5⟩

theorem State.poisonLine_wf (s : State) (a : Nat) (h : s.memOk) : (s.poisonLine a).memOk :=
  State.setPoison_wf _ _ _ (State.setPoison_wf _ _ _ h)

@[simp] theorem State.syncNet_mem (s : State) (l : Nat) : (s.syncNet l).mem = s.mem := rfl

@[simp] theorem State.storedTo_mem (s : State) (f : Nat → Bool) : (s.storedTo f).mem = s.mem := rfl

@[simp] theorem State.fillL3_mem (s : State) (l : Nat) : (s.fillL3 l).mem = s.mem := by
  unfold State.fillL3
  dsimp only
  split <;> rfl

theorem State.fillRange_mem (s : State) (a n : Nat) : (s.fillRange a n).mem = s.mem := by
  unfold State.fillRange
  split
  · rfl
  · exact foldl_keeps (fun t : State => t.mem = s.mem) _ _ _ (fun t k h => (t.fillL3_mem _).trans h) rfl

theorem State.dropLine_mem (s : State) (l : Nat) : (s.dropLine l).mem = s.mem := by
  unfold State.dropLine
  dsimp only [State.syncNet_mem, State.updLine_mem]
  exact foldl_keeps (fun t : State => t.mem = s.mem) _ _ _ (fun _ _ h => h) rfl

theorem State.dropRange_mem (s : State) (a n : Nat) : (s.dropRange a n).mem = s.mem := by
  unfold State.dropRange
  split
  · rfl
  · refine foldl_keeps (fun t : State => t.mem = s.mem) _ _ _ (fun t l h => ?_) rfl
    dsimp only
    split
    · exact (t.dropLine_mem l).trans h
    · exact h

theorem State.pokeHome_wf (s : State) (t a : Nat) (bs : List Byte) (h : s.memOk) : (s.pokeHome t a bs).memOk :=
  State.pokeAs_wf _ _ _ _ (State.memOk_of_mem h ((State.fillRange_mem _ _ _).trans (s.dropRange_mem _ _)))

theorem State.tryPoke_wf (s t : State) (q : Requester) (a : Nat) (bs : List Byte) (h : s.memOk)
    (e : s.tryPoke q a bs = .ok t) : t.memOk := by
  unfold State.tryPoke at e
  dsimp only at e
  split at e
  · cases e
  · split at e
    · cases e
    · cases e
    · cases e; exact h
    · split at e <;> cases e
      exact s.pokeHome_wf _ _ _ h

/-! ## Errors, records and events -/

theorem State.logError_mem (s : State) (h : Nat) (r : ErrRec) : (s.logError h r).mem = s.mem := by
  unfold State.logError
  dsimp only
  split <;> rfl

theorem State.recordFault_mem (s : State) (h : Nat) (q : Requester) (acc : Acc) (a : Nat) (v : PotVerdict) :
    (s.recordFault h q acc a v).mem = s.mem := rfl

theorem State.coreQueuePut_wf (s : State) (l id qual half ns : Nat) (h : s.memOk) :
    (s.coreQueuePut l id qual half ns).1.memOk := by
  unfold State.coreQueuePut
  dsimp only
  split
  · exact h
  · split
    · exact h
    · split
      · exact h
      · split
        · exact h
        · rename_i s' e
          exact State.memOk_of_mem (s.tryPoke_wf _ _ _ _ h e) rfl

theorem State.tiQueuePut_wf (s : State) (ti id qual : Nat) (h : s.memOk) : (s.tiQueuePut ti id qual).1.memOk := by
  unfold State.tiQueuePut
  dsimp only
  split
  · exact h
  · split
    · split <;> exact h
    · split
      · exact h
      · rename_i s' e
        have h' := s.tryPoke_wf _ _ _ _ h e
        dsimp only
        split <;> exact h'

/-- What an unwritten queue entry leaves behind touches no memory. -/
theorem State.queueFail_mem (s : State) (q : Requester) (a : Nat) (e : EqFail) : (s.queueFail q a e).1.mem = s.mem := by
  unfold State.queueFail
  split
  · dsimp only
    split <;> rfl
  · rfl
  · exact State.logError_mem _ _ _

theorem State.deliver_wf (fuel : Nat) (s : State) (half id qual target ns : Nat) (h : s.memOk) :
    (s.deliver fuel half id qual target ns).memOk := by
  induction fuel generalizing s half id qual target ns with
  | zero => exact h
  | succ n ih =>
    unfold State.deliver
    dsimp only
    generalize (if id < 0x200 then half else if id < 0x400 then target / 128 else s.evCfgHalf half id) = ch
    have h' := s.coreQueuePut_wf target id qual half ns h
    generalize s.coreQueuePut target id qual half ns = p at h'
    obtain ⟨u, r⟩ := p
    split
    · exact h
    · split
      · cases r with
        | none => exact h'
        | some r =>
          dsimp only
          have h2 := State.memOk_of_mem h' (u.queueFail_mem r.1 r.2.1 r.2.2)
          generalize u.queueFail r.1 r.2.1 r.2.2 = p at h2
          obtain ⟨w, x⟩ := p
          cases x with
          | none => exact h2
          | some x => exact ih _ _ _ _ _ _ h2
      · exact h

theorem State.raiseId_wf (s : State) (half id qual sgi : Nat) (h : s.memOk) : (s.raiseId half id qual sgi).memOk := by
  unfold State.raiseId
  split
  · exact h
  · dsimp only
    generalize (if 0x200 ≤ id && id < 0x400 then sgi else s.rf Reg.EVH_SRC.target (s.evCfgHalf half id) id) = target
    split
    · exact h
    · exact State.deliver_wf _ _ _ _ _ _ _ h

theorem State.queueEvent_wf (s : State) (q : Requester) (a : Nat) (e : EqFail) (h : s.memOk) : (s.queueEvent q a e).memOk := by
  unfold State.queueEvent
  have h2 := State.memOk_of_mem h (s.queueFail_mem q a e)
  generalize s.queueFail q a e = p at h2
  obtain ⟨w, x⟩ := p
  cases x with
  | none => exact h2
  | some x => exact State.raiseId_wf _ _ _ _ _ h2

/-- Raising an event keeps memory canonical: what it writes is a queue entry. -/
theorem State.raise_wf (s : State) (ev : Nat) (dest : EvTo) (half qual : Nat) (h : s.memOk) :
    (s.raise ev dest half qual).memOk := by
  unfold State.raise
  split
  · have h' := s.tiQueuePut_wf qual ev qual h
    generalize s.tiQueuePut qual ev qual = p at h' ⊢
    obtain ⟨u, r⟩ := p
    cases r with
    | none => exact h'
    | some r => exact State.queueEvent_wf _ _ _ _ h'
  · dsimp only
    have h1 : (if dest = .hardpan then s else s.raiseId half ev qual 0).memOk := by
      split
      · exact h
      · exact s.raiseId_wf _ _ _ _ h
    split
    · exact h1
    · exact State.raiseId_wf _ _ _ _ _ h1

theorem State.raiseBoth_wf (s : State) (ev : Nat) (dest : EvTo) (qual : Nat) (h : s.memOk) :
    (s.raiseBoth ev dest qual).memOk := State.raise_wf _ _ _ _ _ (State.raise_wf _ _ _ _ _ h)

theorem State.refuse_wf (s : State) (q : Requester) (acc : Acc) (a : Nat) (v : PotVerdict) (h : s.memOk) :
    (s.refuse q acc a v).memOk := by
  unfold State.refuse
  dsimp only
  split
  · exact h
  · exact State.raise_wf _ _ _ _ _ h

/-! ## Accesses of a requester -/

theorem State.flip35_wf (s : State) (g : Nat) (e : ErrPat) (h : s.memOk) : (s.flip35 g e).memOk := by
  have hm := (Memory.wf_iff _).1 h
  obtain ⟨h1, h2, h3, h4, h5⟩ := hm
  refine (Memory.wf_iff _).2 ⟨?_, h2, h3, h4, h5⟩
  refine wf_foldl _ _ _ _ ?_ h1
  intro m x hm
  dsimp only
  split
  · exact hm
  · exact SMap.wf_set _ _ _ _ hm

theorem State.check35_wf (s : State) (h' src stop inst g : Nat) (e : ErrPat) (inj : Bool) (h : s.memOk) :
    (s.check35 h' src stop inst g e inj).memOk := by
  unfold State.check35
  split
  · exact h
  · dsimp only
    split
    · exact State.memOk_of_mem (s.setPoison_wf _ _ h) (State.logError_mem _ _ _)
    · exact s.flip35_wf _ _ h
    · exact State.memOk_of_mem (s.flip35_wf _ _ h) (State.logError_mem _ _ _)

theorem State.meetOnDie_wf (s : State) (g : Nat) (h : s.memOk) : (s.meetOnDie g).memOk := by
  unfold State.meetOnDie
  dsimp only
  split
  · exact h
  · apply State.check35_wf
    have hm := (Memory.wf_iff _).1 h
    obtain ⟨h1, h2, h3, h4, h5⟩ := hm
    have h6 := SMap.wf_set _ _ g ([], false) h5
    exact (Memory.wf_iff _).2 ⟨h1, h2, h3, h4, h6⟩

theorem State.meetOnDieAll_wf (s : State) (a n : Nat) (h : s.memOk) : (s.meetOnDieAll a n).memOk := by
  unfold State.meetOnDieAll
  split
  · exact h
  · exact foldl_keeps _ _ _ _ (fun s x hs => s.meetOnDie_wf _ hs) h

theorem State.pokePages_wf (s : State) (q : Requester) (fuel a : Nat) (bs : List Byte) (h : s.memOk) :
    (s.pokePages q fuel a bs).memOk := by
  induction fuel generalizing s a bs with
  | zero => exact h
  | succ n ih =>
    cases bs with
    | nil => exact h
    | cons b bs => exact ih _ _ _ (s.pokeHome_wf _ _ _ h)

theorem State.dropOnDie_wf (s : State) (l : Nat) (h : s.memOk) : (s.dropOnDie l).memOk := by
  have hm := (Memory.wf_iff _).1 h
  obtain ⟨h1, h2, h3, h4, h5⟩ := hm
  have h6 := SMap.wf_set _ _ (2 * l + 1) ([], false) (SMap.wf_set _ _ (2 * l) ([], false) h5)
  exact (Memory.wf_iff _).2 ⟨h1, h2, h3, h4, h6⟩

theorem State.meetPartial_wf (s : State) (a n : Nat) (h : s.memOk) : (s.meetPartial a n).memOk := by
  unfold State.meetPartial
  split
  · exact h
  · extract_lets whole u m v
    have hu : u.memOk := by
      show State.memOk (if whole (a / 64) then _ else _)
      split
      · exact s.dropOnDie_wf _ h
      · exact s.meetOnDieAll_wf _ _ h
    have hv : v.memOk := foldl_keeps State.memOk _ _ _ (fun t k ht => t.dropOnDie_wf _ ht) hu
    split
    · exact hv
    · split
      · exact v.dropOnDie_wf _ hv
      · exact v.meetOnDieAll_wf _ _ hv

/-- A read that its checks admit keeps the canonical form. -/
theorem State.readChecked_wf (s : State) (q : Requester) (a n : Nat) (h : s.memOk) : (s.readChecked q a n).2.memOk := by
  unfold State.readChecked
  split
  · exact State.memOk_of_mem h (State.logError_mem _ _ _)
  · split
    · exact State.raise_wf _ _ _ _ _ h
    · exact h
    · exact s.meetOnDieAll_wf _ _ h

/-- A write that its checks admit keeps the canonical form. -/
theorem State.writeChecked_wf (s : State) (q : Requester) (a : Nat) (bs : List Byte) (h : s.memOk) :
    (s.writeChecked q a bs).memOk := by
  unfold State.writeChecked
  split
  · exact State.memOk_of_mem h (State.logError_mem _ _ _)
  · split
    · exact State.raise_wf _ _ _ _ _ h
    · exact h
    · exact State.pokePages_wf _ _ _ _ _ (s.meetPartial_wf _ _ h)

/-- A read of memory for a requester keeps its canonical form. -/
theorem State.readMem_wf (s : State) (q : Requester) (acc : Acc) (a n : Nat) (h : s.memOk) :
    (s.readMem q acc a n).2.memOk := by
  unfold State.readMem
  split
  · exact State.memOk_of_mem h (State.logError_mem _ _ _)
  · exact s.refuse_wf _ _ _ _ h
  · exact s.readChecked_wf _ _ _ h

/-- A write of memory for a requester keeps its canonical form. -/
theorem State.writeMem_wf (s : State) (q : Requester) (a : Nat) (bs : List Byte) (h : s.memOk) :
    (s.writeMem q a bs).2.memOk := by
  unfold State.writeMem
  split
  · exact State.memOk_of_mem h (State.logError_mem _ _ _)
  · exact s.refuse_wf _ _ _ _ h
  · exact s.writeChecked_wf _ _ _ h

/-- Putting an object in key custody, whose slot in memory is written anew, keeps the canonical form. -/
theorem State.setObj_wf (s : State) (k : Nat) (o : Option KeyObj) (h : s.memOk) : (s.setObj k o).memOk :=
  State.writeMem_wf _ _ _ _ h

end Sys2Proof.Machine
end

