-- ==== Sys2Proof/Laws/Events.lean ====
section
/-!
SUPPORT. Laws of events: what raising an event and recording a refusal can change.
-/
namespace Sys2Proof.Machine

theorem State.evOnly_refl (s : State) : s.evOnly s := ⟨s.regs, s.mem, s.coh, s.evh, s.ras, s.out, s.sys.potSpent, rfl⟩

theorem State.evOnly_trans {s t u : State} (h : s.evOnly t) (h' : t.evOnly u) : s.evOnly u := by
  obtain ⟨r, m, c, v, a, o, p, rfl⟩ := h
  obtain ⟨r', m', c', v', a', o', p', rfl⟩ := h'
  exact ⟨r', m', c', v', a', o', p', rfl⟩

theorem State.evOnly_setf (s : State) (f : Fld) (i v j : Nat) : s.evOnly (s.setf f i v j) :=
  ⟨_, s.mem, s.coh, s.evh, s.ras, s.out, s.sys.potSpent, rfl⟩

theorem State.evOnly_foldl {β : Type} (l : List β) (f : State → β → State) (s : State)
    (hf : ∀ (s : State) (x : β), s.evOnly (f s x)) :
    s.evOnly (l.foldl f s) :=
  foldl_keeps s.evOnly l f s (fun t x h => State.evOnly_trans h (hf t x)) s.evOnly_refl

theorem State.evOnly_retag (s : State) (t a : Nat) : s.evOnly (s.retag t a) := by
  unfold State.retag
  dsimp only
  split
  · exact s.evOnly_refl
  · split
    · exact ⟨s.regs, _, s.coh, s.evh, s.ras, s.out, s.sys.potSpent, rfl⟩
    · exact ⟨s.regs, _, s.coh, s.evh, s.ras, s.out, s.sys.potSpent, rfl⟩

theorem State.evOnly_pokeAs (s : State) (t a : Nat) (bs : List Byte) : s.evOnly (s.pokeAs t a bs) := by
  have h : s.evOnly (s.retagAll t a bs.length) := by
    unfold State.retagAll
    split
    · exact s.evOnly_refl
    · exact State.evOnly_foldl _ _ _ fun s x => s.evOnly_retag _ _
  exact State.evOnly_trans h ⟨_, _, _, _, _, _, _, rfl⟩

/-- A change of cached copies and coherence messages is one that an event may make. -/
theorem State.evOnly_coh (s : State) (c : Coh) : s.evOnly { s with coh := c } :=
  ⟨s.regs, s.mem, c, s.evh, s.ras, s.out, s.sys.potSpent, rfl⟩

theorem State.evOnly_fillL3 (s : State) (l : Nat) : s.evOnly (s.fillL3 l) := by
  unfold State.fillL3
  dsimp only
  split
  · exact s.evOnly_refl
  · exact s.evOnly_coh _

theorem State.evOnly_fillRange (s : State) (a n : Nat) : s.evOnly (s.fillRange a n) := by
  unfold State.fillRange
  split
  · exact s.evOnly_refl
  · exact State.evOnly_foldl _ _ _ fun s k => s.evOnly_fillL3 _

theorem State.evOnly_dropLine (s : State) (l : Nat) : s.evOnly (s.dropLine l) := by
  unfold State.dropLine
  have h := State.evOnly_foldl (s.lineHome l).holders (fun (s : State) (c : CoreId) => s.setHeld c.val l .i) s
    fun s c => s.evOnly_coh _
  exact State.evOnly_trans h (State.evOnly_coh _ _)

theorem State.evOnly_dropRange (s : State) (a n : Nat) : s.evOnly (s.dropRange a n) := by
  unfold State.dropRange
  split
  · exact s.evOnly_refl
  · refine State.evOnly_trans (State.evOnly_foldl _ _ _ fun s x => ?_) (State.evOnly_coh _ _)
    dsimp only
    split
    · exact s.evOnly_dropLine x
    · exact s.evOnly_refl

theorem State.evOnly_pokeHome (s : State) (t a : Nat) (bs : List Byte) : s.evOnly (s.pokeHome t a bs) :=
  State.evOnly_trans (State.evOnly_trans (s.evOnly_dropRange _ _) (State.evOnly_fillRange _ _ _)) (State.evOnly_pokeAs _ _ _ _)

theorem State.evOnly_tryPoke (s t : State) (q : Requester) (a : Nat) (bs : List Byte) (e : s.tryPoke q a bs = .ok t) :
    s.evOnly t := by
  unfold State.tryPoke at e
  dsimp only at e
  split at e
  · cases e
  · split at e
    · cases e
    · cases e
    · cases e; exact ⟨s.regs, s.mem, s.coh, s.evh, s.ras, _, s.sys.potSpent, rfl⟩
    · split at e <;> cases e
      exact s.evOnly_pokeHome _ _ _

theorem State.evOnly_setPending (s : State) (k qual half : Nat) : s.evOnly (s.setPending k qual half) :=
  ⟨s.regs, s.mem, s.coh, _, s.ras, s.out, s.sys.potSpent, rfl⟩

theorem State.evOnly_addf (s : State) (f : Fld) (i j n : Nat) : s.evOnly (s.addf f i j n) :=
  ⟨_, s.mem, s.coh, s.evh, s.ras, s.out, s.sys.potSpent, rfl⟩

theorem State.evOnly_recordFault (s : State) (h : Nat) (q : Requester) (acc : Acc) (a : Nat) (v : PotVerdict) :
    s.evOnly (s.recordFault h q acc a v) := ⟨_, s.mem, s.coh, s.evh, s.ras, s.out, s.sys.potSpent, rfl⟩

theorem State.evOnly_logError (s : State) (h : Nat) (r : ErrRec) : s.evOnly (s.logError h r) := by
  unfold State.logError
  dsimp only
  split <;> exact ⟨_, s.mem, s.coh, s.evh, _, s.out, s.sys.potSpent, rfl⟩

theorem State.evOnly_coreQueuePut (s : State) (l id qual half ns : Nat) : s.evOnly (s.coreQueuePut l id qual half ns).1 := by
  unfold State.coreQueuePut
  dsimp only
  split
  · exact s.evOnly_addf _ _ _ _
  · split
    · exact s.evOnly_addf _ _ _ _
    · split
      · exact State.evOnly_trans (s.evOnly_addf _ _ _ _) (State.evOnly_setPending _ _ _ _)
      · split
        · exact s.evOnly_addf _ _ _ _
        · rename_i s' e
          exact State.evOnly_trans (State.evOnly_trans (s.evOnly_tryPoke _ _ _ _ e) (State.evOnly_setf _ _ _ _ _))
            (State.evOnly_setPending _ _ _ _)

theorem State.evOnly_tiQueuePut (s : State) (ti id qual : Nat) : s.evOnly (s.tiQueuePut ti id qual).1 := by
  unfold State.tiQueuePut
  dsimp only
  split
  · exact s.evOnly_addf _ _ _ _
  · split
    · split
      · exact s.evOnly_addf _ _ _ _
      · exact State.evOnly_trans (s.evOnly_addf _ _ _ _) (State.evOnly_setPending _ _ _ _)
    · split
      · exact s.evOnly_addf _ _ _ _
      · rename_i s' e
        have h := State.evOnly_trans (s.evOnly_tryPoke _ _ _ _ e)
          (State.evOnly_setf s' Reg.EVH_TIQ_PTR.tail (s.rf Reg.TIF_CFG.home ti)
            (s.rf Reg.EVH_TIQ_PTR.tail (s.rf Reg.TIF_CFG.home ti) ti + 1) ti)
        dsimp only
        split
        · exact h
        · exact State.evOnly_trans h (State.evOnly_setPending _ _ _ _)

theorem State.evOnly_queueFail (s : State) (q : Requester) (a : Nat) (e : EqFail) : s.evOnly (s.queueFail q a e).1 := by
  unfold State.queueFail
  split
  · dsimp only
    split
    · exact s.evOnly_recordFault _ _ _ _ _
    · exact State.evOnly_trans (s.evOnly_recordFault _ _ _ _ _) ⟨_, _, _, _, _, _, _, rfl⟩
  · exact s.evOnly_refl
  · dsimp only
    exact s.evOnly_logError _ _

theorem State.evOnly_deliver (fuel : Nat) (s : State) (half id qual target ns : Nat) :
    s.evOnly (s.deliver fuel half id qual target ns) := by
  induction fuel generalizing s half id qual target ns with
  | zero => exact s.evOnly_refl
  | succ n ih =>
    unfold State.deliver
    dsimp only
    generalize (if id < 0x200 then half else if id < 0x400 then target / 128 else s.evCfgHalf half id) = ch
    have h' := s.evOnly_coreQueuePut target id qual half ns
    generalize s.coreQueuePut target id qual half ns = p at h'
    obtain ⟨u, r⟩ := p
    split
    · exact s.evOnly_addf _ _ _ _
    · split
      · cases r with
        | none => exact h'
        | some r =>
          dsimp only
          have h2 := State.evOnly_trans h' (u.evOnly_queueFail r.1 r.2.1 r.2.2)
          generalize u.queueFail r.1 r.2.1 r.2.2 = p at h2
          obtain ⟨w, x⟩ := p
          cases x with
          | none => exact h2
          | some x => exact State.evOnly_trans h2 (ih _ _ _ _ _ _)
      · exact s.evOnly_setPending _ _ _

theorem State.evOnly_raiseId (s : State) (half id qual sgi : Nat) : s.evOnly (s.raiseId half id qual sgi) := by
  unfold State.raiseId
  split
  · exact s.evOnly_addf _ _ _ _
  · dsimp only
    generalize (if 0x200 ≤ id && id < 0x400 then sgi else s.rf Reg.EVH_SRC.target (s.evCfgHalf half id) id) = target
    split
    · exact ⟨s.regs, s.mem, s.coh, _, s.ras, s.out, s.sys.potSpent, rfl⟩
    · exact State.evOnly_deliver _ _ _ _ _ _ _

theorem State.evOnly_queueEvent (s : State) (q : Requester) (a : Nat) (e : EqFail) : s.evOnly (s.queueEvent q a e) := by
  unfold State.queueEvent
  have h2 := s.evOnly_queueFail q a e
  generalize s.queueFail q a e = p at h2
  obtain ⟨w, x⟩ := p
  cases x with
  | none => exact h2
  | some x => exact State.evOnly_trans h2 (State.evOnly_raiseId _ _ _ _ _)

/-- Raising an event changes registers, memory, cached copies, the Event Hub, the error records and what left through the ports
at most. -/
theorem State.evOnly_raise (s : State) (ev : Nat) (dest : EvTo) (half qual : Nat) : s.evOnly (s.raise ev dest half qual) := by
  unfold State.raise
  split
  · have h' := s.evOnly_tiQueuePut qual ev qual
    generalize s.tiQueuePut qual ev qual = p at h'
    obtain ⟨u, r⟩ := p
    cases r with
    | none => exact h'
    | some r => exact State.evOnly_trans h' (State.evOnly_queueEvent _ _ _ _)
  · dsimp only
    have h1 : s.evOnly (if dest = .hardpan then s else s.raiseId half ev qual 0) := by
      split
      · exact s.evOnly_refl
      · exact s.evOnly_raiseId _ _ _ _
    split
    · exact h1
    · exact State.evOnly_trans h1 (State.evOnly_raiseId _ _ _ _ _)

theorem State.evOnly_raiseBoth (s : State) (ev : Nat) (dest : EvTo) (qual : Nat) : s.evOnly (s.raiseBoth ev dest qual) :=
  State.evOnly_trans (s.evOnly_raise _ _ _ _) (State.evOnly_raise _ _ _ _ _)

/-- A refused access changes no more than an event does. -/
theorem State.evOnly_refuse (s : State) (q : Requester) (acc : Acc) (a : Nat) (v : PotVerdict) : s.evOnly (s.refuse q acc a v) := by
  unfold State.refuse
  dsimp only
  have h := s.evOnly_recordFault (s.checkerOf q a).1 q acc a v
  split
  · exact h
  · exact State.evOnly_trans h (State.evOnly_trans ⟨_, _, _, _, _, _, _, rfl⟩ (State.evOnly_raise _ _ _ _ _))

/-! ## Registers that an event may write -/

theorem State.evRegs_refl (s : State) : s.evRegs s := fun _ _ _ _ => rfl

theorem State.evRegs_trans {s t u : State} (h : s.evRegs t) (h' : t.evRegs u) : s.evRegs u :=
  fun f i j hf => (h' f i j hf).trans (h f i j hf)

theorem State.evRegs_of {s t : State} (h : t.regs = s.regs) : s.evRegs t := fun f i j _ => State.rf_congr t s h f i j

theorem State.evRegs_setf (s : State) (g : Fld) (i v j : Nat) (hg : g.id ∈ evFields) : s.evRegs (s.setf g i v j) := by
  intro f i' j' hf
  apply State.rf_setf_ne
  refine Or.inl fun e => hf ?_
  rw [e]; exact hg

theorem State.evRegs_addf (s : State) (g : Fld) (i j n : Nat) (hg : g.id ∈ evFields) : s.evRegs (s.addf g i j n) :=
  s.evRegs_setf g i _ j hg

theorem State.evRegs_recordFault (s : State) (h : Nat) (q : Requester) (acc : Acc) (a : Nat) (v : PotVerdict) :
    s.evRegs (s.recordFault h q acc a v) := by
  unfold State.recordFault
  dsimp only
  refine State.evRegs_trans ?_ (State.evRegs_setf _ _ _ _ _ (by decide))
  refine State.evRegs_trans ?_ (State.evRegs_addf _ _ _ _ _ (by decide))
  refine State.evRegs_trans ?_ (State.evRegs_setf _ _ _ _ _ (by decide))
  refine State.evRegs_trans ?_ (State.evRegs_setf _ _ _ _ _ (by decide))
  refine State.evRegs_trans ?_ (State.evRegs_setf _ _ _ _ _ (by decide))
  refine State.evRegs_trans ?_ (State.evRegs_setf _ _ _ _ _ (by decide))
  exact State.evRegs_setf _ _ _ _ _ (by decide)

theorem State.regs_fillRange (s : State) (a n : Nat) : (s.fillRange a n).regs = s.regs := by
  unfold State.fillRange
  split
  · rfl
  · refine foldl_keeps (fun t : State => t.regs = s.regs) _ _ _ (fun t k h => ?_) rfl
    unfold State.fillL3
    dsimp only
    split <;> exact h

theorem State.regs_dropLine (s : State) (l : Nat) : (s.dropLine l).regs = s.regs := by
  unfold State.dropLine
  show (List.foldl _ s _).regs = s.regs
  exact foldl_keeps (fun t : State => t.regs = s.regs) _ _ _ (fun _ _ h => h) rfl

theorem State.regs_dropRange (s : State) (a n : Nat) : (s.dropRange a n).regs = s.regs := by
  unfold State.dropRange
  split
  · rfl
  · show (List.foldl _ s _).regs = s.regs
    refine foldl_keeps (fun t : State => t.regs = s.regs) _ _ _ (fun t l h => ?_) rfl
    dsimp only
    split
    · exact (t.regs_dropLine l).trans h
    · exact h

theorem State.regs_retag (s : State) (t a : Nat) : (s.retag t a).regs = s.regs := by
  unfold State.retag
  dsimp only
  split
  · rfl
  · split <;> rfl

theorem State.regs_retagAll (s : State) (t a n : Nat) : (s.retagAll t a n).regs = s.regs := by
  unfold State.retagAll
  split
  · rfl
  · exact foldl_keeps (fun u : State => u.regs = s.regs) _ _ _ (fun u k h => (u.regs_retag _ _).trans h) rfl

theorem State.regs_pokeHome (s : State) (t a : Nat) (bs : List Byte) : (s.pokeHome t a bs).regs = s.regs := by
  show (((s.dropRange a bs.length).fillRange a bs.length).retagAll t a bs.length).regs = s.regs
  rw [State.regs_retagAll, State.regs_fillRange, State.regs_dropRange]

theorem State.regs_tryPoke (s t : State) (q : Requester) (a : Nat) (bs : List Byte) (e : s.tryPoke q a bs = .ok t) :
    t.regs = s.regs := by
  unfold State.tryPoke at e
  dsimp only at e
  split at e
  · cases e
  · split at e
    · cases e
    · cases e
    · cases e; rfl
    · split at e <;> cases e
      exact s.regs_pokeHome _ _ _

theorem State.evRegs_coreQueuePut (s : State) (l id qual half ns : Nat) : s.evRegs (s.coreQueuePut l id qual half ns).1 := by
  unfold State.coreQueuePut
  dsimp only
  split
  · exact s.evRegs_addf _ _ _ _ (by decide)
  · split
    · exact s.evRegs_addf _ _ _ _ (by decide)
    · split
      · exact s.evRegs_addf _ _ _ _ (by decide)
      · split
        · exact s.evRegs_addf _ _ _ _ (by decide)
        · rename_i s' e
          have h : s.evRegs s' := State.evRegs_of (s.regs_tryPoke _ _ _ _ e)
          exact State.evRegs_trans h (State.evRegs_setf _ _ _ _ _ (by decide))

theorem State.evRegs_tiQueuePut (s : State) (ti id qual : Nat) : s.evRegs (s.tiQueuePut ti id qual).1 := by
  unfold State.tiQueuePut
  dsimp only
  split
  · exact s.evRegs_addf _ _ _ _ (by decide)
  · split
    · split <;> exact s.evRegs_addf _ _ _ _ (by decide)
    · split
      · exact s.evRegs_addf _ _ _ _ (by decide)
      · rename_i s' e
        have h : s.evRegs s' := State.evRegs_of (s.regs_tryPoke _ _ _ _ e)
        have h2 := State.evRegs_trans h
          (State.evRegs_setf s' Reg.EVH_TIQ_PTR.tail (s.rf Reg.TIF_CFG.home ti)
            (s.rf Reg.EVH_TIQ_PTR.tail (s.rf Reg.TIF_CFG.home ti) ti + 1) ti (by decide))
        dsimp only
        split <;> exact h2

/-- The record of a queue entry that was not written is a UEr, which counts in RAS_COUNT.uer alone. -/
theorem State.evRegs_logUer (s : State) (h : Nat) (r : ErrRec) (hr : r.cls = 2) : s.evRegs (s.logError h r) := by
  have e : (s.logError h r).regs = (s.addf Reg.RAS_COUNT.uer h).regs := by
    unfold State.logError
    dsimp only [State.updRas_regs]
    rw [hr]
    rfl
  intro f i j hf
  rw [State.rf_congr _ _ e]
  exact s.evRegs_addf Reg.RAS_COUNT.uer h 0 1 (by decide) f i j hf

theorem State.evRegs_queueFail (s : State) (q : Requester) (a : Nat) (e : EqFail) : s.evRegs (s.queueFail q a e).1 := by
  cases e with
  | refused v =>
    have h := s.evRegs_recordFault (s.checkerOf q a).1 q .write a v
    unfold State.queueFail
    dsimp only
    generalize s.recordFault (s.checkerOf q a).1 q .write a v = u at h ⊢
    split
    · exact h
    · exact State.evRegs_trans h (State.evRegs_of rfl)
  | malformed => exact s.evRegs_refl
  | lost src st =>
    unfold State.queueFail
    dsimp only
    generalize hr : s.mkRec 2 src st q.stop.toNat a 0 q.stop.toNat = r
    refine State.evRegs_logUer _ _ _ ?_
    rw [← hr]
    rfl

theorem State.evRegs_deliver (fuel : Nat) (s : State) (half id qual target ns : Nat) :
    s.evRegs (s.deliver fuel half id qual target ns) := by
  induction fuel generalizing s half id qual target ns with
  | zero => exact s.evRegs_refl
  | succ n ih =>
    unfold State.deliver
    dsimp only
    generalize (if id < 0x200 then half else if id < 0x400 then target / 128 else s.evCfgHalf half id) = ch
    have h' := s.evRegs_coreQueuePut target id qual half ns
    generalize s.coreQueuePut target id qual half ns = p at h'
    obtain ⟨u, r⟩ := p
    split
    · exact s.evRegs_addf _ _ _ _ (by decide)
    · split
      · cases r with
        | none => exact h'
        | some r =>
          dsimp only
          have h2 := State.evRegs_trans h' (u.evRegs_queueFail r.1 r.2.1 r.2.2)
          generalize u.queueFail r.1 r.2.1 r.2.2 = p at h2
          obtain ⟨w, x⟩ := p
          cases x with
          | none => exact h2
          | some x => exact State.evRegs_trans h2 (ih _ _ _ _ _ _)
      · exact s.evRegs_refl

theorem State.evRegs_raiseId (s : State) (half id qual sgi : Nat) : s.evRegs (s.raiseId half id qual sgi) := by
  unfold State.raiseId
  split
  · exact s.evRegs_addf _ _ _ _ (by decide)
  · dsimp only
    generalize (if 0x200 ≤ id && id < 0x400 then sgi else s.rf Reg.EVH_SRC.target (s.evCfgHalf half id) id) = target
    split
    · exact s.evRegs_refl
    · exact State.evRegs_deliver _ _ _ _ _ _ _

theorem State.evRegs_queueEvent (s : State) (q : Requester) (a : Nat) (e : EqFail) : s.evRegs (s.queueEvent q a e) := by
  unfold State.queueEvent
  have h2 := s.evRegs_queueFail q a e
  generalize s.queueFail q a e = p at h2
  obtain ⟨w, x⟩ := p
  cases x with
  | none => exact h2
  | some x => exact State.evRegs_trans h2 (State.evRegs_raiseId _ _ _ _ _)

/-- Raising an event writes the Event Hub's counts and pointers, POT_FAULT and the count of UEr records at most. -/
theorem State.evRegs_raise (s : State) (ev : Nat) (dest : EvTo) (half qual : Nat) : s.evRegs (s.raise ev dest half qual) := by
  unfold State.raise
  split
  · have h' := s.evRegs_tiQueuePut qual ev qual
    generalize s.tiQueuePut qual ev qual = p at h'
    obtain ⟨u, r⟩ := p
    cases r with
    | none => exact h'
    | some r => exact State.evRegs_trans h' (State.evRegs_queueEvent _ _ _ _)
  · dsimp only
    have h1 : s.evRegs (if dest = .hardpan then s else s.raiseId half ev qual 0) := by
      split
      · exact s.evRegs_refl
      · exact s.evRegs_raiseId _ _ _ _
    split
    · exact h1
    · exact State.evRegs_trans h1 (State.evRegs_raiseId _ _ _ _ _)

theorem State.evRegs_raiseBoth (s : State) (ev : Nat) (dest : EvTo) (qual : Nat) : s.evRegs (s.raiseBoth ev dest qual) :=
  State.evRegs_trans (s.evRegs_raise _ _ _ _) (State.evRegs_raise _ _ _ _ _)

theorem State.evRegs_refuse (s : State) (q : Requester) (acc : Acc) (a : Nat) (v : PotVerdict) : s.evRegs (s.refuse q acc a v) := by
  unfold State.refuse
  dsimp only
  have h := s.evRegs_recordFault (s.checkerOf q a).1 q acc a v
  split
  · exact h
  · exact State.evRegs_trans h (State.evRegs_raise _ _ _ _ _)

end Sys2Proof.Machine
end

