-- ==== Sys2Proof/WellFormed.lean ====
section
/-!
DEFINITION. WellFormed: what a command's operands must meet beyond their types, so that the command can be sent at all. A command
that does not meet it has no effect on the machine beyond an error the spec names (R25), or none.
-/
namespace Sys2Proof

open Machine

/-- The operands of a command are within the ranges that the rules give: a block that exists (R24), an address of the device
register space and an access size (R25), a PCIe request within a page (R436), a frame's length (R440), a debug access of at
most 64 bytes, and bytes that fill the descriptor or request they stand for. -/
def Instr.wf : Instr → Bool
  | .registerWrite _ a size _ => decide (drsBase ≤ a.toNat) && (size.val == 4 || size.val == 8) && a.toNat % size.val == 0
  | .enableWrite _ cls inst _ => blkThere cls.val inst.val
  | .startDone cls inst => blkThere cls.val inst.val
  | .stopDone cls inst => blkThere cls.val inst.val
  | .blockFault cls inst _ => blkThere cls.val inst.val
  | .blockTimeout cls inst => blkThere cls.val inst.val
  | .inboundRead _ _ bus n => decide (1 ≤ n.val) && decide (bus.toNat % 4096 + n.val ≤ 4096)
  | .inboundWrite _ _ bus bs _ => decide (1 ≤ bs.length) && decide (bus.toNat % 4096 + bs.length ≤ 4096)
  | .frameReceive _ _ f => decide (14 ≤ f.length) && decide (f.length ≤ 9216)
  | .dap _ _ (.write _ bs) => decide (bs.length ≤ 64)
  | _ => true

end Sys2Proof
end

