-- ==== Sys2Proof/Tests/Slice0.lean ====
section
/-!
SUPPORT. Tests: instruction words of the spec's encodings (R45 to R47, R193 to R199, R253, R256, R264), worked examples, refused
terms, and for each statement of Certificates/Slice0/Obligations.lean states that meet its hypotheses.
-/
namespace Sys2Proof.Tests

open Machine Claims

set_option Elab.async false

/-! ## Small states -/

/-- A requester of each kind that the tests use. -/
def qH : Requester := ⟨.hardpanWorld, .h, .hardpan, 0, 0, 0⟩
def qM : Requester := ⟨.tilth, .m, .hardpan, 0, 0, 0⟩
def qT : Requester := ⟨.topsoilCore, .t, .topsoil, 0, 0, 0⟩

/-- A block ON. -/
def up (cls inst : Nat) (s : State) : State := s.setf Reg.PFX_STATE.state (blkKey cls inst) 2

/-- The page of an address is Topsoil memory of the requester's tenant, open to all, for the checker of a requester. -/
def admits (q : Requester) (a : Nat) (s : State) : State :=
  match s.potIndex a with
  | some (t, i) =>
    { (s.setf Reg.POT_CTL.armed (s.checkerOf q a).1 1) with
      potCache := SMap.upd [] s.potCache (s.checkerOf q a).2 fun m => SMap.set 0 m (t * 2 ^ 40 + i) (BitVec.ofNat 64 (0xF9 + q.tenant.toNat * 2 ^ 20)) }
  | none => s

def zero : State := State.reset

/-- Reset with one engine of cluster 0. -/
def eng (k : Engine) (s : State := zero) : State := { s with engines := [(5, k)] }

/-- An engine at a task's instruction. -/
def running : Engine := { Engine.empty with run := .run, pc := 0x200, npc := 0x204 }

/-- A descriptor's entry and its task. -/
def entry0 : Entry := ⟨3, 0, 0, List.replicate 128 0, false⟩
def task0 : Task := ⟨entry0, 7, 0, false⟩

/-! ## Words -/

/-- One word of each Silt instruction, from the tables of R45 to R47, R56. -/
def siltWords0 : List (SOp × IWord) :=
  [(.add, 0x0048C000), (.sub, 0x0048C001), (.and, 0x0048C002), (.or, 0x0048C003), (.xor, 0x0048C004), (.andn, 0x0048C005),
   (.sll, 0x0048C006), (.srl, 0x0048C007), (.sra, 0x0048C008), (.ror, 0x0048C009), (.slt, 0x0048C00A), (.sltu, 0x0048C00B),
   (.mul, 0x0048C00C), (.mulhu, 0x0048C00D), (.clz, 0x0048000E), (.popc, 0x0048000F), (.bswap, 0x00480010), (.addi, 0x044BFFFF),
   (.andi, 0x084BFFFF), (.ori, 0x0C4BFFFF), (.xori, 0x104BFFFF), (.shi, 0x144800C5), (.movz, 0x1870FFFF), (.movk, 0x1C601234)]
def siltWords1 : List (SOp × IWord) :=
  [(.ld, 0x20480020), (.lw, 0x24480020), (.lh, 0x28480020), (.lb, 0x2C480020), (.sd, 0x30480020), (.sw, 0x34480020),
   (.sh, 0x38480020), (.sb, 0x3C480020), (.wld, 0x40880020), (.wst, 0x44880020), (.cpre, 0x4B080020), (.clock, 0x4C400003),
   (.cunlock, 0x4C401003), (.cinv, 0x4C002000), (.cinvl, 0x4C083000), (.amoadd, 0x5048C000), (.amoswap, 0x5048C001), (.amocas, 0x5048C002),
   (.bcc, 0x6208FFFE), (.bzcc, 0x65480004), (.j, 0x71FFFFFF), (.jr, 0x76200000), (.done, 0x78048000), (.nop, 0x7C000000)]
def siltWords2 : List (SOp × IWord) :=
  [(.fence, 0x7C000001), (.rdtl, 0x7C400002), (.rdth, 0x7C400003), (.brk, 0x7C000004), (.getcf, 0x7C400005), (.setcf, 0x7C080006),
   (.wadd, 0x80A60000), (.waddc, 0x80A60001), (.wsub, 0x80A60002), (.wsubb, 0x80A60003), (.wand, 0x80A60004), (.wor, 0x80A60005),
   (.wxor, 0x80A60006), (.wmov, 0x80A00007), (.wshl1, 0x80A00008), (.wshr1, 0x80A00009), (.wzero, 0x8080000A), (.mullo, 0x84A60000),
   (.mulhi, 0x84A60001), (.mmul, 0x84A60002), (.madd, 0x84A60003), (.msub, 0x84A60004), (.msetm, 0x84200005), (.aese, 0x88A60100)]
def siltWords3 : List (SOp × IWord) :=
  [(.aesd, 0x88A60301), (.tdese, 0x88A04802), (.tdesd, 0x88A04803), (.gmul, 0x88A60004), (.sha256c, 0x8CA00000), (.sha512c, 0x8C000001),
   (.sha256k, 0x8C808102), (.sha512k, 0x8C00C003), (.keccak, 0x8C000004), (.wins, 0x90480180), (.wext, 0x90480101), (.wceq, 0x9048C002),
   (.wcsel, 0x9048E003), (.wbit, 0x9048C004), (.kld, 0xA2840000), (.kzero, 0xA2800001), (.kzall, 0xA0000002)]
def siltWords : List (SOp × IWord) := List.flatten [siltWords0, siltWords1, siltWords2, siltWords3]

/-- One word of each Knaxa instruction, from the tables of R193 to R199, R205, R253, R256 and R264; among them the words that
R198, R263 and R265 spell. -/
def kxWords0 : List (KxOp × IWord) :=
  [(.add, 0x04221800), (.sub, 0x04221801), (.and, 0x04221802), (.or, 0x04221803), (.xor, 0x04221804), (.andn, 0x04221805),
   (.sll, 0x04221806), (.srl, 0x04221807), (.sra, 0x04221808), (.ror, 0x04221809), (.slt, 0x0422180A), (.sltu, 0x0422180B),
   (.min, 0x0422180C), (.max, 0x0422180D), (.minu, 0x0422180E), (.maxu, 0x0422180F), (.clz, 0x04220010), (.ctz, 0x04220011),
   (.popc, 0x04220012), (.bswap, 0x04220013), (.mul, 0x08221800), (.mulh, 0x08221801), (.mulhu, 0x08221802), (.div, 0x08221803)]
def kxWords1 : List (KxOp × IWord) :=
  [(.divu, 0x08221804), (.rem, 0x08221805), (.remu, 0x08221806), (.addi, 0x0C22FFFF), (.andi, 0x1022FFFF), (.ori, 0x1422FFFF),
   (.xori, 0x1822FFFF), (.shi, 0x1C2200C5), (.movz, 0x2038FFFF), (.movk, 0x24301234), (.ld, 0x28220008), (.lw, 0x2C220008),
   (.lws, 0x30220008), (.lh, 0x34220008), (.lhs, 0x38220008), (.lb, 0x3C220008), (.lbs, 0x40220008), (.sd, 0x44220008),
   (.sw, 0x48220008), (.sh, 0x4C220008), (.sb, 0x50220008), (.pref, 0x58220008), (.bcc, 0x60087FFE), (.bzcc, 0x66880008)]
def kxWords2 : List (KxOp × IWord) :=
  [(.j, 0x6BFFFFFF), (.jl, 0x6C000004), (.jr, 0x70020000), (.jlr, 0x72020000), (.amoadd, 0x54221A00), (.amoswap, 0x54221A01),
   (.amoand, 0x54221A02), (.amoor, 0x54221A03), (.amoxor, 0x54221A04), (.amosmin, 0x54221A05), (.amosmax, 0x54221A06), (.amoumin, 0x54221A07),
   (.amoumax, 0x54221A08), (.cas, 0x54221A09), (.crr, 0x78A00001), (.cwr, 0x78021005), (.svc, 0x7C000005), (.hvc, 0x7C001005),
   (.brk, 0x7C002005), (.hpcall, 0x7C003000), (.eret, 0x7C004007), (.fence, 0x7C005000), (.fenceAck, 0x7C005001), (.isync, 0x7C006000)]
def kxWords3 : List (KxOp × IWord) :=
  [(.rdstrata, 0x7D007000), (.tlbi, 0x7C028001), (.wfiDoze, 0x7C009000), (.wfiSlumber, 0x7C009001), (.vadd, 0x808864B0), (.vsub, 0x808864B1),
   (.vmul, 0x808864B2), (.vmulh, 0x808864B3), (.vmulhu, 0x808864B4), (.vmin, 0x808864B5), (.vmax, 0x808864B6), (.vminu, 0x808864B7),
   (.vmaxu, 0x808864B8), (.vand, 0x848864B0), (.vor, 0x848864B1), (.vxor, 0x848864B2), (.vandn, 0x848864B3), (.vsll, 0x848864B4),
   (.vsrl, 0x848864B5), (.vsra, 0x848864B6), (.vror, 0x848864B7), (.vabs, 0x808804B9), (.vneg, 0x808804BA), (.vcmpeq, 0x888860B0)]
def kxWords4 : List (KxOp × IWord) :=
  [(.vcmpne, 0x888860B1), (.vcmplt, 0x888860B2), (.vcmpltu, 0x888860B3), (.vcmple, 0x888860B4), (.vcmpleu, 0x888860B5), (.vsel, 0x8C8864B0),
   (.vperm, 0x8C8864B1), (.vbcast, 0x8C8204B2), (.vins, 0x8C821CB3), (.vext, 0x8C2818B4), (.vradd, 0x902804B0), (.vrmin, 0x902804B1),
   (.vrmax, 0x902804B2), (.vrand, 0x902804B3), (.vrorReduction, 0x902804B4), (.vrxor, 0x902804B5), (.pand, 0x94042480), (.por, 0x94042481),
   (.pxor, 0x94042482), (.pnot, 0x94040483), (.prange, 0x948218B4), (.pcount, 0x942404B5), (.pfind, 0x942404B6), (.fftop, 0x940004B7)]
def kxWords5 : List (KxOp × IWord) :=
  [(.ptoff, 0x940400B8), (.vld, 0xA0821CB0), (.vlds, 0xA0821CB1), (.pld, 0xA0821882), (.vst, 0xA4821CB0), (.vsts, 0xA4821CB1),
   (.pst, 0xA4821882), (.vgather, 0xA90464B0), (.vscatter, 0xAD0464B0), (.vldff, 0xB0821CB0), (.vgatherff, 0xB50464B0), (.vadc, 0xC08861B0),
   (.vsbb, 0xC08861B1), (.vcshl, 0xC08801B2), (.vmulw, 0xC510A0B0), (.vmont, 0xC40861B1), (.vredm, 0xC40061B2)]
def kxWords : List (KxOp × IWord) := List.flatten [kxWords0, kxWords1, kxWords2, kxWords3, kxWords4, kxWords5]

theorem test_silt_words : siltWords.all (fun p => SOp.of p.2 == some p.1) = true := by decide +kernel
theorem test_kx_words : kxWords.all (fun p => kxOp p.2 == some p.1 && !kxMalformed p.1 p.2) = true := by decide +kernel

/-- R46, R194: a zero field that is not 0, an unlisted function and an unlisted opcode. -/
theorem test_words_refused :
    SOp.of 0x0048C040 = none ∧ SOp.of 0x00480011 = none ∧ SOp.of 0xFC000000 = none ∧ kxOp 0x04221814 = none ∧
      kxOp 0xFC000000 = none ∧ kxMalformed .shi 0x1C220100 = true ∧ kxMalformed .rdstrata 0x7D207000 = true := by decide +kernel

/-! ## Silt -/

theorem wit_silt_can : (eng running).sltCan 5 := by unfold State.sltCan; decide +kernel

/-- Every row of the Silt statements has a word. -/
theorem wit_silt_rows :
    (siltScalar ++ siltWide).all (fun r => siltWords.any fun p => p.1 == r.op) = true ∧
    siltBranches.all (fun r => siltWords.any fun p => p.1 == r.op) = true ∧
    siltLoads.all (fun r => siltWords.any fun p => p.1 == r.1) = true ∧
    siltStores.all (fun r => siltWords.any fun p => p.1 == r.1) = true ∧
    siltAtomics.all (fun r => siltWords.any fun p => p.1 == r.1) = true := by decide +kernel

/-- An engine with a task, key registers of each kind and a modulus. -/
def keyed : Engine :=
  { running with
    task := some task0, modulus := some (5, 7), w := [(2, 3)],
    k := [(4, ⟨1, some ⟨9, 1, 7, 4⟩⟩), (8, ⟨1, some ⟨9, 1, 7, 6⟩⟩), (9, ⟨1, some ⟨9, 1, 7, 6⟩⟩), (12, ⟨1, some ⟨9, 1, 7, 7⟩⟩),
      (13, ⟨1, some ⟨9, 1, 7, 7⟩⟩), (14, ⟨1, some ⟨9, 1, 7, 7⟩⟩), (15, ⟨1, some ⟨9, 1, 7, 7⟩⟩), (16, ⟨1, some ⟨9, 1, 7, 6⟩⟩)] }

theorem wit_silt_keyed :
    (eng keyed).sltCan 5 ∧ siltKeyed.all (fun r => siltWords.any fun p => p.1 == r.op && (r.act p.2 keyed).isSome) = true := by
  unfold State.sltCan; decide +kernel

/-- An operand equal to m, for MADD and MSUB. -/
theorem wit_unreduced : modOps 0x84A60003 { keyed with w := [(2, 5)] } = some (5, 0, 5) ∧
    modOps 0x84A60004 { keyed with w := [(3, 5)] } = some (0, 5, 5) := by decide +kernel

theorem wit_branches : running.slot = false ∧ siltCond 0 (running.rs 2) (running.rs 3) = true ∧
    siltZCond 2 (running.rs 2) = false := by decide +kernel

/-- The last bytes of the descriptor image, of IRAM and of a window of SRAM. -/
theorem wit_local_descriptor :
    localBytes (eng { keyed with s := [(2, 0x8000000001000040)] }) 5
      (siltEa 0x40880020 { keyed with s := [(2, 0x8000000001000040)] }) 32 (List.replicate 32 0) :=
  .inl ⟨96, task0, by decide +kernel, by decide +kernel, by decide +kernel, by decide +kernel⟩
theorem wit_local_iram :
    ∃ bs, localBytes (eng { running with s := [(2, 0x8000000002001FD8)] }) 5
      (siltEa 0x20480020 { running with s := [(2, 0x8000000002001FD8)] }) 8 bs :=
  ⟨_, .inr (.inl ⟨0x1FF8, by decide +kernel, by decide +kernel, rfl⟩)⟩

/-- An engine of pool 3, which holds the last SRAM window of its cluster. -/
def pooled (k : Engine) : State :=
  (((eng k).setf Reg.SLT_POOL.member 5 1).setf Reg.SLT_POOL.cur_pool 5 3 |>.setf Reg.SVC_SRAM_WIN.assigned 0 1 31).setf
    Reg.SVC_SRAM_WIN.pool 0 3 31

theorem wit_sram : sramOpen (pooled running) 5 0x1FFFF8 := by unfold sramOpen; decide +kernel
theorem wit_local_sram :
    localBytes (pooled { running with s := [(2, 0x80000000001FFFD8)] }) 5
      (siltEa 0x20480020 { running with s := [(2, 0x80000000001FFFD8)] }) 8 (List.replicate 8 0) :=
  .inr (.inr ⟨0x1FFFF8, by decide +kernel, by unfold sramOpen; decide +kernel, by decide +kernel, by decide +kernel⟩)
theorem wit_atomics :
    (pooled { running with s := [(2, 0x80000000001FFFF8)] }).sltCan 5 ∧
    ({ running with s := [(2, 0x80000000001FFFF8)] }.rs (fRa 0x5048C000)).toNat = 2 ^ 63 + 0x1FFFF8 ∧
    SMap.get false ((pooled running).cluster 0).sramPoison (0x1FFFF8 / 32) = false := by unfold State.sltCan; decide +kernel

/-- 4 GiB of DRAM in half 0. -/
def dram (s : State) : State := { s with sys := { s.sys with s0 := 4 * gib } }

/-- An engine whose address register names the last line of that DRAM. -/
def reader : Engine := { running with s := [(2, 0xFFFFFFA0)] }
def lineZ : CacheLine := ⟨0xFFFFFFC0 / 64, List.replicate 64 1, false, false, [], []⟩
/-- Two symbols of its second granule are wrong, which no code of one symbol corrects. -/
def lineBad : CacheLine := { lineZ with errs1 := [(3, 1), (4, 1)] }

theorem wit_cached :
    let k := { reader with cache := [((0xFFFFFFC0 / 64) % 64 * 4 + 3, some lineZ)] }
    siltEa 0x20480020 k = 0xFFFFFFC0 ∧ (dram (eng k)).region 0xFFFFFFC0 = .dram 0 ∧
      (dram (eng k)).cacheOn 5 = true ∧ k.findWay (0xFFFFFFC0 / 64) = some 3 ∧
      k.lineAt (0xFFFFFFC0 / 64 % 64) 3 = some lineZ := by decide +kernel
theorem wit_cached_bad :
    let k := { reader with cache := [((0xFFFFFFC0 / 64) % 64 * 4 + 3, some lineBad)], s := [(2, 0xFFFFFFC0)] }
    siltEa 0x20480020 k % 64 / 32 = 1 ∧ (dram (eng k)).cacheOn 5 = true ∧ k.findWay (siltEa 0x20480020 k / 64) = some 3 ∧
      k.lineAt (siltEa 0x20480020 k / 64 % 64) 3 = some lineBad ∧ decode35 lineBad.errs1 = none := by decide +kernel
theorem wit_cache_clean (a : Nat) : cacheClean (dram (eng reader)) 5 a := by
  intro way l h
  have : ((dram (eng reader)).eng 5).lineAt (a / 64 % 64) way = none := rfl
  rw [this] at h; cases h

theorem wit_misses : reader.findWay (siltEa 0x20480020 reader / 64) = none ∧
    (dram (eng reader)).region (siltEa 0x20480020 reader) = .dram 0 ∧ reader.posted.length < 8 := by decide +kernel

/-- A task of tenant 7 waits for a line that its page admits. -/
def waiter (w : IWord) : State := dram (pooled { reader with stall := .fill w, task := some task0 })
def arriving (w : IWord) : State := admits ((waiter w).engReq 5) 0xFFFFFFC0 (waiter w)

theorem wit_line_fills : sltWaits (arriving 0x20480020) 5 (.fill 0x20480020) ∧ lineArrives (arriving 0x20480020) 5 0xFFFFFFC0 ∧
    siltEa 0x20480020 ((arriving 0x20480020).eng 5) = 0xFFFFFFC0 := by unfold sltWaits lineArrives; decide +kernel
theorem wit_prefetch : sltWaits (arriving 0x4B080020) 5 (.fill 0x4B080020) ∧ lineArrives (arriving 0x4B080020) 5 0xFFFFFFC0 ∧
    (arriving 0x4B080020).cacheOn 5 = true ∧ (arriving 0x20480020).cacheOn 5 = true ∧
    ((arriving 0x20480020).setf Reg.SLT_CACHE.enable 5 0).cacheOn 5 = false := by unfold sltWaits lineArrives; decide +kernel

/-- R49's key object 1: AES-128, usage E, tenant 7, Topsoil may load it; a task of service 0x0301 and its handle. -/
def object1 : KeyObj := ⟨1 + 8 * 2 ^ 16 + 2 ^ 24 + 7 * 2 ^ 26, 1, List.replicate 32 5, none⟩
def keyTask : Task := { task0 with entry := { entry0 with desc := [1, 3] ++ List.replicate 126 0 } }
def custodial (k : Engine) : State :=
  { (eng k).setf Reg.HPN_STORE_SIZE.size 0 2 with custody := { Custody.empty with objs := [(1, some object1)] } }
def loader : Engine := { running with task := some keyTask, s := [(2, 1)] }

theorem wit_kld : (custodial loader).keyJudge 5 keyTask (loader.rs (fSa 0xA2840000)).toNat (fPart 0xA2840000)
    ((custodial loader).keyFound (engCluster 5) (loader.rs (fSa 0xA2840000)).toNat) = .ok object1 := by rfl
theorem wit_kld_brought : (custodial loader).keyJudge 5 keyTask (loader.rs (fSa 0xA2840000)).toNat (fPart 0xA2840000)
    ((custodial loader).keyBrought (loader.rs (fSa 0xA2840000)).toNat object1) = .ok object1 := by rfl
theorem wit_kld_tags : (loader.rk (fKd 0xA2840000)).tag = none ∧
    ({ loader with k := [(20, ⟨5, some ⟨1, 1, 7, object1.attr⟩⟩)] }.rk (fKd 0xA2840000)).tag =
      some ⟨1, (custodial loader).tagVersion 0 1 object1.version, 7, object1.attr⟩ ∧
    (custodial loader).keyPoisoned 1 = false ∧ (custodial loader).sltCan 5 := by unfold State.sltCan; decide +kernel
theorem wit_brk : ((eng running).setf Reg.HPN_DEBUG.t_inv 0 1).debugOf 0 .topsoil true = true ∧
    (eng running).debugOf 0 .topsoil true = false := by decide +kernel

/-- The greatest status that DONE takes, and the least that it does not. -/
theorem wit_done : ({ running with s := [(1, 0x0D)] }.rs (fRa 0x78048000)).toNat % 256 = 0x0D ∧
    0x0D < ({ running with s := [(1, 0x0E)] }.rs (fRa 0x78048000)).toNat % 256 := by decide +kernel

/-- Each row of the faults with an engine that meets its condition. -/
theorem wit_faults_operands :
    SOp.of 0xFC000000 = none ∧ siltEa 0x20480020 { running with s := [(2, 1)] } % 8 ≠ 0 ∧
    (2 ^ 52 ≤ siltEa 0x20480020 { running with s := [(2, 0xFFFFFFFFFFFE0)] } ∧
      siltEa 0x20480020 { running with s := [(2, 0xFFFFFFFFFFFE0)] } < 2 ^ 63) ∧
    2 ^ 63 + 0x02000000 ≤ siltEa 0x30480020 { running with s := [(2, 0x8000000001FFFFE0)] } ∧
    (running.rs (fRa 0x5048C000)).toNat < 2 ^ 52 := by decide +kernel
theorem wit_faults_keys :
    ({ running with k := [] } : Engine).mulB 0x84A04800 = none ∧ running.modulus = none ∧ running.mulB 0x84A60002 ≠ none ∧
    (running.rw (fWa 0x84200005)).toNat % 2 = 0 ∧ running.aesKey 0x88A04800 = none ∧ running.tdesKey 0x88A04802 = none ∧
    running.keyBytes (fKb 0x8C808102) (· == 6) 2 = none ∧ (running.rk (fXkb 0x9048E003)).tag = none := by decide +kernel

/-! ## Engines, pools, Dispatch and the Collector -/

/-- A faulted task without an output buffer, and an engine that waits. -/
theorem wit_fault_output : task0.entry.outLen = 0 ∧ ({ running with stall := .fence 0 } : Engine).stall ≠ .none ∧
    (0x0000 : Nat) / 4096 < 0x1000 / 4096 := by decide +kernel
theorem wit_watchdog : (eng keyed).rf Reg.SLT_TASK_LIMIT.limit 5 ≠ 0 ∧ ((eng keyed).eng 5).task = some task0 ∧
    ((eng keyed).eng 5).latch.length < 2 ∧ (eng keyed).isMember 5 = false ∧ ((eng running).eng 5).task = none := by decide +kernel

/-- SLT_DEBUG by H, with invasive debug of Topsoil, on an engine at an instruction, in an annulled slot, and at a NOP. -/
def debugging (k : Engine) : State := up 0x02 5 ((eng k).setf Reg.HPN_DEBUG.t_inv 0 1)
def nopImage : Image := ⟨1, 0, [], List.replicate 0x200 0 ++ [0, 0, 0, 0x7C] ++ List.replicate 60 0⟩
theorem wit_debug : (debugging running).mayWrite qH 0x02 5 0x130 ∧ (debugging running).debugOf 0 .topsoil true = true ∧
    ({ running with run := .halt, annul := true } : Engine).annul = true := by unfold State.mayWrite; decide +kernel
theorem wit_debug_step : SOp.of ({ running with run := .halt, iram := some nopImage } : Engine).fetchWord = some .nop := by
  decide +kernel
theorem wit_cache_register : (debugging keyed).mayWrite qH 0x02 5 0x120 ∧ ((debugging keyed).eng 5).task ≠ none ∧
    ((debugging running).eng 5).task = none ∧ ((debugging keyed).eng 5).unlockDue = false := by unfold State.mayWrite; decide +kernel

/-- A posted store of the last bytes of a page. -/
def store0 : Posted := ⟨qH, 1, 0xFF8, List.replicate 8 1, 0x200, 0x204, false⟩
theorem wit_acknowledge : 0 < store0.bytes.length ∧ store0.pa % 4096 + store0.bytes.length ≤ 4096 ∧
    (dram (eng { running with posted := [store0] })).region store0.pa = .dram 0 ∧
    ((dram (eng { running with posted := [store0] })).potCheck store0.q .write store0.pa).ok = true ∧
    (dram (eng { running with posted := [store0] })).sendWaits 5 store0 = false ∧
    (dram (eng { running with posted := [{ store0 with seq := 0 }, store0] })).sendWaits 5 store0 = true ∧
    [{ store0 with seq := 0 }, store0][1]? = some store0 ∧
    (dram (eng running)).cutOff store0.pa = none ∧ (dram (eng running)).mem.onDie = [] := by decide +kernel

/-- A T write of a Topsoil core to window 31: from unassigned to pool 3, and, refused, to Hardpan's pool 2. -/
def windows : State := admits qT (drsAddr 0x05 0 0x8F8) (up 0x05 0 (zero.setf Reg.HPN_POOL.world 0 1 2))
theorem wit_windows : windows.mayWrite qT 0x05 0 (0x800 + 8 * 31) ∧ winTopsoil windows 0 31 7 ∧ ¬ winTopsoil windows 0 31 5 ∧
    windows.rf Reg.SVC_SRAM_WIN.assigned 0 31 < 2 := by unfold State.mayWrite winTopsoil; decide +kernel
theorem wit_zeroing : (zero.setf Reg.SVC_SRAM_WIN.zeroing 0 1 31).rb Reg.SVC_SRAM_WIN.zeroing 0 31 = true ∧
    ((List.range 64).all fun i => (zero.eng i).stall == .none) = true := by decide +kernel

/-- HPN_POOL of a pool without members, and of one with a member, at pools 0 and 31. -/
def member31 : State := up 0x06 0 (((eng running).setf Reg.SLT_POOL.member 5 1).setf Reg.SLT_POOL.cur_pool 5 31)
theorem wit_pool_register : member31.mayWrite qH 0x06 0 (0x4000 + 8 * 31) ∧ member31.mayWrite qH 0x06 0 0x4000 := by
  unfold State.mayWrite; decide +kernel
theorem wit_pool_members : member31.memberCount 0 31 ≠ 0 ∧ member31.memberCount 0 0 = 0 ∧ member31.anyLeaving 0 0 = false := by
  decide +kernel
def joining : State :=
  up 0x02 5 (((eng Engine.empty).setf Reg.PFX_CTL.enable (blkKey 0x02 5) 1).setf Reg.HPN_POOL.valid 0 1 31)
theorem wit_join : joining.mayWrite qH 0x02 5 0x108 ∧ joining.isMember 5 = false ∧ joining.leaving 5 = false ∧
    joining.rb Reg.PFX_CTL.enable (blkKey 0x02 5) = true ∧ joining.blkState 0x05 0 ≠ 3 ∧
    joining.rb Reg.HPN_POOL.valid 0 31 = true := by unfold State.mayWrite; decide +kernel
theorem wit_capture : ((eng Engine.empty).setf Reg.SLT_POOL.leaving 5 1).leaving 5 = true ∧ zero.sys.mode ≠ .seal ∧
    (eng { Engine.empty with capture := some (true, 31) }).blkOn 0x02 5 = false ∧
    (eng { Engine.empty with capture := some (false, 31) }).blkState 0x02 5 ≠ 3 := by decide +kernel

/-- TI 3 of half 0 with queue 0 of 16 slots and 15 waiting, and Dispatch and the Collector of half 0 ON. -/
def served (s : State) : State := { s with sys := { s.sys with mode := .field } }
def tenant3 : State :=
  served <| up 0x04 0 (up 0x03 0 (up 0x0A 3
    (((((({ zero with tis := [(3, { Ti.empty with made := true })] }.setf Reg.TIF_SQ.enable 3 1).setf Reg.TIF_SQ.log2_size 3 4).setf Reg.TIF_SQ_STATE.tail 3 15).setf
      Reg.TIF_RING.log2_size 3 6).setf Reg.TIF_QUOTA.depth 3 64).setf Reg.DSP_FETCH_CTL.burst 0 4)))
theorem wit_doorbell : tenant3.mayWrite qH 0x0A 3 0x1000 ∧ qH.actor ≠ .m ∧ (3 : Nat) ≠ tenant3.sys.tilthTi ∧ qM.actor = .m ∧
    tenant3.rb Reg.TIF_STATUS.resetting 3 = false ∧ tenant3.rb Reg.TIF_SQ.enable 3 0 = true ∧ Reg.TIF_DB.tail.of 15 < tenant3.sqSize 3 0 ∧ tenant3.sys.mode ≠ .seal ∧
    ({ tenant3 with sys := { tenant3.sys with mode := .seal } } : State).sys.mode = .seal := by
  unfold State.mayWrite; decide +kernel
theorem wit_fetch : tenant3.fetchAllowed 0 = true ∧ tenant3.pickTi 0 = some (3, 0) ∧ tenant3.nextQueue 3 = some 0 ∧
    (tenant3.dspOf 0).held = [] := by decide +kernel
/-- The read of TI 3's last slot, answered whole, and one of an old generation. -/
def fetched : State :=
  dram { tenant3 with dsp := [(0, { Dsp.empty with reads := [⟨3, 0, 15, 0⟩] })] }
theorem wit_validate : (fetched.dspOf 0).reads = [⟨3, 0, 15, 0⟩] ∧ (0 : Nat) = fetched.tiGen 3 ∧
    (fetched.setf Reg.TIF_GEN.gen 3 1).tiGen 3 ≠ 0 := by decide +kernel
theorem wit_validate_read :
    ∃ bs u, (admits ((fetched.updDsp 0 fun d => { d with reads := [] }).tiReq 3) 0x780
        (fetched.updDsp 0 fun d => { d with reads := [] })).readMem
      ((admits ((fetched.updDsp 0 fun d => { d with reads := [] }).tiReq 3) 0x780
        (fetched.updDsp 0 fun d => { d with reads := [] })).tiReq 3) .read 0x780 128 = (.data bs false, u) :=
  ⟨_, _, by rfl⟩

/-- Pool 3 with members 5 (cluster 0) and 70 (cluster 1), its image bound. -/
def image3 : Image := ⟨1, 0, [(0, 0x100)], []⟩
def idler : Engine := { Engine.empty with run := .idle, iram := some image3 }
def pool3 (k5 k70 : Engine) : State :=
  (((((((({ tenant3 with engines := [(5, k5), (70, k70)] }.setf Reg.SLT_POOL.member 5 1).setf Reg.SLT_POOL.cur_pool 5 3).setf
    Reg.SLT_POOL.member 70 1).setf Reg.SLT_POOL.cur_pool 70 3).setf Reg.SVC_POOL_IMG.bound 0 1 3).setf
    Reg.SVC_IMG.valid 0 1 0).setf Reg.SVC_POOL_IMG.bound 1 1 3).setf Reg.SVC_IMG.valid 1 1 0).setf
    Reg.DSP_STEAL_CTL.remote_tries 0 2

theorem wit_held : ({ pool3 idler idler with dsp := [(0, { Dsp.empty with held := [(entry0, 3)] })] }.dspOf 0).held = [(entry0, 3)] ∧
    (pool3 idler idler).clusterList 0 3 = [0, 1] ∧ ((pool3 idler idler).routeIn 0 3 entry0).isSome = true := by decide +kernel
theorem wit_arriving :
    ({ zero with dsp := [(1, { Dsp.empty with arriving := [(entry0, 3)] })] }.dspOf 1).arriving = [(entry0, 3)] := by decide +kernel
theorem wit_injection : (({ Cluster.empty with inj := [(3, [entry0])] } : Cluster).injList 3) = [entry0] ∧ entry0.timed = false ∧
    (pool3 { idler with deque := List.replicate 31 entry0 } idler).leastLoaded
      ((pool3 { idler with deque := List.replicate 31 entry0 } idler).clusterMembers 0 3) 0 = some 5 ∧
    (List.replicate 31 entry0).length < 32 := by decide +kernel

/-- A timed entry due at 1 ns before the present. -/
def timed1 : Entry := { entry0 with desc := List.replicate 5 0 ++ [4] ++ List.replicate 20 0 ++ [1] ++ List.replicate 101 0 }
def later (s : State) : State := { s with strata := { s.strata with time := 2 ^ 40 } }
theorem replica_near (s : State) (stop : Nat) : s.strata.time ≤ s.replica stop + 262144 := by
  unfold State.replica; dsimp only; split <;> omega
theorem due_of (s : State) (e d : Nat) (x : Entry) (hq : (s.eng e).deque = [x]) (hd : x.due = some d)
    (ht : d + 262144 ≤ s.strata.time) : s.dueEntry e = some x := by
  have hr := replica_near s (clusterStop (engCluster e))
  have h2 : s.entryDue e x = true := by
    unfold State.entryDue
    rw [hd]
    exact decide_eq_true (by omega)
  unfold State.dueEntry
  rw [hq, List.find?_cons, h2]
def dueS : State := later (pool3 { idler with deque := [timed1] } idler)
theorem wit_due : dueS.engFree 5 = true ∧ dueS.dueEntry 5 = some timed1 :=
  ⟨by decide +kernel, due_of dueS 5 65536 timed1 (by decide +kernel) (by decide +kernel) (by decide +kernel)⟩
def popping : State := pool3 { idler with deque := [entry0] } idler
theorem wit_pop : popping.engFree 5 = true ∧ popping.dueEntry 5 = none ∧ (popping.eng 5).untimed.getLast? = some entry0 ∧
    (popping.eng 5).iram = some image3 ∧ image3.entryOf entry0.service = some 0x100 ∧
    popping.rb Reg.SLT_DEBUG.halt 5 = false := by decide +kernel
theorem wit_pop_entry : entry0.timed = false ∧ entry0.gen = popping.tiGen entry0.ti ∧ entry0.queue ≠ 15 := by decide +kernel
theorem wit_launch (s : State) (h : s.strata.time = 2 ^ 40) : timed1.due = some 65536 ∧ tenant3.sys.mode.serves = true ∧
    65536 ≤ s.replica (clusterStop (engCluster 5)) := by
  refine ⟨by decide +kernel, by decide +kernel, ?_⟩
  have := replica_near s (clusterStop (engCluster 5))
  omega

/-- DSP_POOL_LINK[31] written by T while HPN_POOL[31] is a valid Topsoil pool, and while it is not. -/
def linked : State := admits qT (drsAddr 0x03 0 0x2F8) (up 0x03 0 (zero.setf Reg.HPN_POOL.valid 0 1 31))
theorem wit_links : linked.mayWrite qT 0x03 0 (0x200 + 8 * 31) ∧ linked.rb Reg.HPN_POOL.valid 0 31 = true ∧
    linked.topsoilPool 0 31 = true ∧ (linked.setf Reg.HPN_POOL.world 0 1 31).topsoilPool 0 31 = false := by
  unfold State.mayWrite; decide +kernel

theorem wit_steal_attempt : (pool3 { idler with steal := .cluster 1 } idler).mayStealNow 5 = true ∧
    (pool3 { idler with steal := .cluster 1 } idler).stealStage 5 = .cluster 1 := by decide +kernel
def robbed : State := pool3 idler { idler with deque := [entry0, entry0] }
theorem wit_steal_request : robbed.mostUntimed (robbed.clusterMembers 1 3 true) = some 70 ∧
    (robbed.eng 70).untimed = [entry0, entry0] ∧ max 1 (robbed.rf Reg.DSP_STEAL_CTL.min_victim 0) = 2 := by decide +kernel
theorem wit_steal_reply : (pool3 idler idler).engFree 5 = true ∧ (pool3 idler idler).poolOf 5 = 3 ∧
    (pool3 idler idler).dueEntry 5 = none := by decide +kernel

/-- A record of TI 3 in a latch, in lane 0, and its ring's last entry. -/
def rec3 : Rec := entry0.dspRec 0 0xFFFF
theorem wit_release : (eng { idler with latch := [rec3] } tenant3).blkOn 0x04 0 = true ∧ idler.stall.ends = none ∧
    laneFull (List.replicate 3 rec3) rec3 = false := by decide +kernel
def collecting : State :=
  { dram tenant3 with clt := [(0, { Clt.empty with lanes := [(0, [rec3])] })], tis := [(3, { Ti.empty with made := true, nextSeq := 63 })] }
def collects : State := admits (collecting.tiReq 3) 2016 collecting
theorem wit_accept : collects.blkOn 0x04 0 = true ∧ (collects.cltOf 0).pick = some 0 ∧ (collects.cltOf 0).lane 0 = [rec3] ∧
    rec3.gen = collects.tiGen rec3.ti ∧ collects.blkState 0x0A rec3.ti = 2 ∧
    collects.rf Reg.TIF_RING.base 3 * 4096 + 32 * ((collects.ti 3).nextSeq % collects.ringSize 3) = 2016 ∧
    (collects.ti 3).failed = false ∧ collects.region 2016 = .dram 0 ∧ (collects.potCheck (collects.tiReq 3) .write 2016).ok = true ∧
    collects.cutOff 2016 = none := by decide +kernel
theorem wit_publish : 0 < ((63 : Nat) + 2 ^ 32 - collects.rf Reg.TIF_RING_STATE.tail 3) % 2 ^ 32 ∧
    ((63 : Nat) + 2 ^ 32 - collects.rf Reg.TIF_RING_STATE.tail 3) % 2 ^ 32 ≤
      ((collects.ti 3).nextSeq + 2 ^ 32 - collects.rf Reg.TIF_RING_STATE.tail 3) % 2 ^ 32 := by decide +kernel
theorem wit_stall : ({ tenant3 with tis := [(3, { Ti.empty with nextSeq := 64 })] }).ringFull 3 = true := by decide +kernel

/-! ## Services -/

/-- A descriptor with these fields, by offset. -/
def descr (fs : List (Nat × Nat)) : List Byte :=
  let v := (fs.map fun p => p.2 * 2 ^ (8 * p.1)).foldl (· + ·) 0
  (List.range 128).map fun i => BitVec.ofNat 8 (v / 2 ^ (8 * i))

def catalogue : Image :=
  ⟨1, 0, [0x0101, 0x0102, 0x0103, 0x0104, 0x0105, 0x0106, 0x0107, 0x0108, 0x0201, 0x0202, 0x0203, 0x0301, 0x0302, 0x0303, 0x0401,
    0x0501, 0x0601, 0x0602, 0x0701, 0x0801].map fun c => (c, 0x200), []⟩

/-- A key object of an algorithm, shared, with these usage letters; its image spells a number. -/
def keyObj (alg usage v : Nat) : KeyObj :=
  ⟨alg + usage * 2 ^ 16 + 2 ^ 24 + 2 ^ 25 + 2 ^ 38, 1, (List.range 512).map fun i => BitVec.ofNat 8 (v / 2 ^ (8 * i)), none⟩

/-- The primes 2^1024 - 179 and 2^1024 - 105 with their exponents. -/
def rsaNum : Nat :=
  2 ^ 1024 - 105 + (2 ^ 1024 - 179) * 2 ^ 1024 +
    0x5a35a5ca5a35a5ca5a35a5ca5a35a5ca5a35a5ca5a35a5ca5a35a5ca5a35a5ca5a35a5ca5a35a5ca5a35a5ca5a35a5ca5a35a5ca5a35a5ca5a35a5ca5a35a5ca5a35a5ca5a35a5ca5a35a5ca5a35a5ca5a35a5ca5a35a5ca5a35a5ca5a35a5ca5a35a5ca5a35a5ca5a35a5ca5a35a5ca5a35a5ca5a35a5ca5a35a5ca5a35a5a5 *
      2 ^ 2048 +
    0x641c9be3641c9be3641c9be3641c9be3641c9be3641c9be3641c9be3641c9be3641c9be3641c9be3641c9be3641c9be3641c9be3641c9be3641c9be3641c9be3641c9be3641c9be3641c9be3641c9be3641c9be3641c9be3641c9be3641c9be3641c9be3641c9be3641c9be3641c9be3641c9be3641c9be3641c9be3641c9b9d *
      2 ^ 3072

/-- Objects 1 to 14 hold keys of the algorithms of those numbers, object 15 holds none. -/
def keyObjs : SMap (Option KeyObj) :=
  [(1, some (keyObj 1 255 1)), (4, some (keyObj 4 255 (2 ^ 64 + 2))), (6, some (keyObj 6 255 3)), (7, some (keyObj 7 255 4)),
    (8, some (keyObj 8 255 5)), (9, some (keyObj 9 255 (Crypto.p256.gx + Crypto.p256.gy * 2 ^ 256))), (10, some (keyObj 10 255 6)),
    (11, some (keyObj 11 255 (Crypto.p384.gx + Crypto.p384.gy * 2 ^ 384))), (12, some (keyObj 12 255 7)),
    (13, some (keyObj 13 255 1)), (14, some (keyObj 14 255 rsaNum)),
    (15, some ⟨7 * 2 ^ 26, 1, [], none⟩), (16, some (keyObj 12 0xFD 7))]

def svcEngine (x : Entry) : Engine := { running with task := some ⟨x, 7, 0, false⟩, iram := some catalogue }
def svcEntry (code param : Nat) (fs : List (Nat × Nat) := []) : Entry := ⟨3, 0, 0, descr ([(0, code), (6, param)] ++ fs), false⟩

/-- Keys in custody, DRAM, three lines of page 0 open to TI 3's tasks, and bytes at 0x100 and 0x800. -/
def svcBase (inb aux : List Nat) : State :=
  let s := dram (eng (svcEngine entry0))
  let s := { s with custody := { s.custody with objs := keyObjs } }.setf Reg.HPN_STORE_SIZE.size 0 64
  let q := s.engReq 5
  let s := admits q 0x800 (admits q 0x140 (admits q 0x100 s))
  let t := s.tagOf (s.keySlotFor q 0x100)
  (s.pokeHome t 0x100 (toBytes inb)).pokeHome t 0x800 (toBytes aux)

/-- Engine 5 before the service of a task's entry. -/
def svcS (x : Entry) (inb aux : List Nat := []) : State :=
  { svcBase inb aux with engines := [(5, svcEngine x)] }
def svcT (x : Entry) : Task := ⟨x, 7, 0, false⟩

theorem svc_at (x : Entry) (code : Nat) (inb aux : List Nat) (h : x.service = code) (hc : catalogue.entryOf code = some 0x200)
    (hr : (svcS x inb aux).sltReady 5 = true) : svcAt (svcS x inb aux) 5 code (svcT x) :=
  ⟨rfl, hr, h, rfl, by show 0 < 2; decide +kernel, rfl, catalogue, rfl, hc⟩
theorem bufs_none (s : State) (tk : Task) (h : tk.entry.inLen = 0 ∧ tk.entry.auxLen = 0) : bufsAre s 5 tk [] [] :=
  ⟨.inl ⟨h.1, rfl⟩, .inl ⟨h.2, rfl⟩⟩

theorem key_ok {s : State} {tk : Task} {h : Nat} {o : KeyObj}
    (hk : (match s.keyCheck 5 tk h 0 with | .ok o => some o | .error _ => none) = some o) : s.keyCheck 5 tk h 0 = .ok o := by
  split at hk
  · next h => cases hk; exact h
  · cases hk

def xEcdsa : Entry := svcEntry 0x0101 0 [(8, 9)]
theorem wit_ecdsa_verify :
    bufsAre (svcS xEcdsa) 5 (svcT xEcdsa) [] [] ∧ svcAt (svcS xEcdsa) 5 0x0101 (svcT xEcdsa) ∧
    keyIs (svcS xEcdsa) 5 (svcT xEcdsa) 9 1 [9] (keyObj 9 255 (Crypto.p256.gx + Crypto.p256.gy * 2 ^ 256)) ∧
    digestLenOk (svcT xEcdsa) Crypto.p256.hash = true ∧ Crypto.p256.onCurve Crypto.p256.gx Crypto.p256.gy = true :=
  ⟨bufs_none _ _ (by decide +kernel), svc_at _ _ _ _ (by decide +kernel) (by decide +kernel) (by decide +kernel),
    ⟨key_ok (by decide +kernel), by decide +kernel, by decide +kernel, by decide +kernel⟩, by decide +kernel, by decide +kernel⟩

def xSign : Entry := svcEntry 0x0104 1 [(8, 10), (0x24, 48), (0x28, 0x100)]
theorem wit_ecdsa_sign :
    bufsAre (svcS xSign (List.replicate 48 5)) 5 (svcT xSign) (List.replicate 48 5) [] ∧
    svcAt (svcS xSign (List.replicate 48 5)) 5 0x0104 (svcT xSign) ∧
    keyIs (svcS xSign (List.replicate 48 5)) 5 (svcT xSign) 10 2 [10] (keyObj 10 255 6) ∧
    digestLenOk (svcT xSign) Crypto.p384.hash = true ∧ 0 < (keyObj 10 255 6).num 0 48 ∧ (keyObj 10 255 6).num 0 48 < Crypto.p384.n :=
  ⟨⟨.inr ⟨by decide +kernel, by decide +kernel, toBytes (List.replicate 48 5), by decide +kernel, by decide +kernel⟩, .inl ⟨by decide +kernel, rfl⟩⟩, svc_at _ _ _ _ (by decide +kernel) (by decide +kernel) (by decide +kernel),
    ⟨key_ok (by decide +kernel), by decide +kernel, by decide +kernel, by decide +kernel⟩, by decide +kernel, by decide +kernel, by decide +kernel⟩

def xEdV : Entry := svcEntry 0x0105 0 [(8, 13)]
theorem wit_ed_verify : svcAt (svcS xEdV) 5 0x0105 (svcT xEdV) ∧
    keyIs (svcS xEdV) 5 (svcT xEdV) 13 1 [13] (keyObj 13 255 1) ∧
    (Crypto.edDecode ((keyObj 13 255 1).bytes 0 32)).isSome = true :=
  ⟨svc_at _ _ _ _ (by decide +kernel) (by decide +kernel) (by decide +kernel), ⟨key_ok (by decide +kernel), by decide +kernel, by decide +kernel, by decide +kernel⟩, by decide +kernel⟩

/-- Object 16 is a private key without the usage S. -/
def xEdS (k : Nat) : Entry := svcEntry 0x0106 0 [(8, k)]
theorem wit_ed_sign : svcAt (svcS (xEdS 12)) 5 0x0106 (svcT (xEdS 12)) ∧
    keyIs (svcS (xEdS 12)) 5 (svcT (xEdS 12)) 12 2 [12] (keyObj 12 255 7) :=
  ⟨svc_at _ _ _ _ (by decide +kernel) (by decide +kernel) (by decide +kernel), ⟨key_ok (by decide +kernel), by decide +kernel, by decide +kernel, by decide +kernel⟩⟩

def xRsaV : Entry := svcEntry 0x0107 0 [(0x30, 0x800), (0x38, 2)]
theorem wit_rsa_verify :
    bufsAre (svcS xRsaV [] [5, 0xFF]) 5 (svcT xRsaV) [] [5, 0xFF] ∧ svcAt (svcS xRsaV [] [5, 0xFF]) 5 0x0107 (svcT xRsaV) ∧
    (rsaHash (svcT xRsaV)).map (·.len) = some 32 ∧ xRsaV.paramBit 1 = false ∧ digestLenOk (svcT xRsaV) Crypto.hSha256 = true ∧
    xRsaV.key1 = 0 ∧ xRsaV.auxLen = 2 * 1 ∧ Crypto.natBe (([5, 0xFF] : List Nat).drop 1) = 255 ∧ 2 ^ (8 * 1 - 1) ≤ 255 ∧ 255 < 2 ^ (8 * 1) :=
  ⟨⟨.inl ⟨by decide +kernel, rfl⟩, .inr ⟨by decide +kernel, by decide +kernel, toBytes [5, 0xFF], by decide +kernel, by decide +kernel⟩⟩, svc_at _ _ _ _ (by decide +kernel) (by decide +kernel) (by decide +kernel),
    by decide +kernel, by decide +kernel, by decide +kernel, by decide +kernel, by decide +kernel, by decide +kernel, by decide +kernel, by decide +kernel⟩

def xRsaS : Entry := svcEntry 0x0108 0 [(8, 14), (0x3C, 256)]
theorem wit_rsa_sign : svcAt (svcS xRsaS) 5 0x0108 (svcT xRsaS) ∧
    keyIs (svcS xRsaS) 5 (svcT xRsaS) 14 2 [14] (keyObj 14 255 rsaNum) ∧ attrRsaBytes (keyObj 14 255 rsaNum).attr = 256 ∧
    (256 : Nat) ≤ xRsaS.outLen ∧
    modulusBits ((keyObj 14 255 rsaNum).num 0 128 * (keyObj 14 255 rsaNum).num 128 128) 256 = true :=
  ⟨svc_at _ _ _ _ (by decide +kernel) (by decide +kernel) (by decide +kernel), ⟨key_ok (by decide +kernel), by decide +kernel, by decide +kernel, by decide +kernel⟩, by decide +kernel, by decide +kernel, by decide +kernel⟩
theorem wit_rsa_crt :
    (Crypto.rsaCrt ((keyObj 14 255 rsaNum).num 0 128) ((keyObj 14 255 rsaNum).num 128 128) ((keyObj 14 255 rsaNum).num 256 128)
      ((keyObj 14 255 rsaNum).num 384 128) (Crypto.natBe (Crypto.pkcs1 Crypto.hSha256 256 (Crypto.hSha256.fn [])))).2 = true := by decide +kernel

/-- A tag of the whole length by default, and of the shortest length to compare. -/
def xMac (code param key out : Nat) : Entry := svcEntry code param [(8, key), (0x3C, out)]
theorem wit_macs :
    (∀ p ∈ [(0x0201, 6, [6], 32), (0x0202, 7, [7], 48), (0x0203, 1, [1, 2, 3], 16)],
      ∃ o, (svcS (xMac p.1 0 p.2.1 p.2.2.2)).keyCheck 5 (svcT (xMac p.1 0 p.2.1 p.2.2.2)) p.2.1 0 = .ok o ∧
        attrUsage o.attr &&& 4 ≠ 0 ∧ p.2.2.1.contains (attrAlg o.attr) = true ∧ p.2.2.2 ≤ (xMac p.1 0 p.2.1 p.2.2.2).outLen) ∧
    (xMac 0x0201 0x1001 6 0).param / 2 ^ 8 % 2 ^ 8 = 16 ∧ (xMac 0x0201 0x1001 6 0).param % 2 = 1 ∧ (xMac 0x0201 0x1001 6 0).outLen = 0 := by
  refine ⟨fun p hp => ?_, by decide +kernel, by decide +kernel, by decide +kernel⟩
  simp only [List.mem_cons, List.mem_nil_iff, or_false] at hp
  obtain rfl | rfl | rfl := hp
  · exact ⟨keyObj 6 255 3, key_ok (by decide +kernel), by decide +kernel, by decide +kernel, by decide +kernel⟩
  · exact ⟨keyObj 7 255 4, key_ok (by decide +kernel), by decide +kernel, by decide +kernel, by decide +kernel⟩
  · exact ⟨keyObj 1 255 1, key_ok (by decide +kernel), by decide +kernel, by decide +kernel, by decide +kernel⟩

/-- A message of 17 bytes, and one that ends with a tag of 12. -/
def xGcm (param n out : Nat) : Entry := svcEntry 0x0301 param [(8, 1), (0x24, n), (0x28, 0x100), (0x3C, out)]
theorem wit_gcm :
    bufsAre (svcS (xGcm 0 17 33) (List.replicate 17 9)) 5 (svcT (xGcm 0 17 33)) (List.replicate 17 9) [] ∧
    svcAt (svcS (xGcm 0 17 33) (List.replicate 17 9)) 5 0x0301 (svcT (xGcm 0 17 33)) ∧
    keyIs (svcS (xGcm 0 17 33) (List.replicate 17 9)) 5 (svcT (xGcm 0 17 33)) 1 8 [1, 2, 3] (keyObj 1 255 1) ∧
    (xGcm 0 17 33).inLen + 16 ≤ (xGcm 0 17 33).outLen ∧ (xGcm 0xC01 17 5).param / 2 ^ 8 % 2 ^ 8 = 12 ∧
    12 ≤ (xGcm 0xC01 17 5).inLen ∧ (xGcm 0xC01 17 5).inLen - 12 ≤ (xGcm 0xC01 17 5).outLen :=
  ⟨⟨.inr ⟨by decide +kernel, by decide +kernel, toBytes (List.replicate 17 9), by decide +kernel, by decide +kernel⟩, .inl ⟨by decide +kernel, rfl⟩⟩, svc_at _ _ _ _ (by decide +kernel) (by decide +kernel) (by decide +kernel),
    ⟨key_ok (by decide +kernel), by decide +kernel, by decide +kernel, by decide +kernel⟩, by decide +kernel, by decide +kernel, by decide +kernel, by decide +kernel⟩

def xCbc (code key : Nat) : Entry := svcEntry code 1 [(8, key), (0x24, 16), (0x28, 0x100)]
theorem wit_cbc :
    svcAt (svcS (xCbc 0x0302 1) (List.replicate 16 9)) 5 0x0302 (svcT (xCbc 0x0302 1)) ∧
    keyIs (svcS (xCbc 0x0302 1) (List.replicate 16 9)) 5 (svcT (xCbc 0x0302 1)) 1 8 [1, 2, 3] (keyObj 1 255 1) ∧
    svcAt (svcS (xCbc 0x0303 4) (List.replicate 16 9)) 5 0x0303 (svcT (xCbc 0x0303 4)) ∧
    keyIs (svcS (xCbc 0x0303 4) (List.replicate 16 9)) 5 (svcT (xCbc 0x0303 4)) 4 8 [4, 5] (keyObj 4 255 (2 ^ 64 + 2)) ∧
    attrLegacy (keyObj 4 255 (2 ^ 64 + 2)).attr = true ∧ (xCbc 0x0303 4).inLen % 16 = 0 :=
  ⟨svc_at _ _ _ _ (by decide +kernel) (by decide +kernel) (by decide +kernel), ⟨key_ok (by decide +kernel), by decide +kernel, by decide +kernel, by decide +kernel⟩,
    svc_at _ _ _ _ (by decide +kernel) (by decide +kernel) (by decide +kernel), ⟨key_ok (by decide +kernel), by decide +kernel, by decide +kernel, by decide +kernel⟩, by decide +kernel, by decide +kernel⟩

def xHash (p n : Nat) : Entry := svcEntry 0x0401 p [(0x3C, n)]
theorem wit_hash : ∀ p ∈ [(0, 28), (1, 32), (2, 48), (3, 64), (4, 32), (5, 48), (6, 64)],
    svcAt (svcS (xHash p.1 p.2)) 5 0x0401 (svcT (xHash p.1 p.2)) ∧ (xHash p.1 p.2).param % 16 = p.1 ∧
      p.2 ≤ (xHash p.1 p.2).outLen := by
  intro p hp
  have h : ∀ p ∈ [(0, 28), (1, 32), (2, 48), (3, 64), (4, 32), (5, 48), (6, 64)], (xHash p.1 p.2).service = 0x0401 ∧
      catalogue.entryOf 0x0401 = some 0x200 ∧ (svcS (xHash p.1 p.2)).sltReady 5 = true ∧ (xHash p.1 p.2).param % 16 = p.1 ∧
      p.2 ≤ (xHash p.1 p.2).outLen := by decide +kernel
  obtain ⟨a, b, c, d⟩ := h p hp
  exact ⟨svc_at _ _ _ _ a b c, d⟩

/-- A format 0 block of PIN 1234 under the key of object 4, to format 4 under the key of object 1. -/
def pan16 : List Nat := [4, 1, 1, 1, 1, 1, 1, 1, 1, 1, 1, 1, 1, 1, 1, 1]
def xPin : Entry := svcEntry 0x0501 0x40 [(8, 4), (16, 1), (0x3C, 16), (0x58, 16), (0x59, 0xFFFF1111111111111141),
  (0x48, 0x999EB28CE62D68EC)]
theorem wit_pin :
    svcAt (svcS xPin) 5 0x0501 (svcT xPin) ∧ xPin.param % 16 = 0 ∧ xPin.param / 16 % 16 = 4 ∧ 16 ≤ xPin.outLen ∧
    keyIs (svcS xPin) 5 (svcT xPin) xPin.key1 16 [4, 5] (keyObj 4 255 (2 ^ 64 + 2)) ∧
    keyIs (svcS xPin) 5 (svcT xPin) xPin.key2 16 [1, 2, 3] (keyObj 1 255 1) ∧
    Crypto.panOf (xPin.inl 0x58) (xPin.inline 0x59 10) = some pan16 ∧
    Crypto.pinOf 0 (Crypto.pinIn 0 (keyObj 4 255 (2 ^ 64 + 2)).secret (xPin.inline 0x48 16) pan16) = some [1, 2, 3, 4] :=
  ⟨svc_at _ _ _ _ (by decide +kernel) (by decide +kernel) (by decide +kernel), by decide +kernel, by decide +kernel, by decide +kernel,
    ⟨key_ok (by decide +kernel), by decide +kernel, by decide +kernel, by decide +kernel⟩, ⟨key_ok (by decide +kernel), by decide +kernel, by decide +kernel, by decide +kernel⟩, by decide +kernel, by decide +kernel⟩

/-- The header template of an AES key for data, and a block of one under the key of object 1. -/
def kbTemplate : List Nat := [0x44, 0x30, 0x30, 0x30, 0x30, 0x44, 0x30, 0x41, 0x42, 0x30, 0x30, 0x45, 0x30, 0x30, 0x30, 0x30]
def kbBlock : List Nat := [0x44, 0x30, 0x31, 0x31, 0x32, 0x44, 0x30, 0x41, 0x42, 0x30, 0x30, 0x45, 0x30, 0x30, 0x30, 0x30,
  0x39, 0x38, 0x38, 0x45, 0x38, 0x36, 0x30, 0x43, 0x42, 0x42, 0x46, 0x43, 0x34, 0x44, 0x39, 0x43, 0x44, 0x33, 0x31, 0x30,
  0x34, 0x44, 0x36, 0x32, 0x39, 0x38, 0x39, 0x44, 0x45, 0x41, 0x42, 0x35, 0x37, 0x44, 0x32, 0x45, 0x45, 0x37, 0x34, 0x30,
  0x43, 0x37, 0x39, 0x41, 0x44, 0x34, 0x31, 0x39, 0x38, 0x44, 0x34, 0x39, 0x39, 0x31, 0x35, 0x38, 0x30, 0x46, 0x45, 0x32,
  0x45, 0x34, 0x45, 0x43, 0x42, 0x46, 0x36, 0x37, 0x35, 0x39, 0x33, 0x46, 0x31, 0x43, 0x45, 0x30, 0x30, 0x38, 0x35, 0x39,
  0x37, 0x32, 0x37, 0x31, 0x36, 0x44, 0x45, 0x34, 0x33, 0x46, 0x41, 0x42, 0x30, 0x36, 0x32, 0x45]
def xImport : Entry := svcEntry 0x0601 0 [(8, 1), (16, 15), (0x24, 112), (0x28, 0x100)]
theorem wit_import_block :
    (match Crypto.kbUnwrap true (keyObj 1 255 1).secret kbBlock with
      | .ok u a m _ h k => Crypto.kbAsym a k == none && Crypto.kbUsage none u m == some 8 &&
          Crypto.kbAlg a h k == some (1, List.replicate 16 7)
      | _ => false) = true ∧ kbBlock.length = 112 := by decide +kernel
theorem wit_import :
    svcAt (svcS xImport kbBlock) 5 0x0601 (svcT xImport) ∧
    keyIs (svcS xImport kbBlock) 5 (svcT xImport) xImport.key1 32 [1, 2, 3, 4, 5] (keyObj 1 255 1) ∧
    kbAes (keyObj 1 255 1) = true ∧ (svcS xImport kbBlock).kbTarget (svcT xImport) = some ⟨7 * 2 ^ 26, 1, [], none⟩ :=
  ⟨svc_at _ _ _ _ (by decide +kernel) (by decide +kernel) (by decide +kernel), ⟨key_ok (by decide +kernel), by decide +kernel, by decide +kernel, by decide +kernel⟩, by decide +kernel, by decide +kernel⟩
def xExport : Entry := svcEntry 0x0602 0 [(8, 1), (16, 6), (0x24, 16), (0x28, 0x100), (0x3C, 256)]
theorem wit_export :
    bufsAre (svcS xExport kbTemplate) 5 (svcT xExport) kbTemplate [] ∧ svcAt (svcS xExport kbTemplate) 5 0x0602 (svcT xExport) ∧
    keyIs (svcS xExport kbTemplate) 5 (svcT xExport) xExport.key1 32 [1, 2, 3, 4, 5] (keyObj 1 255 1) ∧
    keyIs (svcS xExport kbTemplate) 5 (svcT xExport) xExport.key2 64 (List.range 17) (keyObj 6 255 3) ∧
    (Crypto.kbHeader 16 kbTemplate 0).map (·.len) = some kbTemplate.length ∧
    (Crypto.kbWrap true (keyObj 1 255 1).secret kbTemplate (keyObj 6 255 3).blockData (xExport.inline 0x48 16)).length ≤ xExport.outLen :=
  ⟨⟨.inr ⟨by decide +kernel, by decide +kernel, toBytes kbTemplate, by decide +kernel, by decide +kernel⟩, .inl ⟨by decide +kernel, rfl⟩⟩, svc_at _ _ _ _ (by decide +kernel) (by decide +kernel) (by decide +kernel),
    ⟨key_ok (by decide +kernel), by decide +kernel, by decide +kernel, by decide +kernel⟩, ⟨key_ok (by decide +kernel), by decide +kernel, by decide +kernel, by decide +kernel⟩, by decide +kernel, by decide +kernel⟩

def xEmv (p key : Nat) : Entry := svcEntry 0x0701 p [(8, key), (0x48, 16), (0x49, 0xFFFF1111111111111141)]
theorem wit_emv :
    svcAt (svcS (xEmv 0 4)) 5 0x0701 (svcT (xEmv 0 4)) ∧
    keyIs (svcS (xEmv 0 4)) 5 (svcT (xEmv 0 4)) 4 128 [4, 5] (keyObj 4 255 (2 ^ 64 + 2)) ∧
    svcAt (svcS (xEmv 1 1)) 5 0x0701 (svcT (xEmv 1 1)) ∧ keyIs (svcS (xEmv 1 1)) 5 (svcT (xEmv 1 1)) 1 128 [1, 2, 3] (keyObj 1 255 1) ∧
    (xEmv 1 1).paramBit 0 = true ∧ (xEmv 1 1).param / 16 % 4 = 0 ∧
    Crypto.panOf ((xEmv 1 1).inl 0x48) ((xEmv 1 1).inline 0x49 10) = some pan16 :=
  ⟨svc_at _ _ _ _ (by decide +kernel) (by decide +kernel) (by decide +kernel), ⟨key_ok (by decide +kernel), by decide +kernel, by decide +kernel, by decide +kernel⟩,
    svc_at _ _ _ _ (by decide +kernel) (by decide +kernel) (by decide +kernel), ⟨key_ok (by decide +kernel), by decide +kernel, by decide +kernel, by decide +kernel⟩, by decide +kernel, by decide +kernel, by decide +kernel⟩

/-- A table without rules, and a message without fields. -/
def isoTable : List Nat := [0x47, 0x57, 0x52, 0x4D] ++ List.replicate 524 0
def isoMsg : List Nat := [0x30, 0x31, 0x30, 0x30] ++ List.replicate 8 0
def xIso : Entry := svcEntry 0x0801 0 [(0x24, 12), (0x28, 0x100), (0x30, 0x800), (0x38, 528), (0x3C, 12)]
theorem wit_iso :
    svcAt (svcS xIso isoMsg isoTable) 5 0x0801 (svcT xIso) ∧ Crypto.isoRemap isoTable isoMsg = some isoMsg ∧
    isoMsg.length ≤ xIso.outLen ∧ Crypto.isoRemap [] isoMsg = none :=
  ⟨svc_at _ _ _ _ (by decide +kernel) (by decide +kernel) (by decide +kernel), by decide +kernel, by decide +kernel, by decide +kernel⟩
/-- A header of an image of one service at the first word of a body of one zero word. -/
def imgHeader : List Byte :=
  [0x47, 0x57, 0x53, 0x49, 0x4C, 0x54, 0x30, 0x31, 1, 0, 0, 0, 0, 1, 4, 0] ++ List.replicate 16 0 ++ [0, 0x80, 0, 0] ++
    List.replicate 252 0 ++ (Crypto.sha384 [0, 0, 0, 0]).map (BitVec.ofNat 8) ++ List.replicate 176 0
def img1 : Image := ⟨1, 0, [(0x8000, 0)], [0, 0, 0, 0]⟩
theorem wit_image : (match checkImage .t imgHeader [0, 0, 0, 0] with | .ok i => i == img1 | .error _ => false) = true := by decide +kernel
/-- Cluster 15 with a load from an address of open memory in progress, and its header there. -/
def loadS : State :=
  let s := dram zero
  let q := loaderReq .t 15
  let s := admits q 512 (admits q 0 s)
  (s.pokeHome (s.tagOf (s.keySlotFor q 0)) 0 imgHeader).updCluster 15 fun k => { k with load := some ⟨7, 0, .t⟩ }
def loadZ (addr : Nat) : State := zero.updCluster 15 fun k => { k with load := some ⟨7, addr, .t⟩ }
theorem wit_image_loads : (up 0x05 15 zero).mayWrite qH 0x05 15 0x140 ∧ ((up 0x05 15 zero).cluster 15).load = none ∧
    (up 0x05 15 (loadZ 0)).mayWrite qH 0x05 15 0x140 ∧ (loadZ (2 ^ 51)).cluster 15 = { Cluster.empty with load := some ⟨7, 2 ^ 51, .t⟩ } ∧
    (match ((loadZ (2 ^ 51)).updCluster 15 fun k => { k with load := none }).stageImage .t 15 (2 ^ 51) with
      | (.ok _, _) => false | (.error st, _) => st == 0x42) = true := by unfold State.mayWrite; decide +kernel
theorem wit_load_staged : (match (loadS.updCluster 15 fun k => { k with load := none }).stageImage .t 15 0 with
      | (.ok i, _) => i == img1 | (.error _, _) => false) = true := by decide +kernel
def poolS : State :=
  ((((eng { Engine.empty with stale := true } zero).setf Reg.SLT_POOL.cur_pool 5 31).setf Reg.SVC_POOL_IMG.bound 0 1 31).updCluster 0
    fun k => { k with images := [(0, some img1)] })
theorem wit_pool_images : (poolS.eng 5).stale = true ∧ (poolS.eng 5).task = none ∧
    poolS.boundImage (engCluster 5) (poolS.poolOf 5) = some img1 ∧ (up 0x05 15 zero).mayWrite qH 0x05 15 (0x200 + 8 * 31) ∧
    (admits qT (drsAddr 0x05 15 0x2F8) (up 0x05 15 zero)).mayWrite qT 0x05 15 (0x200 + 8 * 31) ∧
    ((up 0x05 15 zero).setf Reg.HPN_POOL.world 1 1 31).topsoilPool (15 / 8) 31 = false := by unfold State.mayWrite; decide +kernel

/-! ## Knaxa -/

/-- Core 0 at 0x100, g2 an address, the line of its code and the line at 0x1C0 open to it. -/
def kcore : Core := { Core.empty with run := .running, level := 2, pc := 0x100, g := [(2, 0x1F0), (3, 8)] }
def kst (k : Core) (s : State := zero) : State :=
  let s := dram { s with cores := [(0, k)] }
  admits (s.coreReq 0) 0x1C0 (admits (s.coreReq 0) 0x100 s)

/-- The word of an instruction in the tables above. -/
def kw (op : KxOp) : IWord := ((kxWords.find? fun p => p.1 == op).map Prod.snd).getD 0

/-- Core 0 of `s` carries out `op`, spelt by `w`. -/
def can (s : State) (op : KxOp) (w : IWord) : Bool :=
  (s.core 0).ready && (match (s.kxFetch 0).1 with | .ok _ => true | .error _ => false) && kxOp w == some op &&
    !kxMalformed op w && kxLevel op ≤ (s.core 0).level && !((s.kxFetch 0).2.core 0).stepArmed &&
    ((s.kxFetch 0).2.core 0).watchpoints == []
def after (s : State) : State := (s.kxFetch 0).2
theorem can_kx {s : State} {op : KxOp} {w : IWord} (h : can s op w = true) : kxCan s (after s) 0 op w := by
  simp only [can, Bool.and_eq_true, beq_iff_eq, Bool.not_eq_true', decide_eq_true_eq] at h
  obtain ⟨⟨⟨⟨⟨⟨h1, h2⟩, h3⟩, h4⟩, h5⟩, h6⟩, h7⟩ := h
  refine ⟨h1, ?_, h3, h4, h5, h6, h7⟩
  show s.kxFetch 0 = (.ok (), (s.kxFetch 0).2)
  split at h2
  · next a he => exact Prod.ext he rfl
  · cases h2

/-- Core 0 of `s` may access `n` bytes at `va`, which lie at `pa`. -/
def mayAccess (s : State) (acc : KxAcc) (noDev : Bool) (va n : Nat) (el : Option Nat) (pa : Nat) (dev : Bool) : Bool :=
  match (s.kxCheck 0 acc noDev va n el).1 with | .ok r => r.va == va && r.pa == pa && r.device == dev | .error _ => false
def afterCheck (s : State) (acc : KxAcc) (noDev : Bool) (va n : Nat) (el : Option Nat) : State := (s.kxCheck 0 acc noDev va n el).2
theorem access_ok {s : State} {acc : KxAcc} {noDev : Bool} {va n pa : Nat} {el : Option Nat} {dev : Bool}
    (h : mayAccess s acc noDev va n el pa dev = true) :
    s.kxCheck 0 acc noDev va n el = (.ok ⟨va, pa, dev⟩, afterCheck s acc noDev va n el) := by
  unfold mayAccess at h
  split at h
  · next r he =>
    simp only [Bool.and_eq_true, beq_iff_eq] at h
    obtain ⟨⟨rfl, rfl⟩, rfl⟩ := h
    exact Prod.ext he rfl
  · cases h

theorem wit_kx_words : ∀ p ∈ kxWords, can (kst kcore) p.1 p.2 = true := by
  have h : kxWords.all (fun p => can (kst kcore) p.1 p.2) = true := by decide +kernel
  exact fun p hp => List.all_eq_true.mp h p hp
theorem wit_kx_rows :
    (∀ r ∈ kxScalar, kxCan (kst kcore) (after (kst kcore)) 0 r.op (kw r.op)) ∧
    (∀ r ∈ kxLoads, kxCan (kst kcore) (after (kst kcore)) 0 r.1 (kw r.1)) ∧
    (∀ r ∈ kxStoresOf, kxCan (kst kcore) (after (kst kcore)) 0 r.1 (kw r.1)) ∧
    (∀ r ∈ kxAtomics, kxCan (kst kcore) (after (kst kcore)) 0 r.1 (kw r.1)) := by
  have h : kxScalar.all (fun r => can (kst kcore) r.op (kw r.op)) = true ∧ kxLoads.all (fun r => can (kst kcore) r.1 (kw r.1)) = true ∧
    kxStoresOf.all (fun r => can (kst kcore) r.1 (kw r.1)) = true ∧ kxAtomics.all (fun r => can (kst kcore) r.1 (kw r.1)) = true := by
    decide
  exact ⟨fun r hr => can_kx (List.all_eq_true.mp h.1 r hr), fun r hr => can_kx (List.all_eq_true.mp h.2.1 r hr),
    fun r hr => can_kx (List.all_eq_true.mp h.2.2.1 r hr), fun r hr => can_kx (List.all_eq_true.mp h.2.2.2 r hr)⟩

/-- Division by 0, and of -2^63 by -1. -/
theorem wit_division : let z := kst { kcore with g := [(2, 5)] }
    let m := kst { kcore with g := [(2, 0x8000000000000000), (3, 0xFFFFFFFFFFFFFFFF)] }
    can z .div (kw .div) = true ∧ can z .remu (kw .remu) = true ∧ ((after z).core 0).rg (rbOf (kw .div)) = 0 ∧
    rbOf (kw .remu) = rbOf (kw .div) ∧ can m .div (kw .div) = true ∧ can m .rem (kw .rem) = true ∧
    ((after m).core 0).rg (raOf (kw .div)) = 0x8000000000000000 ∧ ((after m).core 0).rg (rbOf (kw .div)) = 0xFFFFFFFFFFFFFFFF := by decide +kernel

/-- A branch that the base table mispredicts, the entry of T1 that this leaves, and a jump in realm 1. -/
def predT : Pred := Pred.empty.trainDirection 0 0x100 true
theorem empty_matching (t : Nat) : Pred.empty.matching 0 t 0x100 = none := rfl
theorem wit_predictor : Pred.empty.supplier 0 0x100 = 0 ∧ Pred.empty.predicts 0 0x100 ≠ true ∧
    (∀ t, 1 ≤ t → t ≤ 8 → Pred.empty.matching 0 t 0x100 = none) ∧ kcore.predOff = false ∧
    ({ kcore with ctl := [(0x101, 7)] } : Core).predOff = true ∧ SMap.wf none Pred.empty.btb = true :=
  ⟨rfl, by decide +kernel, fun t _ _ => empty_matching t, by decide +kernel, by decide +kernel, by decide +kernel⟩
theorem predT_tagged : predT.tagged = SMap.set none [] (Pred.empty.slot 1 0x100) (some ⟨Pred.empty.tag 1 0x100, 0, 2⟩) := rfl
theorem wit_predictor_match : predT.matching 0 1 0x100 ≠ none ∧ ∀ x, 1 < x → x ≤ 8 → predT.matching 0 x 0x100 = none := by
  have hs : ∀ t, predT.slot t 0x100 = Pred.empty.slot t 0x100 := fun _ => rfl
  have ht : ∀ t, predT.tag t 0x100 = Pred.empty.tag t 0x100 := fun _ => rfl
  constructor
  · unfold Pred.matching
    rw [predT_tagged, hs, ht, SMap.get_set]
    simp
  · intro x h1 h2
    unfold Pred.matching
    rw [predT_tagged, hs, SMap.get_set_other]
    · rfl
    · unfold Pred.slot
      have := Nat.mod_lt (Config.predIndex 1 0x100 (Pred.empty.hist.take (histLength 1))) (show 0 < 2048 by omega)
      omega

/-- A jump to a multiple of 4, and to none, with a frame stack one below its bound. -/
theorem wit_jumps : let f : Frame := ⟨0, 0, [], false⟩
    let a := kst { kcore with g := [(2, 0x10)] }
    let b := kst { kcore with g := [(2, 0x11)], frames := List.replicate 12 f }
    can a .jr (kw .jr) = true ∧ can a .jlr (kw .jlr) = true ∧ (((after a).core 0).ra (kw .jr)).toNat % 4 = 0 ∧
    can b .jr (kw .jr) = true ∧ can b .jlr (kw .jlr) = true ∧ (((after b).core 0).ra (kw .jlr)).toNat % 4 = 1 ∧
    ((after b).core 0).depth < 13 := by decide +kernel

/-- A load's memory, a covering store, and a device. -/
def kload : State := kst { kcore with sb := [⟨0x1F0, List.replicate 16 5⟩] }
def kdev : State :=
  let s := kst { kcore with g := [(2, BitVec.ofNat 64 (drsAddr 0x03 0 0x200 - 8))] }
  admits (s.coreReq 0) (drsAddr 0x03 0 0x200) s
theorem wit_loads : let v := afterCheck (after (kst kcore)) .load false 0x1F8 8 none
    ((after (kst kcore)).core 0).ea (kw .ld) = 0x1F8 ∧ mayAccess (after (kst kcore)) .load false 0x1F8 8 none 0x1F8 false = true ∧
    (v.core 0).stepArmed = false ∧ (v.core 0).watchpoints = [] ∧ (v.core 0).ea (kw .ld) = 0x1F8 ∧
    ((v.core 0).sb.find? fun e => e.overlaps 0x1F8 8) = none := by decide +kernel
theorem wit_load_forwards : can kload .ld (kw .ld) = true ∧ mayAccess (after kload) .load false 0x1F8 8 none 0x1F8 false = true ∧
    ((afterCheck (after kload) .load false 0x1F8 8 none).core 0).sb.getLast? = some ⟨0x1F0, List.replicate 16 5⟩ ∧
    0x1F8 + 8 ≤ 0x1F0 + 16 := by decide +kernel
theorem wit_load_device : can kdev .ld (kw .ld) = true ∧
    mayAccess (after kdev) .load false (drsAddr 0x03 0 0x200) 8 none (drsAddr 0x03 0 0x200) true = true ∧
    ((after kdev).core 0).ea (kw .ld) = drsAddr 0x03 0 0x200 ∧
    ((afterCheck (after kdev) .load false (drsAddr 0x03 0 0x200) 8 none).core 0).sb = [] := by decide +kernel

/-- A store with room, with a full buffer, and in clay mode. -/
def kfull : State := kst { kcore with sb := List.replicate 64 ⟨0, [0]⟩ }
def kclay : State := kst { kcore with ctl := [(0x110, 1)] }
theorem wit_stores : mayAccess (after (kst kcore)) .store false 0x1F8 8 none 0x1F8 false = true ∧
    (afterCheck (after (kst kcore)) .store false 0x1F8 8 none).core 0 = (after (kst kcore)).core 0 ∧
    ((after (kst kcore)).core 0).clay = false ∧ ((after (kst kcore)).core 0).sb.length < 64 := by decide +kernel
theorem wit_stores_full : can kfull .sd (kw .sd) = true ∧ mayAccess (after kfull) .store false 0x1F8 8 none 0x1F8 false = true ∧
    (afterCheck (after kfull) .store false 0x1F8 8 none).core 0 = (after kfull).core 0 ∧ ((after kfull).core 0).sb.length = 64 := by decide +kernel
theorem wit_stores_clay : can kclay .sb (kw .sb) = true ∧ mayAccess (after kclay) .store false 0x1F8 1 none 0x1F8 false = true ∧
    (afterCheck (after kclay) .store false 0x1F8 1 none).core 0 = (after kclay).core 0 ∧ ((after kclay).core 0).clay = true ∧
    (afterCheck (after kclay) .store false 0x1F8 1 none).cutOff 0x1F8 = none ∧ can kclay .pref (kw .pref) = true ∧
    ((after kfull).core 0).clay = false := by decide +kernel
def kdrain : State := kload.setHeld 0 (0x1F0 / 64) .d
theorem wit_drain : (kdrain.core 0).sb = [⟨0x1F0, List.replicate 16 5⟩] ∧ kdrain.lstate 0 (0x1F0 / 64) = .d ∧
    kdrain.cutOff 0x1F0 = none ∧ (kdrain.core 0).wait = .none := by decide +kernel
theorem no_tlbi {s : State} {k : Core} (hs : s.cores = [(0, k)]) (hk : ∀ w l, k.wait ≠ .tlbi w l) : noTlbi s := by
  intro j w l
  show (SMap.get Core.empty s.cores j).wait ≠ _
  rw [hs]
  by_cases h : 0 = j
  · subst h; exact hk w l
  · rw [SMap.get, if_neg h]; intro hc; cases hc
theorem wit_no_tlbi : noTlbi kdrain := no_tlbi (k := { kcore with sb := [⟨0x1F0, List.replicate 16 5⟩] }) rfl (fun _ _ h => by cases h)
theorem wit_pref : can (kst kcore) .pref (kw .pref) = true ∧
    ((after (kst kcore)).translate 0 .load (((after (kst kcore)).core 0).ea (kw .pref))).1.toOption = some (0x1F8, false) ∧
    ((after (kst kcore)).translate 0 .load (((after (kst kcore)).core 0).ea (kw .pref))).2.core 0 =
      (after (kst kcore)).core 0 := by decide +kernel

/-- An atomic: near, with stores before it, without its line and with it. -/
def kat (st : LState) : State := (kst kcore).setHeld 0 (0x1F0 / 64) st
theorem wit_atomic_lines : ifld (kw .cas) 9 9 = 1 ∧ ifld (kw .cas) 10 10 = 0 ∧ can (kat .i) .cas (kw .cas) = true ∧
    mayAccess (after (kat .i)) .atomic true 0x1F0 8 none 0x1F0 false = true ∧
    (afterCheck (after (kat .i)) .atomic true 0x1F0 8 none).core 0 = (after (kat .i)).core 0 ∧
    (afterCheck (after (kat .i)) .atomic true 0x1F0 8 none).lstate 0 (0x1F0 / 64) = .i ∧
    can (kat .x) .cas (kw .cas) = true ∧ mayAccess (after (kat .x)) .atomic true 0x1F0 8 none 0x1F0 false = true ∧
    (afterCheck (after (kat .x)) .atomic true 0x1F0 8 none).lstate 0 (0x1F0 / 64) = .x ∧
    (afterCheck (after (kat .x)) .atomic true 0x1F0 8 none).cutOff 0x1F0 = none := by decide +kernel
theorem wit_atomic_near : can (kst kcore) .cas (kw .cas ||| 0x400) = true ∧ ifld (kw .cas ||| 0x400) 10 10 = 1 ∧
    can kload .cas (kw .cas) = true ∧ mayAccess (after kload) .atomic true 0x1F0 8 none 0x1F0 false = true ∧
    ((afterCheck (after kload) .atomic true 0x1F0 8 none).core 0).sb ≠ [] ∧ (after (kst kcore)).coh.mesh = [] ∧
    (after (kst kcore)).homeWaiting 0 < 256 ∧
    256 ≤ ((kst kcore).updLine 7 fun _ => { LineHome.empty with queue := List.replicate 256 ⟨.readShared, 1, false⟩ }).homeWaiting
      ((kst kcore).homeSlice (7 * 64) 0) := by decide +kernel

/-- Words of CRR and CWR with a control register's number: rd = 5 of CRR, ra = 2 of CWR. -/
def crrW (x : Nat) : IWord := (0x78A00000 : IWord) ||| BitVec.ofNat 32 x
def cwrW (x : Nat) : IWord := (0x78021000 : IWord) ||| BitVec.ofNat 32 x
/-- Core 0 in Hardpan world at level 3, with a value in g2. -/
def khard (v : Word) (k : Core := kcore) : State := kst { k with hard := true, level := 3, g := [(2, v)] }
theorem wit_crr : let s := kst { kcore with level := 1 }
    can s .crr (crrW 0x001) = true ∧ crRights ((after s).core 0) (ifld (crrW 0x001) 11 0) = some (1, some 1) ∧
    can s .crr (crrW 0x121) = true ∧ ifld (crrW 0x121) 11 0 = 0x121 ∧ 1 ≤ ((after s).core 0).level ∧ rdOf (crrW 0x121) ≠ 0 ∧
    can s .crr (crrW 0xFFF) = true ∧ crRights ((after s).core 0) (ifld (crrW 0xFFF) 11 0) = none ∧
    can s .cwr (cwrW 0xFFF) = true ∧ crRights ((after s).core 0) (ifld (cwrW 0xFFF) 11 0) = none ∧
    can s .crr (crrW 0x022) = true ∧ crRights ((after s).core 0) (ifld (crrW 0x022) 11 0) = some (3, some 3) ∧
    ((after s).core 0).level < 3 ∧ ((after s).core 0).depth < 13 := by decide +kernel
theorem wit_cwr : ∀ p ∈ crKept, can (khard 0xFFFFFFFFFFFFFFFF) .cwr (cwrW p.1) = true ∧ p.1 = ifld (cwrW p.1) 11 0 := by
  have h : crKept.all (fun p => can (khard 0xFFFFFFFFFFFFFFFF) .cwr (cwrW p.1) && p.1 == ifld (cwrW p.1) 11 0) = true := by decide +kernel
  intro p hp
  simpa using List.all_eq_true.mp h p hp
theorem wit_cwr_core : ((after (khard 0xFFFFFFFFFFFFFFFF)).core 0).hard = true ∧ ((after (khard 0xFFFFFFFFFFFFFFFF)).core 0).level = 3 ∧
    ((after (khard 0xFFFFFFFFFFFFFFFF)).core 0).clay = false ∧
    (((after (khard 0xFFFFFFFFFFFFFFFF)).core 0).ra (cwrW 0x101)).toNat.testBit 8 = true ∧ ifld (cwrW 0x101) 11 0 = 0x101 := by decide +kernel
def kdvfs : State := khard 3000 { kcore with capPower := 3600, capThermal := 3600 }
def kfast : State := { (kdvfs.setf Reg.WTH_FMAX.fmax_mhz 0 3600 (coreDom 0)) with sys := { kdvfs.sys with trimmed := true } }
theorem wit_dvfs : can kfast .cwr (cwrW 0x120) = true ∧ ifld (cwrW 0x120) 11 0 = 0x120 ∧ (after kfast).sys.trimmed = true ∧
    3000 ≤ ((after kfast).core 0).capPower ∧ 3000 ≤ ((after kfast).core 0).capThermal ∧
    3000 ≤ (after kfast).rf Reg.WTH_FMAX.fmax_mhz (coreHalf 0) (coreDom 0) ∧
    (after kfast).rb Reg.PWR_RAIL.fault (coreHalf 0) (coreRail 0) = false ∧ (after kfast).rb Reg.PWR_POWER.trip (coreHalf 0) = false ∧
    (after kfast).rb Reg.PWR_HOLD.hold (coreHalf 0) (coreDom 0) = false ∧ ((after kfast).core 0).guest = false ∧
    (((after kfast).core 0).ra (cwrW 0x120)).toNat % 4096 = 3000 := by decide +kernel
theorem wit_clay : can (kst { kcore with g := [(2, 1)] }) .cwr (cwrW 0x110) = true ∧
    (((after (kst { kcore with g := [(2, 1)] })).core 0).ra (cwrW 0x110)).toNat % 2 = 1 ∧
    ((after (kst { kcore with g := [(2, 1)] })).core 0).clay = false ∧ ((after (kst { kcore with g := [(2, 1)] })).core 0).sb = [] ∧
    can { kload with cores := [(0, { kcore with g := [(2, 1)], sb := [⟨0x1F0, [5]⟩] })] } .cwr (cwrW 0x110) = true ∧
    can kclay .cwr (cwrW 0x110) = true ∧ ((after kclay).core 0).clay = true ∧ (((after kclay).core 0).ra (cwrW 0x110)).toNat % 2 = 0 := by
  decide +kernel
theorem wit_clay_entry :
    let s : State := { kst { kcore with ctl := [(0x110, 1)], wait := .clayEntry, curMhz := 2600, granted := 2400 } with sys := { zero.sys with mode := .field } }
    (s.core 0).wait = .clayEntry ∧ (s.core 0).clay = true ∧ s.sys.mode = .field ∧ (s.core 0).curMhz ≠ (s.core 0).granted ∧
    (s.core 0).granted < (s.core 0).curMhz ∧ (s.core 0).run ≠ .doze ∧ (s.core 0).run ≠ .slumber := by decide +kernel
/-- The plan asks for a voltage of the rail's range, so that none supports no rise and the highest every one. -/
theorem planMv_range (s : State) (mhz : Nat) : 600 ≤ s.planMv 0 0 mhz ∧ s.planMv 0 0 mhz ≤ 1050 := by
  have h : railRange (domRail 0 0) = (600, 1050) := by decide +kernel
  unfold State.planMv
  rw [h]
  exact ⟨Nat.le_max_left .., Nat.max_le.mpr ⟨by decide, Nat.min_le_left ..⟩⟩
def rising (mv : Nat) : State :=
  (kst { kcore with curMhz := 2400, granted := 2600 }).setf Reg.PWR_RAIL.set_mv ((kst kcore).railHalf (coreRail 0)) mv (coreRail 0)
theorem wit_dvfs_rise : ((rising 0).core 0).curMhz < ((rising 0).core 0).granted ∧ (rising 0).voltageReady 0 = false ∧
    (rising 1050).voltageReady 0 = true := by
  refine ⟨by decide +kernel, decide_eq_false (?_ : ¬ (rising 0).planMv 0 0 2600 ≤ 0), decide_eq_true (?_ : (rising 1050).planMv 0 0 2600 ≤ 1050)⟩
  · have h := planMv_range (rising 0) 2600
    omega
  · exact (planMv_range _ 2600).2

/-- Calls from level 1 with Hardpan present and absent, from Hardpan world, and a return with a frame. -/
def kcall : State := (kst { kcore with level := 1, frames := List.replicate 12 ⟨0x200, 0x49, [], false⟩ }).setf Reg.HPN_STATUS.state 0 1
theorem wit_calls : can kcall .svc (kw .svc) = true ∧ can kcall .hvc (kw .hvc) = true ∧ can kcall .brk (kw .brk) = true ∧
    can kcall .hpcall (kw .hpcall) = true ∧ ((after kcall).core 0).depth < 13 ∧ ((after kcall).core 0).hard = false ∧
    ((after kcall).core 0).guest = false ∧ ((after kcall).core 0).clay = false ∧ (after kcall).hpPresent (coreHalf 0) = true ∧
    can (kcall.setf Reg.HPN_STATUS.state 0 0) .hpcall (kw .hpcall) = true ∧
    (after (kcall.setf Reg.HPN_STATUS.state 0 0)).hpPresent (coreHalf 0) = false ∧ can (khard 0) .svc (kw .svc) = true ∧
    can (khard 0) .hvc (kw .hvc) = true ∧ can (khard 0) .hpcall (kw .hpcall) = true := by decide +kernel
theorem wit_eret : can kcall .eret (kw .eret) = true ∧ ((after kcall).core 0).frames = ⟨0x200, 0x49, [], false⟩ :: List.replicate 11 ⟨0x200, 0x49, [], false⟩ ∧
    (0x49 : Word).toNat % 4 ≤ ((after kcall).core 0).level ∧ (0x49 : Word).toNat.testBit 2 = false ∧
    can (kst { kcore with level := 3, hard := true, frames := [⟨0x200, 7, [], true⟩] }) .eret (kw .eret) = true ∧
    (7 : Word).toNat.testBit 2 = true := by decide +kernel
theorem wit_fences : can (kst kcore) .fence (kw .fence) = true ∧ can kload .fenceAck (kw .fenceAck) = true ∧
    ((after (kst kcore)).core 0).sb = [] ∧ ((after kload).core 0).sb ≠ [] ∧ can (kst kcore) .rdstrata (kw .rdstrata) = true ∧
    1 ≤ ((after (kst kcore)).core 0).level ∧ can (kst kcore) .tlbi (kw .tlbi) = true ∧ ((after (kst kcore)).core 0).guest = false ∧
    can (kst kcore) .tlbi (kw .tlbi ||| 3) = true ∧ ifld (kw .tlbi ||| 3) 1 0 = 3 ∧ 2 ≤ ((after (kst kcore)).core 0).level ∧
    (after (kst kcore)).tlbiLeft ((after (kst kcore)).core 0) 1 0x1F0 = [] := by decide +kernel
/-- Core 1 has a store in flight in a page that it translated with ASID 0x1F0, which core 0's TLBI removes. -/
def kshoot : State :=
  { kst kcore with cores := [(0, kcore), (1, { Core.empty with
      sb := [⟨0x5000, [0]⟩], tlb := [⟨8, 4096, some 0x1F0, none, 0, 0, 5, false⟩] })] }
theorem wit_shootdown : can kshoot .tlbi (kw .tlbi) = true ∧ ifld (kw .tlbi) 1 0 = 1 ∧
    (((after kshoot).core 0).ra (kw .tlbi)).toNat = 0x1F0 ∧
    (after kshoot).tlbiLeft ((after kshoot).core 0) 1 0x1F0 = [(1, 0x5000)] := by decide +kernel
theorem wit_wfi : can (kst kcore) .wfiDoze (kw .wfiDoze) = true ∧ can (kst kcore) .wfiSlumber (kw .wfiSlumber) = true ∧
    (after (kst kcore)).rb Reg.PWR_HOLD.hold (coreHalf 0) (coreDom 0) = false := by decide +kernel

/-- A pending source 0x81 aimed at core 0 at a level. -/
def kint (level secure : Nat) (k : Core) : State :=
  let s : State := up 0x12 0 { kst { k with sie := true } with evh := { zero.evh with pend := [(0x81, ⟨true, 0, false, 0, true⟩)] } }
  ((((s.setf Reg.EVH_SRC.enable 0 1 0x81).setf Reg.EVH_SRC.level 0 level 0x81).setf Reg.EVH_SRC.priority 0 0 0x81).setf
    Reg.EVH_SRC.secure 0 secure 0x81).setf Reg.HPN_STATUS.state 0 1
theorem wit_interrupts :
    (kint 0 0 { kcore with level := 1, ie := true }).takeable 0 = some 0 ∧ (kint 1 0 { kcore with level := 1 }).takeable 0 = some 1 ∧
    (kint 0 1 { kcore with level := 1 }).takeable 0 = some 2 ∧ ((kint 0 0 { kcore with level := 1, ie := true }).core 0).atBoundary = true ∧
    ((kint 0 0 { kcore with level := 1, ie := true }).core 0).clay = false ∧
    (kint 0 1 { kcore with level := 1, wait := .instr (kw .wfiDoze), sb := [⟨0, [0]⟩] }).takeable 0 = some 2 ∧
    ((kint 0 1 { kcore with level := 1, wait := .instr (kw .wfiDoze), sb := [⟨0, [0]⟩] }).core 0).atBoundary = true ∧
    kxOp (kw .wfiDoze) = some .wfiDoze := by decide +kernel
theorem wit_wake : let s := kint 0 0 { kcore with run := .slumber }
    s.logicalOf 0 = some 0 ∧ (s.core 0).run = .slumber ∧ 0x81 ∈ SMap.keys s.evh.pend ∧ (s.evPend 0x81).pending = true ∧
    s.rb Reg.EVH_SRC.enable (s.keyHalf 0x81) (keyId 0x81) = true ∧ s.queued (s.keyHalf 0x81) (keyId 0x81) = false ∧
    s.keyTarget 0x81 = 0 ∧ s.keyLevel 0x81 ≠ 2 ∧ s.rb Reg.EVH_HOLD.hold 0 = false := by decide +kernel

/-- Vectors: predicate 4 all ones, group 4's indices 0. -/
def kvec : Core := { kcore with p := [(4, 0xFFFFFFFF)], g := [(2, 0x1C0), (3, 0), (4, 0x1C0)] }
theorem wit_vector_rows :
    (∀ r ∈ kxElementwise, kxCan (kst kvec) (after (kst kvec)) 0 r.op (kw r.op)) ∧
    (∀ r ∈ kxCompares, kxCan (kst kvec) (after (kst kvec)) 0 r.1 (kw r.1)) ∧
    (∀ r ∈ kxReductions, kxCan (kst kvec) (after (kst kvec)) 0 r.1 (kw r.1)) ∧
    (∀ r ∈ kxPredicates, kxCan (kst kvec) (after (kst kvec)) 0 r.1 (kw r.1)) ∧
    (∀ r ∈ kxVLoads, kxCan (kst kvec) (after (kst kvec)) 0 r.1 (kw r.1)) ∧
    (∀ r ∈ kxVStores, kxCan (kst kvec) (after (kst kvec)) 0 r.1 (kw r.1)) := by
  have h : kxElementwise.all (fun r => can (kst kvec) r.op (kw r.op)) = true ∧ kxCompares.all (fun r => can (kst kvec) r.1 (kw r.1)) = true ∧
    kxReductions.all (fun r => can (kst kvec) r.1 (kw r.1)) = true ∧ kxPredicates.all (fun r => can (kst kvec) r.1 (kw r.1)) = true ∧
    kxVLoads.all (fun r => can (kst kvec) r.1 (kw r.1)) = true ∧ kxVStores.all (fun r => can (kst kvec) r.1 (kw r.1)) = true := by
    decide
  exact ⟨fun r hr => can_kx (List.all_eq_true.mp h.1 r hr), fun r hr => can_kx (List.all_eq_true.mp h.2.1 r hr),
    fun r hr => can_kx (List.all_eq_true.mp h.2.2.1 r hr), fun r hr => can_kx (List.all_eq_true.mp h.2.2.2.1 r hr),
    fun r hr => can_kx (List.all_eq_true.mp h.2.2.2.2.1 r hr), fun r hr => can_kx (List.all_eq_true.mp h.2.2.2.2.2 r hr)⟩

theorem elems_ok {u : State} {w : IWord} {form : VAddr} {acc : KxAcc} {noDev : Bool} {pa : Nat → Nat}
    (hb : wN w ≤ 128 ∧ wF w ≤ 128)
    (h : ((List.range 128).all fun i => !takes (u.core 0) w form i ||
      (mayAccess u acc noDev (elAddr (u.core 0) w form i).toNat (if form = .predicate then 4 else wSz w)
          (if form = .predicate then none else some i) (pa i) false &&
        afterCheck u acc noDev (elAddr (u.core 0) w form i).toNat (if form = .predicate then 4 else wSz w)
          (if form = .predicate then none else some i) == u)) = true) : elemsOk u 0 w form acc noDev pa := by
  intro i hi
  have hlt : i < 128 := by
    unfold takes at hi
    split at hi
    · exact Nat.lt_of_lt_of_le (of_decide_eq_true hi) hb.2
    · simp only [Bool.and_eq_true, decide_eq_true_eq] at hi
      exact Nat.lt_of_lt_of_le hi.1 hb.1
  have h1 := List.all_eq_true.mp h i (List.mem_range.mpr hlt)
  simp only [hi, Bool.not_true, Bool.false_or, Bool.and_eq_true, beq_iff_eq] at h1
  refine (access_ok h1.1).trans ?_
  rw [h1.2]

/-- Vectors of eight-byte elements with element 0 active, at 0x1C0. -/
def kone : State := after (kst { kvec with p := [(4, 1)] })
def at1C0 : Nat → Nat := fun i => 0x1C0 + 4 * i
theorem wit_vector_loads : elemsOk kone 0 (kw .vld) .contiguous .load false at1C0 ∧ elemsOk kone 0 (kw .vlds) .strided .load false at1C0 ∧
    elemsOk kone 0 (kw .vgather) .indexed .load true at1C0 ∧ elemsOk kone 0 (kw .pld) .predicate .load false at1C0 :=
  ⟨elems_ok (by decide +kernel) (by decide +kernel), elems_ok (by decide +kernel) (by decide +kernel), elems_ok (by decide +kernel) (by decide +kernel), elems_ok (by decide +kernel) (by decide +kernel)⟩
theorem wit_vector_stores : elemsOk kone 0 (kw .vst) .contiguous .store false at1C0 ∧ elemsOk kone 0 (kw .vsts) .strided .store false at1C0 ∧
    elemsOk kone 0 (kw .vscatter) .indexed .store true at1C0 ∧ elemsOk kone 0 (kw .pst) .predicate .store false at1C0 ∧
    (kone.core 0).clay = false ∧ (kone.core 0).sb = [] :=
  ⟨elems_ok (by decide +kernel) (by decide +kernel), elems_ok (by decide +kernel) (by decide +kernel), elems_ok (by decide +kernel) (by decide +kernel), elems_ok (by decide +kernel) (by decide +kernel),
    by decide +kernel, by decide +kernel⟩

/-- 128 elements of a byte, more than the store buffer takes at once. -/
def kmany : State :=
  let s := kst { kvec with p := [(4, 0xFFFFFFFF), (5, 0xFFFFFFFF), (6, 0xFFFFFFFF), (7, 0xFFFFFFFF)] }
  after (admits (s.coreReq 0) 0x200 s)
theorem wit_vector_room : elemsOk kmany 0 0xA4821C80 .contiguous .store false (fun i => 0x1C0 + i) ∧ wN (kw .vst) ≤ 64 ∧
    ((List.range (wN 0xA4821C80)).filter (active (kmany.core 0) 0xA4821C80)).length = 128 :=
  ⟨elems_ok (by decide +kernel) (by decide +kernel), by decide +kernel, by decide +kernel⟩

/-- Element 0 lies at the end of the line open to the core, element 1 past it. -/
def kedge : State := kst { kvec with p := [(4, 0x101)], g := [(2, 0x1F8), (3, 0)] }
theorem wit_first_fault : can kedge .vldff (kw .vldff) = true ∧ 1 < wN (kw .vldff) ∧ wSz (kw .vldff) = 8 ∧
    active ((after kedge).core 0) (kw .vldff) 1 = true ∧ active ((after kedge).core 0) (kw .vldff) 0 = true ∧
    mayAccess (after kedge) .load true (elAddr ((after kedge).core 0) (kw .vldff) .contiguous 0).toNat 8 (some 0) 0x1F8 false = true ∧
    afterCheck (after kedge) .load true (elAddr ((after kedge).core 0) (kw .vldff) .contiguous 0).toNat 8 (some 0) = after kedge ∧
    (match ((after kedge).kxCheck 0 .load true (elAddr ((after kedge).core 0) (kw .vldff) .contiguous 1).toNat 8 (some 1)).1 with
      | .ok _ => false | .error _ => true) = true := by decide +kernel

/-- The Montgomery step modulo 1, whose N' is 2^256 - 1. -/
def kmont : State := kst { kvec with v := [(12, 1), (16, BitVec.allOnes 256)] }
theorem wit_montgomery : can kmont .vmont (kw .vmont) = true ∧ gvb ((after kmont).core 0) (kw .vmont) = 1 ∧
    (((after kmont).core 0).rv (ifld (kw .vmont) 15 11 + wF (kw .vmont))).toNat = 2 ^ 256 - 1 ∧
    gva ((after kmont).core 0) (kw .vmont) = 0 ∧ gvd ((after kmont).core 0) (kw .vmont) = 0 ∧
    (((after kmont).core 0).rp (ifld (kw .vmont) 10 8)).toNat % 2 = 0 := by decide +kernel
theorem wit_big : can kmont .vadc (kw .vadc) = true ∧ can kmont .vsbb (kw .vsbb) = true ∧ can kmont .vcshl (kw .vcshl) = true ∧
    can kmont .vmulw (kw .vmulw) = true ∧ can kmont .vredm (kw .vredm) = true := by decide +kernel

/-! ## Registers, blocks, claims, coherence -/

/-- Engine 1023's SLT_FAULT open to T, refused, and of the lost half. -/
def kOpen : State := admits qT (drsAddr 0x02 1023 0x118) zero
/-- Half 1 is gone. -/
def lost (s : State) : State := { s with sys := { s.sys with lostHalf := some 1 } }
def armedPages : State := (zero.setf Reg.POT_CTL.armed 0 1).setf Reg.POT_CTL.armed 1 1
theorem wit_reads : (readCmds (.sltFaultRead qT 1023)).isSome = true ∧ kOpen.mayRead qT 0x02 1023 Reg.SLT_FAULT.reg.off ∧
    (armedPages.potCheck qT .read (drsAddr 0x02 1023 Reg.SLT_FAULT.reg.off)).ok = false ∧
    armedPages.cutOff (drsAddr 0x02 1023 Reg.SLT_FAULT.reg.off) = none ∧
    (lost zero).cutOff (drsAddr 0x02 1023 Reg.SLT_FAULT.reg.off) = some 0x52 := by
  unfold State.mayRead; decide +kernel
theorem wit_claim_reads : zero.mayRead qH 0x12 zero.sys.primary.val (0x1000 + 8 * 129) ∧
    zero.mayRead qH 0x12 (1 - zero.sys.primary.val) (0x1000 + 8 * 129) ∧ zero.sys.primary.val ≤ 1 := by unfold State.mayRead; decide +kernel

/-- DSP_STEAL_CTL of half 1 by H; PRT_LAND, with its block ON or not; a write that the page refuses; one of 2 bytes; the lost half. -/
theorem wit_stores_plain : (up 0x03 1 zero).mayWrite qH 0x03 1 0x110 ∧ plainReg 0x03 0x110 ∧
    ((regAt 0x03 1 0x110).map fun p => (p.1.off, p.2.1, p.2.2, primaryOnly p.1, p.1.fields.any fun f => f.writers != 0)) =
      some (0x110, 1, 0, false, true) ∧ zero.region (drsAddr 0x03 1 0x110) = .drs ∧ 0x110 < clsEnd 0x03 := by
  unfold State.mayWrite plainReg; decide +kernel
theorem wit_stores_acting : (0x03 : Nat) < 19 ∧ 1 < clsCount 0x03 ∧ 0x40 ≤ 0x180 ∧ 0x180 < clsEnd 0x03 ∧
    ((regAt 0x03 1 0x180).map fun p => (p.1.off, p.2.1, p.2.2, primaryOnly p.1, p.1.fields.any fun f => f.writers != 0)) =
      some (0x180, 1, 0, false, true) ∧ (zero.potCheck qH .write (drsAddr 0x03 1 0x180)).ok = true ∧
    zero.cutOff (drsAddr 0x03 1 0x180) = none ∧ zero.region (drsAddr 0x03 1 0x180) = .drs ∧
    (up 0x03 1 zero).blkOn 0x03 1 = true ∧ zero.blkOn 0x03 1 = false ∧ neverHeld 0x03 0x180 = false := by decide +kernel
theorem wit_stores_refused :
    ((zero.setf Reg.POT_CTL.armed 0 1).potCheck qT .write (drsAddr 0x03 0 0x110)).ok = false ∧
    (zero.setf Reg.POT_CTL.armed 0 1).cutOff (drsAddr 0x03 0 0x110) = none ∧
    SMap.get false zero.sys.potSpent (zero.checkerOf qT (drsAddr 0x03 0 0x110)).1 = false ∧
    (zero.potCheck qH .write (drsAddr 0x03 0 0x110)).ok = true ∧ drsWellFormed (drsAddr 0x03 0 0x110) 2 = false ∧
    zero.cutOff (drsAddr 0x03 0 0x110) = none ∧ (lost zero).region (drsAddr 0x03 1 0x110) = .drs ∧
    (lost zero).cutOff (drsAddr 0x03 1 0x110) = some 0x52 := by decide +kernel

/-- Block 271 of class 0x01 (the last core), TI 5 and engine 5 in each state. -/
def blkOf (cls inst st : Nat) : State := zero.setf Reg.PFX_STATE.state (blkKey cls inst) st
def blk (st : Nat) : State := blkOf 0x01 271 st
theorem wit_blocks : 271 < clsCount 0x01 ∧ 0x01 ∈ quietOn ∧ ((blk 0).potCheck qH .write (drsAddr 0x01 271 8)).ok = true ∧
    (blk 0).cutOff (drsAddr 0x01 271 8) = none ∧ (blk 0).region (drsAddr 0x01 271 8) = .drs ∧
    enableWriters 0x01 &&& qH.actor.bit ≠ 0 ∧ enableWriters 0x06 &&& qT.actor.bit = 0 ∧
    (blk 4).rf Reg.PFX_STATE.state (blkKey 0x01 271) = 4 ∧ (blk 1).rf Reg.PFX_STATE.state (blkKey 0x01 271) = 1 ∧
    SMap.get [] (blk 1).heldWrites (blkKey 0x01 271) = [] ∧ (blk 3).rf Reg.PFX_STATE.state (blkKey 0x01 271) = 3 ∧
    (blk 3).stopReady 0x01 271 = true := by decide +kernel
theorem wit_blocks_other : 5 < clsCount 0x0A ∧ 5 < clsCount 0x02 ∧ (blkOf 0x0A 5 1).rf Reg.PFX_STATE.state (blkKey 0x0A 5) = 1 ∧
    (blkOf 0x0A 5 1).rb Reg.TIF_SHADOW.enable 5 = false ∧ (blkOf 0x0A 5 3).stopReady 0x0A 5 = true ∧
    (blkOf 0x02 5 3).stopReady 0x02 5 = true ∧ 0x02 ∉ quietOn ∧ Status.listed 0x83 = true ∧ Status.listed 0x7F = false ∧
    (blk 1).blkLimited 0x01 271 = true ∧ (blk 3).blkLimited 0x01 271 = true ∧ (blkOf 0x02 5 3).blkLimited 0x02 5 = false := by decide +kernel

/-- Entries 64 and 65: free, held by T pre-emptibly or not, and held by H. -/
def land (n owner pre : Nat) : State :=
  ((zero.setf Reg.PRT_CLAIM.held 0 1 n).setf Reg.PRT_CLAIM.owner_actor 0 owner n).setf Reg.PRT_CLAIM.preemptible 0 pre n
theorem wit_claims : landActor 64 qT.actor ∧ landActor 65 qM.actor ∧ zero.rb Reg.PRT_CLAIM.held 0 64 = false ∧
    (land 65 0 1).rb Reg.PRT_CLAIM.held 0 65 = true ∧ (land 65 0 1).rf Reg.PRT_CLAIM.owner_actor 0 65 = 0 ∧
    (land 65 0 1).rb Reg.PRT_CLAIM.preemptible 0 65 = true ∧ (land 65 0 0).rb Reg.PRT_CLAIM.preemptible 0 65 = false ∧
    (land 65 0 0).rf Reg.PRT_CLAIM.owner_actor 0 65 ≠ qH.actor.code ∧ (land 65 2 0).rf Reg.PRT_CLAIM.owner_actor 0 65 = qH.actor.code ∧
    (land 65 3 1).rf Reg.PRT_CLAIM.owner_actor 0 65 ≠ qH.actor.code ∧ 2 ≤ (land 65 3 1).rf Reg.PRT_CLAIM.owner_actor 0 65 ∧
    (∀ p ∈ [(qT, (0 : Fin 64)), (qH, 63), (qM, 1)], landActor 65 p.1.actor) := by
  unfold landActor; decide +kernel
/-- Comparator 63, free, held by T pre-emptibly or not, and held by H. -/
def strOn (s : State) : State := up 0x08 0 s
def cmpClaim (owner pre : Nat) : State :=
  (strOn (land 63 owner pre)).setf Reg.PRT_CLAIM.owner_class 0 0x08 63
theorem wit_comparator_claims : (strOn zero).mayWrite qH 0x08 (strOn zero).strP (0x1010 + 32 * 63) ∧
    (cmpClaim 0 1).mayWrite qH 0x08 (cmpClaim 0 1).strP (0x1010 + 32 * 63) ∧ Reg.STR_CMP_CTL.enable.admits qH.actor = true ∧
    (strOn zero).rb Reg.PRT_CLAIM.held 0 63 = false ∧ (cmpClaim 0 1).rb Reg.PRT_CLAIM.held 0 63 = true ∧
    (cmpClaim 0 1).rf Reg.PRT_CLAIM.owner_actor 0 63 < 2 ∧ (cmpClaim 0 1).rb Reg.PRT_CLAIM.preemptible 0 63 = true ∧
    (cmpClaim 0 0).rb Reg.PRT_CLAIM.preemptible 0 63 = false ∧ (cmpClaim 0 0).rf Reg.PRT_CLAIM.owner_actor 0 63 ≠ qH.actor.code ∧
    (cmpClaim 2 0).rf Reg.PRT_CLAIM.owner_actor 0 63 = qH.actor.code ∧ (cmpClaim 2 0).rf Reg.PRT_CLAIM.owner_class 0 63 = 0x08 := by
  unfold State.mayWrite; decide +kernel
/-- Save slot 31 of half 1 (entry 129) for channel 63 of TI 5, whose quota is 1, free and held by channel 62. -/
def slotS : State :=
  (((up 0x0C 1 zero).setf Reg.KAO_CHAN_CFG.enable 1 1 63).setf Reg.KAO_CHAN_BIND.ti 1 5 63).setf Reg.TIF_QUOTA.kao_slots 5 1
def slotHeld (ch n : Nat) : State := (slotS.setf Reg.KAO_SLOT.enable 1 1 n).setf Reg.KAO_SLOT.chan 1 ch n
def slotsUsed (s : State) : Nat :=
  ((List.range 32).filter fun m => s.rb Reg.KAO_SLOT.enable 1 m && s.rf Reg.KAO_CHAN_BIND.ti 1 (s.rf Reg.KAO_SLOT.chan 1 m) == 5).length
theorem wit_slot_claims : (129 - 66) / 32 = 1 ∧ (129 - 66) % 32 = 31 ∧ slotS.mayWrite qH 0x0C 1 (0xC00 + 8 * 31) ∧
    Reg.KAO_SLOT.enable.admits qH.actor = true ∧ slotS.rf Reg.KAO_CHAN_BIND.ti 1 63 = 5 ∧ slotsUsed slotS = 0 ∧
    min 32 (slotS.rf Reg.TIF_QUOTA.kao_slots 5) = 1 ∧ slotS.rb Reg.KAO_CHAN_CFG.enable 1 63 = true ∧ slotS.mayUse qH.actor 5 = true ∧
    slotS.rb Reg.KAO_SLOT.enable 1 31 = false ∧ slotS.rb Reg.PRT_CLAIM.held 0 129 = false ∧
    slotsUsed (slotHeld 63 30) = 1 ∧ (slotHeld 63 30).mayWrite qH 0x0C 1 (0xC00 + 8 * 31) ∧
    (slotHeld 63 30).rb Reg.KAO_SLOT.enable 1 31 = false ∧ slotsUsed (slotHeld 62 31) = 0 ∧
    (slotHeld 62 31).mayWrite qH 0x0C 1 (0xC00 + 8 * 31) ∧ (slotHeld 62 31).rb Reg.KAO_SLOT.enable 1 31 = true ∧
    (slotHeld 62 31).rf Reg.KAO_SLOT.chan 1 31 ≠ 63 ∧ ((slotHeld 62 31).kchan 1 62).job = none := by
  unfold State.mayWrite; decide +kernel

/-- Line 7 (0x1C0) with a request of core 0 and core 1's copy. -/
def home (l : LineHome) (s : State := kst kcore) : State := (s.updLine 7 fun _ => l).syncNet 7
def asks (k : HomeKind) : LineHome := { LineHome.empty with queue := [⟨k, 0, false⟩] }
theorem wit_homes : let r : HomeReq := ⟨.readShared, 0, false⟩
    ((home (asks .readShared)).lineHome 7).txn = none ∧ ((home (asks .readShared)).lineHome 7).queue = [r] ∧
    (home (asks .readShared)).homeAdmits r .read 7 = true ∧ ((home (asks .readShared)).lineHome 7).owner = none ∧
    ((home (asks .readShared)).lineHome 7).sharers = [] ∧ ((home (asks .readShared)).allocLine 7 0).isSome = true ∧
    ((home { asks .readShared with owner := some 1, recorded := .d }).lineHome 7).owner = some 1 ∧
    ((home { asks .readShared with owner := some 1, recorded := .d }).allocLine 7 0).isSome = true ∧
    ((home { asks .readShared with sharers := [1] }).lineHome 7).sharers = [1] ∧
    ((home { asks .readShared with sharers := [1] }).allocLine 7 0).isSome = true ∧
    ((dram (zero.setf Reg.POT_CTL.armed 0 1)).homeAdmits r .read 7) = false ∧
    ((home (asks .upgrade)).lineHome 7).queue = [⟨.upgrade, 0, false⟩] ∧ ((home (asks .readOwn)).lineHome 7).queue = [⟨.readOwn, 0, false⟩] ∧
    (home (asks .readShared)).coh.mesh = [] ∧ ((home (asks .nearAtomic)).core 0).wait = .none := by decide +kernel
/-- Line 7 asked for while the 24 places of its directory set hold lines that run transactions. -/
def busyLine (n : Nat) : LineHome :=
  let x : HomeTxn := ⟨⟨.readOwn, 0, false⟩, 0, [], [1], [], true, none, none, false, false, false⟩
  { LineHome.empty with owner := some 1, recorded := .d, alloc := n + 1, txn := some x }
/-- The first 24 lines of line 7's set and slice. -/
def setLines : List Nat := ((List.range 3000).filterMap fun i =>
  if (kst kcore).homeSlice ((7 + 4096 * (i + 1)) * 64) 0 == (kst kcore).homeSlice (7 * 64) 0 then some (7 + 4096 * (i + 1)) else none).take 24
def crowded (k : HomeKind) : State :=
  let s := kst kcore
  { s with coh := { s.coh with lines := (7, asks k) :: (setLines.zip (List.range 24)).map fun p => (p.1, busyLine p.2) } }
theorem wit_homes_full : (crowded .readOwn).allocLine 7 0 = none ∧ ((crowded .readOwn).lineHome 7).queue = [⟨.readOwn, 0, false⟩] ∧
    (crowded .readShared).homeAdmits ⟨.readShared, 0, false⟩ .read 7 = true := by decide +kernel
/-- Core 0 waits for its near CAS at 0x1F0. -/
def nearS : State := home (asks .nearAtomic) (kst { kcore with wait := .near (kw .cas ||| 0x400) 0x1F0 })
def nearT : State := (((nearS.takeReq 7).dropLine 7).fillL3 7).updCore 0 fun k => { k with wait := .none }
theorem wit_near : (nearS.core 0).wait = .near (kw .cas ||| 0x400) 0x1F0 ∧ can nearT .cas (kw .cas ||| 0x400) = true ∧
    mayAccess (after nearT) .atomic true 0x1F0 8 none 0x1F0 false = true ∧
    (afterCheck (after nearT) .atomic true 0x1F0 8 none).core 0 = (after nearT).core 0 ∧
    ((afterCheck (after nearT) .atomic true 0x1F0 8 none).core 0).sb = [] ∧
    (afterCheck (after nearT) .atomic true 0x1F0 8 none).cutOff 0x1F0 = none := by decide +kernel

/-- A transaction of core 0 on line 7 in each of its stages. -/
def txn0 : HomeTxn := ⟨⟨.readOwn, 0, false⟩, 0, [(1, .own), (2, .inv)], [1, 2], [3], true, none, none, true, false, false⟩
def running0 (x : HomeTxn) (s : State := kst kcore) : State := home { asks .readOwn with txn := some x } s
def farCore : CoreId := ⟨136, by decide⟩
theorem wit_transactions : (running0 txn0).homeSlice (7 * 64) 0 / 64 = 0 ∧
    ((running0 txn0).lineHome 7).txn = some txn0 ∧ (2, SnpKind.inv) ∈ txn0.snoops ∧ (running0 txn0).arrives (.snoop 7 2) = true ∧
    (running0 txn0).arrives (.snoop 7 1) = true ∧ ((running0 txn0).lineHome 7).hold ≠ some 1 ∧
    ((home { asks .readOwn with txn := some txn0, hold := some 1 }).lineHome 7).hold = some 1 ∧
    (3 : CoreId) ∈ txn0.answers ∧ (running0 txn0).arrives (.answer 7 3) = true ∧ (2 : CoreId) ∈ txn0.waiting ∧
    (running0 { txn0 with snoops := [(1, .read)] }).arrives (.snoop 7 1) = true ∧ txn0.needData = true ∧
    (running0 { txn0 with answers := [farCore] }).arrives (.farAnswer 7) = true ∧ coreHalf farCore.val ≠ 0 := by decide +kernel
theorem wit_transaction_ends : (running0 { txn0 with dataMsg := some .d }).arrives (.data 7) = true ∧
    (running0 txn0).mem.onDie = [] ∧ ((running0 txn0).rasHalf ((running0 txn0).homeHalf (64 * 7) 0)).inject = none ∧
    (⟨.readShared, 0, false⟩ : HomeReq).owns = false ∧ txn0.req.owns = true ∧ ((running0 txn0).core 0).clay = false ∧
    (running0 { txn0 with grantMsg := true }).arrives (.grant 7) = true ∧ txn0.gotData = true ∧ ((running0 txn0).core 0).wait = .none ∧
    ((running0 txn0).core 0).sb = [] ∧ ((running0 txn0 kdrain).core 0).sb = [⟨0x1F0, List.replicate 16 5⟩] ∧ 0x1F0 / 64 = 7 ∧
    (running0 { txn0 with grantMsg := true } kdrain).arrives (.grant 7) = true ∧ (running0 txn0 kdrain).cutOff 0x1F0 = none ∧
    (running0 { txn0 with ackMsg := true }).arrives (.ack 7) = true ∧
    ((home { asks .readOwn with txn := some { txn0 with ackMsg := true }, owner := some 4, evicted := [4] }).lineHome 7).evicted = [4] := by
  decide +kernel
theorem wit_transaction_tlbi : noTlbi (running0 { txn0 with grantMsg := true }) ∧ noTlbi (running0 { txn0 with grantMsg := true } kdrain) :=
  ⟨no_tlbi (k := kcore) rfl (fun _ _ h => by cases h),
    no_tlbi (k := { kcore with sb := [⟨0x1F0, List.replicate 16 5⟩] }) rfl (fun _ _ h => by cases h)⟩
/-- The tick `limit` after the transaction began, and the tick before. -/
def atTick (n : Nat) (s : State) : State := { s with strata := { s.strata with tick := n } }
theorem wit_transaction_limits : let lim := 1000 * max 1 ((running0 txn0).rf Reg.RAS_HOME_CTL.limit_us 0)
    txn0.since + lim ≤ (atTick lim (running0 txn0)).strata.tick ∧ (atTick (lim - 1) (running0 txn0)).strata.tick < txn0.since + lim ∧
    coreHalf (2 : CoreId).val = 0 ∧ (2 : CoreId) ≠ txn0.req.core ∧ txn0.dataFrom = none ∧
    ((atTick lim (running0 { txn0 with dataMsg := some .d })).lineHome 7).txn = some { txn0 with dataMsg := some .d } := by decide +kernel
/-- Core 0's modified line, its L line whose home still holds other bytes, and its clean lines. -/
def oldL : State := (kat .l).updLine 7 fun l => { l with owner := some 0, recorded := .l, stale := some ⟨List.replicate 64 0, 0, false, false⟩ }
theorem wit_evictions : (kat .d).lstate 0 (0x1F0 / 64) = .d ∧ (kat .x).lstate 0 (0x1F0 / 64) = .x ∧
    (kat .l).lstate 0 (0x1F0 / 64) = .l ∧ ((kat .l).lineHome 7).stale = none ∧ oldL.lstate 0 7 = .l ∧ (oldL.lineHome 7).stale ≠ none ∧
    (oldL.lineHome 7).txn = none ∧ (oldL.lineHome 7).owner = some 0 := by decide +kernel

/-- Core 0's device load and store of DSP_STEAL_CTL of half 0, and of the PCIe configuration and memory spaces. -/
def devS (w : IWord) (a v : Nat) (wr : Bool) : State :=
  let s := kst { kcore with wait := .device w [(a, v, true)] [] }
  admits (s.coreReq 0) a { s with coh := { s.coh with dev := [⟨0, wr, a, 8, v⟩] } }
def noDev (s : State) : State := { s with coh := { s.coh with dev := [] } }
theorem wit_dev : let a := drsAddr 0x03 0 0x110
    kxOp (kw .ld) = some .ld ∧ ((devS (kw .ld) a 0 false).core 0).wait = .device (kw .ld) [(a, 0, true)] [] ∧
    (devS (kw .ld) a 0 false).region a = .drs ∧ ((noDev (devS (kw .ld) a 0 false)).potCheck ((devS (kw .ld) a 0 false).coreReq 0) .read a).ok = true ∧
    (devS (kw .ld) a 0 false).cutOff a = none ∧ (devS (kw .sd) a 5 true).cutOff a = none ∧
    kxOp (kw .sd) = some .sd ∧ ((noDev (devS (kw .sd) a 5 true)).potCheck ((devS (kw .sd) a 5 true).coreReq 0) .write a).ok = true ∧
    ((noDev (devS (kw .sd) a 5 true)).drsStore ((devS (kw .sd) a 5 true).coreReq 0) a 8 5).core 0 = (devS (kw .sd) a 5 true).core 0 := by decide +kernel
theorem wit_dev_tlbi (w : IWord) (a v : Nat) (wr : Bool) (h : (devS w a v wr).cores = [(0, { kcore with wait := .device w [(a, v, true)] [] })]) :
    noTlbi (devS w a v wr) := no_tlbi h (fun _ _ h => by cases h)
theorem wit_dev_cores : (devS (kw .ld) (drsAddr 0x03 0 0x110) 0 false).cores = [(0, { kcore with wait := .device (kw .ld) [(drsAddr 0x03 0 0x110, 0, true)] [] })] ∧
    (devS (kw .ld) 0xE000000000000 0 false).cores = [(0, { kcore with wait := .device (kw .ld) [(0xE000000000000, 0, true)] [] })] ∧
    (devS (kw .sd) 0xE000000000000 5 true).cores = [(0, { kcore with wait := .device (kw .sd) [(0xE000000000000, 5, true)] [] })] := by decide +kernel
theorem wit_dev_pcie : (devS (kw .ld) 0xD00007FFFFFF8 0 false).region 0xD00007FFFFFF8 = .pcie 7 ∧
    (devS (kw .ld) 0xE000000000000 0 false).region 0xE000000000000 = .pcie 0 ∧ (devS (kw .ld) 0xE000000000000 0 false).cutOff 0xE000000000000 = none ∧
    (devS (kw .sd) 0xE000000000000 5 true).region 0xE000000000000 = .pcie 0 ∧ (devS (kw .sd) 0xE000000000000 5 true).cutOff 0xE000000000000 = none ∧
    ((devS (kw .ld) 0xE000000000000 0 false).core 0).depth < 13 ∧ ((devS (kw .ld) 0xE000000000000 0 false).core 0).clay = false := by decide +kernel

/-! ## Custody, Hardpan -/

/-- The custody unit with a store of 64 objects and arguments. -/
def keyS (a0 a1 a2 a3 : Nat) (objs : SMap (Option KeyObj) := keyObjs) : State :=
  (((((up 0x06 0 { zero with custody := { zero.custody with objs := objs } }).setf Reg.HPN_STORE_SIZE.size 0 64).setf
    Reg.HPN_KEY_ARG.arg 0 a0 0).setf Reg.HPN_KEY_ARG.arg 0 a1 1).setf Reg.HPN_KEY_ARG.arg 0 a2 2).setf Reg.HPN_KEY_ARG.arg 0 a3 3
theorem wit_key_can : keyCan qH 0 (keyS 1 0 0 0) := by unfold keyCan State.mayWrite; decide +kernel
theorem wit_create : (keyS 8 0 0 0).keyArg 0 = 8 ∧ attrOk 8 = true ∧ algRandom (attrAlg 8) = true ∧ attrAlg 8 ≠ 14 ∧
    (keyS 8 0 0 0).freeObjs ≠ [] ∧ (keyS 14 0 0 0).keyArg 0 = 14 ∧ attrOk 14 = true ∧ algRandom (attrAlg 14) = true := by decide +kernel
/-- DRAM whose table, at 0, gives the pages 8 to 24 to Hardpan. -/
def hpages (s : State) : State :=
  ((dram s).setf Reg.POT_CTL.armed 0 1).pokeHome 1 0x40 ((List.replicate 17 (leBytes 8 0x3B)).flatten)
theorem wit_install : let s := hpages (keyS 15 8 0x8000 0)
    s.argObj 0 (some false) = some (15, ⟨7 * 2 ^ 26, 1, [], none⟩) ∧ attrOk (s.keyArg 1) = true ∧ attrAlg (s.keyArg 1) ≠ 0 ∧
    (match ((keyAt 0 s 3).custodyRead (s.keyArg 2) (32 * algParts (s.keyArg 1))).1 with | .ok _ => true | .error _ => false) = true := by decide +kernel
/-- Object 1 without and with staged material; the source of a STAGE. -/
def staged1 : KeyObj := { keyObj 1 255 1 with staged := some [5] }
theorem wit_stage : (hpages (keyS (2 ^ 32 + 1) 0x8000 0 0)).argObj 0 (some true) = some (1, keyObj 1 255 1) ∧
    (hpages (keyS (2 ^ 32 + 1) 0x8000 0 0)).keyPoisoned (2 ^ 32 + 1) = false ∧ (hpages (keyS (2 ^ 32 + 1) 0x8000 0 0)).keyArg 1 ≠ 0 ∧
    (match ((keyAt 0 (hpages (keyS (2 ^ 32 + 1) 0x8000 0 0)) 4).custodyRead 0x8000 32).1 with | .ok _ => true | .error _ => false) = true ∧
    (keyS 1 0 0 0).argObj 0 (some true) = some (1, keyObj 1 255 1) ∧ (keyS 1 0 0 0).keyArg 1 = 0 ∧ algRandom (attrAlg (keyObj 1 255 1).attr) = true ∧
    attrAlg (keyObj 1 255 1).attr ≠ 14 ∧ (keyObj 1 255 1).staged = none ∧ attrAlg (keyObj 14 255 rsaNum).attr = 14 ∧
    (keyS (2 ^ 32 + 14) 0 0 0).argObj 0 (some true) = some (14, keyObj 14 255 rsaNum) ∧
    (keyS (2 ^ 32 + 14) 0 0 0).keyPoisoned (2 ^ 32 + 14) = false ∧
    (keyS 1 0 0 0 [(1, some staged1)]).argObj 0 (some true) = some (1, staged1) ∧ staged1.staged = some [5] := by decide +kernel
theorem wit_promote_at :
    let s := ((keyS 1 5 (2 ^ 16) 63 [(1, some staged1)]).setf Reg.PRT_CLAIM.held 0 1 63).setf Reg.PRT_CLAIM.owner_class 0 Cls.str 63 |>.setf
      Reg.PRT_CLAIM.owner_actor 0 2 63
    s.keyArg 3 = 63 ∧ s.cmpOwner 63 .h = true ∧ s.rb Reg.STR_CMP_CTL.armed 0 63 = false ∧
    (strataOf (s.keyArg 1 + s.keyArg 2 % 2 ^ 32 * 2 ^ 64)).isSome = true := by decide +kernel
theorem wit_destroy : (keyS 15 0 0 0).argObj 0 none = some (15, ⟨7 * 2 ^ 26, 1, [], none⟩) := by decide +kernel
theorem wit_unwrap : let s := hpages { keyS 0x8000 0 0 0 with custody := { zero.custody with objs := keyObjs, wraps := [([0], keyObj 8 1 5)] } }
    (keyAt 0 s 10).hardpanPages (s.keyArg 0) 1 = true ∧ (keyAt 0 s 10).unwrapAt (s.keyArg 0) = some (keyObj 8 1 5, 1) ∧
    (match ((keyAt 0 s 10).custodyRead (s.keyArg 0) 1).1 with | .ok _ => true | .error _ => false) = true ∧
    ((keyAt 0 s 10).custodyRead (s.keyArg 0) 1).2.sys = s.sys ∧ ((keyAt 0 s 10).custodyRead (s.keyArg 0) 1).2.freeObjs ≠ [] := by decide +kernel
theorem wit_mek : (keyS 1027 0 0 0).keyArg 0 < 1028 ∧ (keyS 1027 0 0 0).keyArg 0 ≠ 1025 ∧ (keyS 1025 0 0 0).keyArg 0 = 1025 := by decide +kernel
theorem wit_key_refused : (keyS 0 0 0 0).mayWrite qM 0x06 0 0x300 ∧ qM.actor ≠ .h ∧
    ((keyS 0 0 0 0).setf Reg.HPN_KEY_CMD.busy 0 1).rb Reg.HPN_KEY_CMD.busy 0 = true ∧
    ((keyS 0 0 0 0).setf Reg.HPN_KEY_CMD.busy 0 1).mayWrite qH 0x06 0 0x300 ∧
    ({ keyS 0 0 0 0 with sys := { zero.sys with mode := .seal } } : State).mayWrite qH 0x06 0 0x300 := by unfold State.mayWrite; decide +kernel

/-- A wrap whose length is open: every length up to 65,536 fits the seventeen pages. -/
theorem pages_all (P : Nat → Prop) (n : Nat) (h0 : 0 < n) (h1 : n ≤ 65536) (h : ∀ i, i < 17 → P (0x8000 + 4096 * i)) :
    ∀ p ∈ pagesOf 0x8000 n, P p := by
  intro p hp
  unfold pagesOf at hp
  rw [if_neg (by omega)] at hp
  simp only [List.mem_cons, List.mem_map, List.mem_range] at hp
  obtain rfl | ⟨k, hk, rfl⟩ := hp
  · exact h 0 (by omega)
  · have hh := h (k + 1) (by omega)
    rwa [show (0x8000 / 4096 + k + 1) * 4096 = 0x8000 + 4096 * (k + 1) by omega]
theorem first_ok (s : State) (q : Requester) (acc : Acc) (l : List Nat)
    (h : ∀ p ∈ l, s.region p ≠ .unmapped ∧ (s.potCheck q acc p).ok = true) : s.firstBad q acc l = none := by
  induction l with
  | nil => rfl
  | cons p ps ih =>
    have hp := h p (by simp)
    unfold State.firstBad
    rw [if_neg hp.1]
    simp only [hp.2, if_true]
    exact ih fun x hx => h x (by simp [hx])
def wrapS : State := keyAt 0 (hpages (keyS 1 0x8000 0 0)) 9
theorem wit_wrap (bs : List Byte) (h0 : 0 < bs.length) (h1 : bs.length ≤ 65536) :
    wrapS.hardpanPages 0x8000 bs.length = true ∧
    ∃ u, wrapS.drawFree.2.writeMem wrapS.custodyReq 0x8000 bs = (.data [] false, u) := by
  have hp : ∀ i, i < 17 → wrapS.hardpanPage (0x8000 + 4096 * i) = true := by decide +kernel
  have hq : ∀ i, i < 17 → wrapS.drawFree.2.region (0x8000 + 4096 * i) ≠ .unmapped ∧
      (wrapS.drawFree.2.potCheck wrapS.custodyReq .write (0x8000 + 4096 * i)).ok = true := by decide +kernel
  refine ⟨List.all_eq_true.mpr (pages_all _ _ h0 h1 hp), ?_⟩
  unfold State.writeMem
  rw [first_ok _ _ _ _ (pages_all _ _ h0 h1 hq)]
  exact ⟨_, rfl⟩

/-- A generation in progress, a promotion in flight and one about to be applied. -/
def gens (g : Generation) : State := { keyS 0 0 0 0 with custody := { zero.custody with objs := keyObjs, generating := some g } }
def promo : State :=
  { (keyS 0 0 0 0).setf Reg.STR_CMP_CTL.armed 0 1 63 with custody := { zero.custody with objs := [(1, some staged1)], promotes := [(1, 200 * 65536, 63)] } }
theorem wit_generations : (gens (.create 14)).custody.generating = some (.create 14) ∧ (gens (.create 14)).freeObjs ≠ [] ∧
    (gens (.stage 1)).custody.generating = some (.stage 1) ∧ (gens (.stage 1)).custodyObj 1 = some (keyObj 1 255 1) ∧
    promo.custody.promotes.find? (fun p => p.2.2 == 63) = some (1, 200 * 65536, 63) ∧ 200 * 65536 ≤ promo.strata.time + 200 * 65536 ∧
    promo.rb Reg.STR_CMP_CTL.armed 0 63 = true ∧ promo.custodyObj 1 = some staged1 := by decide +kernel
def cut0 : State := later { promo with custody := { promo.custody with cuts := [⟨1, 1, 2, 0, true, []⟩] } }
/-- The slot of object 1, at 0x1000 of DRAM, may be written. -/
theorem wit_slot : let s := hpages (keyS 8 0 0 0 |>.setf Reg.HPN_STORE_BASE.base 0 8)
    s.rf Reg.HPN_STORE_BASE.base s.strP * 4096 + 4096 * 1 = 0x9000 ∧
    s.firstBad (hwReq s.sys.primary (hStop s.strP)) .write (pagesOf 0x9000 4096) = none ∧ s.region 0x9000 ≠ .drs := by decide +kernel
def cut3 : State := later { promo with custody := { promo.custody with cuts := [⟨1, 1, 2, 0, false, [3, 15]⟩] } }
theorem wit_cut_cluster : cut3.custody.cuts = [⟨1, 1, 2, 0, false, [3, 15]⟩] ∧ (15 : Fin 17).val < 16 ∧ (15 : Fin 17).val ∈ [3, 15] ∧
    0 ≤ cut3.replica (clusterStop 15) := ⟨by decide +kernel, by decide, by decide, Nat.zero_le _⟩
theorem wit_cut : cut0.custody.cuts = [⟨1, 1, 2, 0, true, []⟩] ∧ cut0.custodyObj 1 = some staged1 ∧ 0 ≤ cut0.replica (hStop cut0.strP) :=
  ⟨by decide +kernel, by decide +kernel, Nat.zero_le _⟩

/-! ## Hardpan, tamper, holds -/

def hup : State := up 0x0F 0 (up 0x07 0 (up 0x06 0 (up 0x06 1 zero)))
theorem wit_pot : hup.mayWrite qH 0x07 0 0x100 ∧ hup.mayWrite qH 0x07 0 0x148 ∧ hup.rb Reg.POT_INVAL.busy 0 = false ∧
    (hup.setf Reg.POT_CTL.armed 0 1).rf Reg.POT_CTL.armed 0 = 1 ∧ (hup.setf Reg.POT_CTL.armed 0 1).mayWrite qH 0x07 0 0x100 ∧
    (hup.setf Reg.POT_INVAL.busy 0 1).rb Reg.POT_INVAL.busy 0 = true ∧ (hup.setf Reg.POT_INVAL.busy 0 1).mayWrite qH 0x07 0 0x148 ∧
    (dram (hup.setf Reg.POT_CTL.armed 0 1)).potIndex 0xFFFFFFFF = some (0, 0xFFFFF) ∧
    (dram (hup.setf Reg.POT_CTL.armed 0 1)).rb Reg.POT_CTL.armed ((dram (hup.setf Reg.POT_CTL.armed 0 1)).checkerOf qH 0xFFFFFFFF).1 = true := by
  unfold State.mayWrite; decide +kernel

/-- Hardpan in one of its states, in both halves. -/
def hpAt (st : Nat) (s : State := hup) : State := (s.setf Reg.HPN_STATUS.state 0 st).setf Reg.HPN_STATUS.state 1 st
theorem wit_hardpan : (hpAt 0).mayWrite qH 0x06 0 0x108 ∧ (0 : Half) = (hpAt 0).sys.primary ∧
    (hpAt 0).rf Reg.HPN_HEARTBEAT.count 0 ≠ (1 : Word).toNat % 2 ^ 32 ∧ (hpAt 0).rf Reg.HPN_STATUS.state 0 = 0 ∧
    (hpAt 1).rf Reg.HPN_STATUS.state 0 = 1 ∧ (hpAt 1).hpPresent (hpAt 1).strP = true ∧ (hpAt 2).rf Reg.HPN_STATUS.state (hpAt 2).strP = 2 ∧
    (hpAt 2).rb Reg.HPN_RESTART.auto (hpAt 2).strP = true ∧ (hpAt 2).mayWrite qM 0x06 0 0x110 ∧ qM.actor = .m ∧
    (hpAt 3).rf Reg.HPN_STATUS.state (hpAt 3).strP = 3 ∧ ((hpAt 3).core (hpAt 3).bootCore).run = .reset := by
  unfold State.mayWrite; decide +kernel
/-- A Topsoil core in Hardpan world through one frame, with the call's stub running and Hardpan gone. -/
def kgone : State := { zero with cores := [(0, { kcore with hard := true, level := 3, inStub := true, frames := [⟨0, 4, [], true⟩, ⟨0x200, 1, [], false⟩] })] }
theorem wit_unwind : (kgone.core 0).hard = true ∧ kgone.coreIsHardpan 0 = false ∧
    (kgone.core 0).frames.dropWhile (fun x => x.hard) = [⟨0x200, 1, [], false⟩] ∧ (kgone.core 0).inStub = true ∧
    kgone.hpPresent (coreHalf 0) = false := by decide +kernel

/-- FIELD with loop 0 armed; TAMPER_AUX claimed by H; WATCH with the loops armed in VAON. -/
def inMode (m : Mode) (s : State := hup) : State := { s with sys := { s.sys with mode := m } }
def auxS : State := atTick 10000 (((inMode .field).setf Reg.PRT_CLAIM.held 0 1 64).setf Reg.PRT_CLAIM.owner_actor 0 2 64)
theorem wit_tamper : (inMode .field).sys.mode ≠ .watch ∧ (inMode .field).sys.mode ≠ .off ∧
    ((inMode .field).setf Reg.HPN_TAMPER.arm 0 0x1F |>.rf Reg.HPN_TAMPER.arm 0).testBit 3 = true ∧
    ((inMode .field).setf Reg.HPN_TAMPER.arm 0 0x1F).rb Reg.HPN_TAMPER.latch 0 = false ∧
    ((inMode .field).setf Reg.HPN_TAMPER.arm 0 0 |>.rf Reg.HPN_TAMPER.arm 0).testBit 0 = false ∧ auxS.tamperAux = true ∧ auxS.prt.landFrom + 10000 ≤ auxS.strata.tick ∧
    ({ inMode .watch with tlt := { zero.tlt with vaonArm := 0xF } } : State).sys.mode = .watch ∧ (0xF : Nat).testBit 3 = true ∧
    (inMode .field).mayWrite qH 0x06 0 0x150 ∧
    (inMode .field).mayWrite qH 0x06 0 0x140 := by
  unfold State.mayWrite; decide +kernel

/-- Domain 158, the last, held and not, with latched requests. -/
def dom (f : Fld) (s : State := hup) : State := s.setf f 0 1 158
theorem wit_hold_mesh : hup.mayWrite qH 0x0F 0 (0x2000 + 8 * 144) ∧
    SMap.get false ({ hup with sys := { hup.sys with meshSlow := [(0, true)] } } : State).sys.meshSlow 0 = true ∧
    ({ hup with sys := { hup.sys with meshSlow := [(0, true)] } } : State).mayWrite qH 0x0F 0 (0x2000 + 8 * 144) ∧
    1500 < (0x7D01 : Word).toNat / 2 ^ 4 % 2 ^ 12 ∧ (0x7D01 : Word).toNat % 2 = 1 := by unfold State.mayWrite; decide +kernel
theorem wit_holds : hup.mayWrite qH 0x0F 0 (0x2000 + 8 * 158) ∧ (dom Reg.PWR_HOLD.pend_gate).held 0 158 = false ∧
    (dom Reg.PWR_HOLD.pend_gate).hasPend 0 158 = true ∧ (dom Reg.PWR_HOLD.pend_off).hasPend 0 158 = true ∧
    (dom Reg.PWR_HOLD.hold).held 0 158 = true ∧ (dom Reg.PWR_HOLD.hold).railFeedsHardpan 5 = false ∧
    (dom Reg.PWR_HOLD.hold (inMode .field)).rb Reg.HPN_TAMPER.latch 0 = false ∧ (dom Reg.PWR_HOLD.hold (inMode .field)).sys.mode ≠ .off ∧
    (dom Reg.PWR_HOLD.hold (inMode .field)).sys.mode ≠ .watch := by unfold State.mayWrite; decide +kernel

/-! ## Strata, comparators, ledger -/

/-- The time base with a source (1 soft, 2 pulses) in a state, and a change due. -/
def strS (src st : Nat) (s : Strata := zero.strata) : State :=
  (((up 0x08 0 { zero with strata := s }).setf Reg.STR_CTL.source 0 src).setf Reg.STR_STATUS.state 0 st)
theorem wit_strata : (0 : Half) = (strS 0 0).sys.primary ∧ (strS 0 0).mayWrite qH 0x08 0 0x100 ∧ (strS 0 0).mayWrite qH 0x08 0 0x120 ∧
    (strS 0 0).mayWrite qH 0x08 0 0x128 ∧ (strS 0 0).mayWrite qH 0x08 0 0x138 ∧ strMay qH (strS 0 0) ∧
    bitOf (0x8000000000000001 : Word).toNat 63 = true ∧ (strS 2 1).strSource = 2 ∧ (strS 1 3).strSource = 1 ∧
    (strataOf ((0x8000000000000001 : Word).toNat % 2 ^ 32 * 2 ^ 64 + (strS 0 0).rf Reg.STR_SET_LO.value 0)).isSome = true ∧
    strataOf ((0x8000000000000001 : Word).toNat % 2 ^ 32 * 2 ^ 64 + ((strS 0 0).setf Reg.STR_SET_LO.value 0 (10 ^ 9 * 65536)).rf Reg.STR_SET_LO.value 0) = none := by
  unfold State.mayWrite strMay; decide +kernel
def strT (off : Nat) : State := admits qT (drsAddr 0x08 0 off) (strS 0 0)
theorem wit_strata_denied : qT.actor = .t ∧ (strT 0x120).rb Reg.STR_CTL.t_discipline 0 = false ∧ (strT 0x120).mayWrite qT 0x08 0 0x120 ∧
    (strT 0x128).mayWrite qT 0x08 0 0x128 ∧ (strT 0x138).mayWrite qT 0x08 0 0x138 := by unfold State.mayWrite; decide +kernel
theorem wit_strata_time :
    (strS 0 0 { zero.strata with tick := 128, changes := [.rate 128 5] }).strata.changes = [.rate 128 5] ∧
    (strS 2 3).strSource = 2 ∧ (strS 2 3).strState = 3 ∧ (strS 2 3).mayWrite qH 0x08 0 0x120 ∧
    (strS 2 2).strSource = 2 ∧ (strS 2 2).strata.setAtEdge = none ∧ (strS 2 1 { zero.strata with setAtEdge := some 0 }).strata.setAtEdge = some 0 ∧
    (strS 2 1).strState = 1 ∧ (strS 2 1 { zero.strata with goodEdges := 2 }).strata.goodEdges = 2 ∧ (strS 2 1).edgeError.natAbs ≤ 20 ∧
    20 < (strS 2 1 { zero.strata with time := 21 * 65536 }).edgeError.natAbs ∧
    max 1 ((strS 2 1).rf Reg.STR_PPS.step_thr_ns (strS 2 1).strP) ≤
      (strS 2 1 { zero.strata with time := 65536 * 400000000 }).edgeError.natAbs ∧
    ((strS 2 1).setf Reg.STR_STATUS.ref10 0 1).rb Reg.STR_STATUS.ref10 0 = true ∧
    (strS 2 1).edgeError.natAbs < max 1 ((strS 2 1).rf Reg.STR_PPS.step_thr_ns (strS 2 1).strP) := by
  unfold State.mayWrite; decide +kernel
theorem wit_source : (strS 2 2 { zero.strata with tick := 1500000000 }).strState = 2 ∧
    (strS 2 2 { zero.strata with tick := 1500000000 }).sourceSilent = true ∧ (strS 2 3 { zero.strata with tick := 1000000000 }).strState = 3 ∧
    0 + ((strS 2 3).rf Reg.STR_STATUS.holdover_s 0 + 1) * 1000000000 ≤ 1000000000 ∧
    (if (strS 2 3).sys.trimmed then 65536 else 4 * 65536) < (0xFFFFFFFFFFFBFFFF : Word).toInt.natAbs := by decide +kernel

/-- Comparator 63 claimed by H, with a time, an action and an argument. -/
def cmpS (time act arg armed : Nat) : State :=
  (((((((strS 0 0).setf Reg.PRT_CLAIM.held 0 1 63).setf Reg.PRT_CLAIM.owner_class 0 Cls.str 63).setf Reg.PRT_CLAIM.owner_actor 0 2 63).setf
    Reg.STR_CMP_TIME_LO.value 0 time 63).setf Reg.STR_CMP_CTL.action 0 act 63).setf Reg.STR_CMP_ARG.arg 0 arg 63).setf
    Reg.STR_CMP_CTL.armed 0 armed 63
theorem wit_compare : (cmpS 0 0 0 0).mayWrite qH 0x08 (cmpS 0 0 0 0).strP (0x1010 + 32 * 63) ∧ (cmpS 0 0 0 0).cmpOwner 63 qH.actor = true ∧
    (1 : Word).toNat % 2 = 1 ∧ (1 : Word).toNat / 4 % 2 = 0 ∧ (cmpS 0 0 0 1).rb Reg.STR_CMP_CTL.armed 0 63 = true ∧
    (cmpS 0 0 0 0).rb Reg.STR_CMP_CTL.armed 0 63 = false ∧ strataOf ((cmpS 0 0 0 0).cmpTime 63) = some 0 ∧
    strataOf ((cmpS (10 ^ 9 * 65536) 0 0 0).cmpTime 63) = none ∧ (strS 0 0).claimHeld 63 = false ∧
    ({ cmpS 0 2 0 0 with custody := promo.custody }).cmpPromotes 63 = true ∧ (cmpS 0 1 (5 * 2 ^ 52) 0).blkOn 0x0A 5 = false ∧
    (cmpS 0 1 (5 * 2 ^ 52) 0).cmpTi 63 = 5 ∧ (up 0x0A 5 (cmpS 0 1 (5 * 2 ^ 52) 0)).blkOn 0x0A 5 = true ∧
    (cmpS 0 1 (5 * 2 ^ 52) 0).rb Reg.TIF_STATUS.resetting 5 = false ∧ (cmpS 0 1 (5 * 2 ^ 52) 0).logRoom ((cmpS 0 1 (5 * 2 ^ 52) 0).tiHome 5) = true ∧
    ((cmpS 0 1 (5 * 2 ^ 52) 0).setf Reg.VRV_STATUS.paused 0 1).logRoom ((cmpS 0 1 (5 * 2 ^ 52) 0).tiHome 5) = false := by
  unfold State.mayWrite; decide +kernel
theorem wit_fire : strataOf ((cmpS 0 0 0 1).cmpTime 63) = some 0 ∧ SMap.get 0 (cmpS 0 0 0 1).strata.armed 63 ≤ (cmpS 0 0 0 1).strata.tick ∧ 0 ≤ (cmpS 0 0 0 1).strata.time ∧
    (cmpS 0 0 0 1).rf Reg.STR_CMP_CTL.action 0 63 = 0 ∧ (cmpS 0 0 0 1).rf Reg.STR_CMP_ARG.arg 0 63 % 2 ^ 32 = 0 ∧
    (cmpS 0 0 1 1).rf Reg.STR_CMP_ARG.arg 0 63 % 2 ^ 32 ≠ 0 ∧ (cmpS 0 1 0 1).rf Reg.STR_CMP_CTL.action 0 63 ≠ 0 := by decide +kernel

/-- A fan-out for TI 5 from the last descriptor of a page, and its entry at engine 5 of pool 3. -/
def fanS : State := admits ((dram (up 0x0A 5 (cmpS 0 1 (5 * 2 ^ 52 + 0xF80 / 128 * 128) 1))).tiReq 5) 0xF80 (dram (up 0x0A 5 (cmpS 0 1 (5 * 2 ^ 52 + 0xF80 / 128 * 128) 1)))
theorem wit_fanout : fanS.rb Reg.STR_CMP_CTL.armed 0 63 = true ∧ fanS.rf Reg.STR_CMP_CTL.action 0 63 = 1 ∧
    (SMap.get Fan.empty fanS.fans 63).entry = none ∧ fanS.sys.mode ≠ .seal ∧ fanS.cmpTi 63 = 5 ∧
    fanS.rf Reg.STR_CMP_ARG.arg 0 63 / 128 % 2 ^ 45 * 128 = 0xF80 ∧
    (match (fanS.readMem (fanS.tiReq 5) .read 0xF80 128).1 with | .data _ false => true | _ => false) = true := by decide +kernel
def timedX : Entry := { timed1 with desc := timed1.desc.set 4 3 }
def placing (gen : Nat) : State :=
  later { pool3 idler idler with fans := [(63, ⟨2, some timedX, false, 0, []⟩)] } |>.setf Reg.TIF_GEN.gen 3 gen
theorem wit_place : SMap.get Fan.empty (placing 0).fans 63 = ⟨2, some timedX, false, 0, []⟩ ∧ timedX.due = some 65536 ∧
    (placing 0).fanEngines 63 timedX = [5, 70] ∧ timedX.gen = (placing 0).tiGen timedX.ti ∧
    ((placing 0).fanEngines 63 timedX).all (fun m => (placing 0).dequeRoom m timedX) = true ∧ timedX.gen ≠ (placing 1).tiGen timedX.ti := by
  decide +kernel
theorem wit_deferred : ([70] : List Nat).find? (fun m => (placing 0).dequeRoom m timedX) = some 70 := by decide +kernel

/-- Varve of half 0 with a copy waiting, of half 1 with a batch closed. -/
def batch0 : Batch := ⟨1, 0, 2, 1, 0, 0, 0, 0, []⟩
def vrvS (h : Nat) (x : Vrv) (zero : State := zero) : State := dram (up 0x09 0 (up 0x09 1 { zero with ledger := { zero.ledger with halves := [(h, x)] } }))
def copy0 : LedgerCopy := ⟨3, 0, List.replicate 32 0⟩
theorem wit_copies : (vrvS 0 { Vrv.empty with copies := [copy0] }).blkOn 0x09 0 = true ∧
    ((vrvS 0 { Vrv.empty with copies := [copy0] }).vrv 0).copies = [copy0] ∧
    ((vrvS 0 { Vrv.empty with copies := [copy0] }).varveWrite 0 0 (copy0.bytes.take 4 ++ leBytes 2 3 ++ leBytes 2 0)).1 = true ∧
    ((vrvS 0 { Vrv.empty with copies := [copy0], opened := some ⟨0, 0, 0, List.replicate 255 []⟩ }).vrv 0).opened =
      some ⟨0, 0, 0, List.replicate 255 []⟩ ∧
    ((vrvS 0 { Vrv.empty with copies := [copy0], opened := some ⟨0, 0, 0, List.replicate 254 []⟩ }).vrv 0).opened =
      some ⟨0, 0, 0, List.replicate 254 []⟩ := by decide +kernel
theorem wit_copies_late : let s := vrvS 0 { Vrv.empty with copies := [copy0], opened := some ⟨0, 0, 0, [[]]⟩ } (atTick 1000 zero)
    let w := s.varveWrite 0 (s.rf Reg.VRV_LEAF.base 0 * 4096 + 8 * (s.rf Reg.VRV_NEXT_LEAF.value 0 % s.leafLog 0))
      (copy0.bytes.take 4 ++ leBytes 2 3 ++ leBytes 2 0)
    s.blkOn 0x09 0 = true ∧ (s.vrv 0).copies = [copy0] ∧ w.1 = true ∧ (w.2.vrv 0).opened = some ⟨0, 0, 0, [[]]⟩ ∧
    0 + 1000 ≤ w.2.strata.tick := by decide +kernel
theorem wit_close : ((vrvS 1 { Vrv.empty with opened := some ⟨0, 0, 0, [[]]⟩ }).vrv 1).opened = some ⟨0, 0, 0, [[]]⟩ ∧
    0 + 1000 ≤ (strS 0 0 { zero.strata with tick := 1000 }).strata.tick := by decide +kernel
theorem wit_secondary : (vrvS 1 Vrv.empty).secondary = some 1 ∧ ((vrvS 1 Vrv.empty).vrv 1).outbox = [] ∧
    ((vrvS 1 { Vrv.empty with outbox := [.batch batch0, .mark 0] }).vrv 1).outbox = [.batch batch0, .mark 0] := by decide +kernel
theorem wit_merge : let s := { vrvS 0 { Vrv.empty with queue := [{ batch0 with half := 0 }] } with sys := { (vrvS 0 Vrv.empty).sys with lostHalf := some 1 } }
    s.blkOn 0x09 s.strP = true ∧ s.mergePick = some (0, { batch0 with half := 0 }) ∧
    (s.varveWrite s.strP (s.rf Reg.VRV_LOG.base s.strP * 4096 + 256 * (0 % s.batchLog s.strP)) (List.replicate 256 0)).1 = true := by decide +kernel
/-- A checkpoint at the first boundary with Hardpan present and a batch in the log. -/
def milli : State := { zero with strata := { zero.strata with time := 65536 * 1000001 } }
def ckptS : State := (((vrvS 0 Vrv.empty milli).setf Reg.VRV_CTL.ckpt_en 0 1).setf Reg.HPN_STATUS.state 0 1).setf Reg.VRV_NEXT_POS.value 0 1
theorem wit_checkpoint : let b := 65536 * 1000000
    let u := { ckptS with ledger := { ckptS.ledger with ckptNo := ckptS.ledger.ckptNo + 1, boundary := some b } }
    let a := ckptS.rf Reg.VRV_CKPT_LOG.base 0 * 4096 + 256 * ((ckptS.ledger.ckptNo + 1) % ckptS.ckptLog 0)
    let w := u.varveWrite 0 a (u.ckptBytes (ckptS.ledger.ckptNo + 1) b (ckptS.rf Reg.VRV_NEXT_POS.value 0 - 1))
    let ti := w.2.rf Reg.VRV_CKPT_CTL.ti 0
    ckptS.strata.time / (65536 * 1000000) * (65536 * 1000000) = b ∧ ckptS.ledger.boundary.getD 0 ≠ b ∧ ckptS.strP = 0 ∧
    (vrvS 0 Vrv.empty milli).hpPresent (vrvS 0 Vrv.empty milli).strP = false ∧ ckptS.blkOn 0x09 0 = true ∧
    ckptS.rb Reg.VRV_CTL.ckpt_en 0 = true ∧ ckptS.hpPresent 0 = true ∧ ckptS.rf Reg.VRV_NEXT_POS.value 0 ≠ 0 ∧ w.1 = true ∧ w.2.strP = 0 ∧
    (w.2.varveWrite 0 (w.2.slotAddr ti 15 (w.2.rf Reg.TIF_SQ_STATE.tail ti 15))
      (ckptDesc (w.2.tiGen ti) (w.2.rf Reg.VRV_CKPT_CTL.pool 0) (w.2.rf Reg.VRV_CKPT_KEY.handle 0) a)).1 = true := by decide +kernel
def sign0 (st : Nat) : Sign := ⟨5, 0, 0, 0, 0, [], some st⟩
theorem wit_sign : ([sign0 0] : List Sign).find? (fun g => g.status.isSome) = some (sign0 0) ∧
    ([sign0 6] : List Sign).find? (fun g => g.status.isSome) = some (sign0 6) := by decide +kernel
theorem wit_consume : zero.mayStore qH 0x09 0 0x138 ∧ zero.mayStore qH 0x09 0 0x130 ∧ qH.actor = .h ∧
    (zero.setf Reg.VRV_NEXT_LEAF.value 0 1).mayStore qH 0x09 0 0x138 ∧ (zero.setf Reg.VRV_NEXT_LEAF.value 0 1).rf Reg.VRV_CONS_LEAF.value 0 ≤ 1 ∧
    1 ≤ (zero.setf Reg.VRV_NEXT_LEAF.value 0 1).rf Reg.VRV_NEXT_LEAF.value 0 ∧ zero.rf Reg.VRV_NEXT_POS.value 0 < 1 := by
  unfold State.mayStore; decide +kernel

/-! ## Tenant interfaces, the Event Hub -/

/-- TI 4095 in a block state. -/
def tiS (st : Nat) : State := (zero.setf Reg.PFX_STATE.state (blkKey 0x0A 4095) st).setf Reg.TIF_RING.log2_size 4095 7
theorem wit_ti : tifCan qH 4095 0x8 (tiS 0) ∧ tifCan qH 4095 0x130 (tiS 2) ∧ tifCan qH 4095 (0x200 + 8 * 15) (tiS 0) ∧
    tifCan qH 4095 (0x280 + 8 * 15) (tiS 0) ∧ (tiS 0).blkState 0x0A 4095 = 0 ∧ (tiS 2).blkState 0x0A 4095 = 2 ∧
    (tiS 4).blkState 0x0A 4095 = 4 ∧ (tiS 0).rf Reg.TIF_CFG.priv 4095 = 0 ∧ ((tiS 0).setf Reg.TIF_RING.log2_size 4095 6).rf Reg.TIF_RING.log2_size 4095 = 6 ∧
    (tiS 2).rb Reg.TIF_SHADOW.enable 4095 = false ∧ (tiS 3).tiStopOk 4095 = true ∧
    (tiS 3).rb Reg.PFX_STATE.restart_pending (blkKey 0x0A 4095) = false := by unfold tifCan State.mayStore; decide +kernel
theorem wit_ti_registers : (tiS 0).mayStore qH 0x0A 4095 0x110 ∧ qH.actor = .h ∧ (blkOf 0x0A 5 2).mayStore qM 0x0A 5 0x110 ∧
    (blkOf 0x0A 5 2).tifActor qM 5 = .m ∧ tifCan qH 4095 0x110 (tiS 2) ∧ (blkOf 0x0A 5 2).mayStore qM 0x0A 5 0x100 ∧
    (blkOf 0x0A 5 2).blkState 0x0A 5 ≠ 0 ∧ (blkOf 0x0A 5 2).mayStore qM 0x0A 5 0x1080 ∧ 5 ≠ (blkOf 0x0A 5 2).sys.tilthTi ∧
    (tiS 2).blkState 0x0A 4095 ≠ 0 ∧ ((tiS 0).setf Reg.TIF_SQ.enable 4095 1 15).rb Reg.TIF_SQ.enable 4095 15 = true ∧
    (tiS 0).rb Reg.TIF_SQ.enable 4095 15 = false ∧ (tiS 2).mayStore qH 0x0A 4095 0x1080 ∧
    headOk ((tiS 2).rf Reg.TIF_RING_STATE.head 4095) ((tiS 2).rf Reg.TIF_RING_STATE.tail 4095) 0 = true ∧
    headOk ((tiS 2).rf Reg.TIF_RING_STATE.head 4095) ((tiS 2).rf Reg.TIF_RING_STATE.tail 4095) 1 = false ∧
    ((tiS 2).setf Reg.TIF_STATUS.resetting 4095 1).rb Reg.TIF_STATUS.resetting 4095 = true ∧ (tiS 2).rb Reg.TIF_STATUS.resetting 4095 = false ∧
    ((tiS 2).setf Reg.TIF_CFG.priv 4095 1).rf Reg.TIF_CFG.priv 4095 ≠ 0 ∧ (tiS 2).outstanding 4095 = 0 ∧
    ({ tiS 2 with tis := [(4095, { Ti.empty with draining := true })] }.ti 4095).draining = true := by
  unfold tifCan State.mayStore; decide +kernel

def evhS : State := up 0x0B 0 (up 0x0B 1 zero)
def evSec : State := evhS.setf Reg.EVH_SRC.secure 0 1 0x400
def evHp : State := evhS.setf Reg.HPN_STATUS.cores 0 1
theorem wit_sources : evhS.mayWrite qH 0x0B 0 (0x8000 + 8 * 0xFFE) ∧ ¬ srcIgnored evhS .h 0 0xFFE 0 ∧
    srcIgnored evSec .t 0 0x400 0 ∧ srcIgnored evHp .h 0 0x401 (127 * 2 ^ 16) ∧ srcIgnored evhS .h 0 1 (128 * 2 ^ 16) ∧
    srcIgnored evhS .h 0 0x400 6 ∧ srcIgnored evhS .h 0 0x3FF 8 ∧ evHp.isHardpanCore 127 = true ∧ evhS.mayWrite qH 0x0B 0 0x108 := by
  refine ⟨?_, ?_, ?_, ?_, ?_, ?_, ?_, ?_, ?_⟩ <;> first | decide +kernel | (unfold srcIgnored; decide +kernel) | (unfold State.mayWrite; decide +kernel)
theorem wit_raises : evhS.mayWrite qH 0x0B 0 0x1000 ∧ evhS.badRaise .h 0 0x3FF = true ∧ evhS.badRaise .h 0 0x400 = false ∧
    evhS.sys.lostHalf = none ∧ evhS.rf Reg.EVH_SRC.target 0 0x400 / 128 = 0 ∧ evhS.rb Reg.EVH_SRC.mode 0 0x400 = false ∧
    (evhS.setf Reg.EVH_SRC.target 0 128 0x400).rf Reg.EVH_SRC.target 0 0x400 / 128 ≠ 0 ∧ evhS.levelHolds 0x400 = false ∧
    evhS.isHardpanCore 0 = false := by unfold State.mayWrite; decide +kernel
theorem wit_raised : (evhS.setPending (evKey 0 0x400 0) 5 0 |>.evPend (evKey 0 0x400 0)).pending = true ∧
    (evhS.setPending (evKey 0 0x400 0) 5 0 |>.evPend (evKey 0 0x400 0)).raised = true := by decide +kernel
theorem wit_crossing : ([⟨1, 0x400, 0, 128, 0, false⟩, ⟨1, 0x400, 0, 128, 0, true⟩] : List Crossing).find? (fun e => e.half == (1 : Half).val) =
      some ⟨1, 0x400, 0, 128, 0, false⟩ ∧ evhS.rb Reg.EVH_SRC.mode 1 0x400 = false ∧
    ([⟨1, 0x400, 0, 128, 0, true⟩] : List Crossing).find? (fun e => e.half == (1 : Half).val) = some ⟨1, 0x400, 0, 128, 0, true⟩ := by
  decide +kernel
/-- Core 255's pages; one candidate; sixteen active. -/
def evC : State := kint 0 0 { kcore with level := 1 }
/-- An event queue's interrupt 0x400, pending at core 0 while the queue has an entry. -/
def evQ : State :=
  let s : State := up 0x12 0 { kst { kcore with level := 1 } with evh := { zero.evh with pend := [(evKey 0 0x400 0, ⟨true, 5, true, 0, true⟩)] } }
  ((((s.setf Reg.EVH_SRC.enable 0 1 0x400).setf Reg.EVH_SRC.priority 0 0 0x400).setf Reg.EVH_EQ_CFG.id 0 0x400 5).setf
    Reg.EVH_EQ_CFG.log2_size 0 12 5).setf Reg.EVH_EQ_PTR.tail 0 1 5
theorem wit_claim_level : evQ.candidate 0 0 = some (evKey 0 0x400 0) ∧ evQ.levelHolds (evKey 0 0x400 0 % 4096) = true ∧
    (evQ.activeOf 0 0).length < 16 := by decide +kernel
def act0 : List EvActive := List.replicate 16 ⟨0x81, 0, 0, 0⟩
theorem wit_claims_k : evhS.mayRead qH 0x0B (255 / 128) (0x10000 + 0x1000 * (255 % 128)) ∧
    evhS.mayRead qH 0x0B (255 / 128) (0x10010 + 0x1000 * (255 % 128)) ∧ evhS.mayRead qH 0x0B (255 / 128) (0x4000 + 0x40 * (255 % 128)) ∧
    evhS.mayWrite qH 0x0B (255 / 128) (0x10008 + 0x1000 * (255 % 128)) ∧ evhS.mayWrite qH 0x0B (255 / 128) (0x10018 + 0x1000 * (255 % 128)) ∧
    evhS.mayWrite qH 0x0B (255 / 128) (0x4008 + 0x40 * (255 % 128)) ∧ evhS.candidate 255 0 = none ∧ evC.candidate 0 0 = some 0x81 ∧ evC.levelHolds 0x81 = false ∧
    (evC.activeOf 0 0).length < 16 ∧ 16 ≤ (({ evhS with evh := { evhS.evh with active := act0 } } : State).activeOf 0 0).length := by
  unfold State.mayWrite State.mayRead; decide +kernel
theorem wit_eoi : ((({ evhS with evh := { evhS.evh with active := act0 } } : State).activeOf 0 0).find? fun a => keyId a.key == 0x81) =
      some ⟨0x81, 0, 0, 0⟩ ∧ ((evhS.activeOf 0 0).find? fun a => keyId a.key == 0x81) = none := by decide +kernel
theorem wit_queues : evhS.mayWrite qH 0x0B 0 0x100 ∧ evhS.mayWrite qH 0x0B 0 (0x90000 + 16 * 4095) ∧
    evhS.mayWrite qH 0x0B 0 (0x90008 + 16 * 4095) ∧ evhS.mayWrite qH 0x0B 1 (0x10048 + 0x1000 * 127) ∧ headOk 0 0 0 = true ∧
    headOk 0 0 1 = false ∧ qH.actor ≠ .io := by unfold State.mayWrite; decide +kernel

/-! ## Kaolin, DRAM, RAS -/

/-- Channel 63 of Kaolin of half 0, bound to TI 5 or not. -/
def kaoS (k : KaoChan) (en : Nat) : State :=
  up 0x0A 5 ((((up 0x0C 0 { zero with kao := [(0, ⟨[(63, k)], [], 62, []⟩)] }).setf Reg.KAO_CHAN_CFG.enable 0 en 63).setf
    Reg.KAO_CHAN_CFG.log2_size 0 12 63).setf Reg.KAO_CHAN_BIND.ti 0 5 63)
theorem wit_channels : (kaoS .empty 1).mayWrite qH 0x0C 0 (0x400 + 32 * 63) ∧ (kaoS .empty 1).rb Reg.KAO_CHAN_CFG.enable 0 63 = true ∧
    (kaoS .empty 0).mayWrite qH 0x0C 0 (0x400 + 32 * 63) ∧ (kaoS .empty 0).rb Reg.KAO_CHAN_CFG.enable 0 63 = false ∧
    (10 : Word).toNat / 2 % 16 = 5 ∧ (24 : Word).toNat / 2 % 16 = 12 ∧ (26 : Word).toNat / 2 % 16 = 13 ∧ (8 : Word).toNat / 2 % 16 = 4 ∧
    (kaoS .empty 0).blkOn 0x0A 5 = true ∧ (kaoS .empty 0).tiHome 5 = 0 ∧ (kaoS .empty 0).kaoTi 0 63 = 5 ∧
    (kaoS .empty 0).mayUse .h 5 = true ∧ ((kaoS .empty 0).setf Reg.TIF_CFG.priv 5 1).mayUse .t 5 = false ∧
    ((kaoS .empty 0).setf Reg.KAO_CHAN_BIND.ti 0 6 63).blkOn 0x0A 6 = false := by unfold State.mayWrite; decide +kernel
theorem wit_kao_doorbell : (kaoS .empty 1).mayWrite qH 0x0C 0 (0x10000 + 0x1000 * 63) ∧
    (0xFFF : Word).toNat % 4096 < 2 ^ (kaoS .empty 1).rf Reg.KAO_CHAN_CFG.log2_size 0 63 ∧
    2 ^ ((kaoS .empty 1).setf Reg.KAO_CHAN_CFG.log2_size 0 5 63).rf Reg.KAO_CHAN_CFG.log2_size 0 63 ≤ (32 : Word).toNat % 4096 ∧
    (kaoS .empty 1).mayWrite qH 0x0C 0 (0x410 + 32 * 63) ∧ ((kaoS { KaoChan.empty with stopped := true } 1).kchan 0 63).stopped = true := by
  unfold State.mayWrite; decide +kernel
def kaoF : State := let s := dram ((kaoS .empty 1).setf Reg.KAO_CHAN_STATE.tail 0 1 63); admits (s.kaoReq 0 63) 0 s
theorem wit_kao_fetch : kaoF.blkOn 0x0C 0 = true ∧ (kaoF.kchan 0 63).fetched.length < 4 ∧ kaoF.kaoTiOk 0 63 = true ∧
    kaoF.rb Reg.TIF_STATUS.resetting 5 = false ∧ kaoF.rf Reg.KAO_CHAN_STATE.fetch 0 63 ≠ kaoF.rf Reg.KAO_CHAN_STATE.tail 0 63 ∧
    (match (kaoF.readMem (kaoF.kaoReq 0 63) .read 0 64).1 with | .data _ false => true | _ => false) = true := by decide +kernel
/-- The descriptor's line poisoned. -/
def kaoP : State := { kaoF with mem := { kaoF.mem with poison := [(0, true)] } }
theorem wit_kao_fetch_poisoned : (match (kaoP.readMem (kaoP.kaoReq 0 63) .read 0 64).1 with | .data _ true => true | _ => false) = true ∧
    kaoP.kaoTiOk 0 63 = true ∧ (kaoP.kchan 0 63).stopped = false := by decide +kernel
/-- The last and only job of a stream, of no input, and one without a stream. -/
def job (op flags : Nat) : List Byte := (descr [(0, op), (2, 1 - op), (3, flags), (0x18, 0x100), (0x14, 64)]).take 64
def kaoJ (d : List Byte) : State :=
  let s := dram (kaoS { KaoChan.empty with fetched := [(0, d)] } 1)
  admits (s.kaoReq 0 63) 0x100 s
def kaoU (d : List Byte) : State := ((kaoJ d).updKao 0 fun k => { k with rotor := 63 }).updKchan 0 63 fun k => { k with fetched := [] }
theorem wit_kao_starts : kaoStarts (kaoJ (job 0 3)) 0 63 false 0 (job 0 3) [] ∧ kaoStarts (kaoJ (job 1 2)) 0 63 true 0 (job 1 2) [] ∧
    (match (kaoU (job 1 2)).jobStream 0 63 (job 1 2) with | .ok _ => false | .error _ => true) = true := by
  unfold kaoStarts; decide +kernel
theorem wit_kao_no_buffers : (kaoJ (job 1 2)).jobBuffers ((kaoJ (job 1 2)).kaoReq 0 63) ((job 1 2).set 0x14 0) = [(0x100, 0)] := by decide +kernel
def kaoRan (d : List Byte) : Bool :=
  match (kaoU d).jobStream 0 63 d with
  | .ok x =>
    let (bs, stop, u) := State.kaoInput ((kaoJ d).kaoReq 0 63) 2 0 0 (kaoTaken (kaoJ d) 0 63 d [])
    let r := x.run (jobFlag d 1) stop.isSome bs
    let w := u.kaoOutput ((kaoJ d).kaoReq 0 63) d r.out
    w.status == 0 && r.err == 0 && stop.isNone && !(jobFlag d 1 && r.stream.op == 1) &&
      (!jobFlag d 2 || (w.s.slotHeld 0 63 (jobSlot d) && w.s.kslot 0 (jobSlot d) == none && !SMap.get false (w.s.kaoOf 0).releaseDue (jobSlot d)))
  | .error _ => false
theorem wit_kao_runs : kaoStarts (kaoJ (job 0 1)) 0 63 false 0 (job 0 1) [] ∧ kaoRan (job 0 1) = true ∧
    kaoStarts (kaoJ (job 1 1)) 0 63 true 0 (job 1 1) [] ∧ kaoRan (job 1 1) = true := by unfold kaoStarts; decide +kernel
def kaoDone (w : Bool) : State := kaoJ (job 0 3) |>.updKchan 0 63 fun k => { k with job := some ⟨⟨5, 0, 0, 0⟩, 4, job 0 3, 0, 0, 0, 0, 0, 0, w⟩ }
theorem wit_kao_results : ((kaoDone false).kchan 0 63).job = some ⟨⟨5, 0, 0, 0⟩, 4, job 0 3, 0, 0, 0, 0, 0, 0, false⟩ ∧
    ((kaoDone false).writeMem ((kaoDone false).kaoReqOf 0 5) (64 * 4 + 0x28) (leBytes 4 0 ++ leBytes 4 0 ++ leBytes 4 0 ++ [0, 0, 0, 0] ++
      leBytes 8 (strataBits ((kaoDone false).replica (tStop 0))))).1 = .data [] false ∧
    ((kaoDone true).writeMem ((kaoDone true).kaoReqOf 0 5) (64 * 4) ((job 0 3).take 5 ++ [0, 0, 1])).1 = .data [] false ∧
    jobFlag (job 0 3) 4 = false := by decide +kernel
/-- The same with the ring's page no longer the tenant's. -/
def kaoShut : State := { kaoDone false with potCache := [] }
theorem wit_kao_refused : (kaoShut.kchan 0 63).job = some ⟨⟨5, 0, 0, 0⟩, 4, job 0 3, 0, 0, 0, 0, 0, 0, false⟩ ∧
    (kaoShut.potCheck (kaoShut.kaoReqOf 0 5) .write (64 * 4 + 0x28)).ok = false ∧ kaoShut.cutOff (64 * 4 + 0x28) = none ∧
    kaoShut.region (64 * 4 + 0x28) = .dram 0 := by decide +kernel
theorem wit_slots : (kaoS .empty 1).mayWrite qH 0x0C 0 (0xC00 + 8 * 31) ∧
    ((kaoS .empty 1).setf Reg.KAO_SLOT.enable 0 1 31).rb Reg.KAO_SLOT.enable 0 31 = true ∧
    ((kaoDone true).setf Reg.KAO_SLOT.chan 0 63 31).rf Reg.KAO_SLOT.chan 0 31 = 63 ∧ jobSlot (job 0 (4 + 2 ^ 8 * 31)) = 31 ∧
    jobFlag (job 0 (4 + 2 ^ 8 * 31)) 2 = true ∧ ((kaoS .empty 1).setf Reg.KAO_CHAN_BIND.gen 0 9 63).kaoTiOk 0 63 = false := by
  unfold State.mayWrite; decide +kernel

/-- Channel 15 ON with one rank, and its state beside the registers. -/
def dimm0 : Dimm := ⟨7, 6400, 4, 10, 32, false, 2, 8, 4, true⟩
def dmcS (d : Dmc) : State :=
  (((dram { zero with dmc := [(15, d)] }).setf Reg.DMC_CFG.active 15 1).setf Reg.PFX_STATE.state (blkKey 0x0D 15) 2).setf Reg.DMC_STATUS.rank_state 15 1
theorem wit_dram_read : (dmcS .empty).blkOn 0x0D 15 = true ∧ (dmcS .empty).chanWaits 15 0 = false ∧
    (dmcS { Dmc.empty with filling := [(0, true)] }).chanWaits 15 0 = true ∧ (dmcS { Dmc.empty with refDue := [(0, true)] }).chanWaits 15 0 = true ∧
    (∀ g, (dmcS .empty).persistFor 15 0 g = none) ∧ ((dmcS .empty).lineHome ((dmcS .empty).chanPa 15 0 / 64)).stale = none ∧
    (dmcS .empty).chanFenced 15 0 = false ∧ ((dmcS .empty).setf Reg.DMC_CFG.bitmap_en 15 1).blockWritten 15 0 = false ∧
    ((dmcS .empty).setf Reg.DMC_CFG.bitmap_en 15 0).blockWritten 15 0 = true ∧ 0 < (dmcS .empty).reserveBase 15 ∧ (dmcS .empty).lineGarbage 15 0 = false ∧
    (dmcS .empty).granErrs 15 0 0 = ([], false) ∧ (dmcS .empty).granErrs 15 0 1 = ([], false) ∧
    ((dmcS .empty).lineHome ((dmcS .empty).chanPa 15 0 / 32 / 2)).stale = none ∧ (dmcS .empty).chanPa 15 0 % 64 = 0 ∧
    (dmcS { Dmc.empty with fence := [(0, 4096)] }).chanFenced 15 64 = true ∧
    SMap.get false ((dmcS { Dmc.empty with filling := [(0, true)] }).chan 15).filling 0 = true ∧
    (∀ r, SMap.get false ((dmcS { Dmc.empty with filling := [(0, true)] }).chan 15).refDue r = false) :=
  ⟨by decide +kernel, by decide +kernel, by decide +kernel, by decide +kernel, fun _ => rfl, by decide +kernel, by decide +kernel,
    by decide +kernel, by decide +kernel, by decide +kernel, by decide +kernel, by decide +kernel, by decide +kernel, by decide +kernel,
    by decide +kernel, by decide +kernel, by decide +kernel, fun _ => rfl⟩
theorem wit_dimms : dimmsServe [dimm0, { dimm0 with ranks := 1 }] ∧ ¬ dimmsServe [{ dimm0 with speed := 5600 }] ∧ ¬ dimmsServe [] ∧
    slotRanks (some dimm0) + 4 * slotRanks (some { dimm0 with ranks := 1 }) = 7 ∧ (zero.chan 15).failed = false ∧
    ((dmcS { Dmc.empty with failed := true }).chan 15).failed = true ∧
    (((zero.setf Reg.DMC_CFG.present 15 7).setf Reg.DMC_CFG.density 15 1).assignRanks 15).rf Reg.DMC_CFG.active 15 ≠ 0 ∧
    ([(0, 1, 2), (19, 2, 0)] : List (Fin 20 × Fin 3 × Fin 3)).map (·.1) = [0, 19] := by unfold dimmsServe; decide +kernel
theorem wit_dram_upkeep : (dmcS .empty).rankState 15 0 = 1 ∧ ((dmcS .empty).setf Reg.DMC_RETRAIN.interval_ms 15 1).rf Reg.DMC_RETRAIN.interval_ms 15 ≠ 0 ∧
    (inMode .tune (dmcS .empty)).sys.mode = .tune ∧ zero.blkState 0x0D 15 < 2 ∧
    zero.mayStore qM 0x0D 15 0x200 ∧ (dmcS .empty).mayStore qM 0x0D 15 0x200 ∧ (zero.setf Reg.DMC_TRAIN_CTL.busy 15 1).mayStore qM 0x0D 15 0x200 ∧
    (zero.setf Reg.DMC_RETRAIN.interval_ms 15 0).rf Reg.DMC_RETRAIN.interval_ms 15 = 0 ∧ (dmcS { Dmc.empty with owed := [(0, 8)] }).rankState 15 0 = 1 ∧
    min 8 (zero.rf Reg.DMC_REFRESH.postpone_max 15) ≤ SMap.get 0 ((dmcS { Dmc.empty with owed := [(0, 8)] }).chan 15).owed 0 ∧ zero.rb Reg.DMC_TRAIN_CTL.busy 15 = false ∧
    (zero.setf Reg.DMC_TRAIN_CTL.busy 15 1).rb Reg.DMC_TRAIN_CTL.busy 15 = true ∧ 2 ≤ (dmcS .empty).blkState 0x0D 15 ∧
    ((dmcS { Dmc.empty with helper := 3 }).chan 15).helper = 3 := by
  unfold State.mayStore; decide +kernel
theorem wit_ranks : ((dmcS { Dmc.empty with replays := 4 }).chan 15).replays = 4 ∧ ((dmcS .empty).chan 15).migration = none ∧
    ((dmcS .empty).setf Reg.DMC_MIGRATE.auto 15 1).rb Reg.DMC_MIGRATE.auto 15 = true ∧
    (List.range 4).find? (fun l => l < (dmcS .empty).rf Reg.DMC_CFG.active 15 && (dmcS .empty).mapRank 15 l == 0) = some 0 ∧
    (∀ p, p < 4 → (dmcS .empty).rankState 15 p ≠ 2) ∧ (dmcS .empty).mayWrite qM 0x0D 15 0x400 ∧
    (List.range 4).find? (fun r => ((dmcS .empty).setf Reg.DMC_STATUS.rank_state 15 (1 + 2 * 8 ^ 3)).rankState 15 r == 2) = some 3 ∧
    (List.range 4).find? (fun r => (dmcS .empty).rankState 15 r == 2) = none ∧
    0 + 4096 < (dmcS .empty).rankBytes 15 ∧ (dmcS .empty).rankBytes 15 ≤ (2 ^ 35 - 4096) + 4096 := by unfold State.mayWrite; decide +kernel

/-- RAS of half 1 with a record detected and a pass, and an injection. -/
def rasS (x : RasHalf) : State := up 0x0E 1 (dram { zero with ras := [(1, x)] })
def err0 (cls : Nat) : ErrRec := ⟨cls, 0, 0x40, 0, 0, 0, 0, 0, 0, 0, 0, 1, 0, 0, false⟩
theorem wit_ras : ((rasS { RasHalf.empty with detected := [err0 2] }).rasHalf 1).detected = [err0 2] ∧ (err0 2).cls = 2 ∧
    ((rasS { RasHalf.empty with detected := [err0 0] }).setf Reg.RAS_CTL.ce_max 1 0).rf Reg.RAS_CTL.ce_max 1 = 0 ∧
    (err0 2).hardpan = false ∧ (rasS RasHalf.empty).recEntry 1 (err0 2) = none ∧ (rasS RasHalf.empty).rasRoom 1 false = false ∧
    ((rasS RasHalf.empty).rasHalf 1).buffer = [] ∧ (rasS RasHalf.empty).mayWrite qH 0x0E 1 0x118 ∧ (rasS RasHalf.empty).mayWrite qH 0x0E 1 0x120 := by
  unfold State.mayWrite; decide +kernel
def patS : State := (up 0x0E 1 (dmcS .empty)).setf Reg.RAS_PATROL.enable 1 1 |>.setf Reg.DMC_CFG.bitmap_en 15 1
theorem wit_patrol : SMap.get 0 (patS.rasHalf 1).patrol 7 = 0 ∧ patS.blkOn 0x0E 1 = true ∧ patS.blkOn 0x0D 15 = true ∧
    patS.rb Reg.RAS_PATROL.enable 1 = true ∧ (patS.chan 15).waiting = [] ∧ patS.blockWritten 15 0 = false ∧
    (0 / 4096 + 1) * 4096 < patS.chanBytes 15 ∧ patS.patrolPaced 15 = true := by decide +kernel
/-- The patrol of channel 15 at 64, before and after its time has come; its block is written. -/
def patW (tick : Nat) : State :=
  let s := patS.setf Reg.DMC_CFG.bitmap_en 15 0
  atTick tick { s with ras := [(1, { s.rasHalf 1 with patrol := [(7, 64)] })] }
theorem wit_patrol_line : SMap.get 0 ((patW 0).rasHalf 1).patrol 7 = 64 ∧ (patW 0).patrolPaced 15 = false ∧ (patW (10 ^ 15)).patrolPaced 15 = true ∧
    (patW 0).blkOn 0x0E 1 = true ∧ (patW 0).blkOn 0x0D 15 = true ∧ (patW 0).rb Reg.RAS_PATROL.enable 1 = true ∧ ((patW 0).chan 15).waiting = [] ∧
    (patW (10 ^ 15)).blockWritten 15 64 = true ∧ 64 + 64 < (patW 0).chanBytes 15 ∧ 64 < (patW 0).reserveBase 15 ∧ (patW 0).lineGarbage 15 64 = false ∧
    (patW 0).granErrs 15 64 0 = ([], false) ∧ (patW 0).granErrs 15 64 1 = ([], false) := by decide +kernel
theorem wit_on_die_places : SMap.get ([], false) zero.mem.onDie 1 = ([], false) ∧ (zero.eng 1023).run ≠ .lost ∧ zero.isMember 1023 = false ∧
    (zero.eng 1023).task = none ∧ (zero.eng 1023).stale = false ∧
    SMap.get none (({ zero with clusters := [(15, { Cluster.empty with images := [(2, some ⟨1, 0, [], []⟩)] })] } : State).cluster 15).images 2 =
      some ⟨1, 0, [], []⟩ := by decide +kernel
theorem wit_on_die : decode35 ([((34 : Fin 35), (5 : Byte))].foldl (fun e f => errAdd e (f.1.val, f.2.toNat)) []) = some [(34, 5)] ∧
    decode35 ([((0 : Fin 35), (5 : Byte)), (34, 7)].foldl (fun e f => errAdd e (f.1.val, f.2.toNat)) []) = none := by decide +kernel
theorem wit_passes : (rasS RasHalf.empty).mayWrite qH 0x0E 1 0x310 ∧ (rasS RasHalf.empty).rb Reg.RAS_PASS_CTL.busy 1 = false ∧
    ((rasS RasHalf.empty).setf Reg.RAS_PASS_CTL.busy 1 1).rb Reg.RAS_PASS_CTL.busy 1 = true ∧ (rasS RasHalf.empty).rf Reg.RAS_PASS_LEN.lines 1 = 0 ∧
    64 * (2 ^ 26 - 1 + 1) ≤ (rasS RasHalf.empty).sys.s0 ∧
    ((rasS { RasHalf.empty with pass := some ⟨0, 1, .h⟩ }).rasHalf 1).pass = some ⟨0, 1, .h⟩ ∧
    (rasS { RasHalf.empty with pass := some ⟨0, 1, .h⟩ }).mayWrite qH 0x0E 1 0x310 ∧ Reg.RAS_PASS_CTL.cancel.of (2 : Word).toNat = 1 ∧
    Reg.RAS_PASS_CTL.cancel.of (1 : Word).toNat = 0 := by unfold State.mayWrite; decide +kernel
theorem wit_inject : (rasS RasHalf.empty).mayWrite qH 0x0E 1 0x508 ∧
    (rasS RasHalf.empty).injectRefused qH 1 ((3 : Word).toNat ||| 2 ^ 48) = some Status.badDesc ∧
    (rasS RasHalf.empty).injectRefused qH 1 ((1 : Word).toNat ||| 2 ^ 48) = none ∧
    ((rasS { RasHalf.empty with inject := some ⟨0, 1, true, false, [], 1, false⟩ }).rasHalf 1).inject = some ⟨0, 1, true, false, [], 1, false⟩ ∧
    SMap.get ([], false) (rasS RasHalf.empty).mem.onDie 1 = ([], false) ∧
    ((rasS { RasHalf.empty with inject := some ⟨0, 1, true, true, [], 1, true⟩ }).rasHalf 1).inject = some ⟨0, 1, true, true, [], 1, true⟩ ∧
    decode35 (errXor [] [(0, 5), (34, 7)]) = none ∧ errXor [] [(0, 5), (34, 7)] ≠ [] := by unfold State.mayWrite; decide +kernel
/-- An injection into DRAM, and into line 0 of half 0's home. -/
theorem wit_inject_places : let s := ((dmcS .empty).setf Reg.DMC_CFG.active 0 1).setf Reg.DMC_CFG.bitmap_en 0 0
    (s.chanOf 0 (64 * 0)).2 < s.reserveBase (s.chanOf 0 (64 * 0)).1 ∧ s.blockWritten (s.chanOf 0 (64 * 0)).1 (s.chanOf 0 (64 * 0)).2 = true ∧
    s.lineGarbage (s.chanOf 0 (64 * 0)).1 (s.chanOf 0 (64 * 0)).2 = false ∧ s.granErrs (s.chanOf 0 (64 * 0)).1 (s.chanOf 0 (64 * 0)).2 0 = ([], false) ∧
    s.granErrs (s.chanOf 0 (64 * 0)).1 (s.chanOf 0 (64 * 0)).2 1 = ([], false) ∧ s.homeHalf (64 * 0) 0 = 0 ∧
    (∀ g, g < 2 → SMap.get ([], false) s.mem.onDie (2 * 0 + g) = ([], false)) := by decide +kernel

/-! ## Power, temperature, domains, FALLOW, WATCH -/

def pwrS (p : Pwr) (m : Mode := .field) : State := { inMode m with pwr := p }
def railS (x : RailReq) : State := pwrS { Pwr.empty with rails := [(7, some x)] }
theorem wit_rails : (1 : Nat) = zero.railHalf 7 ∧ (railRange 7).1 ≤ (650 : BitVec 12).toNat ∧ (950 : BitVec 12).toNat ≤ (railRange 7).2 ∧
    (zero.rail 7) = none ∧ (railS ⟨700, 2, none⟩).rail 7 = some ⟨700, 2, none⟩ ∧ (railS ⟨700, 3, none⟩).rail 7 = some ⟨700, 3, none⟩ ∧
    (railS ⟨700, 4, some 800⟩).rail 7 = some ⟨700, 4, some 800⟩ ∧ 700 ≤ (690 : BitVec 12).toNat + 10 ∧
    (710 : BitVec 12).toNat ≤ 700 + 10 ∧ (689 : BitVec 12).toNat + 10 < 700 := by decide +kernel
theorem wit_rails_core : zero.railNeed 0 = 600 ∧ (railRange 0).1 ≤ (600 : BitVec 12).toNat ∧ (600 : BitVec 12).toNat ≤ (railRange 0).2 ∧
    (600 : BitVec 12).toNat = zero.railNeed 0 ∧ (601 : BitVec 12).toNat ≠ zero.railNeed 0 ∧ zero.rail 0 = none ∧
    (pwrS { Pwr.empty with rails := [(0, some ⟨700, 2, none⟩)] }).railNeed 0 = 600 ∧
    (pwrS { Pwr.empty with rails := [(0, some ⟨700, 2, none⟩)] }).rail 0 = some ⟨700, 2, none⟩ ∧
    (railS ⟨700, 2, none⟩).railTolerance 7 = 10 ∧ ((railS ⟨700, 2, none⟩).setf Reg.PRT_LINE.state 0 1 7).rf Reg.PRT_LINE.state 0 7 = 1 ∧
    (railS ⟨700, 3, none⟩).rb Reg.PWR_RAIL.fault 1 7 = false := by decide +kernel
def capS : State := { inMode .field with cores := [(255, { kcore with granted := 3100 })] }
theorem wit_power : (inMode .field).dark = false ∧ (inMode .watch).dark = true ∧ (0 : Nat) = (inMode .field).sys.primary.val ∧
    (∃ c ∈ SMap.keys capS.cores, 3000 < (capS.core c).granted) ∧ capS.rf Reg.PWR_POWER.limit_w 0 * 1000 < 2 ^ 20 ∧
    (inMode .field).rf Reg.PWR_POWER.tj_c 1 < 100 ∧ ((inMode .field).setf Reg.PWR_POWER.tj_c 1 100).rf Reg.PWR_POWER.tj_c 1 = 100 ∧
    (inMode .field).rb Reg.HPN_TAMPER.latch 0 = false ∧
    ([(13, 700, 5)] : List (Fin 14 × BitVec 12 × BitVec 16)).filter (fun y => y.1 == 13) = [(13, 700, 5)] := by
  refine ⟨?_, ?_, ?_, ⟨255, ?_⟩, ?_⟩ <;> decide
theorem wit_over : capS.rf Reg.PWR_POWER.limit_w 0 * 1000 <
    (([(13, 4095, 65535)].foldl State.railSample capS).avsPower + (65535 : BitVec 16).toNat * 1000) := by decide +kernel

def domS (w : Pwr) : State := up 0x0F 1 (pwrS w)
def dorm0 : Dorm := ⟨0, 1, 158, 2, 0, [(0x0C, 1)], [(0x0C, 1)], [], [], 0⟩
theorem wit_domain : (domS .empty).mayWrite qH 0x0F 1 (0x1000 + 8 * 158) ∧ qH.actor ≠ .io ∧
    ((domS .empty).cores = [] ∧ ({ domS .empty with cores := [(134, { Core.empty with run := .running })] }.core 134).run = .running) ∧
    domCore 1 6 = 134 ∧ (domS .empty).domRefused 1 158 = false ∧ (domS { Pwr.empty with dorm := some dorm0 }).pwr.dorm.isSome = true ∧
    (domS .empty).pwr.dorm = none ∧ ((domS .empty).setf Reg.PWR_HOLD.hold 1 1 158).held 1 158 = true ∧
    (domS .empty).held 1 158 = false ∧ domScope 1 158 ≠ [] ∧ domScope 1 154 = [] ∧
    (admits qT (drsAddr 0x0F 1 0x14F0) (domS .empty)).mayWrite qT 0x0F 1 (0x1000 + 8 * 158) := by unfold State.mayWrite; decide +kernel
def dormS (d : Dorm) (m : Mode := .field) : State := pwrS { Pwr.empty with dorm := some d } m
theorem wit_dormancy : (inMode .field).pwr.dorm = none ∧ (dormS dorm0).dormAnswer dorm0 (0x0C, 1) = .accept ∧
    dorm0.ask = (0x0C, 1) :: [] ∧
    (dormS { dorm0 with ask := [(0x05, 15)] } |>.updCluster 15 fun k => { k with load := some ⟨0, 0, .t⟩ }).dormAnswer dorm0 (0x05, 15) = .refuse ∧
    ((dormS dorm0).setf Reg.PFX_STATE.state (blkKey 0x0C 1) 1).dormAnswer dorm0 (0x0C, 1) = .delay 100 ∧
    (inMode .fallow).sys.mode ≠ .field ∧
    ((dormS dorm0).setf Reg.PWR_HOLD.hold 1 1 158).dormAnswer dorm0 (0x0C, 1) = .held ∧ blkDomain 0x0C 1 = some 158 ∧
    (dormS { dorm0 with kind := 2 }).dormAnswer { dorm0 with kind := 2 } (0x0C, 1) = .accept ∧ (inMode .field).tlt.storing = none ∧
    (inMode .field).railsOut = false ∧ (dormS { dorm0 with ask := [], delayed := [((0x0C, 1), 100)] }).pwr.dorm.isSome = true ∧
    (100 : Nat) ≤ max 1 (((dormS dorm0).setf Reg.PWR_DORM.max_delay_us 0 100).rf Reg.PWR_DORM.max_delay_us 0) ∧
    max 1 ((dormS dorm0).rf Reg.PWR_DORM.max_delay_us 0 % 2) < 100 := by decide +kernel

/-- Operators and Custodians of each world. -/
def pT : Principal := ⟨.topsoil, 1, 0, true⟩
def pH : Principal := ⟨.hardpan, 2, 1, true⟩
theorem wit_granted : odGranted (inMode .field) pH 0x0410 1 [1] ∧ odGranted (inMode .fallow) pH 0x0410 1 [1] ∧
    odGranted (inMode .mend) pH 0x0410 1 [1] ∧ odGranted (inMode .fallow) pH 0x0410 1 [0] ∧ odGranted (inMode .field) pH 0x0420 1 [0x57] ∧
    odGranted (inMode .clay) pH 0x0420 1 [0x57] ∧ odGranted (inMode .field) pH 0x0220 1 [1] ∧ odGranted (inMode .mend) pH 0x0220 1 [0] ∧
    odGranted (inMode .field) pT 0x0410 1 [1] :=
  ⟨⟨rfl, _, rfl, by decide +kernel⟩, ⟨rfl, _, rfl, by decide +kernel⟩, ⟨rfl, _, rfl, by decide +kernel⟩, ⟨rfl, _, rfl, by decide +kernel⟩, ⟨rfl, _, rfl, by decide +kernel⟩,
    ⟨rfl, _, rfl, by decide +kernel⟩, ⟨rfl, _, rfl, by decide +kernel⟩, ⟨rfl, _, rfl, by decide +kernel⟩, ⟨rfl, _, rfl, by decide +kernel⟩⟩
def lowS : State :=
  { (pwrS { Pwr.empty with lowPower := 1 }).setOd 0x0410 4 1 with strata := { (inMode .field).strata with tick := 1000000000 } }
theorem wit_fallow : lowS.od 0x0410 4 = 1 ∧ lowS.pwr.lowPower ≠ 0 ∧ lowS.pwr.lowPower - 1 + 1000000000 ≤ lowS.strata.tick ∧
    lowS.sys.mode = .field ∧ lowS.pwr.dorm = none ∧ (inMode .field).od 0x0410 4 ≠ 1 ∧ (inMode .fallow).fallowFull = false ∧
    ((inMode .fallow).updCluster 15 fun k => { k with inj := [(0, List.replicate 64 entry0)] }).fallowFull = true := by decide +kernel
def watchS (w : WatchStage) (d : Option Dorm := none) : State := up 0x0F 1 (pwrS { Pwr.empty with watch := w, dorm := d })
theorem wit_watch : (watchS .none).mayWrite qH 0x0F 1 0x480 ∧ (watchS (.hardpan false 0)).mayWrite qH 0x0F 1 0x480 ∧
    (watchS (.hardpan true 2)).mayWrite qH 0x0F 1 0x480 ∧ qH.actor = .h ∧
    (watchS (.hardpan false 0) (some dorm0)).pwr.dorm.isSome = true ∧ (watchS (.hardpan true 2)).tlt.storing = none ∧
    (watchS (.hardpan true 2)).railsOut = false ∧ (watchS (.handshake 0)).pwr.watch = .handshake 0 ∧
    (inMode .watch).sys.mode = .watch ∧
    ((inMode .watch).setf Reg.PWR_WATCH.wake_addr 0 0x77).rf Reg.PWR_WATCH.wake_addr 0 = 0x77 ∧
    ((inMode .watch).setf Reg.PWR_WATCH.wake_addr 0 8).rf Reg.PWR_WATCH.wake_addr 0 = 8 ∧
    ((inMode .watch).setf Reg.PWR_WATCH.wake_addr 0 0x78).rf Reg.PWR_WATCH.wake_addr 0 = 0x78 := by unfold State.mayWrite; decide +kernel

/-! ## Weathering and repairs -/

def rd1 : List (Fin 256 × BitVec 16 × BitVec 8) := [(255, 0xFFFF, 25), (0, 7, 30)]
theorem wit_weathering : (inMode .field).dark = false ∧ rd1.filter (fun y => y.1 == 255) = [(255, 0xFFFF, 25)] ∧
    (((inMode .field).setf Reg.WTH_SLACK.slack 1 0xFFFF 255).setf Reg.WTH_SLACK.valid 1 1 255).worstStop 1 = some 255 ∧
    SMap.get false (inMode .field).pwr.unstored 1 = false ∧ SMap.get false (pwrS { Pwr.empty with unstored := [(1, true)] }).pwr.unstored 1 = true ∧
    (pwrS { Pwr.empty with unstored := [(1, true)] }).tlt.storing = none ∧
    (pwrS { Pwr.empty with unstored := [(1, true)] }).railsOut = false ∧
    (pwrS { Pwr.empty with unstored := [(1, true)], railOut := [(3, true)] }).railsOut = true ∧
    ({ inMode .field with tlt := { (inMode .field).tlt with storing := some (.fw 0 []) } } : State).tlt.storing = some (.fw 0 []) ∧
    (inMode .watch).dark = true := by decide +kernel
def mendS (s : State) : State := s.setf Reg.PWR_LINK_FAIL.failed 1 1 0
/-- The link between the last two stops of column 9 has failed, and its reroute runs. -/
def cutS : State := (pwrS { Pwr.empty with reroutes := [(1, 160)] } .mend).setf Reg.PWR_LINK_FAIL.failed 1 (2 ^ 32) 2
theorem wit_repairs : (inMode .field).pwr.updating = false ∧ (pwrS { Pwr.empty with updating := true } .mend).pwr.updating = true ∧
    (inMode .clay).sys.mode = .clay ∧ ((inMode .mend).setf Reg.PWR_MEND.count 0 1).rf Reg.PWR_MEND.count 0 ≤ 1 ∧
    1 < ((inMode .mend).setf Reg.PWR_MEND.count 0 2).rf Reg.PWR_MEND.count 0 ∧
    (inMode .field).linkFailed 1 160 = false ∧ (mendS (inMode .field)).linkFailed 1 0 = true ∧
    ((mendS (inMode .field)).failedLinks 1).length < 2 ∧
    (∀ k ∈ (mendS (inMode .field)).failedLinks 1, ∀ e ∈ linkEnds k, e ∉ linkEnds 160) ∧
    2 ≤ (((inMode .field).setf Reg.PWR_LINK_FAIL.failed 1 5 0).failedLinks 1).length ∧
    (∃ k ∈ (mendS (inMode .field)).failedLinks 1, ∃ e ∈ linkEnds k, e ∈ linkEnds 1) ∧
    [] = (inMode .field).pwr.reroutes.filter (fun r => r.1 == (1 : Half).val) ∧
    [(1, 160)] = (pwrS { Pwr.empty with reroutes := [(1, 160)] } .mend).pwr.reroutes.filter (fun r => r.1 == (1 : Half).val) ∧
    (pwrS { Pwr.empty with reroutes := [(1, 160)] } .mend).tripleBusy 1 3 4 0 = false ∧ cutS.crossesFailed 1 0x79 0x89 = true ∧
    cutS.crossesFailed 1 3 4 = false ∧ [(1, 160)] = cutS.pwr.reroutes.filter (fun r => r.1 == (1 : Half).val) ∧
    cutS.tripleBusy 1 0x79 0x89 0 = false ∧ avoidLinks (cutS.linkFailed 1) (triplePath 0x79 0x89) = [(7, 9), (7, 8), (8, 8), (8, 9)] := by decide +kernel
/-- A device access of core 255 on its way to the home slice of the address. -/
def busyS : State := { pwrS { Pwr.empty with reroutes := [(1, 160)] } .mend with
  coh := { zero.coh with dev := [⟨255, false, 0xE000000000000, 8, 0⟩] } }
theorem wit_triple_busy : (busyS.messages.map (legIn 1)).any (fun m => busyS.tripleBusy 1 (m.2.1 - 256) (m.2.2 - 256) m.1) = true := by
  decide +kernel
def testS (r : EngRun) : State := up 0x0F 1 { inMode .field with engines := [(1023, { Engine.empty with run := r })] }
theorem wit_engine_test : (testS .lost).mayWrite qM 0x0F 1 0x800 ∧ qM.actor = .m ∧ (1023 : Word).toNat % 2 ^ 10 = 1023 ∧
    (testS .lost).rb Reg.PWR_ENG_TEST.busy 1 = false ∧ engHalf 1023 = 1 ∧ engHalf 511 ≠ 1 ∧ ((testS .lost).eng 1023).run = .lost ∧
    ((testS .idle).eng 1023).run ≠ .lost ∧ ((testS .lost).setf Reg.PWR_ENG_TEST.busy 1 1).rb Reg.PWR_ENG_TEST.busy 1 = true := by
  unfold State.mayWrite; decide +kernel

def backS (b : Option Backfill) (busy ready : Nat) : State :=
  up 0x0F 1 (((pwrS { Pwr.empty with backfills := [(1, b)] }).setf Reg.PWR_BACKFILL.busy 1 busy).setf Reg.PWR_BACKFILL.ready 1 ready)
def allUsed : SMap Bool := (List.range 8).map fun i => (264 + i, true)
theorem wit_backfill_go : (backS none 0 0).mayWrite qH 0x0F 1 0x600 ∧ (0x0FF : Word).toNat / 2 ^ 11 % 2 = 0 ∧
    (0x0FF : Word).toNat % 2 ^ 8 / 128 = 1 ∧ (0x07F : Word).toNat % 2 ^ 8 / 128 ≠ 1 ∧ (backS none 0 0).rb Reg.PWR_BACKFILL.busy 1 = false ∧
    (backS none 1 0).rb Reg.PWR_BACKFILL.busy 1 = true ∧ ((backS none 0 0).setf Reg.HPN_STATUS.cores 1 1).isHardpanCore 255 = true ∧
    ((backS none 0 0).core ((backS none 0 0).physOf 255)).run ≠ .running ∧
    ({ backS none 0 0 with cores := [(255, kcore)] }.core 255).run = .running ∧ (backS none 0 0).nextSpare 1 = some 264 ∧
    ({ backS none 0 0 with pwr := { Pwr.empty with spareUsed := allUsed } } : State).nextSpare 1 = none := by unfold State.mayWrite; decide +kernel
def b1 : Backfill := ⟨255, 271, 0⟩
theorem wit_backfill : (backS (some b1) 1 0).backfill 1 = some b1 ∧ (backS (some b1) 1 0).rb Reg.PWR_BACKFILL.busy 1 = true ∧
    (backS (some b1) 1 0).physOf b1.logical ≠ b1.spare ∧ ((backS (some b1) 1 0).spareTake 271).nextSpare 1 = some 264 ∧
    (({ backS (some b1) 1 0 with pwr := { (backS (some b1) 1 0).pwr with spareUsed := allUsed } } : State).spareTake 271).nextSpare 1 = none ∧
    (backS none 0 0).backfill 1 = none ∧ (backS (some b1) 0 1).mayWrite qH 0x0F 1 0x600 ∧ (0x800 : Word).toNat / 2 ^ 8 % 2 = 0 ∧
    (backS (some b1) 0 1).rb Reg.PWR_BACKFILL.ready 1 = true ∧ ({ backS (some b1) 0 1 with cores := [(271, { Core.empty with run := .reset })] }.core b1.spare).run = .reset ∧
    (backS (some b1) 0 0).rb Reg.PWR_BACKFILL.ready 1 = false ∧
    (admits qT (drsAddr 0x0F 1 0x600) ((backS (some b1) 0 1).setf Reg.HPN_STATUS.cores 1 1)).mayWrite qT 0x0F 1 0x600 ∧
    ((backS (some b1) 0 1).setf Reg.HPN_STATUS.cores 1 1).isHardpanCore b1.logical = true := by unfold State.mayWrite; decide +kernel

/-! ## Primacy, the object dictionary, sessions, the store -/

def pairS (m : Mode := .field) : State :=
  let s := inMode m
  { s with sys := { s.sys with bridgeUp := true } }
def lease0 : Lease := ⟨1, 2 ^ 32 - 1, none⟩
theorem wit_lease : pairS.paired = true ∧ (pairS .watch).paired = false ∧
    ({ pairS with tlt := { pairS.tlt with leases := [lease0, lease0] } } : State).tlt.leases = lease0 :: [lease0] ∧
    ({ pairS with tlt := { pairS.tlt with acks := [7] } } : State).tlt.acks = 7 :: [] ∧
    pairS.strata.tick < SMap.get 0 pairS.tlt.leaseSeen 1 + 3000000 ∧
    SMap.get 0 pairS.tlt.leaseSeen 1 + 3000000 ≤ ({ pairS with strata := { pairS.strata with tick := 3000000 } } : State).strata.tick ∧
    pairS.dark = false ∧ (pairS.setf Reg.TLT_PRIM.grit_ok 1 1).rb Reg.TLT_PRIM.grit_ok 1 = true ∧
    SMap.get 0 pairS.tlt.gritSeen 1 + 3000000 ≤ ({ pairS with strata := { pairS.strata with tick := 3000000 } } : State).strata.tick ∧
    (pairS.setf Reg.TLT_PRIM.grit_ok 1 0).rb Reg.TLT_PRIM.grit_ok 1 = false ∧ pairS.sys.lostHalf = none ∧
    ({ pairS with sys := { pairS.sys with lostHalf := some 1 } } : State).sys.lostHalf.isSome = true := by decide +kernel
def lostS : State := { pairS with sys := { pairS.sys with lostHalf := some 1 } }
theorem wit_primacy : odGranted pairS pH 0x0202 2 [BitVec.ofNat 8 (1 : Half).val] ∧ odGranted pairS pH 0x0202 2 [BitVec.ofNat 8 (0 : Half).val] ∧
    odGranted lostS pH 0x0202 4 [0x5A] ∧ odGranted pairS pH 0x0202 4 [0x5A] :=
  ⟨⟨rfl, _, rfl, by decide +kernel⟩, ⟨rfl, _, rfl, by decide +kernel⟩, ⟨rfl, _, rfl, by decide +kernel⟩, ⟨rfl, _, rfl, by decide +kernel⟩⟩
theorem wit_handover : (1 : Half) ≠ pairS.sys.primary ∧ (0 : Half) = pairS.sys.primary ∧ pairS.sys.lostHalf = none ∧ pairS.sys.bridgeUp = true ∧
    (pairS.setf Reg.TLT_PRIM.grit_ok 0 1).rb Reg.TLT_PRIM.grit_ok pairS.sys.primary.val = true ∧ lostS.sys.lostHalf = some pH.half ∧
    pairS.sys.lostHalf ≠ some pH.half := by decide +kernel

/-- A request's check. -/
def chk (m : Mode) (p : Principal) (op : Nat) (type : Byte) (index : BitVec 16) (sub : Byte) (value : List Byte) : Nat :=
  (inMode m).odCheck p (reqOf op type index sub value)
theorem wit_od_checks : (inMode .watch).dark = true ∧ (∀ h, OdSource.direct pT 0 0 0 [] ≠ .inBand h) ∧ (inMode .field).dark = false ∧
    chk .field pT 1 5 0xC000 1 [] ≠ 0 ∧ (0xC000 ≤ (0xC000 : BitVec 16).toNat ∧ pT.world = .topsoil) ∧
    odParam 0x0050 1 = none ∧ (odParam 0x0420 1).isSome ∧ (odParam 0x0100 1).isSome ∧ (odParam 0x0410 1).isSome := by
  refine ⟨rfl, fun h => by simp, ?_⟩; decide +kernel
/-- A request with its parameter's type. -/
def chkT (m : Mode) (p : Principal) (op : Nat) (index : BitVec 16) (sub : Byte) (value : List Byte) : Nat :=
  chk m p op (BitVec.ofNat 8 (((odParam index.toNat sub.toNat).map fun q => q.ty.code).getD 0)) index sub value
def pTc : Principal := ⟨.topsoil, 2, 0, true⟩
theorem wit_od_refused : chk .field pT 2 5 0x0420 2 [0] ≠ 0 ∧ chkT .field pT 2 0x0020 1 [60] = 0x08 ∧ chkT .field pT 2 0x0420 2 [0x80] = 0x05 ∧
    chkT .seal pT 2 0x0420 2 [0] = 0x87 ∧ chkT .field pT 2 0x0030 1 [1] = 0x85 ∧ chkT .field pTc 2 0x0203 1 [1] = 0x85 ∧
    chkT .field pTc 1 0x0202 2 [] = 0x85 ∧ chkT .field pTc 2 0x0202 1 [0] = 0x85 := by decide +kernel
theorem wit_od_kept : (keptParams.all fun k =>
      match odParam k.1 k.2 with
      | some q => chkT .field pTc 2 (BitVec.ofNat 16 k.1) (BitVec.ofNat 8 k.2) (List.replicate q.lo 0) == 0 || q.world == some .hardpan
      | none => false) = true ∧
    chkT .field pH 2 0x0210 1 [1] = 0 ∧ chkT .field pTc 2 0x0400 1 [0xFF, 0xFF] = 0 ∧
    (inMode .field).rf Reg.PWR_FALLOW.state 1 ≠ 2 ∧ chkT .field pTc 1 0x1010 2 [] = 0 ∧ chkT .field pTc 1 0x0020 1 [] = 0 ∧
    (match odParam 0x0020 1 with | some q => ((inMode .field).odValue 0x0020 1 q).length | none => 0) = 2 ∧
    (0x0020, 1) ≠ ((0x1010, 2) : Nat × Nat) := by decide +kernel

/-- The page of an address is shared. -/
def shares (q : Requester) (a : Nat) (s : State) : State :=
  match s.potIndex a with
  | some (t, i) => { s with potCache := SMap.upd [] s.potCache (s.checkerOf q a).2 fun m => SMap.set 0 m (t * 2 ^ 40 + i) 0xFF }
  | none => s
/-- DRAM whose page 0 Tilth and Hardpan may use. -/
def pathS (es : List Entry) : State :=
  let s := dram (up 0x11 1 (inMode .field))
  shares (hwReq 1 (tStop 1)) 0 (admits (tilthReq 1) 0 (s.updDsp 1 fun d => { d with tilth := es }))
/-- Whether reads of the descriptor's request and then of its value answer data, and the response is written. -/
def pathRuns (s : State) (q : Requester) (p : Principal) (a out room : Nat) : Bool :=
  match s.readMem q .read a 8 with
  | (.data hd false, u) =>
    match u.readMem q .read (a + 8) (min 4096 (ofLe ((hd.drop 6).take 2))) with
    | (.data v false, w) =>
      match w.odRun p (OdReq.parse (hd ++ v)) room with
      | (resp, x) => match (x.respond resp).writeMem q out (resp.take room) with
        | (.data _ _, _) => true
        | _ => false
    | _ => false
  | _ => false
def odEntry : Entry := ⟨3, 0, 0, List.replicate 128 0, false⟩
theorem wit_paths : ((pathS []).dspOf 1).tilth = [] ∧ ((pathS [odEntry]).dspOf 1).tilth = odEntry :: [] ∧
    pathRuns ((pathS [odEntry]).updDsp 1 fun d => { d with tilth := [] }) (tilthReq 1) pT (odEntry.fld 0x28 8) (odEntry.fld 0x40 8)
      (odEntry.fld 0x3C 4) = true ∧
    (pathS []).mayWrite qH 0x11 1 0x200 ∧ qH.actor = .h ∧
    pathRuns ((pathS []).setf Reg.TLT_HPOD.addr 1 0) (hwReq 1 (tStop 1)) pH 0 0 4104 = true := by unfold State.mayWrite; decide +kernel
theorem wit_path_refused : (match (dram (inMode .field)).readMem (tilthReq 1) .read (odEntry.fld 0x28 8) 8 with
      | (.refused, _) => true | _ => false) = true ∧
    (match (inMode .field).readMem (tilthReq 1) .read (odEntry.fld 0x28 8) 8 with | (.unmapped, _) => true | _ => false) = true := by
  decide +kernel
theorem wit_messages : (inMode .watch).dark = true ∧ (inMode .field).dark = false ∧
    ([0x7F, 0x00, 0x00, 0xB9, 0x15, 0x01] ++ List.replicate 1018 0 : List Byte).take 6 = [0x7F, 0x00, 0x00, 0xB9, 0x15, 0x01] ∧
    ([0x7F, 0x00, 0x00, 0xB9, 0x15, 0x01] ++ List.replicate 1018 0 : List Byte).length ≤ 1024 ∧
    8 ≤ (0xFE : Byte).toNat ∧ (0xFE : Byte).toNat ≠ 0xFF ∧ (0x02 : Byte) ≠ 0x01 ∧ (0x0D : Byte) ∉ [(0x02 : Byte), 0x0B, 0x0C] := by decide +kernel
def cred1 : List Byte := asBytes (Crypto.bytesBe 32 Crypto.p256.gx ++ Crypto.bytesBe 32 Crypto.p256.gy) ++ [0, 1, 0, 0, 0, 0, 0, 0]
def frame (type sid seq : Nat) (body : List Byte) : List Byte := omHeader type sid seq body.length ++ body
def sessS (t : Tlt) : State := let s := (inMode .field).setOdBlob 0x0010 32 cred1; { s with tlt := t }
def hello32 : List Byte := frame 1 0 0 (List.replicate 96 1 ++ [32, 0])
def sess0 (h : Nat) : Session := ⟨h, 0, 1, 32, 0, List.replicate 32 0, List.replicate 32 0, [0, 0, 0, 0], [0, 0, 0, 0], 5, 0, 0⟩
def many : SMap (Option Session) := (List.range 64).map fun i => (i, some (sess0 1))
theorem wit_hello : (inMode .watch).dark = true ∧ (inMode .field).dark = false ∧ omGood (hello32 ++ [0]) 1 0 = false ∧
    omFld (frame 1 0 0 []) 0x10 2 ≠ 98 ∧ omGood hello32 1 0 = true ∧ omFld hello32 0x10 2 = 98 ∧ omFld hello32 116 1 = 32 ∧
    64 ≤ (sessS { (inMode .field).tlt with sessions := many }).tlt.sessions.length ∧ (sessS (inMode .field).tlt).tlt.sessions.length < 64 ∧
    ((sessS (inMode .field).tlt).odBlob 0x0010 32).all (· == 0) = false ∧ ((inMode .field).odBlob 0x0010 32).all (· == 0) = true := by decide +kernel
/-- An offer to a client whose key is the base point, and a FINISH frame for session 7 signed with the key 1 and the nonce 1. -/
def offer : Opening := ⟨1, 32, 0, [1, 2, 3], asNats (cred1.take 64), 1, [4, 5]⟩
def finish7 : List Byte :=
  let h := omHeader 3 7 0 64
  let r := Crypto.p256.gx % Crypto.p256.n
  h ++ asBytes (Crypto.bytesBe 32 r ++ Crypto.bytesBe 32 ((Crypto.natBe (Crypto.sha256 (offer.covered ++ asNats h)) + r) % Crypto.p256.n))
def offerS : State := sessS { (inMode .field).tlt with opening := [(7, some offer)] }
theorem wit_finish : omGood finish7 3 0 = true ∧ omFld finish7 0x10 2 = 64 ∧ omFld finish7 4 4 = 7 ∧ offerS.dark = false ∧
    SMap.get none offerS.tlt.opening 7 = some offer ∧ offer.half = (1 : Half).val ∧ offer.half ≠ (0 : Half).val ∧
    SMap.get none offerS.tlt.opening 6 = none ∧ finishGood offerS offer (finish7.take 20 ++ List.replicate 64 0) = false := by decide +kernel
theorem wit_finish_good : finishGood offerS offer finish7 = true ∧ offer.keys.isSome = true := by decide +kernel
/-- A REQUEST frame of session 9 with a sequence number. -/
def request9 (seq : Nat) : List Byte :=
  let h := omHeader 0x10 9 seq 8
  let key := List.replicate 32 0
  h ++ List.replicate 8 7 ++ asBytes (Crypto.gcmTag key ([0, 0, 0, 0] ++ asNats (leBytes 8 seq)) (asNats h) (List.replicate 8 7))
def tagGood (x : Session) (h : Half) (f : List Byte) : Bool :=
  x.half == h.val && Crypto.gcmTag x.keyIn (x.saltIn ++ asNats (leBytes 8 (omFld f 8 8))) (asNats (f.take 20))
    (asNats ((f.drop 20).take (omFld f 0x10 2))) == asNats (f.drop (20 + omFld f 0x10 2))
def sessR : State := sessS { (inMode .field).tlt with sessions := [(9, some (sess0 1))] }
theorem wit_request : omGood (request9 5) 0x10 16 = true ∧ omFld (request9 5) 4 4 = 9 ∧ sessR.dark = false ∧
    sessR.sessionAt 9 = some (sess0 1) ∧ sessR.sessionAt 8 = none ∧ tagGood (sess0 1) 1 (request9 5) = true ∧
    { sess0 1 with seqIn := 6 }.keyIn = (sess0 1).keyIn ∧ omFld (request9 5) 8 8 < { sess0 1 with seqIn := 6 }.seqIn ∧
    (sess0 1).seqIn ≤ omFld (request9 5) 8 8 ∧ tagGood (sess0 1) 0 (request9 5) = false ∧
    sessR.strata.tick < (sess0 1).seen + sessR.od 0x0020 1 * 1000000000 ∧
    (sess0 1).seen + sessR.od 0x0020 1 * 1000000000 ≤
      ({ sessR with strata := { sessR.strata with tick := 2 ^ 60 } } : State).strata.tick := by decide +kernel

def storeS (t : Tlt) (out : Bool) : State := { pwrS { Pwr.empty with railOut := [(3, out)] } with tlt := t }
def tlt0 : Tlt := (inMode .field).tlt
theorem wit_store : odGranted (inMode .field) pH 0x1C90 1 [0x53] ∧ odGranted (storeS { tlt0 with storing := some (.fw 2 [1]) } false) pH 0x1C90 1 [0x53] ∧
    odGranted (storeS tlt0 true) pH 0x1C90 1 [0x53] ∧ odGranted (inMode .field) pH 0x1010 3 [1] ∧
    odGranted ((inMode .field).setOd 0x1010 1 1048512) pH 0x1010 3 [1] ∧ odGranted (inMode .field) pH 0x1010 4 [0x43] ∧
    odGranted (inMode .field) pH 0x1010 4 [0x44] :=
  ⟨⟨rfl, _, rfl, by decide +kernel⟩, ⟨rfl, _, rfl, by decide +kernel⟩, ⟨rfl, _, rfl, by decide +kernel⟩, ⟨rfl, _, rfl, by decide +kernel⟩, ⟨rfl, _, rfl, by decide +kernel⟩,
    ⟨rfl, _, rfl, by decide +kernel⟩, ⟨rfl, _, rfl, by decide +kernel⟩⟩
theorem wit_store_runs : (storeS tlt0 true).railsOut = true ∧ (storeS tlt0 false).railsOut = false ∧ (storeS tlt0 true).tlt.storing = none ∧
    (storeS { tlt0 with storing := some (.od [] []) } false).tlt.storeAgain = [] ∧
    (storeS { tlt0 with storing := some (.fw 2 [1]) } false).tlt.storing.isSome = true ∧
    (storeS { tlt0 with storing := some (.boot true) } false).tlt.storing = some (.boot true) ∧
    (storeS { tlt0 with storing := some (.cal tlt0.cal), storeAgain := [.od [] [], .fw 0 []] } false).tlt.storeAgain = .od [] [] :: [.fw 0 []] ∧
    (inMode .field).odCheck pH ⟨1, 0x0A, 0x1010, 2, 0, 0, []⟩ = 0 ∧
    1048512 < ((inMode .field).setOd 0x1010 1 1048512).od 0x1010 1 + ([1] : List Byte).length ∧
    (inMode .field).od 0x1010 1 + ([1] : List Byte).length ≤ 1048512 := by decide +kernel
def calS : State := storeS { tlt0 with staging := (List.range 16).map fun i => (i, Config.serialByte i), stagingLen := some 16 } false
theorem wit_commit : (List.range (calS.tlt.stagingLen.getD 0)).map (fun i => SMap.get 0 calS.tlt.staging i) = serialBytes ∧
    serialBytes.length = 16 ∧ ((List.range ((inMode .field).tlt.stagingLen.getD 0)).map fun i => SMap.get 0 tlt0.staging i).length < 16 :=
  ⟨rfl, rfl, by decide +kernel⟩
theorem wit_commit_granted : odGranted calS pH 0x1010 4 [0x43] := ⟨rfl, _, rfl, by decide +kernel⟩

/-! ## Start-up, resets, HOLD -/

def rootS (m : Mode) (r : RootStage) (out : Bool := false) : State :=
  let s := pwrS { Pwr.empty with railOut := [(3, out)] } m
  { s with tlt := { s.tlt with root := r } }
def triesS (r : RootStage) (a b : Nat) : State :=
  let s := rootS .root r
  { s with tlt := { s.tlt with fwTries := [(0, a), (1, b)] } }
theorem wit_root : (rootS .field .done).sys.mode ≠ .off ∧ (rootS .root .rails true).railsOut = true ∧ (rootS .root .rails).railsOut = false ∧
    (inMode .off).sys.mode = .off ∧ (rootS .root .cold).tlt.root = .cold ∧ SMap.get 0 (triesS .firmware 1 0).tlt.fwTries 0 = 1 ∧
    SMap.get 0 (triesS .firmware 2 0).tlt.fwTries 0 = 2 ∧ SMap.get 0 (triesS .firmware 1 3).tlt.fwTries (1 - 0) = 3 ∧
    (triesS .bridge 3 3).halfDead 0 = false ∧ (triesS .bridge 3 3).halfDead 1 = false ∧ (triesS .bridge 2 3).halfDead 0 = true ∧
    (triesS .bridge 3 2).halfDead 1 = true := by decide +kernel
def fail1 : ProveFail := ⟨511, .other, true⟩
theorem wit_prove : (rootS .prove .done).sys.mode = .prove ∧ (rootS .prove .done).tlt.root = .done ∧
    [fail1].filter (fun f => (rootS .prove .done).liveHalves.contains (f.stop.toNat / 256)) = [fail1] ∧
    (rootS .prove .done).liveHalves.filter (fun h => !provesBad [fail1] h) = [0] ∧ (rootS .prove .done).liveHalves = [0, 1] ∧
    (rootS .prove .done).liveHalves.filter (fun h => !provesBad [fail1, ⟨0, .other, false⟩] h) = [] ∧
    (rootS .prove .done).liveHalves.filter (fun h => !provesBad [] h) = [0, 1] ∧
    (rootS .tune .proved).sys.mode = .tune ∧ (rootS .tune .tuned).tlt.root = .tuned ∧
    (rootS .tune .tuned).rf Reg.HPN_STATUS.state (rootS .tune .tuned).sys.primary.val = 0 ∧
    ({ rootS .tune .tuned with tlt := { (rootS .tune .tuned).tlt with bootTries := 2 } } : State).tlt.bootTries = 2 ∧
    (rootS .tune .tuned).tlt.bootTries ≠ 2 := by decide +kernel
def waitS (r : CoreRun) : State := up 0x01 271 { rootS .tune .tuned with cores := [(271, { Core.empty with run := r })] }
theorem wit_core_release : (waitS .reset).mayWrite qH 0x01 271 0x100 ∧ qH.actor = .h ∧ ((waitS .reset).core 271).run = .reset ∧
    ((waitS .running).core 271).run ≠ .reset ∧ (waitS .reset).sys.mode = .tune := by unfold State.mayWrite; decide +kernel
def sealS : State :=
  let s := inMode .seal
  { s with tlt := { s.tlt with sealedAtRoot := true, vaonArm := 16 } }
theorem wit_resets : (inMode .watch).dark = true ∧ (inMode .field).dark = false ∧ pH.session = true ∧ sealS.sys.mode = .seal ∧
    sealS.tlt.sealedAtRoot = true ∧ sealS.loopsGood = true ∧ (sealS.setf Reg.PRT_LINE.state 0 1 36).loopsGood = false := by decide +kernel
theorem wit_reset_granted : odGranted (inMode .field) pTc 0x0205 3 [0x52] ∧ odGranted sealS pH 0x0205 3 [0x52] ∧
    odGranted sealS pH 0x0203 1 [0x55] ∧ odGranted (inMode .field) pH 0x0203 1 [0x55] ∧
    odGranted sealS { pH with session := false } 0x0203 1 [0x55] :=
  ⟨⟨rfl, _, rfl, by decide +kernel⟩, ⟨rfl, _, rfl, by decide +kernel⟩, ⟨rfl, _, rfl, by decide +kernel⟩, ⟨rfl, _, rfl, by decide +kernel⟩, ⟨rfl, _, rfl, by decide +kernel⟩⟩
def holdS (t : Tlt) (m : Mode := .hold) : State := { inMode m with tlt := t }
theorem wit_hold_granted : odGranted (inMode .field) pTc 0x0204 1 [0x48] ∧ odGranted (inMode .hold) pTc 0x0204 1 [0x48] ∧
    odGranted (inMode .hold) pTc 0x0204 1 [0x46] ∧ odGranted (inMode .field) pTc 0x0204 1 [0x46] ∧
    odGranted (inMode .hold) pH 0x0206 1 [2] ∧ odGranted (inMode .hold) pH 0x0206 1 [3] ∧ odGranted (inMode .field) pH 0x0206 1 [0] ∧
    odGranted (inMode .hold) pH 0x0206 2 [7] ∧ odGranted (inMode .field) pH 0x0206 2 [7] ∧ odGranted (inMode .hold) pH 0x0206 3 [0x43] ∧
    odGranted (inMode .field) pH 0x0206 3 [0x43] :=
  ⟨⟨rfl, _, rfl, by decide +kernel⟩, ⟨rfl, _, rfl, by decide +kernel⟩, ⟨rfl, _, rfl, by decide +kernel⟩, ⟨rfl, _, rfl, by decide +kernel⟩, ⟨rfl, _, rfl, by decide +kernel⟩,
    ⟨rfl, _, rfl, by decide +kernel⟩, ⟨rfl, _, rfl, by decide +kernel⟩, ⟨rfl, _, rfl, by decide +kernel⟩, ⟨rfl, _, rfl, by decide +kernel⟩, ⟨rfl, _, rfl, by decide +kernel⟩,
    ⟨rfl, _, rfl, by decide +kernel⟩⟩
theorem wit_down_granted : odGranted (inMode .seal) pH 0x0205 1 [0x44] ∧ odGranted (inMode .field) pT 0x0205 1 [0x44] ∧
    odGranted (watchS (.handshake 0)) pT 0x0205 1 [0x44] := ⟨⟨rfl, _, rfl, by decide +kernel⟩, ⟨rfl, _, rfl, by decide +kernel⟩, ⟨rfl, _, rfl, by decide +kernel⟩⟩
theorem wit_hold : (inMode .field).tlt.holdFrom = none ∧ (holdS { tlt0 with holdFrom := some 0 } .field).tlt.holdFrom = some 0 ∧
    (inMode .field).inFlight = false ∧ ((inMode .field).updCluster 15 fun k => { k with inj := [(31, [entry0])] }).inFlight = true ∧
    (inMode .field).strata.tick < 0 + 100000000 ∧
    0 + 100000000 ≤ ({ inMode .field with strata := { (inMode .field).strata with tick := 100000000 } } : State).strata.tick ∧
    (holdS { tlt0 with fwSel := some 2 }).tlt.fwSel = some 2 ∧ (holdS tlt0).tlt.fwSel = none ∧
    2 < (3 : Byte).toNat ∧ (2 : Byte).toNat ≤ 2 ∧ (holdS { tlt0 with fwSel := some 2 }).tlt.fwStage.length + ([7] : List Byte).length ≤ fwRoom 2 ∧
    (holdS { tlt0 with storing := some (.fw 0 []) }).tlt.storing.isSome = true ∧ (holdS tlt0).railsOut = false ∧
    (watchS (.handshake 0)).pwr.watch ≠ .none := by decide +kernel
theorem wit_full : ∃ bs : List Byte, fwRoom 1 < bs.length + 1 :=
  ⟨List.replicate (fwRoom 1) 0, by rw [List.length_replicate]; exact Nat.lt_succ_self _⟩

/-! ## Ports -/

theorem wit_port_links : (inMode .field).portsUp 1 = true ∧ (inMode .watch).portsUp 1 = false ∧ lostS.portsUp 1 = false ∧
    (inMode .field).rootPorts 7 = 1 ∧ ({ inMode .field with prt := { (inMode .field).prt with bifur := [(7, 4)] } } : State).rootPorts 7 = 4 ∧
    (inMode .field).subportThere 1 2 = true ∧ (inMode .field).subportThere 1 3 = false ∧
    ((inMode .field).setOd 0x1820 4 1).subportThere 1 3 = true ∧ (inMode .tune).sys.mode = .tune ∧ (inMode .watch).dark = true := by decide +kernel

/-- Port 7 with a requester table on and requester 0xFFFF's entry in its cache, and DRAM at 0x800 open to that tenant. -/
def ioS (e : Nat) : State :=
  let s := (dram (inMode .field)).setf Reg.PRT_IO_RID.enable 1 1 3
  admits (ioReq 7 0) 0x800 { s with prt := { s.prt with iotu := [(7, [(0xFFFF, e + 1)])] } }
theorem wit_io_translate : (inMode .field).rb Reg.PRT_IO_RID.enable (7 / 4) (7 % 4) = false ∧ (ioS 1).rb Reg.PRT_IO_RID.enable (7 / 4) (7 % 4) = true ∧
    ((ioS 0).iotuEntry 7 0xFFFF).1 = 0 ∧ bitOf 0 0 = false ∧ ((ioS 5).iotuEntry 7 0xFFFF).1 = 5 ∧ bitsOf 5 11 2 ≠ 0 ∧
    ((ioS 1).iotuEntry 7 0xFFFF).1 = 1 ∧ bitOf 1 0 = true ∧ bitsOf 1 11 2 = 0 ∧ bitOf 1 1 = false := by decide +kernel
/-- What an access of 16 bytes at a bus address answers: 0 and 1 for data, 2 where it is refused, 3 where nothing is mapped, 4 where
it is not translated. -/
def ioCase (s : State) (bus : Nat) (w : Bool) : Nat :=
  match s.ioTranslate 7 0xFFFF bus w with
  | (none, _) => 4
  | (some (a, d), u) =>
    if u.region a = .drs then 5
    else match (if w then u.writeMem (ioReq 7 d) a (List.replicate 16 1) else u.readMem (ioReq 7 d) .read a 16) with
      | (.data _ false, _) => 0
      | (.data _ true, _) => 1
      | (.refused, _) => 2
      | (.unmapped, _) => 3
theorem wit_inbound : (ioS 1).portsUp 1 = true ∧ ioShape 0x800 16 = true ∧ ioShape 0xFFF 2 = false ∧ ioShape 0xFFF 1 = true ∧
    ioShape 0 0 = false ∧ ioCase (ioS 1) 0x800 false = 0 ∧ ioCase (ioS 0) 0x800 false = 4 ∧ ioCase (ioS 0) 0x800 true = 4 ∧
    ioCase ((ioS 1).poisonRange 0x800 32) 0x800 false = 1 ∧ ioCase (ioS 1) 0x11000 false = 2 ∧ ioCase (ioS 1) (2 ^ 51) false = 3 ∧
    ioCase (ioS 1) 0x800 true = 0 ∧ ioCase (ioS 1) 0x11000 true = 2 := by decide +kernel
def prtS : State := up 0x12 0 (up 0x12 1 (inMode .field))
theorem wit_cxl_windows : prtS.mayWrite qM 0x12 1 (0x280 + 8 * 1) ∧ qM.actor = .m ∧ 8192 < 8191 + 2 ∧
    ((prtS.setf Reg.PRT_CXL_WIN.size_gib 0 16 0).setf Reg.PRT_CXL_WIN.base_gib 0 8 0).rf Reg.PRT_CXL_WIN.base_gib 0 0 < 23 + 4 ∧
    23 < ((prtS.setf Reg.PRT_CXL_WIN.size_gib 0 16 0).setf Reg.PRT_CXL_WIN.base_gib 0 8 0).rf Reg.PRT_CXL_WIN.base_gib 0 0 +
      ((prtS.setf Reg.PRT_CXL_WIN.size_gib 0 16 0).setf Reg.PRT_CXL_WIN.base_gib 0 8 0).rf Reg.PRT_CXL_WIN.size_gib 0 0 := by
  unfold State.mayWrite; decide +kernel
/-- Queue 127 of half 1, on its sub-port 3, with a MAC address. -/
def ethS (tail : Nat) (en : Nat := 1) : State :=
  let s := ((prtS.setf Reg.PRT_ETHQ_CFG.enable 1 en 127).setf Reg.PRT_ETHQ_CFG.subport 1 3 127).setf Reg.PRT_ETHQ_MAC.mac 1 0x020000000001 127
  let s := dram { s with sys := { s.sys with ethUp := [(7, true)] }, prt := { s.prt with rxTail := [(ethKey 1 127, tail)], txTail := [(ethKey 1 127, tail)] } }
  admits (s.ethReq 1 127) 0 s
def frame14 : List Byte := [2, 0, 0, 0, 0, 1, 2, 0, 0, 0, 0, 2, 0x12, 0x34]
theorem wit_eth : (ethS 1).mayWrite qH 0x12 1 (0x20000 + 0x1000 * 127) ∧ (ethS 1).mayWrite qH 0x12 1 (0x20008 + 0x1000 * 127) ∧
    (ethS 1).rb Reg.PRT_ETHQ_CFG.enable 1 127 = true ∧ (ethS 1 0).rb Reg.PRT_ETHQ_CFG.enable 1 127 = false ∧
    63 < (ethS 1).ethSize 1 127 ∧ (ethS 1).ethSize 1 127 ≤ 64 ∧ (ethS 1).mayStore qH 0x12 1 (0x4000 + 16 * 127) ∧
    ((ethS 1).frameHash frame14).1 = 0 ∧ ((ethS 1).frameHash frame14).2.rxQueue 1 3 frame14 0 = some 127 ∧
    ((ethS 1).frameHash frame14).2.rxQueue 1 3 (frame14.set 5 9) 0 = none ∧ frame14.length = 14 ∧
    SMap.get 0 (ethS 0).prt.rxNext (ethKey 1 127) = SMap.get 0 (ethS 0).prt.rxTail (ethKey 1 127) ∧
    SMap.get 0 (ethS 1).prt.rxNext (ethKey 1 127) ≠ SMap.get 0 (ethS 1).prt.rxTail (ethKey 1 127) ∧
    (ethS 0).txPending 1 127 = [] ∧ (ethS 2).txPending 1 127 = 0 :: [1] ∧ (ethS 2).portsUp 1 = true ∧
    SMap.get false (ethS 2).sys.ethUp (4 * 1 + (ethS 2).rf Reg.PRT_ETHQ_CFG.subport 1 127) = true := by
  unfold State.mayWrite State.mayStore; decide +kernel
/-- TX descriptor 0 names 14 bytes at 0x100. -/
def txS : State :=
  let s := ethS 2
  (s.pokeHome (s.tagOf (s.keySlotFor (s.ethReq 1 127) 0)) 0 ([0, 1, 0, 0, 0, 0, 0, 0, 14, 0, 0])) |> admits (s.ethReq 1 127) 0x100
theorem wit_transmit : (match (txS.txStep 1 127).readMem (txS.ethReq 1 127) .read (txS.txDesc 1 127 0) 11 with
      | (.data d false, u) => ofLe ((d.drop 8).take 2) == 14 && d.getD 10 0 == 0 &&
        (match u.readMem (txS.ethReq 1 127) .read (ofLe (d.take 8)) 14 with | (.data _ false, _) => true | _ => false)
      | _ => false) = true := by decide +kernel

def dbgS : State := ((inMode .field).setf Reg.HPN_DEBUG.t_inv 1 1).setf Reg.HPN_DEBUG.t_noninv 0 1
def claimS (t : Nat) : State :=
  let s := (inMode .field).setf Reg.PRT_CLAIM.held 0 1 64
  { s with strata := { s.strata with time := t * 65536 } }
theorem wit_dap : dbgS.dark = false ∧ (inMode .watch).dark = true ∧ (dbgS.dapPlace (.g 271 31)).2 = .topsoil ∧
    dbgS.debugOf (dbgS.dapPlace (.g 271 31)).1 .topsoil (!dapOfEngine (.g 271 31)) = true ∧
    dbgS.debugOf (dbgS.dapPlace (.s 511 14)).1 .topsoil (!dapOfEngine (.s 511 14)) = true ∧
    dbgS.debugOf (dbgS.dapPlace (.s 511 14)).1 .topsoil true = false ∧ (dbgS.dapPlace (.pc 0)).2 ≠ .hardpan ∧
    dbgS.debugOf 0 .topsoil true = false ∧ dbgS.debugOf 1 .topsoil true = true ∧ dbgS.coreWorld 271 = .topsoil ∧
    dbgS.debugInv 271 = true ∧ (dbgS.core 271).wait = .none ∧ dbgS.debugInv 0 = false ∧
    (claimS 1).claimHeld 64 = true ∧ (claimS 1).rf Reg.PRT_CLAIM.owner_actor 0 64 = 0 ∧ (claimS 1).strata.time / 65536 % 1000000000 ≤ 1 ∧
    (inMode .field).claimHeld 64 = false ∧ 100000000 ≤ (claimS 100000000).strata.time / 65536 % 1000000000 ∧
    ((claimS 1).setf Reg.PRT_CLAIM.owner_actor 0 2 64).rf Reg.PRT_CLAIM.owner_actor 0 64 ≠ 0 := by decide +kernel
theorem wit_lines : (inMode .field).lineClass 0 (.sense (-60) 0 false) = some (0, 65476) ∧ (inMode .field).lineClass 15 (.sense (-700) 700 false) = some (3, 700) ∧
    (inMode .field).lineClass 16 (.sense 0 0 false) = none ∧ (inMode .field).lineClass 23 (.fan false false true 1000) = some (2, 250) ∧
    (inMode .field).lineClass 36 (.tamper true false false 0) = some (5, 0) ∧ ((inMode .field).lineClass 32 (.analog 0)) = none ∧
    ({ inMode .field with tlt := { (inMode .field).tlt with straps := 8 } } : State).tlt.straps.testBit 3 = true ∧
    (inMode .field).tlt.straps.testBit 3 = false := by decide +kernel
/-- A frame of an ICMPv6 message to Tilth of half 1 from a host. -/
def icmpFrame (m : List Byte) : List Byte :=
  let src : List Byte := [0xFE, 0x80] ++ List.replicate 13 0 ++ [9]
  let dst : List Byte := [0xFE, 0x80] ++ List.replicate 13 0 ++ [2]
  let m := m.take 2 ++ beBytes 2 (check6 src dst 58 m) ++ m.drop 4
  [2, 0, 0, 0, 0, 1, 2, 0, 0, 0, 0, 2, 0x86, 0xDD, 0x60, 0, 0, 0] ++ beBytes 2 m.length ++ [58, 255] ++ src ++ dst ++ m
def icmpOf (m : List Byte) : Option Ip6 := Ip6.parse (icmpFrame m)
def askMsg : List Byte := [135, 0, 0, 0, 0, 0, 0, 0, 0xFE, 0x80] ++ List.replicate 13 0 ++ [2]
theorem wit_icmp : (icmpOf askMsg).all (fun x => x.icmp && x.hops == 255 && x.body.getD 0 0 == 135 && decide (24 ≤ x.body.length) &&
      (x.body.drop 8).take 16 == (inMode .field).mgtIp 1 && !x.src.all (· == 0)) = true ∧ (icmpOf askMsg).isSome = true ∧
    (icmpOf [128, 0, 0, 0, 1, 2, 3, 4]).all (fun x => x.icmp && x.body.getD 0 0 == 128 && decide (8 ≤ x.body.length) && x.dst == (inMode .field).mgtIp 1) = true ∧
    (icmpOf [128, 0, 0, 0, 1, 2, 3, 4]).isSome = true ∧ (Ip6.parse frame14).isNone = true ∧
    (icmpOf [129, 0, 0, 0, 1, 2, 3, 4]).all (fun x => x.body.getD 0 0 != 128 && x.body.getD 0 0 != 135) = true := by decide +kernel

/-! ## All commands, held writes, time, memory -/

theorem wit_held_writes : writeCmds zero (.heartbeat qT 1 7) = some (qT, 0x06, 1, 0x108, 7) ∧
    (zero.setf Reg.POT_CTL.armed 1 1 |>.potCheck qT .write (drsAddr 0x06 1 0x108)).ok = false ∧
    (zero.setf Reg.POT_CTL.armed 1 1 |>.cutOff (drsAddr 0x06 1 0x108)) = none ∧
    (lost zero).cutOff (drsAddr 0x06 1 0x108) = some 0x52 ∧
    writeCmds zero (.heartbeat qH 1 7) = some (qH, 0x06, 1, 0x108, 7) ∧ zero.mayStore qH 0x06 1 0x108 ∧
    zero.blkOn 0x06 1 = false := by unfold State.mayStore; decide +kernel
/-- Comparator 63 due; nothing due. -/
theorem wit_idle : (cmpS 0 0 0 1).cmpDue 63 = true ∧ (cmpS 0 0 0 1).dueNow ≠ [] ∧ (cmpS 0 0 0 1).pending = [] ∧
    (strS 0 0 { zero.strata with tick := 128, changes := [.rate 128 5] }).strata.changes.head? = some (.rate 128 5) ∧
    zero.pending = [] ∧ zero.dueNow = [] := by decide +kernel
theorem wit_store_read : (1 : Nat) ≤ 1 ∧ tagCleared 1 = false ∧ (∀ x, zero.tagLost 1 x = false) ∧
    (∀ x, x < cxlBase → zero.mem.tagAt x = 0 → SMap.get 0 zero.mem.bytes x = 0) :=
  ⟨by decide +kernel, by decide +kernel, fun _ => rfl, fun _ _ _ => rfl⟩
theorem wit_form : formKept { zero with pending := [.evhHoldWrite qH 1 0] } ∧
    (match step { zero with pending := [.evhHoldWrite qH 1 0] } with | .next _ => true | _ => false) = true :=
  ⟨⟨by decide +kernel, fun _ h => by rcases List.mem_singleton.mp h with rfl; rfl⟩, by decide +kernel⟩
/-- A timed descriptor of TI 7 for pool 3 whose launch time is no time. -/
def badTime : Entry := ⟨7, 0, 0, descr [(0, 0x8000), (4, 3 + 2 ^ 10), (0x18, 1000000000 * 2 ^ 16)], false⟩
def timeS : State := ((zero.setf Reg.TIF_POOLS.mask 7 8).setf Reg.STR_CMP_TIME_LO.value 0 (1000000000 * 2 ^ 16) 63)
theorem wit_bad_launch : badTime.timed = true ∧ 1000000000 ≤ bitsOf badTime.launch 47 16 ∧ badTime.gen = timeS.tiGen badTime.ti ∧
    timeS.rf Reg.TIF_CFG.priv badTime.ti ≠ 2 ∧ (timeS.rf Reg.TIF_POOLS.mask badTime.ti).testBit badTime.pool = true ∧
    timeS.buffersOwned badTime = true ∧ badTime.check4 false = 0 := by decide +kernel
def badCmp : State := (cmpS 0 0 0 0).setf Reg.STR_CMP_TIME_LO.value 0 (1000000000 * 2 ^ 16) 63
theorem wit_bad_times : badCmp.mayWrite qH 0x08 badCmp.strP (0x1010 + 32 * 63) ∧ badCmp.cmpOwner 63 qH.actor = true ∧
    (1 : Word).toNat % 2 = 1 ∧ (1 : Word).toNat / 4 % 2 = 0 ∧ badCmp.rb Reg.STR_CMP_CTL.armed 0 63 = false ∧
    1000000000 ≤ bitsOf (badCmp.cmpTime 63) 47 16 ∧ (up 0x08 0 zero).mayWrite qH 0x08 0 0x138 ∧ (0 : Half) = (up 0x08 0 zero).sys.primary ∧
    (2 ^ 63 : Word).toNat.testBit 63 = true ∧
    1000000000 ≤ bitsOf (((up 0x08 0 zero).setf Reg.STR_SET_LO.value 0 (1000000000 * 2 ^ 16)).rf Reg.STR_SET_LO.value 0) 47 16 := by
  unfold State.mayWrite; decide +kernel

/-! ## Worked examples of the spec -/

theorem test_stops : coreStop 77 = 0x057 ∧ sliceStop 38 = 0x057 ∧ coreStop 200 = 0x155 ∧ sliceStop 100 = 0x155 ∧ engCluster 0x2EA = 11 ∧
    clusterStop 11 = 0x144 ∧ coreStop 256 = 0x020 := by decide +kernel
theorem test_addresses : drsAddr 0x0D 11 0 = 0xFE00D00B00000 ∧ drsAddr 0x0A 4095 0 = 0xFE00AFFF00000 ∧ drsAddr 0x01 271 0 = 0xFE00110F00000 ∧
    drsAddr 0x02 0x2EA 0 = 0xFE0022EA00000 ∧ drsAddr 0x0F 1 (0x2000 + 8 * 139) = 0xFE00F00102458 ∧
    zero.potIndex (drsAddr 0x0A 0x2A1 0x1000) = some (2, 0xA2A101) ∧ drsAddr 0x0B 0 (0x10000 + 0x1000 * 77) = 0xFE00B0005D000 ∧
    drsAddr 0x0B 0 (0x8000 + 8 * 0x6A1) = 0xFE00B0000B508 ∧ drsAddr 0x08 0 (0x1000 + 32 * 40) = 0xFE00800001500 := by decide +kernel
theorem test_example_words : SOp.of 0x05540020 = some .addi ∧ fRd 0x05540020 = 5 ∧ fRa 0x05540020 = 5 ∧ SOp.of 0x85105802 = some .mmul ∧
    SOp.of 0x664C3FFD = some .bzcc ∧ kxOp 0x78A00111 = some .crr ∧ kxOp 0x8494A431 = some .vor ∧ kxOp 0xC40861B1 = some .vmont ∧
    kxOp 0xC40061B2 = some .vredm ∧ kxOp 0x29240010 = some .ld := by decide +kernel
/-- Pool 6 of H0 in clusters 1, 2, 5 and 6. -/
def pool6 : State :=
  [64, 128, 320, 384].foldl (fun s e => (((s.setf Reg.SLT_POOL.member e 1).setf Reg.SLT_POOL.cur_pool e 6)))
    ((List.range 8).foldl (fun s c => (List.range 64).foldl (fun s e => if e = 0 then up 0x02 (64 * c + e) s else s) (up 0x05 c s)) zero)
theorem test_affinity : affinity 0x000004137A2C91E5 = 0xEFDA ∧ pool6.clusterList 0 6 = [1, 2, 5, 6] := by decide +kernel
/-- The POT entry of the example, of a page of Topsoil's, for tenants 0x05C and 0x05D and for the network. -/
theorem test_pot_entry : (potJudge ⟨.topsoilTask, .t, .topsoil, 0x05C, 0, 0⟩ .write (some 0x05C05E59)).ok = true ∧
    (potJudge ⟨.topsoilTask, .t, .topsoil, 0x05D, 0, 0⟩ .write (some 0x05C05E59)).ok = false ∧
    (potJudge ⟨.io, .io, .topsoil, 0x05C, 0, 0⟩ .write (some 0x05C05E59)).ok = false := by decide +kernel
/-- H0 of 1,535 GiB: eight channels of three ranks of 64 GiB. -/
def big : State := (List.range 8).foldl (fun s c =>
  ((s.setf Reg.DMC_CFG.density c 1).setf Reg.DMC_CFG.active c 3).setf Reg.DMC_CFG.map c 0x24) { zero with sys := { zero.sys with s0 := 0x17FC0000000 } }
theorem test_homes : big.homeSlice 0x4020000100 0 = 32 ∧ sliceStop 32 = 0x051 ∧ big.homeSlice 0xFE00D00B00000 0 = 123 ∧
    big.potIndex 0x4020000100 = some (0, 0x4020000) := by decide +kernel
theorem test_dram_line : big.chanOf 0 0x4020000100 = (0, 0x804000100) ∧ channelStop 0 = 0x010 ∧ big.chanPa 0 0x804000100 = 0x4020000100 ∧
    big.rankBytes 0 = 0x1000000000 ∧ big.rowOf 0 0x804000100 = 0x10080 ∧ big.bgOf 0 0x804000100 = 2 ∧ big.bankOf 0 0x804000100 = 0 ∧
    8 * (big.reserveBase 0) = 0x17FC0000000 ∧ big.dramLocation 0 0x804000140 0 = 0x10080140 ∧
    big.chanOf 0 0x4020000140 = (0, 0x804000140) := by decide +kernel
theorem test_riddle : syn8 [(8, 1)] 0 = 0x01 ∧ syn8 [(8, 1)] 1 = 0x1D ∧ syn8 [(8, 1)] 2 = 0x4C ∧ decode35 [(8, 1)] = some [(8, 1)] := by decide +kernel
theorem test_strata : strataBits ((1786000000 * 1000000000 + 250000000) * 65536 + 0x8000) = 0x6A7432800EE6B2808000 ∧
    strataOf 0x6A7432BC000000000000 = some (1786000060 * 1000000000 * 65536) := by decide +kernel
theorem test_record_bytes : (⟨0x2A1, 7, 0, false, false, false, false, false, 0x10, 0x6A7432800EE6B2808000, 0x145, 0x201F, false⟩ : Rec).bytes 0x512 =
    [0x12, 5, 0, 0, 7, 0, 0, 0, 0x10, 0, 0, 0, 0, 0, 0, 0, 0, 0x80, 0x80, 0xB2, 0xE6, 0x0E, 0x80, 0x32, 0x74, 0x6A, 0, 0, 0x45, 1, 0x1F, 0x20] := by
  decide +kernel
theorem test_error_record : (⟨1, 1, 1, 2, 0x010, 0x4020000140, 0x6A7432E4050000000000, 0, 0xFFFF, 0x9E2104C73B58E0A6, 0xFFFF, 1, 0x05C, 0x10080140,
      false⟩ : ErrRec).bytes 0x135 =
    [0x35, 1, 1, 1, 1, 2, 0x10, 0, 0x40, 1, 0, 0x20, 0x40, 0, 0, 0, 0, 0, 0, 0, 0, 5, 0xE4, 0x32, 0x74, 0x6A, 0, 0, 0, 0, 0xFF, 0xFF,
      0xA6, 0xE0, 0x58, 0x3B, 0xC7, 4, 0x21, 0x9E, 0xFF, 0xFF, 0, 0, 1, 0, 0x5C, 0, 0x40, 1, 8, 0x10, 0, 0, 0, 0, 0, 0, 0, 0, 0, 0, 0, 0] := by
  decide +kernel
/-- 40 ps, and 31 ps after 8,766 hours: 23.4 years to one decimal. -/
theorem test_margin : (marginOf 160 8766 [(8766, 124)] * 10 + 32768) / 65536 = 234 := by decide +kernel
theorem test_sense : (inMode .field).lineClass 2 (.sense (-815) 820 false) = some (3, 0x032F) ∧
    (inMode .field).lineClass 2 (.sense 3 818 false) = some (2, 3) ∧ drsAddr 0x12 1 0x310 = 0xFE01200100310 := by decide +kernel
theorem test_od_frame : omHeader 0x10 3 0x29 10 = [0x47, 0x4D, 1, 0x10, 3, 0, 0, 0, 0x29, 0, 0, 0, 0, 0, 0, 0, 0x0A, 0, 0, 0] ∧
    OdReq.parse [2, 3, 0, 4, 1, 0, 2, 0, 0x20, 3] = ⟨2, 3, 0x0400, 1, 0, 2, [0x20, 3]⟩ ∧
    odResponse ⟨2, 3, 0x0400, 1, 0, 2, [0x20, 3]⟩ 0 [] = [0x82, 0, 0, 4, 1, 3, 0, 0] := by decide +kernel
/-- A doubleword of open memory of core 0. -/
def xW (a v : Nat) (s : State) : State :=
  let q := s.coreReq 0
  let s := admits q a s
  s.pokeHome (s.tagOf (s.keySlotFor q a)) a (leBytes 8 v)
/-- Core 0 at level A at 0x40_1A2C, its code page mapped, with four levels of tables for one region: entry 4 of the level-4 table
is invalid, and entry 0 is given. -/
def xS (k : Core) (l1 l3 leaf : Nat) : State :=
  let s := dram { zero with cores := [(0, { k with run := .running, level := 0, ie := true, pc := 0x401A2C, ctl := [(0x30, 1), (0x31, 0x10000), (0x20, 0x7000)] })] }
  let s := admits (s.coreReq 0) 0x41A00 (admits (s.coreReq 0) 0x14000 s)
  let s := xW 0x10000 0x11001 (xW (0x11000 + 8 * l1) 0x12001 (xW (0x12000 + 8 * (if l1 = 0xFF then 0x1C0 else 0)) 0x13001 (xW (0x13000 + 8 * l3) 0x14001 s)))
  let s := xW 0x11000 0x22001 (xW 0x22000 0x23001 (xW 0x23010 0x24001 (xW 0x24008 0x41153 s)))
  if leaf = 0 then s else xW 0x14000 leaf s
def nextOf (o : Out3) : State := match o with | .next t => t | _ => zero
/-- LD g9, 16(g4) whose level-4 entry is invalid. -/
def xT : State := nextOf (execKxLd 0 0x29240010 (xS { Core.empty with g := [(4, 0x7FF000003FF8)] } 0xFF 0 0))
theorem test_translate : ((xT.core 0).frames.map fun f => (f.pc, f.status)) = [(0x401A2C, 0xE000080008)] ∧ (xT.core 0).level = 1 ∧
    (xT.core 0).ie = false ∧ (xT.core 0).pc = 0x7000 ∧ (xT.core 0).cr 0x28 = 0x7FF000004008 := by decide +kernel
/-- VGATHER v8, [g4, v12] under p4 of sixteen words, of which elements 4 to 15 lie in an invalid page. -/
def gK : Core :=
  { Core.empty with g := [(4, 0x500000200F00)], ffr := 0xFFFF, p := (List.range 4).map fun i => (4 + i, 0xFFFFFFFF), v := (List.range 4).map fun j =>
    (12 + j, BitVec.ofNat 256 ((List.range 4).foldl (fun a i => a + 8 * (4 * j + i) * 2 ^ (64 * i)) 0)) }
def gS : State := xW 0x50F00 0x11 (xW 0x50F40 0x22 (xW 0x50F80 0x33 (xW 0x50FC0 0x44 (xS gK 0xA0 1 0x50147))))
def gT : State := nextOf (execKxVgather 0 0xA90464B0 gS)
theorem test_gather : ((gT.core 0).frames.map fun f => f.status) = [0x24E000080008] ∧ (gT.core 0).cr 0x28 = 0x500000201000 ∧
    (gT.core 0).v = gK.v := by decide +kernel
def gU : State := nextOf (execKxVgatherff 0 0xB50464B0 gS)
theorem test_gather_first_fault : (gU.core 0).frames = [] ∧ (gU.core 0).ffr = 0xF ∧
    ((gU.core 0).rv 8).toNat = 0x44 * 2 ^ 192 + 0x33 * 2 ^ 128 + 0x22 * 2 ^ 64 + 0x11 ∧ (gU.core 0).rv 9 = 0 := by decide +kernel
/-- The last step of the 1,024-bit example. -/
def mK : Core :=
  { kcore with v := [(1, BitVec.ofNat 256 (15 + 2 ^ 76)), (2, BitVec.ofNat 256 (3 * 2 ^ 244)), (3, BitVec.ofNat 256 (5 * 2 ^ 88)), (8, 5), (9, BitVec.ofNat 256 (2 ^ 244)), (12, BitVec.allOnes 256), (13, BitVec.allOnes 256),
    (14, BitVec.allOnes 256), (15, BitVec.allOnes 256), (16, 1)] }
theorem test_montgomery : ((List.range 4).map fun i => (((nextOf (execKxVmont 0 0xC40861B1 (kst mK))).core 0).rv i).toNat) =
    [15 + 2 ^ 76, 3 * 2 ^ 244, 5 * 2 ^ 88, 0] := by decide +kernel
/-- TI 0x2A1's interrupt is claimed by core 77. -/
def evS : State := [0, 1].foldl (fun s h =>
  (((s.setf Reg.EVH_SRC.enable h 1 0x6A1).setf Reg.EVH_SRC.level h 0 0x6A1).setf Reg.EVH_SRC.priority h 0x35 0x6A1).setf Reg.EVH_SRC.target h 77 0x6A1)
    ((evhS.setf Reg.EVH_PRIO.thr_k 0 0xF0 77).setf Reg.EVH_PRIO.split 0 4 77)
theorem test_claim : (nextOf (execEvhClaimK qH 77 (nextOf (execEvhRaiseWrite qH 0 0x2A16A1 evS)))).out.value = 0x2A16A1 := by decide +kernel

/-! ## Steps and ill-formed terms -/

theorem test_step_front : (match step { zero with pending := [.gritHeartbeat 1, .leaseSend] } with | .next t => t.pending == [.leaseSend] | _ => false) = true := by
  decide +kernel
theorem test_step_idle : (match step zero with | .next t => t.strata.tick == 1 && t.strata.time == 65536 | _ => false) = true := by decide +kernel
/-- One ill-formed command for each check of `Instr.wf`. -/
theorem test_ill_formed : (Instr.registerWrite qH 0x1000 8 0).wf = false ∧ (Instr.registerWrite qH (BitVec.ofNat 52 drsBase) 2 0).wf = false ∧
    (Instr.registerWrite qH (BitVec.ofNat 52 (drsBase + 4)) 8 0).wf = false ∧ (Instr.enableWrite qH 0x01 272 true).wf = false ∧
    (Instr.startDone 0x00 0).wf = false ∧ (Instr.stopDone 0x02 1024).wf = false ∧ (Instr.blockFault 0x0D 16 1).wf = false ∧
    (Instr.blockTimeout 0x06 2).wf = false ∧ (Instr.inboundRead 0 0 0xFFF 2).wf = false ∧ (Instr.inboundRead 0 0 0 0).wf = false ∧
    (Instr.inboundWrite 0 0 0xFFF [1, 2] false).wf = false ∧ (Instr.inboundWrite 0 0 0 [] false).wf = false ∧
    (Instr.frameReceive 0 0 (frame14.take 13)).wf = false ∧ (Instr.dap 0 .topsoil (.write 0 (List.replicate 65 0))).wf = false := by decide +kernel
theorem test_long_frame : (Instr.frameReceive 0 0 (List.replicate 9217 0)).wf = false := by decide +kernel
theorem test_well_formed : (Instr.registerWrite qH (BitVec.ofNat 52 (drsBase + 4)) 4 0).wf = true ∧ (Instr.enableWrite qH 0x01 271 true).wf = true ∧
    (Instr.inboundRead 0 0 0xFFE 2).wf = true ∧ (Instr.frameReceive 0 0 frame14).wf = true ∧
    (Instr.dap 0 .topsoil (.write 0 (List.replicate 64 0))).wf = true := by decide +kernel

end Sys2Proof.Tests
end

/-!
PROOFS. Register accesses: a command's read of a register (O24), a store by address to a register that the primary half alone
has (O25), a command's write of a register (O55).
-/
namespace Sys2Proof.Machine

open Claims

/-! ## The page check before an access (R10, R132, R292) -/

section
variable {s : State} {q : Requester} {acc : Acc} {cls inst off : Nat}

/-- The three outcomes of the check. The definition is unfolded before it is applied and the address is made a variable: the kernel
would otherwise take the address's numerals apart when it compares the two sides. -/
theorem State.withAccess_spec (s : State) (q : Requester) (acc : Acc) (cls inst off : Nat) (k : State → State) :
    (∀ src, s.cutOff (drsAddr cls inst off) = some src →
      s.withAccess q acc cls inst off k = s.drsLost q (drsAddr cls inst off) src) ∧
    (s.cutOff (drsAddr cls inst off) = none → (s.potCheck q acc (drsAddr cls inst off)).ok = false →
      s.withAccess q acc cls inst off k =
        s.refuse q acc (drsAddr cls inst off) (s.potCheck q acc (drsAddr cls inst off))) ∧
    (s.cutOff (drsAddr cls inst off) = none → (s.potCheck q acc (drsAddr cls inst off)).ok = true →
      s.withAccess q acc cls inst off k = k s) := by
  have hdef : @State.withAccess = @State.withAccess := rfl
  conv at hdef => rhs; delta State.withAccess
  rw [hdef]
  clear hdef
  dsimp -zeta only
  generalize drsAddr cls inst off = a
  refine ⟨fun src hl => ?_, fun hl hp => ?_, fun hl hp => ?_⟩
  · simp only [hl]
  · simp [hl, hp]
  · simp [hl, hp]

theorem State.withAccess_lost {src : Nat} (h : s.cutOff (drsAddr cls inst off) = some src) (k : State → State) :
    s.withAccess q acc cls inst off k = s.drsLost q (drsAddr cls inst off) src :=
  (s.withAccess_spec q acc cls inst off k).1 src h

theorem State.withAccess_refused (hl : s.cutOff (drsAddr cls inst off) = none)
    (hp : (s.potCheck q acc (drsAddr cls inst off)).ok = false) (k : State → State) :
    s.withAccess q acc cls inst off k =
      s.refuse q acc (drsAddr cls inst off) (s.potCheck q acc (drsAddr cls inst off)) :=
  (s.withAccess_spec q acc cls inst off k).2.1 hl hp

theorem State.withAccess_admitted (hl : s.cutOff (drsAddr cls inst off) = none)
    (hp : (s.potCheck q acc (drsAddr cls inst off)).ok = true) (k : State → State) :
    s.withAccess q acc cls inst off k = k s :=
  (s.withAccess_spec q acc cls inst off k).2.2 hl hp

/-- A write that the page admits waits behind those already held while its block is not ON (R33). -/
theorem State.writeReg_held (h : s.mayStore q cls inst off) (hb : s.blkOn cls inst = false) (v : Nat) (k : State → State) :
    s.writeReg q cls inst off v k =
      { s with heldWrites := SMap.upd [] s.heldWrites (blkKey cls inst) (· ++ [⟨q, off, 8, v⟩]) } := by
  obtain ⟨hp, hl⟩ := h
  rw [State.writeReg, State.withAccess_admitted hl hp, hb]
  rfl

end

/-! ## Clearing the fields that a read clears (R7) -/

/-- The register file is all that clearing changes. -/
theorem State.clearRC_frame (s : State) (i j : Nat) (fs : List Fld) : { s.clearRC i j fs with regs := s.regs } = s := by
  refine foldl_keeps (fun t : State => { t with regs := s.regs } = s) fs _ s (fun t f h => ?_) rfl
  split <;> exact h

theorem State.clearRC_cons (s : State) (i j : Nat) (g : Fld) (fs : List Fld) :
    s.clearRC i j (g :: fs) = (if g.ty = .rc then s.setf g i 0 j else s).clearRC i j fs := rfl

/-- A field that is no RC field of the register, of another block or at another index keeps its value. -/
theorem State.rf_clearRC_other (s : State) (i j : Nat) (fs : List Fld) (f : Fld) (i' j' : Nat)
    (h : ¬ (i' = i ∧ j' = j ∧ ∃ g ∈ fs, g.ty = .rc ∧ g.id = f.id)) : (s.clearRC i j fs).rf f i' j' = s.rf f i' j' := by
  induction fs generalizing s with
  | nil => rfl
  | cons g fs ih =>
    have hfs : ¬ (i' = i ∧ j' = j ∧ ∃ g ∈ fs, g.ty = .rc ∧ g.id = f.id) :=
      fun ⟨hi, hj, g', hg', h'⟩ => h ⟨hi, hj, g', List.mem_cons_of_mem g hg', h'⟩
    rw [State.clearRC_cons, ih _ hfs]
    by_cases hg : g.ty = .rc
    · rw [if_pos hg]
      apply State.rf_setf_ne
      by_cases hid : f.id = g.id
      · by_cases hi : i' = i
        · exact Or.inr (Or.inr fun hj => h ⟨hi, hj, g, List.mem_cons_self, hg, hid.symm⟩)
        · exact Or.inr (Or.inl hi)
      · exact Or.inl hid
    · rw [if_neg hg]

/-- Every RC field reads 0 afterwards, since no field after it in the register has its number. -/
theorem State.rf_clearRC_self (s : State) (i j : Nat) (fs : List Fld) (hn : (fs.map Fld.id).Nodup) (f : Fld) (hf : f ∈ fs)
    (hr : f.ty = .rc) : (s.clearRC i j fs).rf f i j = 0 := by
  induction fs generalizing s with
  | nil => cases hf
  | cons g fs ih =>
    rw [List.map_cons, List.nodup_cons] at hn
    rw [State.clearRC_cons]
    rcases List.mem_cons.1 hf with rfl | hf
    · have hlater : ¬ (i = i ∧ j = j ∧ ∃ g ∈ fs, g.ty = .rc ∧ g.id = f.id) :=
        fun ⟨_, _, g, hg, _, e⟩ => hn.1 (e ▸ List.mem_map_of_mem hg)
      rw [State.rf_clearRC_other _ _ _ _ _ _ _ hlater, if_pos hr, State.rf_setf_self, Nat.zero_mod]
    · exact ih _ hn.2 hf

/-! ## Reading a register -/

section
variable {r : RegDef}

theorem State.readReg_plain (s : State) (hr : primaryOnly r = false) (i j : Nat) :
    s.readReg r i j = (s.clearRC i j r.fields).answer (s.regWord i j r.fields) 0 := by
  simp [State.readReg, hr]

theorem State.readReg_primary (s : State) (hr : primaryOnly r = true) (j : Nat) :
    s.readReg r s.sys.primary.val j = (s.clearRC 0 j r.fields).answer (s.regWord 0 j r.fields) 0 := by
  simp [State.readReg, hr]

theorem State.readReg_notPrimary {s : State} (hr : primaryOnly r = true) {i : Nat} (hi : s.sys.primary.val ≠ i) (j : Nat) :
    s.readReg r i j = s.answer 0 0 := by
  simp [State.readReg, hr, hi]

end

/-- A read changes the registers and the answer alone. -/
theorem State.answer_clearRC_frame (s : State) (i j : Nat) (fs : List Fld) (v st : Nat) :
    { (s.clearRC i j fs).answer v st with regs := s.regs, out := s.out } = s := by
  have h := s.clearRC_frame i j fs
  exact congrArg (fun t : State => { t with out := s.out }) h

/-- What the primary half's read of a register that it alone has answers, clears and keeps. -/
theorem State.readReg_primary_spec (s : State) {r : RegDef} (hp : primaryOnly r = true) (hn : (r.fields.map Fld.id).Nodup)
    (j : Nat) :
    (s.readReg r s.sys.primary.val j).out.value = s.regWord 0 j r.fields ∧ s.onlyRegs (s.readReg r s.sys.primary.val j) ∧
    (∀ f ∈ r.fields, f.ty = .rc → (s.readReg r s.sys.primary.val j).rf f 0 j = 0) ∧
    (∀ f, (∀ g ∈ r.fields, g.ty = .rc → g.id ≠ f.id) → (s.readReg r s.sys.primary.val j).rf f 0 j = s.rf f 0 j) := by
  rw [State.readReg_primary s hp]
  refine ⟨rfl, s.answer_clearRC_frame _ _ _ _ _, fun f hf hr => s.rf_clearRC_self 0 j _ hn f hf hr, fun f hf => ?_⟩
  exact s.rf_clearRC_other 0 j _ f 0 j fun ⟨_, _, g, hg, hr, e⟩ => hf g hg hr e

/-! ## The commands that read a register -/

/-- Each is a read of its register, with what the read does besides. -/
theorem exec_of_readCmds {c : Instr} {q : Requester} {cls inst j : Nat} {r : RegDef} (h : readCmds c = some (q, cls, inst, r, j))
    (s : State) : exec c s = .next (s.readCmd q cls inst r j fun t => readAfter t c) := by
  unfold readCmds at h
  split at h <;> cases h <;> rfl

/-- Their registers stand in both halves, and each field of them has its own number. -/
theorem readCmds_reg {c : Instr} {q : Requester} {cls inst j : Nat} {r : RegDef} (h : readCmds c = some (q, cls, inst, r, j)) :
    primaryOnly r = false ∧ (r.fields.map Fld.id).Nodup := by
  unfold readCmds at h
  split at h <;> cases h <;> decide

theorem State.readCmd_admitted {s : State} {q : Requester} {cls inst j : Nat} {r : RegDef}
    (h : s.mayRead q cls inst (r.off + r.stride * j)) (k : State → State) :
    s.readCmd q cls inst r j k = k (s.readReg r inst j) :=
  State.withAccess_admitted h.2 h.1 _

/-- A read that the page admits answers the word and clears the RC fields, and then does what its command does besides. -/
theorem exec_readCmds_admitted {c : Instr} {q : Requester} {cls inst j : Nat} {r : RegDef} {s : State}
    (hc : readCmds c = some (q, cls, inst, r, j)) (h : s.mayRead q cls inst (r.off + r.stride * j)) :
    exec c s = .next (readAfter ((s.clearRC inst j r.fields).answer (s.regWord inst j r.fields) 0) c) := by
  rw [exec_of_readCmds hc, State.readCmd_admitted h, State.readReg_plain s (readCmds_reg hc).1]

theorem exec_prtClaimRead (q : Requester) (h : Half) (n : Fin 130) (s : State) :
    exec (.prtClaimRead q h n) s = .next (s.readCmd q 0x12 h.val Reg.PRT_CLAIM.reg n.val id) := rfl

theorem exec_prtClaimRead_admitted {q : Requester} {h : Half} {n : Fin 130} {s : State}
    (hm : s.mayRead q 0x12 h.val (0x1000 + 8 * n.val)) :
    exec (.prtClaimRead q h n) s = .next (s.readReg Reg.PRT_CLAIM.reg h.val n.val) := by
  have hoff : 0x1000 + 8 * n.val = Reg.PRT_CLAIM.reg.off + Reg.PRT_CLAIM.reg.stride * n.val := rfl
  rw [hoff] at hm
  rw [exec_prtClaimRead, State.readCmd_admitted hm, id]

/-- PRT_CLAIM is the primary's alone (R37). -/
theorem primaryOnly_prtClaim : primaryOnly Reg.PRT_CLAIM.reg = true := by decide

/-- Settles O24: each command is one read of its register behind the page check, and clearing its RC fields, each of which has a
number of its own, is all that the read writes. -/
theorem registerReads : Obligations.RegisterReads := by
  unfold Obligations.RegisterReads
  refine ⟨fun c q cls inst j r s hc => ⟨fun hm => ?admitted, fun hl hp => ?refused, fun src hl => ?lost⟩,
    fun q h n s hm => ⟨fun hh => ?primary, fun hh => ?other⟩⟩
  case admitted =>
    refine ⟨_, exec_readCmds_admitted hc hm, rfl, rfl, s.answer_clearRC_frame _ _ _ _ _, fun f hf hr => ?_, fun f i k hn => ?_⟩
    · exact s.rf_clearRC_self inst j r.fields (readCmds_reg hc).2 f hf hr
    · exact s.rf_clearRC_other inst j r.fields f i k hn
  case refused => rw [exec_of_readCmds hc, State.readCmd, State.withAccess_refused hl hp]
  case lost => rw [exec_of_readCmds hc, State.readCmd, State.withAccess_lost hl]
  case primary =>
    obtain ⟨hv, hframe, hrc, hkept⟩ := s.readReg_primary_spec primaryOnly_prtClaim (by decide) n.val
    subst hh
    exact ⟨_, exec_prtClaimRead_admitted hm, hv, hframe, hrc _ (by decide) rfl, hkept _ (by decide)⟩
  case other =>
    refine ⟨_, exec_prtClaimRead_admitted hm, ?_⟩
    rw [State.readReg_notPrimary primaryOnly_prtClaim fun e => hh (Fin.ext e)]
    exact ⟨rfl, rfl⟩

/-! ## The commands that write a register -/

/-- Each is a write of its word at its offset. -/
theorem exec_of_writeCmds {s : State} {c : Instr} {q : Requester} {cls inst off v : Nat}
    (h : writeCmds s c = some (q, cls, inst, off, v)) : ∃ k, exec c s = .next (s.writeReg q cls inst off v k) := by
  unfold writeCmds at h
  split at h <;> cases h <;> exact ⟨_, rfl⟩

/-- Settles O55: each command is one write of its register, and the three outcomes of the page check and the wait of R33 are those
of every such write. -/
theorem heldWrites : Obligations.HeldWrites := by
  unfold Obligations.HeldWrites
  intro c q cls inst off v s hc
  obtain ⟨k, hk⟩ := exec_of_writeCmds hc
  rw [hk]
  refine ⟨fun src hl => ?_, fun hl hp => ?_, fun hm hb => ?_⟩
  · rw [State.writeReg, State.withAccess_lost hl]
  · rw [State.writeReg, State.withAccess_refused hl hp]
  · rw [State.writeReg_held hm hb]
    refine ⟨_, rfl, rfl, fun i => ?_⟩
    show SMap.get [] (SMap.upd [] s.heldWrites (blkKey cls inst) (· ++ [⟨q, off, 8, v⟩])) i = _
    rw [SMap.get_upd]
    split
    case isTrue hi => rw [hi]
    case isFalse => rw [List.append_nil]

/-! ## A store to a register that the primary half alone has (R173) -/

/-- H0 is primary, and H1's STR block is ON. -/
def strOfHalf1On : State := State.reset.setf Reg.PFX_STATE.state (blkKey 0x08 1) 2

/-- A Hardpan core of H0. -/
def hardpanOfHalf0 : Requester := ⟨.hardpanWorld, .h, .hardpan, 0, 0, 0⟩

/-- The field denied of comparator 0 after a command. -/
def cmpDeniedAfter : Out3 → Nat
  | .next t => t.rf Reg.STR_CMP_CTL.denied 0 0
  | _ => 0

/-- H1's bank of comparators takes no store while H0 is primary (R173). -/
theorem cmpDenied_storeInHalf1 :
    cmpDeniedAfter (exec (.registerWrite hardpanOfHalf0 (BitVec.ofNat 52 (drsAddr 0x08 1 0x1018)) 8 0) strOfHalf1On) = 0 := by
  decide +kernel

/-- The same store in the primary's bank is one of an actor that does not own the comparator. -/
theorem cmpDenied_applyInHalf0 :
    cmpDeniedAfter (.next (strOfHalf1On.applyWrite hardpanOfHalf0 0x08 0 0 0 Reg.STR_CMP_ARG.reg)) = 1 := by
  decide +kernel

/-- Refutes O25. Its second clause gives a store to a register that the primary half alone has the effect of a store to half 0's
block, whichever half the address names. With H0 primary and H1's STR block ON, a store to H1's STR_CMP_ARG[0] does nothing
(R173), where the clause has it set denied of comparator 0. -/
theorem not_registerStores : ¬ Obligations.RegisterStores := by
  unfold Obligations.RegisterStores
  intro h
  obtain ⟨-, hstore, -⟩ := h
  have hs := hstore hardpanOfHalf0 0x08 1 0x1018 1 0 Reg.STR_CMP_ARG.reg 0 strOfHalf1On 8 rfl (by decide) (by decide) (by decide)
    (by decide) (by decide) (by decide +kernel) (by decide +kernel) (by decide +kernel) (by decide +kernel) (by decide)
  rw [if_pos (Or.inl (by decide +kernel : strOfHalf1On.blkOn 0x08 1 = true)),
    if_pos (by decide : primaryOnly Reg.STR_CMP_ARG.reg = true)] at hs
  have hd := congrArg cmpDeniedAfter hs
  rw [cmpDenied_storeInHalf1] at hd
  exact absurd (hd.trans cmpDenied_applyInHalf0) (by decide)

end Sys2Proof.Machine

/-!
PROOFS. Dispatch: a link between two pools is written (O13), stealing, and a record's way from its latch to its ring (O14).
-/
namespace Sys2Proof.Machine

/-! ## Register fields -/

section
variable (s : State) {f g : Fld}

/-- A field with another number keeps its value. -/
theorem State.rf_addf_ne (h : g.id ≠ f.id) (i j n i' j' : Nat) : (s.addf f i j n).rf g i' j' = s.rf g i' j' :=
  s.rf_setf_ne f g i _ j i' j' (Or.inl h)

/-- A counter stops at the largest value its field holds. -/
theorem State.rf_addf_self (f : Fld) (i j n : Nat) :
    (s.addf f i j n).rf f i j = min (2 ^ f.width - 1) (s.rf f i j + n) := by
  have hle : min (2 ^ f.width - 1) (s.rf f i j + n) < 2 ^ f.width :=
    Nat.lt_of_le_of_lt (Nat.min_le_left _ _) (Nat.sub_lt (Nat.two_pow_pos _) Nat.one_pos)
  exact (s.rf_setf_self f i _ j).trans (Nat.mod_eq_of_lt hle)

/-- A plain field stored whole takes its bits of the word (R7). -/
theorem State.storeFld_rw_whole {a : Actor} (ha : f.admits a = true) (ht : f.ty = .rw) (hm : f.of allOnes = 2 ^ f.width - 1)
    (i j w : Nat) : s.storeFld a i j w allOnes f = s.setf f i (f.of w) j := by
  have hv : f.of w &&& (2 ^ f.width - 1) = f.of w := by
    rw [Nat.and_two_pow_sub_one_eq_mod, Fld.of, Nat.mod_mod]
  simp [State.storeFld, ha, ht, hm, hv]

/-- A field that admits no store of the actor keeps its value (R10). -/
theorem State.storeFld_denied {a : Actor} (ha : f.admits a = false) (i j w mask : Nat) : s.storeFld a i j w mask f = s := by
  simp [State.storeFld, ha]

theorem Fld.of_mod_self (f : Fld) (w : Nat) : f.of w % 2 ^ f.width = f.of w := Nat.mod_mod _ _

end

/-! ## Links between pools of the two halves (R86) -/

section
open Reg

/-- A pool link as the word names it, denied clear. -/
def State.linkStored (s : State) (h p v : Nat) : State :=
  ((((s.setf DSP_POOL_LINK.link_valid h (DSP_POOL_LINK.link_valid.of v) p).setf
    DSP_POOL_LINK.peer_pool h (DSP_POOL_LINK.peer_pool.of v) p).setf
    DSP_POOL_LINK.steal_out h (DSP_POOL_LINK.steal_out.of v) p).setf
    DSP_POOL_LINK.cross_route h (DSP_POOL_LINK.cross_route.of v) p).setf DSP_POOL_LINK.denied h 0 p

theorem State.rf_linkStored (s : State) (h p v : Nat) :
    (s.linkStored h p v).rf DSP_POOL_LINK.link_valid h p = DSP_POOL_LINK.link_valid.of v ∧
    (s.linkStored h p v).rf DSP_POOL_LINK.peer_pool h p = DSP_POOL_LINK.peer_pool.of v ∧
    (s.linkStored h p v).rf DSP_POOL_LINK.steal_out h p = DSP_POOL_LINK.steal_out.of v ∧
    (s.linkStored h p v).rf DSP_POOL_LINK.cross_route h p = DSP_POOL_LINK.cross_route.of v ∧
    (s.linkStored h p v).rf DSP_POOL_LINK.denied h p = 0 := by
  simp (disch := decide) [State.linkStored, State.rf_setf_id, Fld.of_mod_self]

/-- It is a change of the register file alone. -/
theorem State.linkStored_frame (s : State) (h p v : Nat) : ∃ r, s.linkStored h p v = { s with regs := r } := by
  dsimp only [State.linkStored, State.setf]
  exact ⟨_, rfl⟩

variable {s : State} {a : Actor} {h p : Nat}

/-- Each field but denied admits both worlds, and denied admits no store. -/
theorem State.storeReg_poolLink (ha : a = .h ∨ a = .t) (v : Nat) :
    (s.storeReg a h p v allOnes DSP_POOL_LINK.reg.fields).setf DSP_POOL_LINK.denied h 0 p = s.linkStored h p v := by
  have hv : DSP_POOL_LINK.link_valid.admits a = true := by rcases ha with rfl | rfl <;> decide
  have hd : DSP_POOL_LINK.denied.admits a = false := by rcases ha with rfl | rfl <;> decide
  simp only [State.storeReg, DSP_POOL_LINK.reg, List.foldl_cons, List.foldl_nil]
  rw [State.storeFld_rw_whole _ hv rfl (by decide),
    State.storeFld_rw_whole (f := DSP_POOL_LINK.peer_pool) _ hv rfl (by decide),
    State.storeFld_rw_whole (f := DSP_POOL_LINK.steal_out) _ hv rfl (by decide),
    State.storeFld_rw_whole (f := DSP_POOL_LINK.cross_route) _ hv rfl (by decide), State.storeFld_denied _ hd]
  rfl

/-- Hardpan's write, and a T write for a valid Topsoil pool, are taken. -/
theorem State.poolLinkSet_accepted
    (ha : a = .h ∨ (a = .t ∧ s.rb HPN_POOL.valid h p = true ∧ s.topsoilPool h p = true)) (v : Nat) :
    s.poolLinkSet a h p v = s.linkStored h p v := by
  rcases ha with rfl | ⟨rfl, hv, hw⟩
  · exact State.storeReg_poolLink (.inl rfl) v
  · rw [← State.storeReg_poolLink (.inr rfl), State.poolLinkSet, hv, hw]
    rfl

/-- Any other T write sets denied alone. -/
theorem State.poolLinkSet_denied (hp : s.rb HPN_POOL.valid h p = false ∨ s.topsoilPool h p = false) (v : Nat) :
    s.poolLinkSet .t h p v = s.setf DSP_POOL_LINK.denied h 1 p := by
  have hb : (s.rb HPN_POOL.valid h p && s.topsoilPool h p) = false := Bool.and_eq_false_iff.2 hp
  rw [State.poolLinkSet, hb]
  rfl

/-- A write that the page admits reaches a block that is ON at once. -/
theorem State.writeReg_admitted {q : Requester} {cls inst off : Nat} (hm : s.mayWrite q cls inst off) (v : Nat)
    (k : State → State) : s.writeReg q cls inst off v k = k s := by
  obtain ⟨hp, hl, hb⟩ := hm
  rw [State.writeReg, State.withAccess_admitted hl hp, if_pos hb]

end

theorem exec_dspPoolLinkWrite_admitted {q : Requester} {h : Half} {p : Fin 32} {s : State}
    (hm : s.mayWrite q 0x03 h.val (0x200 + 8 * p.val)) (v : Word) :
    exec (.dspPoolLinkWrite q h p v) s = .next (s.poolLinkSet q.actor h.val p.val v.toNat) :=
  congrArg Host.Outcome.next (State.writeReg_admitted hm _ _)

/-- Settles O13: an admitted write is either taken whole with denied cleared, or sets denied alone. -/
theorem poolLinks : Obligations.PoolLinks := by
  unfold Obligations.PoolLinks
  intro q h p v s hm
  rw [exec_dspPoolLinkWrite_admitted hm]
  refine ⟨fun ha => ?accepted, fun ht hp => ?denied⟩
  case accepted =>
    rw [State.poolLinkSet_accepted ha]
    obtain ⟨hvalid, hpeer, hsteal, hcross, hdenied⟩ := s.rf_linkStored h.val p.val v.toNat
    obtain ⟨r, hframe⟩ := s.linkStored_frame h.val p.val v.toNat
    rw [hframe] at hvalid hpeer hsteal hcross hdenied ⊢
    refine ⟨_, rfl, rfl, ?_, ?_, hsteal, hcross, hdenied⟩
    · simpa [Fld.of, Reg.DSP_POOL_LINK.link_valid] using hvalid
    · simpa [Fld.of, Reg.DSP_POOL_LINK.peer_pool] using hpeer
  case denied =>
    rw [ht, State.poolLinkSet_denied hp]
    refine ⟨_, rfl, rfl, s.rf_setf_self _ _ _ _, fun f i j hne => ?_⟩
    rw [Classical.not_and_iff_not_or_not, Classical.not_and_iff_not_or_not] at hne
    exact s.rf_setf_ne _ _ _ _ _ _ _ hne

/-! ## A search's stages (R83, R84) -/

section
variable {s : State}

/-- The engine stands at a stage of its search. -/
def Engine.atStage (st : StealStage) (k : Engine) : Engine := { k with steal := st }

/-- An engine in the clusters' stage sends its request and tries the next cluster the time after. -/
theorem exec_stealAttempt_cluster {e : EngineId} {n : Nat} (hm : s.mayStealNow e.val = true)
    (hst : s.stealStage e.val = .cluster n) :
    exec (.stealAttempt e) s = .next { s.updEng e.val (Engine.atStage (.cluster (n + 1))) with
      steals := s.steals ++ [.request e.val ((s.stealClusters e.val).getD (n % (s.stealClusters e.val).length) 0)
        (s.poolOf e.val) false] } := by
  change execStealAttempt e s = _
  simp only [execStealAttempt, hm, hst]
  rfl

theorem exec_stealBackoffEnd_backoff {e : EngineId} (h : (s.eng e.val).steal = .backoff) :
    exec (.stealBackoffEnd e) s = .next (s.updEng e.val (Engine.atStage (.local 0))) := by
  change execStealBackoffEnd e s = _
  simp only [execStealBackoffEnd, h]
  rfl

/-! ## The messages of a search -/

/-- A message alone on its way arrives. -/
theorem State.stealArrives_singleton {m : StealMsg} (h : s.steals = [m]) : s.stealArrives m = true := by
  simp [State.stealArrives, h]

theorem dropFirst_singleton_self (m : StealMsg) : dropFirst (fun x => x == m) [m] = [] := by
  simp [dropFirst]

/-- What is left of the deque when its oldest untimed entry has gone. -/
def Engine.robbed (k : Engine) : Engine := { k with deque := dropFirst (fun y => !y.timed) k.deque }

theorem State.takeOldest_cons {v : Nat} {x : Entry} {xs : List Entry} (h : (s.eng v).untimed = x :: xs) :
    s.takeOldest v = some (x, s.updEng v Engine.robbed) := by
  simp only [State.takeOldest, h]
  rfl

/-- A request alone on its way is answered with the oldest untimed entry of the fullest member, when that holds enough. -/
theorem exec_stealRequest_granted {e : EngineId} {c pool v : Nat} {x : Entry} {xs : List Entry}
    (hs : s.steals = [.request e.val c pool false]) (hv : s.mostUntimed (s.clusterMembers c pool true) = some v)
    (hx : (s.eng v).untimed = x :: xs)
    (hmin : max 1 (s.rf Reg.DSP_STEAL_CTL.min_victim (c / 8)) ≤ (x :: xs).length) :
    exec (.stealRequest e) s = .next { s.updEng v Engine.robbed with
      steals := [.reply e.val c (s.poolOf e.val) (some x) false] } := by
  change execStealRequest e s = _
  have hvictim : (s.mostUntimed (s.clusterMembers c pool true)).filter (fun v =>
      max 1 (s.rf Reg.DSP_STEAL_CTL.min_victim (c / 8)) ≤ (s.eng v).untimed.length && !(false && s.remoteFull (c / 8))) =
      some v := by
    rw [hv, Option.filter_some_pos]
    simpa [hx] using hmin
  rw [execStealRequest, hs, List.find?_cons_of_pos]
  · dsimp only
    rw [State.stealArrives_singleton hs, dropFirst_singleton_self, hvictim, Option.bind_some, State.takeOldest_cons hx]
    rfl
  · exact beq_self_eq_true e.val

/-- Whether an engine is free does not depend on how many entries were stolen. -/
theorem State.engFree_addf_stealCount (s : State) (h e : Nat) :
    (s.addf Reg.DSP_STEAL_COUNT.cluster h).engFree e = s.engFree e := by
  simp (disch := decide) only [State.engFree, State.eng, State.isMember, State.rb, State.blkState, State.clusterUp,
    State.poolRuns, State.poolOf, State.addf_engines, State.addf_sys, State.rf_addf_ne]

theorem State.dueEntry_addf_stealCount (s : State) (h e : Nat) :
    (s.addf Reg.DSP_STEAL_COUNT.cluster h).dueEntry e = s.dueEntry e := by
  simp (disch := decide) only [State.dueEntry, State.eng, State.entryDue, State.replica, State.addf_engines, State.addf_strata,
    State.addf_sys, State.rf_addf_ne]
  rfl

theorem State.poolOf_addf_stealCount (s : State) (h e : Nat) :
    (s.addf Reg.DSP_STEAL_COUNT.cluster h).poolOf e = s.poolOf e := s.rf_addf_ne (by decide) _ _ _ _ _

/-- A reply alone on its way starts its task on a thief that is still free. -/
theorem exec_stealReply_taken {e : EngineId} {c pool : Nat} {x : Entry}
    (hs : s.steals = [.reply e.val c pool (some x) false]) (hfree : s.engFree e.val = true) (hp : s.poolOf e.val = pool)
    (hdue : s.dueEntry e.val = none) :
    exec (.stealReply e) s = .next
      (({ s with steals := [] }.addf Reg.DSP_STEAL_COUNT.cluster (engHalf e.val)).takeEntry e.val x) := by
  change execStealReply e s = _
  have hcond : (({ s with steals := [] }.addf Reg.DSP_STEAL_COUNT.cluster (engHalf e.val)).engFree e.val &&
      ({ s with steals := [] }.addf Reg.DSP_STEAL_COUNT.cluster (engHalf e.val)).poolOf e.val == pool &&
      (({ s with steals := [] }.addf Reg.DSP_STEAL_COUNT.cluster (engHalf e.val)).dueEntry e.val).isNone) = true := by
    rw [State.engFree_addf_stealCount, State.poolOf_addf_stealCount, State.dueEntry_addf_stealCount]
    change (s.engFree e.val && s.poolOf e.val == pool && (s.dueEntry e.val).isNone) = true
    rw [hfree, hp, hdue]
    simp
  rw [execStealReply, hs]
  dsimp only
  rw [List.find?_cons_of_pos]
  · dsimp only
    rw [State.stealArrives_singleton hs, dropFirst_singleton_self]
    exact if_pos hcond
  · exact beq_self_eq_true e.val

end

theorem State.eng_updEng_ne (s : State) {e j : Nat} (h : j ≠ e) (f : Engine → Engine) : (s.updEng e f).eng j = s.eng j := by
  rw [State.eng_updEng, if_neg h]

/-- An update of one engine changes that engine alone. -/
theorem State.onlyEngine_updEng (s : State) (e : Nat) (f : Engine → Engine) : s.onlyEngine (s.updEng e f) e (f (s.eng e)) :=
  ⟨fun j => s.eng_updEng e j f, rfl⟩

/-- R83, R84: each stage of a search is one command. -/
theorem stealing : Claims.Stealing := by
  unfold Claims.Stealing
  refine ⟨fun e n s hm hst => ?request, fun e c pool v x xs s hs hv hx hmin => ?answer,
    fun e c pool x s hs hfree hp hdue => exec_stealReply_taken hs hfree hp hdue,
    fun e s h => ⟨_, exec_stealBackoffEnd_backoff h, s.onlyEngine_updEng _ _⟩⟩
  case request =>
    refine ⟨_, exec_stealAttempt_cluster hm hst, rfl, ?_, fun j hj => s.eng_updEng_ne hj (Engine.atStage _)⟩
    exact congrArg Engine.steal (s.eng_updEng_self e.val _)
  case answer =>
    refine ⟨_, exec_stealRequest_granted hs hv hx hmin, rfl, ?_, fun j hj => s.eng_updEng_ne hj _, rfl, rfl⟩
    exact congrArg Engine.deque (s.eng_updEng_self v _)

/-! ## States that treat memory alike -/

/-- The register fields that decode an address and check its page. -/
def accessFields : List Nat := [Reg.PRT_CXL_WIN.size_gib.id, Reg.PRT_CXL_WIN.base_gib.id, Reg.DMC_CFG.set.id,
  Reg.DMC_CFG.density.id, Reg.TIF_CFG.home.id, Reg.POT_CTL.armed.id, Reg.POT_CXL_PAGES.pages.id, Reg.POT_PORT.entry.id,
  Reg.POT_MEM_BASE.addr.id, Reg.POT_CXL_BASE.addr.id, Reg.POT_DRS_BASE.addr.id]

/-- The two states hold the same memory under the same keys, and decode and check an address alike. -/
structure State.sameAccess (s t : State) : Prop where
  mem : t.mem = s.mem
  keySlots : t.keySlots = s.keySlots
  keyLost : t.keyLost = s.keyLost
  potCache : t.potCache = s.potCache
  dmc : t.dmc = s.dmc
  s0 : t.sys.s0 = s.sys.s0
  s1 : t.sys.s1 = s.sys.s1
  lostHalf : t.sys.lostHalf = s.sys.lostHalf
  linkUp : t.sys.linkUp = s.sys.linkUp
  regs : ∀ f i j, f.id ∈ accessFields → t.rf f i j = s.rf f i j

namespace State.sameAccess
variable {s t u : State}

theorem trans (h : s.sameAccess t) (k : t.sameAccess u) : s.sameAccess u :=
  ⟨k.mem.trans h.mem, k.keySlots.trans h.keySlots, k.keyLost.trans h.keyLost, k.potCache.trans h.potCache, k.dmc.trans h.dmc,
    k.s0.trans h.s0, k.s1.trans h.s1, k.lostHalf.trans h.lostHalf, k.linkUp.trans h.linkUp,
    fun f i j hf => (k.regs f i j hf).trans (h.regs f i j hf)⟩

/-- What an event may change besides registers and memory decodes no address. -/
theorem of_evOnly (h : s.evOnly t) (hm : t.mem = s.mem) (hr : t.regs = s.regs) : s.sameAccess t := by
  obtain ⟨r, m, c, v, a, o, p, rfl⟩ := h
  exact ⟨hm, rfl, rfl, rfl, rfl, rfl, rfl, rfl, rfl, fun f i j _ => State.rf_congr _ s hr f i j⟩

theorem setf (s : State) {g : Fld} (hg : g.id ∉ accessFields) (i v j : Nat) : s.sameAccess (s.setf g i v j) :=
  ⟨rfl, rfl, rfl, rfl, rfl, rfl, rfl, rfl, rfl, fun f i' j' hf =>
    s.rf_setf_ne g f i v j i' j' (Or.inl fun e => hg (e ▸ hf))⟩

theorem addf (s : State) {g : Fld} (hg : g.id ∉ accessFields) (i j n : Nat) : s.sameAccess (s.addf g i j n) :=
  setf s hg i _ j

theorem updClt (s : State) (h : Nat) (f : Clt → Clt) : s.sameAccess (s.updClt h f) :=
  ⟨rfl, rfl, rfl, rfl, rfl, rfl, rfl, rfl, rfl, fun f i j _ => State.rf_congr _ s rfl f i j⟩

/-! ### The address map -/

theorem inCxlWin (h : s.sameAccess t) (x j a : Nat) : t.inCxlWin x j a = s.inCxlWin x j a := by
  unfold State.inCxlWin
  rw [h.regs _ _ _ (by decide), h.regs _ _ _ (by decide)]

theorem region (h : s.sameAccess t) (a : Nat) : t.region a = s.region a := by
  unfold State.region
  simp only [h.inCxlWin]
  rw [h.s0, h.s1]

theorem chanOf (h : s.sameAccess t) (x a : Nat) : t.chanOf x a = s.chanOf x a := by
  simp (disch := decide) only [State.chanOf, State.chanSet, h.s0, h.regs]

theorem blkHalf (h : s.sameAccess t) (cls inst : Nat) : t.blkHalf cls inst = s.blkHalf cls inst := by
  unfold State.blkHalf
  rw [h.regs _ _ _ (by decide)]

theorem homeHalf (h : s.sameAccess t) (a d : Nat) : t.homeHalf a d = s.homeHalf a d := by
  simp only [State.homeHalf, h.blkHalf, h.region]

theorem homeSlice (h : s.sameAccess t) (a d : Nat) : t.homeSlice a d = s.homeSlice a d := by
  simp only [State.homeSlice, h.homeHalf, h.region]

theorem chanFenced (h : s.sameAccess t) (c ca : Nat) : t.chanFenced c ca = s.chanFenced c ca := by
  unfold State.chanFenced State.rankBytes State.chan
  rw [h.dmc, h.regs _ _ _ (by decide)]

theorem dramFenced (h : s.sameAccess t) (x a : Nat) : t.dramFenced x a = s.dramFenced x a := by
  simp only [State.dramFenced, h.chanOf, h.chanFenced]

theorem cutOff (h : s.sameAccess t) (a : Nat) : t.cutOff a = s.cutOff a := by
  unfold State.cutOff
  rw [h.region, h.lostHalf, h.linkUp]
  simp only [h.blkHalf, h.dramFenced]

/-! ### Bytes under their keys -/

theorem tagOf (h : s.sameAccess t) (k : Option Nat) : t.tagOf k = s.tagOf k := by
  cases k with
  | none => rfl
  | some slot => simp only [State.tagOf, h.keySlots]

theorem tagLost (h : s.sameAccess t) (w a : Nat) : t.tagLost w a = s.tagLost w a := by
  simp only [State.tagLost, h.region, h.chanOf, h.keyLost]

theorem peekAs (h : s.sameAccess t) (w : Nat) : t.peekAs w = s.peekAs w := by
  funext a
  simp only [State.peekAs, State.byteUnder, h.mem, h.tagLost]

theorem peek (h : s.sameAccess t) : t.peek = s.peek := by
  funext a
  simp only [State.peek, h.mem, h.peekAs, h.tagOf]

/-! ### The Page Ownership Table -/

theorem potWalk (h : s.sameAccess t) (x table idx : Nat) : t.potWalk x table idx = s.potWalk x table idx := by
  simp (disch := decide) only [State.potWalk, h.peek, h.mem, h.regs]

theorem potEntry (h : s.sameAccess t) (x c table idx : Nat) : t.potEntry x c table idx = s.potEntry x c table idx := by
  simp (disch := decide) only [State.potEntry, h.potWalk, h.potCache, h.regs]

theorem checkerOf (h : s.sameAccess t) (q : Requester) (a : Nat) : t.checkerOf q a = s.checkerOf q a := by
  simp only [State.checkerOf, h.homeHalf, h.homeSlice]

theorem potIndex (h : s.sameAccess t) (a : Nat) : t.potIndex a = s.potIndex a := by
  simp only [State.potIndex, h.region]

theorem potCheck (h : s.sameAccess t) (q : Requester) (acc : Acc) (a : Nat) : t.potCheck q acc a = s.potCheck q acc a := by
  simp only [State.potCheck, h.region, h.potIndex, h.checkerOf, h.potEntry]

theorem keySlotFor (h : s.sameAccess t) (q : Requester) (a : Nat) : t.keySlotFor q a = s.keySlotFor q a := by
  simp only [State.keySlotFor, h.potIndex, h.checkerOf, h.potEntry]

/-! ### Writes -/

/-- The same bytes in memory keep two such states alike. -/
theorem withMem (h : s.sameAccess t) (m : Mem) : ({ s with mem := m } : State).sameAccess { t with mem := m } :=
  ⟨rfl, h.keySlots, h.keyLost, h.potCache, h.dmc, h.s0, h.s1, h.lostHalf, h.linkUp, fun f i j hf =>
    (h.regs f i j hf : t.rf f i j = s.rf f i j)⟩

theorem retag (h : s.sameAccess t) (w a : Nat) : (s.retag w a).sameAccess (t.retag w a) := by
  unfold State.retag
  rw [h.mem, h.tagLost, h.peekAs]
  dsimp only
  split
  · exact h
  · split
    · exact h.withMem _
    · exact h.withMem _

theorem retagAll (h : s.sameAccess t) (w a n : Nat) : (s.retagAll w a n).sameAccess (t.retagAll w a n) := by
  unfold State.retagAll
  split
  · exact h
  · exact List.foldl_rel h fun k _ u v huv => huv.retag w _

theorem pokeAs (h : s.sameAccess t) (w a : Nat) (bs : List Byte) : (s.pokeAs w a bs).sameAccess (t.pokeAs w a bs) := by
  have hr := h.retagAll w a bs.length
  unfold State.pokeAs
  dsimp only
  rw [hr.mem]
  exact hr.withMem _

theorem symm (h : s.sameAccess t) : t.sameAccess s :=
  ⟨h.mem.symm, h.keySlots.symm, h.keyLost.symm, h.potCache.symm, h.dmc.symm, h.s0.symm, h.s1.symm, h.lostHalf.symm,
    h.linkUp.symm, fun f i j hf => (h.regs f i j hf).symm⟩

/-- Giving up cached copies and filling L3 leaves memory alone. -/
theorem recached (s : State) (a n : Nat) : s.sameAccess ((s.dropRange a n).fillRange a n) :=
  of_evOnly (State.evOnly_trans (s.evOnly_dropRange a n) (State.evOnly_fillRange _ a n))
    ((State.fillRange_mem _ a n).trans (s.dropRange_mem a n)) ((State.regs_fillRange _ a n).trans (s.regs_dropRange a n))

/-- A write leaves the same memory behind in both. -/
theorem pokeHome (h : s.sameAccess t) (w a : Nat) (bs : List Byte) : (s.pokeHome w a bs).sameAccess (t.pokeHome w a bs) :=
  (((recached s a bs.length).symm.trans h).trans (recached t a bs.length)).pokeAs w a bs

end State.sameAccess

/-! ## A write within one page of DRAM -/

section
variable {s : State} {q : Requester} {a : Nat} {bs : List Byte}

theorem pagesOf_within_page {n : Nat} (hn : n ≠ 0) (hpage : a % 4096 + n ≤ 4096) : pagesOf a n = [a] := by
  have hlast : (a + n - 1) / 4096 - a / 4096 = 0 := by omega
  simp [pagesOf, hn, hlast]

theorem State.pokePages_within_page (hbs : bs ≠ []) (hpage : a % 4096 + bs.length ≤ 4096) (fuel : Nat) :
    s.pokePages q (fuel + 2) a bs = s.pokeHome (s.tagOf (s.keySlotFor q a)) a bs := by
  obtain ⟨b, bs, rfl⟩ := List.exists_cons_of_ne_nil hbs
  have hroom : (b :: bs).length ≤ 4096 - a % 4096 := by omega
  rw [State.pokePages, List.take_of_length_le hroom, List.drop_of_length_le hroom]
  · rfl
  · exact List.cons_ne_nil b bs

/-- Where no error waits in L3, such a write is one write at its home. -/
theorem State.writeMem_dram {h : Nat} (hreg : s.region a = .dram h) (hpot : (s.potCheck q .write a).ok = true)
    (hcut : s.cutOff a = none) (hdie : s.mem.onDie = []) (hbs : bs ≠ []) (hpage : a % 4096 + bs.length ≤ 4096) :
    s.writeMem q a bs = (.data [] false, s.pokeHome (s.tagOf (s.keySlotFor q a)) a bs) := by
  have hlen : bs.length ≠ 0 := fun e => hbs (List.eq_nil_of_length_eq_zero e)
  have hbad : s.firstBad q .write (pagesOf a bs.length) = none := by
    rw [pagesOf_within_page hlen hpage]
    simp [State.firstBad, hreg, hpot]
  have hmeet : s.meetPartial a bs.length = s := by simp [State.meetPartial, hdie]
  rw [State.writeMem, hbad]
  dsimp only
  rw [State.writeChecked, hcut]
  dsimp only
  rw [hreg]
  dsimp only
  rw [hmeet, State.pokePages_within_page hbs hpage]

end

/-! ## A record leaves its latch (R88) -/

/-- An engine whose task has not ended does nothing when its latch has room again. -/
theorem State.sltTryEnd_of_running {s : State} {e : Nat} (h : (s.eng e).stall.ends = none) : s.sltTryEnd e = s := by
  simp only [State.sltTryEnd, h]

/-- The engine's latch without the record that was released. -/
def Engine.withLatch (l : List Rec) (k : Engine) : Engine := { k with latch := l }

/-- A lane of a Collector holds these records. -/
def State.putLane (s : State) (h k : Nat) (l : List Rec) : State := s.updClt h fun c => c.setLane k l

theorem Clt.lane_setLane_self (c : Clt) (k : Nat) (l : List Rec) : (c.setLane k l).lane k = l := SMap.get_set_self _ _ _ _

theorem State.lane_putLane_self (s : State) (h k : Nat) (l : List Rec) : ((s.putLane h k l).cltOf h).lane k = l := by
  rw [State.putLane, State.cltOf_updClt, if_pos rfl, Clt.lane_setLane_self]

/-- The oldest record of a latch goes behind those of its lane and takes its stamp. -/
theorem exec_recordRelease_credited {e : EngineId} {r : Rec} {rest : List Rec} {s : State}
    (hl : (s.eng e.val).latch = r :: rest) (hrun : (s.eng e.val).stall.ends = none) (hlost : s.sys.lostHalf = none)
    (hon : s.blkOn Cls.clt (s.tiHome r.ti) = true)
    (hroom : laneFull ((s.cltOf (s.tiHome r.ti)).lane (engCluster e.val % 8)) r = false) :
    exec (.recordRelease e) s = .next ((s.putLane (s.tiHome r.ti) (engCluster e.val % 8)
      ((s.cltOf (s.tiHome r.ti)).lane (engCluster e.val % 8) ++
        [{ r with stamp := strataBits (s.replica (clusterStop (engCluster e.val))) }])).updEng e.val (Engine.withLatch rest)) := by
  change execRecordRelease e s = _
  rw [execRecordRelease, hl]
  dsimp only
  rw [hlost, Option.any_none, if_neg Bool.false_ne_true, hon, hroom, Bool.not_true, Bool.or_self, if_neg Bool.false_ne_true,
    State.sltTryEnd_of_running]
  · rfl
  · rw [State.eng_updEng_self]
    exact hrun

/-! ## A record is numbered and written (R91) -/

theorem length_leBytes (k n : Nat) : (leBytes k n).length = k := by
  induction k generalizing n with
  | zero => rfl
  | succ k ih => rw [leBytes, List.length_cons, ih]

/-- A record is 32 bytes (R106). -/
theorem Rec.length_bytes (r : Rec) (seq : Nat) : (r.bytes seq).length = 32 := by
  simp only [Rec.bytes, List.length_append, length_leBytes]

/-- The address of the ring's next entry. -/
def State.ringSlot (s : State) (ti : Nat) : Nat :=
  s.rf Reg.TIF_RING.base ti * 4096 + 32 * ((s.ti ti).nextSeq % s.ringSize ti)

/-- No entry of a ring crosses a page. -/
theorem State.ringSlot_within_page (s : State) (ti : Nat) : s.ringSlot ti % 4096 + 32 ≤ 4096 := by
  unfold State.ringSlot
  omega

/-- A written record is numbered, gives back its descriptor's place and is counted. -/
def State.recordCounted (s : State) (h seq : Nat) (r : Rec) : State :=
  (((s.updTi r.ti fun t => { t with nextSeq := (seq + 1) % 2 ^ 32 }).tiRelease r.ti).addf Reg.CLT_COUNT.accepted h).noteSign r

section
variable {s u : State} {h k : Nat} {r : Rec} {rest : List Rec}

/-- A live record whose write is taken is counted. -/
theorem State.acceptRec_written (hgen : r.gen = s.tiGen r.ti) (hon : s.blkState Cls.tif r.ti = 2)
    (hfail : (s.ti r.ti).failed = false) (hpoison : r.poison = false) (hledger : r.ledger = false)
    (hw : s.writeMem (s.tiReq r.ti) (s.ringSlot r.ti) (r.bytes (s.ti r.ti).nextSeq) = (.data [] false, u)) :
    s.acceptRec h r = u.recordCounted h (s.ti r.ti).nextSeq r := by
  have hkept : (if r.poison then r.poisoned else r) = r := if_neg (hpoison ▸ Bool.false_ne_true)
  rw [State.ringSlot] at hw
  rw [State.acceptRec]
  dsimp only
  rw [hgen, bne_self_eq_false, if_neg Bool.false_ne_true, hon, hfail, if_neg (by decide), hkept, hw]
  dsimp only
  rw [hledger, if_neg Bool.false_ne_true]
  rfl

theorem State.recordCounted_frame (s : State) (h seq : Nat) (r : Rec) :
    ∃ rg ts l, s.recordCounted h seq r = { s with regs := rg, tis := ts, ledger := l } := by
  dsimp only [State.recordCounted, State.noteSign, State.addf, State.setf, State.tiRelease, State.updTi]
  exact ⟨_, _, _, rfl⟩

theorem State.ti_recordCounted (s : State) (h seq : Nat) (r : Rec) :
    ((s.recordCounted h seq r).ti r.ti).nextSeq = (seq + 1) % 2 ^ 32 := by
  change ((s.updTi r.ti fun t => { t with nextSeq := (seq + 1) % 2 ^ 32 }).ti r.ti).nextSeq = _
  rw [State.ti_updTi, if_pos rfl]

theorem State.regs_noteSign (s : State) (r : Rec) : (s.noteSign r).regs = s.regs := rfl

theorem State.rf_recordCounted (s : State) (h seq : Nat) (r : Rec) :
    (s.recordCounted h seq r).rf Reg.CLT_COUNT.accepted h =
      min (2 ^ Reg.CLT_COUNT.accepted.width - 1) (s.rf Reg.CLT_COUNT.accepted h + 1) := by
  rw [State.recordCounted, State.rf_congr _ _ (State.regs_noteSign _ r), State.rf_addf_self, State.tiRelease,
    State.rf_setf_id _ _ _ _ _ _ _ _ (by decide), State.rf_congr _ s (s.updTi_regs _ _)]

/-- The Collector once the head of lane `k` is taken. -/
def Clt.headTaken (k : Nat) (rest : List Rec) (c : Clt) : Clt :=
  { c.setLane k rest with seen := k :: c.seen, taken := c.taken + 1 }

/-- The head of a lane is taken: the lane, its count and its longest delay. -/
def State.headTaken (s : State) (h k : Nat) (rest : List Rec) (delay : Nat) : State :=
  ((s.updClt h (Clt.headTaken k rest)).addf Reg.CLT_LANE.records h k).setf Reg.CLT_LANE.max_delay h delay k

theorem State.acceptHead_cons (hl : (s.cltOf h).lane k = r :: rest) :
    ∃ delay, s.acceptHead h k = ((s.headTaken h k rest delay).acceptRec h r).dspInsertAll h := by
  rw [State.acceptHead, hl]
  exact ⟨_, rfl⟩

theorem exec_recordAccept_pick {h : Half} (hon : s.blkOn Cls.clt h.val = true) (hk : (s.cltOf h.val).pick = some k)
    (hl : (s.cltOf h.val).lane k = r :: rest) :
    ∃ delay, exec (.recordAccept h) s =
      .next (((s.headTaken h.val k rest delay).acceptRec h.val r).dspInsertAll h.val) := by
  obtain ⟨delay, hd⟩ := State.acceptHead_cons hl
  refine ⟨delay, ?_⟩
  change execRecordAccept h s = _
  rw [execRecordAccept, hon, Bool.not_true, if_neg Bool.false_ne_true]
  dsimp only
  rw [hk]
  exact congrArg Host.Outcome.next hd

section
variable (s : State) (h k : Nat) (rest : List Rec) (delay : Nat)

theorem State.sameAccess_headTaken : s.sameAccess (s.headTaken h k rest delay) :=
  ((State.sameAccess.updClt s h _).trans (State.sameAccess.addf _ (by decide) _ _ _)).trans
    (State.sameAccess.setf _ (by decide) _ _ _)

/-- A field other than the lane's count and delay keeps its value. -/
theorem State.rf_headTaken {f : Fld} (hd : f.id ≠ Reg.CLT_LANE.max_delay.id) (hr : f.id ≠ Reg.CLT_LANE.records.id)
    (i j : Nat) : (s.headTaken h k rest delay).rf f i j = s.rf f i j :=
  (State.rf_setf_ne _ _ _ _ _ _ _ _ (Or.inl hd)).trans (State.rf_addf_ne _ hr _ _ _ _ _)

theorem State.lane_headTaken : ((s.headTaken h k rest delay).cltOf h).lane k = rest := by
  change ((s.updClt h (Clt.headTaken k rest)).cltOf h).lane k = rest
  rw [State.cltOf_updClt, if_pos rfl]
  exact Clt.lane_setLane_self _ _ _

end

/-- With no record of Dispatch waiting, nothing is inserted. -/
theorem State.cltOf_dspInsertAll (hrecs : (s.dspOf h).recs = []) : (s.dspInsertAll h).cltOf h = s.cltOf h := by
  rw [State.dspInsertAll, hrecs]
  split
  · rfl
  · exact SMap.get_set_self _ _ _ _

/-- Dispatch's records go into lanes: Dispatch and the Collector alone change. -/
theorem State.dspInsertAll_frame (s : State) (h : Nat) : ∃ c d, s.dspInsertAll h = { s with clt := c, dsp := d } := by
  unfold State.dspInsertAll
  split
  · exact ⟨s.clt, s.dsp, rfl⟩
  · exact ⟨_, _, rfl⟩

/-- What a counted record leaves behind when no record of Dispatch waits. -/
theorem State.recordCounted_spec {t : State} {seq : Nat} (hrecs : (u.dspOf h).recs = [])
    (e : t = (u.recordCounted h seq r).dspInsertAll h) :
    t.cltOf h = u.cltOf h ∧ (t.ti r.ti).nextSeq = (seq + 1) % 2 ^ 32 ∧ t.mem = u.mem ∧
    t.rf Reg.CLT_COUNT.accepted h = min (2 ^ Reg.CLT_COUNT.accepted.width - 1) (u.rf Reg.CLT_COUNT.accepted h + 1) ∧
    t.engines = u.engines ∧ t.custody = u.custody := by
  have hseq := u.ti_recordCounted h seq r
  have hcount := u.rf_recordCounted h seq r
  obtain ⟨rg, ts, l, hrec⟩ := u.recordCounted_frame h seq r
  rw [hrec] at e hseq hcount
  have hclt : t.cltOf h = u.cltOf h := by
    rw [e]
    exact State.cltOf_dspInsertAll hrecs
  obtain ⟨c, d, hins⟩ := State.dspInsertAll_frame { u with regs := rg, tis := ts, ledger := l } h
  rw [hins] at e
  rw [e] at hclt ⊢
  exact ⟨hclt, hseq, rfl, hcount, rfl, rfl⟩

/-- An event leaves the engines, key custody, Dispatch and the Collector alone. -/
theorem State.evOnly_dispatch (hu : s.evOnly u) :
    u.engines = s.engines ∧ u.custody = s.custody ∧ u.dsp = s.dsp ∧ u.clt = s.clt := by
  obtain ⟨rg, m, c, v, a, o, p, rfl⟩ := hu
  exact ⟨rfl, rfl, rfl, rfl⟩

end

/-- The ring of a live TI takes the record: the entry's address lies in DRAM that the TI may write. -/
structure State.ringTakes (s : State) (r : Rec) : Prop where
  gen : r.gen = s.tiGen r.ti
  on : s.blkState Cls.tif r.ti = 2
  failed : (s.ti r.ti).failed = false
  poison : r.poison = false
  ledger : r.ledger = false
  dram : ∃ x, s.region (s.ringSlot r.ti) = .dram x
  page : (s.potCheck (s.tiReq r.ti) .write (s.ringSlot r.ti)).ok = true
  reached : s.cutOff (s.ringSlot r.ti) = none
  onDie : s.mem.onDie = []

/-- The record's bytes written at the ring's next entry. -/
def State.ringWritten (s : State) (r : Rec) : State :=
  s.pokeHome (s.tagOf (s.keySlotFor (s.tiReq r.ti) (s.ringSlot r.ti))) (s.ringSlot r.ti) (r.bytes (s.ti r.ti).nextSeq)

theorem State.evOnly_ringWritten (s : State) (r : Rec) : s.evOnly (s.ringWritten r) := s.evOnly_pokeHome _ _ _

theorem State.rf_ringWritten (s : State) (r : Rec) (f : Fld) (i j : Nat) : (s.ringWritten r).rf f i j = s.rf f i j :=
  State.rf_congr _ s (s.regs_pokeHome _ _ _) f i j

theorem State.acceptRec_ringTakes {s : State} {r : Rec} (h : s.ringTakes r) (n : Nat) :
    s.acceptRec n r = (s.ringWritten r).recordCounted n (s.ti r.ti).nextSeq r := by
  obtain ⟨x, hdram⟩ := h.dram
  have hbs : r.bytes (s.ti r.ti).nextSeq ≠ [] := List.ne_nil_of_length_pos (by rw [Rec.length_bytes]; decide)
  have hpage : s.ringSlot r.ti % 4096 + (r.bytes (s.ti r.ti).nextSeq).length ≤ 4096 := by
    rw [Rec.length_bytes]
    exact s.ringSlot_within_page r.ti
  exact State.acceptRec_written h.gen h.on h.failed h.poison h.ledger
    (State.writeMem_dram hdram h.page h.reached h.onDie hbs hpage)

section
variable (s : State) (h k : Nat) (rest : List Rec) (delay : Nat) (r : Rec)

theorem State.ringSlot_headTaken (ti : Nat) : (s.headTaken h k rest delay).ringSlot ti = s.ringSlot ti := by
  simp (disch := decide) only [State.ringSlot, State.ringSize, State.rf_headTaken]
  rfl

theorem State.ti_headTaken (ti : Nat) : (s.headTaken h k rest delay).ti ti = s.ti ti := rfl

theorem State.tiReq_headTaken (ti : Nat) : (s.headTaken h k rest delay).tiReq ti = s.tiReq ti := by
  simp (disch := decide) only [State.tiReq, State.tiWorld, State.rf_headTaken]
  rfl

/-- Taking the head of a lane does not change where and whether the ring takes it. -/
theorem State.ringTakes_headTaken (ht : s.ringTakes r) : (s.headTaken h k rest delay).ringTakes r := by
  have hv := s.sameAccess_headTaken h k rest delay
  have hslot := s.ringSlot_headTaken h k rest delay r.ti
  refine { gen := ?gen, on := ?on, failed := ht.failed, poison := ht.poison, ledger := ht.ledger, dram := ?dram, page := ?page,
           reached := ?reached, onDie := ht.onDie }
  case gen =>
    rw [State.tiGen, s.rf_headTaken _ _ _ _ (by decide) (by decide)]
    exact ht.gen
  case on =>
    rw [State.blkState, s.rf_headTaken _ _ _ _ (by decide) (by decide)]
    exact ht.on
  case dram => rw [hslot, hv.region]; exact ht.dram
  case page => rw [hslot, State.tiReq_headTaken, hv.potCheck, ht.page]
  case reached => rw [hslot, hv.cutOff, ht.reached]

/-- The record's write leaves the same memory behind. -/
theorem State.mem_ringWritten_headTaken : ((s.headTaken h k rest delay).ringWritten r).mem = (s.ringWritten r).mem := by
  have hv := s.sameAccess_headTaken h k rest delay
  rw [State.ringWritten, State.ringSlot_headTaken, State.tiReq_headTaken, hv.keySlotFor, hv.tagOf]
  exact (hv.pokeHome _ _ _).mem

/-- What the acceptance of a head leaves behind when the ring takes its record. -/
theorem State.headAccepted_spec {t : State} (ht : s.ringTakes r) (hrecs : (s.dspOf h).recs = [])
    (e : t = ((s.headTaken h k rest delay).acceptRec h r).dspInsertAll h) :
    (t.cltOf h).lane k = rest ∧ (t.ti r.ti).nextSeq = ((s.ti r.ti).nextSeq + 1) % 2 ^ 32 ∧ t.mem = (s.ringWritten r).mem ∧
    t.rf Reg.CLT_COUNT.accepted h =
      min (2 ^ Reg.CLT_COUNT.accepted.width - 1) (s.rf Reg.CLT_COUNT.accepted h + 1) ∧
    t.engines = s.engines ∧ t.custody = s.custody := by
  rw [State.acceptRec_ringTakes (s.ringTakes_headTaken _ _ _ _ _ ht), State.ti_headTaken] at e
  obtain ⟨heng, hcust, hdsp, hclt⟩ := State.evOnly_dispatch ((s.headTaken h k rest delay).evOnly_ringWritten r)
  have hrecs' : (((s.headTaken h k rest delay).ringWritten r).dspOf h).recs = [] := by
    rw [State.dspOf, hdsp]
    exact hrecs
  obtain ⟨hlane, hseq, hmem, hcount, heng', hcust'⟩ := State.recordCounted_spec hrecs' e
  refine ⟨?_, hseq, hmem.trans (s.mem_ringWritten_headTaken _ _ _ _ _), hcount.trans ?_, heng'.trans heng,
    hcust'.trans hcust⟩
  · rw [hlane, State.cltOf, hclt]
    exact s.lane_headTaken h k rest delay
  · rw [State.rf_ringWritten, s.rf_headTaken _ _ _ _ (by decide) (by decide)]

end

/-! ## The tail and a full ring (R93, R95, R301, R324) -/

/-- A TI without a shadow line has none to rewrite. -/
theorem State.shadow_disabled {s : State} {ti : Nat} (h : s.rb Reg.TIF_SHADOW.enable ti = false) : s.shadow ti = s := by
  rw [State.shadow, h]
  rfl

theorem State.shadow_setf_disabled {s : State} {ti : Nat} (h : s.rb Reg.TIF_SHADOW.enable ti = false) {f : Fld}
    (hf : (Reg.TIF_SHADOW.enable.id == f.id) = false) (v : Nat) : (s.setf f ti v).shadow ti = s.setf f ti v := by
  refine State.shadow_disabled ?_
  rw [State.rb, State.rf_setf_id _ _ _ _ _ _ _ _ hf]
  exact h

/-- The event of an advancing tail writes what any event may write. -/
theorem State.evRegs_ringAdvance (s : State) (ti : Nat) : s.evRegs (s.ringAdvance ti) := by
  unfold State.ringAdvance
  dsimp only
  split
  · exact s.evRegs_addf _ _ _ _ (by decide)
  · split
    · split
      · exact s.evRegs_refl
      · have hput := s.evRegs_tiQueuePut ti (s.rf Reg.TIF_EVENT.intr_id ti) (s.rf Reg.TIF_RING_STATE.tail ti % 4096)
        generalize s.tiQueuePut ti (s.rf Reg.TIF_EVENT.intr_id ti) (s.rf Reg.TIF_RING_STATE.tail ti % 4096) = p at hput
        obtain ⟨u, fail⟩ := p
        cases fail with
        | none =>
          dsimp only
          split <;> exact hput
        | some fail => exact State.evRegs_trans hput (State.evRegs_queueEvent _ _ _ _)
    · exact s.evRegs_raiseId _ _ _ _

/-- A tail that advances within what the Collector has numbered is published. -/
theorem exec_tailPublish_ahead {ti : TiId} {tail : BitVec 32} {s : State}
    (hpos : 0 < (tail.toNat + 2 ^ 32 - s.rf Reg.TIF_RING_STATE.tail ti.val) % 2 ^ 32)
    (hle : (tail.toNat + 2 ^ 32 - s.rf Reg.TIF_RING_STATE.tail ti.val) % 2 ^ 32 ≤
      ((s.ti ti.val).nextSeq + 2 ^ 32 - s.rf Reg.TIF_RING_STATE.tail ti.val) % 2 ^ 32) :
    exec (.tailPublish ti tail) s =
      .next (((s.setf Reg.TIF_RING_STATE.tail ti.val tail.toNat).shadow ti.val).ringAdvance ti.val) := by
  change execTailPublish ti tail s = _
  rw [execTailPublish, if_neg]
  simp only [Bool.or_eq_true, decide_eq_true_eq]
  omega

theorem exec_ringStall_full {ti : TiId} {s : State} (hon : s.blkOn Cls.tif ti.val = true)
    (hst : s.rb Reg.TIF_STATUS.stalled ti.val = false) (hfull : s.ringFull ti.val = true) :
    exec (.ringStall ti) s = .next (((s.setf Reg.TIF_STATUS.stalled ti.val 1).shadow ti.val).raise 0x040
      (s.tiEvTo ti.val) (s.tiHome ti.val) ti.val) := by
  change execRingStall ti s = _
  rw [execRingStall, hon, hst, hfull]
  rfl

/-- R88, R91, R93, R95: each station of a record on its way to the ring is one command. -/
theorem recordsReachTheRing : Claims.RecordsReachTheRing := by
  unfold Claims.RecordsReachTheRing
  refine ⟨fun e r rest s hl hrun hlost hon hroom => ?release, fun h k a r rest s => ?accept,
    fun ti tail s hsh hpos hle => ?publish, fun ti s hon hst hfull hsh => ?stall⟩
  case release =>
    refine ⟨_, exec_recordRelease_credited hl hrun hlost hon hroom, ?_, ?_, fun j hj => ?_, ?_⟩
    · exact congrArg Engine.latch (State.eng_updEng_self _ _ _)
    · exact s.lane_putLane_self _ _ _
    · rw [State.eng_updEng_ne _ hj]
      rfl
    · dsimp only [State.updEng, State.putLane, State.updClt]
  case accept =>
    intro hon hk hl hrecs hgen hti hfail hpoison hledger ha hreg hpot hcut hdie
    subst ha
    have ht : s.ringTakes r := ⟨hgen, hti, hfail, hpoison, hledger, hreg.elim (⟨0, ·⟩) (⟨1, ·⟩), hpot, hcut, hdie⟩
    obtain ⟨delay, hexec⟩ := exec_recordAccept_pick hon hk hl
    obtain ⟨hlane, hseq, hmem, hcount, heng, hcust⟩ := s.headAccepted_spec h.val k rest delay r ht hrecs rfl
    exact ⟨_, hexec, hlane, hseq, hmem, r.length_bytes _, hcount, heng, hcust⟩
  case publish =>
    refine ⟨_, exec_tailPublish_ahead hpos hle, ?_⟩
    rw [State.shadow_setf_disabled hsh (by decide), State.evRegs_ringAdvance _ _ _ _ _ (by decide), State.rf_setf_self]
    exact Nat.mod_eq_of_lt tail.isLt
  case stall =>
    refine ⟨_, exec_ringStall_full hon hst hfull, ?_⟩
    rw [State.shadow_setf_disabled hsh (by decide), State.evRegs_raise _ _ _ _ _ _ _ _ (by decide), State.rf_setf_self]
    rfl

/-- Settles O14, from the stages of a search and the stations of a record. -/
theorem stealingAndRecords : Obligations.StealingAndRecords := by
  unfold Obligations.StealingAndRecords
  exact ⟨stealing, recordsReachTheRing⟩

end Sys2Proof.Machine
